-- ==== Sys2Proof/Word.lean ====
section
/-! DEFINITION. Words of the module's registers and packets, and the sparse table type. -/

namespace Sys2Proof

abbrev Byte := BitVec 8
abbrev W16 := BitVec 16
abbrev W32 := BitVec 32
abbrev W64 := BitVec 64

/-- A sparse table: keys strictly rising, an absent key stands for the table's default entry. -/
abbrev Tbl (α : Type) := List (Nat × α)

/-- The field [hi:lo] of a number read as bits (bit 0 least significant, 00_scope Notation). -/
def fld (w hi lo : Nat) : Nat := w / 2 ^ lo % 2 ^ (hi + 1 - lo)

/-- Bit `i` of a number. -/
def bitAt (w i : Nat) : Bool := w / 2 ^ i % 2 == 1

/-- A Boolean as a bit. -/
def b2n (b : Bool) : Nat := if b then 1 else 0

/-- A saturating count of `w` bits (R71: all counters saturate at their maximum value). -/
def satAdd (w c n : Nat) : Nat := min (c + n) (2 ^ w - 1)

/-- The two's complement reading of the low `w` bits. -/
def toSigned (w x : Nat) : Int :=
  let y := x % 2 ^ w
  if 2 * y < 2 ^ w then (y : Int) else (y : Int) - 2 ^ w

/-- The `w`-bit two's complement encoding of an integer. -/
def ofSigned (w : Nat) (x : Int) : Nat := (x % (2 ^ w : Int)).toNat

end Sys2Proof
end

