-- ==== Sys2Proof/Config.lean ====
section
/-! DEFINITION. What an implementation fixes, and the values the spec leaves open. A free value is a constant without a
body: no proof can see what it is (log entry 2). -/

namespace Sys2Proof.Config

/-! ## Counts of R9 -/

def stackCount : Nat := 40
def regionsPerStack : Nat := 16
def coresPerRegion : Nat := 160
def tilesPerCore : Nat := 16
def planesPerTile : Nat := 1408
def lStacks : Nat := 36
def lRegions : Nat := 15
def lCores : Nat := 152
def lPlanes : Nat := 1344
/-- Functions of the host port (R451) and tenants (R374). -/
def functions : Nat := 256
/-- Quoin ports (R428). -/
def ports : Nat := 36
/-- Sheets of 4 KiB in one HBM half of 18 GiB (R9, R25). -/
def halfSheets : Nat := 4718592

/-! ## Free values (log entry 2) -/

/-- A fresh value each time: random draws (R97, R271, R390), contents the spec leaves undefined, identity data. -/
opaque freeNat : Nat → Nat

/-- How far the code of a converter departs from the nominal transfer (R52): core, column index, fine mode, draw. -/
opaque codeDeviation : Nat → Nat → Bool → Nat → Int

/-- Cell levels of a plane whose contents are undefined (R197, R223, R369): plane, draw, cell. -/
opaque undefLevel : Nat → Nat → Nat → Nat

/-- 16-bit words of the stochastic rounding generator (R129): seed, position. -/
opaque srWord : Nat → Nat → Nat

/-- Check bits that SECDED writes for 64 data bits (R363, R368): the code is not given. -/
opaque checkBits : Nat → Nat

/-- Words of records whose contents a standard fixes (identity, attestation, PLDM; R235, R395, R461): record, index. -/
opaque recordWord : Nat → Nat → Nat

/-- Level to which the thermal alert output is asserted (R413): the polarity is not given. -/
opaque alertLevel : Bool

/-- SHA-256 (FIPS 180-4) of a list of words, as a 256-bit number (R395). -/
opaque sha256 : List Nat → Nat

/-- Sum of the readings of a region's two reference converters as they were last calibrated (R166, R167): the fixed charges are not given. -/
opaque refReading : Nat → Nat

/-- Plane writes that the headroom of a host-set power budget allows (R198): power budget in W. The spec gives no power of a write. -/
opaque writeSlots : Nat → Nat

/-- The tensor scale of an INT8 output (R108): forme slot, layer. It stands in a buffer descriptor whose layout the spec does not give; DESIGN
CHOICE (log entry 2): it is free, and one for each layer of a forme. -/
opaque tensorScale : Nat → Nat → BitVec 32

end Sys2Proof.Config
end

