-- ==== Sys2Proof/Syntax.lean ====
section
/-! DEFINITION. The commands the block takes (one constructor per row of spec/opcode_table.json) and the types of their
operands. Units, functions, tenants, ports and channels are numbers as the spec numbers them; times are time base values
in ns (R422). A verdict of a standard's algorithm (signature, digest, GCM tag, CRC of a wire) is an operand: the spec
names the standard and not its arithmetic (log entry 7). -/

namespace Sys2Proof

/-- The packet header of R231. `length` is in 16-byte units; `resZero` says that every reserved bit of the header, every
reserved parameter byte and every byte beyond the defined payload is zero (R232 step 6). -/
structure Hdr where
  fn : Nat
  tenant : Nat
  seq : Nat
  txn : Nat
  arch : Nat
  version : Nat
  length : Nat
  irq : Bool
  fence : Bool
  quiet : Bool
  resZero : Bool
deriving DecidableEq, Repr, Inhabited

/-- One entry of OPTION_SET: BAR0 offset, mask, value (R249). -/
structure OptEntry where
  off : Nat
  mask : W32
  val : W32
deriving DecidableEq, Repr

/-- TENANT_SET's parameters (R249). -/
structure TenantCfg where
  enable : Bool
  confidential : Bool
  tokenRate : Nat
  burst : Nat
  pageReserve : Nat
  pageCap : Nat
  reqReserve : Nat
  reqCap : Nat
deriving DecidableEq, Repr, Inhabited

/-- REQ_SUBMIT's parameters (R249). TEMPERATURE, TOP_P and REP_PENALTY are FP32 words. -/
structure ReqParams where
  slot : Nat
  pinned : Bool
  speculate : Bool
  web : Bool
  channel : Nat
  dclass : Nat
  maxTokens : Nat
  temperature : W32
  topK : Nat
  topP : W32
  repPenalty : W32
  promptTokens : Nat
  promptAddr : Nat
  ringAddr : Nat
  ringBytes : Nat
  deadline : Nat
deriving DecidableEq, Repr, Inhabited

/-- WEB_OPEN's parameters (R249, R309). -/
structure WebParams where
  channel : Nat
  cadence : Nat
  frameBytes : Nat
  fill : Nat
  dclass : Nat
  group : Nat
  silenceAddr : Nat
  destAddr : Nat
  destBytes : Nat
deriving DecidableEq, Repr, Inhabited

/-- Where a plate image lies (R249): host memory or a peer module, the address and the length. -/
structure ImageSource where
  source : Nat
  peer : Nat
  addr : Nat
  imageLen : Nat
deriving DecidableEq, Repr, Inhabited

/-- PLATE_LOAD's parameters (R249). -/
structure LoadParams extends ImageSource where
  inPlace : Bool
deriving DecidableEq, Repr, Inhabited

/-- The parameters of a command packet, by opcode (R249). -/
inductive CmdParams where
  | identify (resultAddr : Nat)
  | negotiate (level : Nat)
  | fenceReportGet (resultAddr maxBytes : Nat)
  | optionSet (entries : List OptEntry)
  | powerSet (budget : Nat)
  | resourceAlloc (kind index holder : Nat)
  | resourceFree (kind index : Nat)
  | resetWarm (key : Nat)
  | txnBegin (domain : Nat)
  | txnCommit
  | txnRollback
  | calSelf
  | calRecal (addr : Nat)
  | calDrift (addr : Nat)
  | testRun (addr : Nat)
  | fenceUnit (addr : Nat)
  | proofEnter
  | proofLeave
  | plateLoad (p : LoadParams)
  | plateRelease (imageId : Nat)
  | formeLoad (slot addr length : Nat)
  | plateSourceSet (imageId source peer addr : Nat)
  | plateDefectAccept (addr : Nat)
  | overlaySet (tenant slot layer addr length : Nat)
  | tenantSet (tenant : Nat) (cfg : TenantCfg)
  | keyLoad (tenant : Nat)
  | tenantRemove (tenant : Nat)
  | keyRegister (key : Nat)
  | attest (nonce resultAddr : Nat)
  | debugUnlock (scope : Nat)
  | reqSubmit (p : ReqParams)
  | reqCancel (rid : Nat)
  | webOpen (p : WebParams)
  | webClose (channel mode : Nat)
  | webGroup (group : Nat) (members : List Nat)
deriving DecidableEq, Repr, Inhabited

/-! ## Images -/

/-- A shard descriptor (R188). -/
structure Shard where
  module : Nat
  planes : Nat
  payOff : Nat
  payLen : Nat
  nonce : Nat
  digest : Nat
  resZero : Bool
deriving DecidableEq, Repr, Inhabited

/-- A plate image as the checks of R183-R193 read it: header fields, shard table, binding entries and the verdicts of the
security processor. `addrs` lists the logical plane address of each record of this module's shard with its twin address
(0 when it has none). -/
structure PlateImage where
  magic : Nat
  arch : Nat
  version : Nat
  dual : Bool
  resZero : Bool
  imageId : Nat
  plateVersion : Nat
  shardCount : Nat
  imageLen : Nat
  sigOff : Nat
  bindOff : Nat
  shardOff : Nat
  tableDigest : Nat
  totalPlanes : Nat
  keyId : Nat
  sigOk : Bool
  tableDigestOk : Bool
  shards : List Shard
  bindings : List Nat
  unwrapOk : Bool
  addrs : List (Nat × Nat)
deriving DecidableEq, Repr, Inhabited

/-- The range envelope of one data column (R91). -/
structure Envelope where
  codeMin : Nat
  codeMax : Nat
  meanLo : Int
  meanHi : Int
  varMax : Nat
deriving DecidableEq, Repr, Inhabited

/-- A plane record (R189). `levels` lists the non-zero intended levels by 264 × row + column; `skimW` the non-zero digital
weights by 256 × k + column. -/
structure PlaneRecord where
  addr : Nat
  twin : Nat
  wmode : Nat
  width : Nat
  zeroPoint : Nat
  skimValid : Nat
  skimRow : List Nat
  skimShift : List Nat
  resZero : Bool
  levels : Tbl Nat
  envelope : Tbl Envelope
  skimW : Tbl Int
deriving DecidableEq, Repr, Inhabited

/-- A reference copy in the audit window (R96): logical plane, weight mode, zero point, skim rows and their shifts; levels by
264 × row + column, digital weights by 256 × k + column. -/
structure AuditCopy where
  plane : Nat
  wmode : Nat
  zeroPoint : Nat
  skimValid : Nat
  skimShift : List Nat
  levels : Tbl Nat
  skimW : Tbl Int
deriving DecidableEq, Repr, Inhabited

/-- The scheduler record of a forme (R209, R258). -/
structure SchedRec where
  rowsMax : Nat
  chunk : Nat
  prefillCost : Nat
  outputKind : Nat
  scores : Nat
  draftMax : Nat
  vocab : Nat
  eosValid : Nat
  draftSlot : Nat
  eos : List Nat
deriving DecidableEq, Repr, Inhabited

/-- A layer record with its scales and biases (R210, R138). -/
structure LayerRec where
  layer : Nat
  maxRung : Nat
  baseRestrike : Nat
  inBits : Nat
  tau : Nat
  nearLimit : Nat
  tauA : Nat
  satLimit : Nat
  outFmt : Nat
  act : Nat
  stochastic : Bool
  biasValid : Bool
  clampValid : Bool
  clamp : W32
  outCols : Nat
  scaleOff : Nat
  biasOff : Nat
  firstGroup : Nat
  groupCount : Nat
  attn : Nat
  scales : List W32
  biases : List W32
deriving DecidableEq, Repr, Inhabited

/-- An accumulation descriptor (R119). -/
structure AccDesc where
  spillSlot : Nat
  destAddr : Nat
  park : Bool
  dest : Nat
  last : Bool
  resume : Bool
  add : Bool
  bank : Nat
  resZero : Bool
deriving DecidableEq, Repr, Inhabited

/-- One strobe entry of a group (R211). -/
structure StrobeEntry where
  plane : Nat
  run : Nat
  sheet : Nat
  segment : Nat
  skimSlot : Nat
deriving DecidableEq, Repr, Inhabited

/-- A strobe group (R211). -/
structure Group where
  acc : AccDesc
  layer : Nat
  expert : Nat
  router : Nat
  entries : List StrobeEntry
deriving DecidableEq, Repr, Inhabited

/-- A route record (R212). -/
structure Route where
  src : Nat
  dst : Nat
  srcOff : Nat
  dstOff : Nat
  sheets : Nat
  after : Nat
deriving DecidableEq, Repr, Inhabited

/-- An attention record (R213, R283). -/
structure AttnRec where
  kvHeads : Nat
  qPerKv : Nat
  headDim : Nat
  keyFmt : Nat
  valFmt : Nat
  queryFmt : Nat
  mask : Nat
  scale : W32
  window : Nat
  home : Nat
  layer : Nat
deriving DecidableEq, Repr, Inhabited

/-- A forme image (R208). `parts` lists (offset, length) of every part named by the header; `acc` the non-zero
ACC_GRANULES by 15 × logical stack + logical region. -/
structure FormeImage where
  magic : Nat
  arch : Nat
  version : Nat
  system : Bool
  draft : Bool
  resZero : Bool
  parts : List (Nat × Nat)
  sched : SchedRec
  web : Nat
  acc : Tbl Nat
  layers : List LayerRec
  attn : List AttnRec
  groups : List Group
  routes : List Route
  paramLen : Nat
deriving DecidableEq, Repr, Inhabited

/-- An overlay record (R207). -/
structure Overlay where
  magic : Nat
  version : Nat
  kinds : Nat
  rank : Nat
  alpha : W32
  n : Nat
  m : Nat
  aOff : Nat
  bOff : Nat
  steerOff : Nat
  scaleOff : Nat
  resZero : Bool
  /-- A and B, row after row, in BF16; the steering vector and the scales in FP32 -/
  a : List Nat
  b : List Nat
  steer : List W32
  scale : List W32
deriving DecidableEq, Repr, Inhabited

/-- What a host memory read brings back (R247), and the parts of a plate image in the order in which they are checked (R191). `ok` is the
security processor's verdict on the part: the LMS signature over the header, SHARD_TABLE_DIGEST, and the unwrapping of this module's
binding entry; `addrs` lists the logical plane address of each record of this module's shard with its twin address (log entry 83). -/
inductive ReadData where
  | prompt (words : List Nat)
  | forme (bytes : List Byte)
  | overlay (bytes : List Byte)
  | silence (words : List Nat)
  | header (bytes : List Byte)
  | signature (bytes : List Byte) (ok : Bool)
  | table (bytes : List Byte) (ok : Bool)
  | binding (bytes : List Byte) (ok : Bool) (addrs : List (Nat × Nat))
deriving DecidableEq, Repr, Inhabited

/-- A plane record fetched for the audit window: its bytes, and whether the checks of R195 held (none of it arrived when the source cannot
be read). -/
structure AuditFetch where
  bytes : List Byte
  ok : Bool
deriving DecidableEq, Repr, Inhabited

/-! ## Data path -/

/-- An input segment (R113): E8 codes and clamp counts of the eight blocks, skim values, elements of the blocks. -/
structure Segment where
  scales : List Nat
  clamps : List Nat
  skim : List Int
  skimClamps : Nat
  skimValid : Nat
  eSeg : Nat
  elems : List (List Int)
deriving DecidableEq, Repr, Inhabited

/-- What a region step sequencer starts for one tile product (R211): the plane of a run in an entry of a strobe group of a resident forme,
or its twin (R353), for the pass of a request. `rows` is how many rows of the segment the input vector reaches (R46); `ready` says when the
input has been fetched, `edge` is the scheduled edge of a simultaneous group, 0 for none (R57); `badSheet` is the core that produced the
input sheet when its CRC-32C fails as it is consumed (R302, R357). -/
structure StrobeCmd where
  slot : Nat
  group : Nat
  entry : Nat
  index : Nat
  twin : Bool
  rid : Option Nat
  rows : Nat
  ready : Nat
  edge : Nat
  badSheet : Option Nat
deriving DecidableEq, Repr, Inhabited

/-- One tile product with all that the forme, the ladder and the input sheet say of it (R56, R77, R94, R119, R140). -/
structure StrobeReq where
  core : Nat
  tile : Nat
  plane : Nat
  slot : Nat
  layer : Nat
  rid : Option Nat
  bits : Nat
  fine : Bool
  restrike : Nat
  rows : Nat
  seg : Segment
  skimSlot : Nat
  acc : AccDesc
  groupCores : Nat
  ready : Nat
  edge : Nat
  badSheet : Option Nat
  /-- the core's last product of its group (R211) -/
  last : Bool := false
deriving DecidableEq, Repr, Inhabited

/-- A partial entry (R124). -/
structure PartialEntry where
  mant : Int
  exp : Int
  sat : Bool
  resume : Bool
deriving DecidableEq, Repr, Inhabited

/-- Where the vector engine reads a partial entry (R125). -/
inductive EntrySrc where
  /-- an entry that DEST 2 left in a region's wide buffer, at an offset of the forme's own area -/
  | wide (region off : Nat)
  /-- an entry that DEST 1 left in a core's scratch -/
  | scratch (core off : Nat)
  /-- an entry that the activation class brought from another module -/
  | carried (entry : PartialEntry)
deriving DecidableEq, Repr, Inhabited

/-- One operation of a region vector engine (R125, R131, R271, R274, R286). -/
inductive VecOp where
  /-- add the partial entries of each output of a layer and apply the epilogue, with the overlay of the row's tenant; `input` is the
  layer's input, which an adapter takes (R125, R206); the result goes to `dest` of the scratch of core `core` (R130), `first` being the
  first output column -/
  | reduce (rid : Option Nat) (slot layer : Nat) (cols : List (List EntrySrc)) (input : List W32) (core dest first : Nat)
  /-- the k largest of a vector, or of the part of it that starts at position `offset`; with a router's forme slot and layer the row's
  experts are chosen (R131, R211) -/
  | topK (rid : Option Nat) (router : Option (Nat × Nat)) (k offset : Nat) (xs : List W32)
  /-- the merge of the lists that the parts of a vector gave (R131) -/
  | topMerge (rid : Option Nat) (router : Option (Nat × Nat)) (k : Nat) (parts : List (List (W32 × Nat)))
  /-- the DMA engine forms input segments of a layer from source values, for an entry of the layer's groups on core `core` (R111, R139) -/
  | form (rid : Option Nat) (slot group entry core : Nat) (vals : List W32)
  /-- sample one logit row of a request -/
  | sample (rid : Nat) (logits : List W32)
  /-- check a draft: the logit rows of the main model, and those of the draft from which its proposals are sampled (R274) -/
  | verify (rid : Nat) (main : List (List W32)) (draft : List (List W32))
  /-- attention of one query head at a position, over the rows of its pages and of staging; `badSheets` are the sheets whose
  CRC-32C differed from their check word, each with the core that produced it (R298, R302, R357) -/
  | attend (rid slot layer pos head : Nat) (query : List W32) (badSheets : List (Nat × Nat))
  /-- the scores of a score forme -/
  | scores (rid : Nat) (values : List W32)
  /-- form the row of a new position from the outputs of its key and value projections, head after head (R283, R284, R289) -/
  | stage (rid slot layer pos : Nat) (keys vals : List W32)
deriving DecidableEq, Repr, Inhabited

/-- The words a secondary core sends for one strobe pair or window (R353): group words in 1/2 LSB, signed group sums in
1/2 LSB, window sums in 1/4 LSB (empty when no window closes). -/
structure DualWords where
  sums : List Int
  signed : List Int
  window : List Int
deriving DecidableEq, Repr, Inhabited

/-- A flit (R430) with the verdicts of its CRC and GCM tag. -/
structure Flit where
  cls : Nat
  typ : Nat
  tkey : Bool
  last : Bool
  isNull : Bool
  nak : Bool
  src : Nat
  dest : Nat
  tenant : Nat
  epoch : Nat
  seq : Nat
  ack : Nat
  credits : List Nat
  ctr : Nat
  payload : List Byte
  crcOk : Bool
  tagOk : Bool
deriving DecidableEq, Repr, Inhabited

/-- An IDENT message (R429 step 2). -/
structure Ident where
  serial : Nat
  bindKey : Nat
  arch : Nat
  role : Nat
  port : Nat
  module : Nat
  uplink : Nat
  nonce : Nat
  peerLink : Bool
  assigned : Nat
deriving DecidableEq, Repr, Inhabited

/-- A temperature sensor (R408): a region channel (0x00 or 0x01), hub converter j's channel 0x02, an HBM4 stack. -/
inductive Sensor where
  | region (key chan : Nat)
  | hub (j : Nat)
  | hbm (h : Nat)
deriving DecidableEq, Repr, Inhabited

/-- One temperature result: the raw code in 1/1000 of full scale, the linearised reading in 1/16 °C, and for an HBM4
stack its catastrophic indication. -/
structure TempReading where
  sensor : Sensor
  raw : Nat
  value : Int
  cata : Bool
deriving DecidableEq, Repr, Inhabited

/-- One result of a sense conversion: converter (0-639 a region, 640 + j hub converter j), entry, code. -/
structure SenseResult where
  conv : Nat
  entry : Nat
  code : Int
deriving DecidableEq, Repr, Inhabited

/-- What CAL_SELF finds of one column converter (R158): its gain trim in steps of 0.02 %, its offset trim in 1/8 LSB, its DNL table in
quarter LSB by code (2,048 + code in fine mode; a code not listed needs no correction), and whether it fails its functional
self-check (R70). -/
structure TrimResult where
  conv : Nat
  gain : Nat
  offset : Int
  dnl : Tbl Int
  failed : Bool
deriving DecidableEq, Repr, Inhabited

/-- What CAL_SELF finds of a sense converter (unit 0-643) or of a region reference converter (unit 1,000 + 2 × region + 0 or 1): gain in
2^-18 of nominal above 1, offset in 1/64 LSB (R158, R162). -/
structure UnitTrim where
  unit : Nat
  gain : Int
  offset : Int
deriving DecidableEq, Repr, Inhabited

/-- What the trim searches of CAL_SELF found: of the column converters by core, and of the other converters. -/
structure TrimSearch where
  columns : Tbl (List TrimResult)
  units : List UnitTrim
deriving DecidableEq, Repr, Inhabited

/-- Targets of check-bit test mode (R368) are named by MOD_ECC_TEST registers; memories of R364. -/
inductive MemKind where
  | scratch | wideBuffer | hubSram | overlay | descriptors | hbm | mpMemory
deriving DecidableEq, Repr, Inhabited

/-- Where an error was found: memory, owner's address word (physical), line or sheet number, whether anyone owns or uses
it, the requests that consumed it, and whether its SRAM bank has no spare line left for it (R364). -/
structure MemError where
  mem : MemKind
  owner : Nat
  line : Nat
  inUse : Bool
  shared : Bool
  rids : List Nat
  noSpare : Bool
deriving DecidableEq, Repr, Inhabited

/-- A defect that programming leaves (R201): row, column index, level read. -/
structure Defect where
  row : Nat
  col : Nat
  level : Nat
  unstable : Bool
deriving DecidableEq, Repr, Inhabited

/-- A dual-clock queue by the overrun flag it sets (R419, R420): the hub's five kinds and a region's three. -/
inductive CdcQueue where
  | aon | quoin | pcie | hbm | hubRegion
  | regionHub (region : Nat) | coreFabric (region : Nat) | converter (region : Nat)
deriving DecidableEq, Repr, Inhabited

/-- What the world outside tells the housekeeping tick and the boundary. -/
structure TickInput where
  /-- dual-clock queues that overran since the last tick, with the words each discarded (R420) -/
  overruns : List (CdcQueue × Nat)
  /-- band-gap of each powered stack against the hub's, in µV (R152) -/
  bandgap : List (Nat × Int)
  /-- management processors that answered their heartbeat word (R400) -/
  alive : List Nat
  /-- ring headers read back: ring address and the host's index (R280) -/
  ringHeads : List (Nat × Nat)
  /-- MP0's own tick work completed -/
  done : Bool
  /-- mean module input power of the last 1 ms, in W (R396) -/
  power : Nat
  /-- mean over the last whole 100 ms window of the time base, in W (R389) -/
  power100 : Nat
  /-- how much power limiting has lengthened the step that ends here, in 1/65536 of its length without it (R415) -/
  limited : Nat
deriving DecidableEq, Repr, Inhabited

/-- A clock domain crossing (R421). -/
inductive Crossing where
  | always | pci (fn : Nat) | link (port : Nat) | stack (s : Nat) | hbmHalf (s : Nat)
deriving DecidableEq, Repr, Inhabited

/-- SPDM and IDE_KM steps on the DOE mailbox (R458, R459). -/
inductive SpdmMsg where
  | session
  | ideKeys (fn : Nat)
  | ideRefresh (fn : Nat)
  | ideStop (fn : Nat)
  | tdiLock (fn : Nat)
  | tdiRun (fn : Nat)
deriving DecidableEq, Repr, Inhabited

/-- A PLDM request (R461). -/
inductive PldmReq where
  | sensor (id : Nat)
  | fru
  | getPdr
deriving DecidableEq, Repr, Inhabited

/-- Steps of PLDM for Firmware Update (R393). -/
inductive FwUpdate where
  | request
  | data (bytes : Nat)
  | finish (version svn : Nat) (sigOk : Bool)
  | cancel
deriving DecidableEq, Repr, Inhabited

/-- The fields of a SEAL_REPORT (R441). -/
structure SealReport where
  module : Nat
  step : Nat
  withheld : List Nat
  freeSheets : Nat
deriving DecidableEq, Repr, Inhabited

/-- One row of a system forme as BOUNDARY_NAME lists it (R441, R442): the request's identifier, forme slot, tenant, positions already
done, positions of the row, those of the draft. -/
structure SysRow where
  rid : Nat
  slot : Nat
  tenant : Nat
  done : Nat
  n : Nat
  draft : Nat
  final : Bool
  /-- the manager has granted the row its rungs (R146) -/
  granted : Bool
deriving DecidableEq, Repr, Inhabited

/-- A debug token (R390): its fields and the signature's verdict. -/
structure DebugToken where
  magic : Nat
  version : Nat
  scope : Nat
  serial : Nat
  challenge : Nat
  sigLen : Nat
  resZero : Bool
  sigOk : Bool
deriving DecidableEq, Repr, Inhabited

/-! ## The commands -/

/-- One constructor per row of spec/opcode_table.json. `t` is the time base value at which it happens. -/
inductive Instr where
  -- command packets started by firmware (R249)
  | identify (h : Hdr) (resultAddr : Nat) (t : Nat)
  | negotiate (h : Hdr) (level : Nat) (t : Nat)
  | fenceReportGet (h : Hdr) (resultAddr : Nat) (maxBytes : Nat) (t : Nat)
  | optionSet (h : Hdr) (entries : List OptEntry) (t : Nat)
  | powerSet (h : Hdr) (budget : Nat) (t : Nat)
  | resourceAlloc (h : Hdr) (kind : Nat) (index : Nat) (holder : Nat) (t : Nat)
  | resourceFree (h : Hdr) (kind : Nat) (index : Nat) (t : Nat)
  | resetWarm (h : Hdr) (key : Nat) (t : Nat)
  | txnBegin (h : Hdr) (domain : Nat) (t : Nat)
  | txnCommit (h : Hdr) (t : Nat)
  | txnRollback (h : Hdr) (t : Nat)
  | calSelf (h : Hdr) (t : Nat)
  | calRecal (h : Hdr) (addr : Nat) (t : Nat)
  | calDrift (h : Hdr) (addr : Nat) (t : Nat)
  | testRun (h : Hdr) (addr : Nat) (t : Nat)
  | fenceUnit (h : Hdr) (addr : Nat) (t : Nat)
  | proofEnter (h : Hdr) (t : Nat)
  | proofLeave (h : Hdr) (t : Nat)
  | plateLoad (h : Hdr) (p : ImageSource) (inPlace : Bool) (t : Nat)
  | plateRelease (h : Hdr) (imageId : Nat) (t : Nat)
  | formeLoad (h : Hdr) (slot : Nat) (addr : Nat) (length : Nat) (t : Nat)
  | plateSourceSet (h : Hdr) (imageId : Nat) (source : Nat) (peer : Nat) (addr : Nat) (t : Nat)
  | plateDefectAccept (h : Hdr) (addr : Nat) (t : Nat)
  | overlaySet (h : Hdr) (tenant : Nat) (slot : Nat) (layer : Nat) (addr : Nat) (length : Nat) (t : Nat)
  | tenantSet (h : Hdr) (tenant : Nat) (cfg : TenantCfg) (t : Nat)
  /-- `unwrapped`: the key epoch derived from K_t, none when the unwrapping fails (R377, R378) -/
  | keyLoad (h : Hdr) (tenant : Nat) (unwrapped : Option Nat) (t : Nat)
  | tenantRemove (h : Hdr) (tenant : Nat) (t : Nat)
  | keyRegister (h : Hdr) (key : Nat) (t : Nat)
  | attest (h : Hdr) (nonce : Nat) (resultAddr : Nat) (t : Nat)
  | debugUnlock (h : Hdr) (token : DebugToken) (t : Nat)
  | reqSubmit (h : Hdr) (p : ReqParams) (t : Nat)
  | reqCancel (h : Hdr) (rid : Nat) (t : Nat)
  | webOpen (h : Hdr) (p : WebParams) (t : Nat)
  | webClose (h : Hdr) (channel : Nat) (mode : Nat) (t : Nat)
  | webGroup (h : Hdr) (group : Nat) (members : List Nat) (t : Nat)
  -- the galley and single registers
  | galleyWrite (fn : Nat) (off : Nat) (bytes : List Byte) (t : Nat)
  | packetTake (t : Nat)
  | galleyReset (fn : Nat) (value : W32) (t : Nat)
  | replyHeadWrite (fn : Nat) (value : W32) (t : Nat)
  | registerWrite (fn : Nat) (off : Nat) (size : Nat) (value : Nat) (t : Nat)
  | timeLoRead (fn : Nat) (t : Nat)
  | etArm (timer : Nat) (hi : W32) (t : Nat)
  | tileEngage (core : Nat) (tile : Nat) (value : W32) (t : Nat)
  | eccRawWrite (value : W32) (t : Nat)
  | eccRawRead (value : W32) (t : Nat)
  | eccDecodedRead (value : W32) (t : Nat)
  | retrain (port : Nat) (value : W32) (t : Nat)
  | rstCountClear (value : W32) (t : Nat)
  -- firmware's clock-driven work
  | housekeepingTick (inp : TickInput) (t : Nat)
  | watchdogExpiry (t : Nat)
  | ageCommit (t : Nat)
  | txnExpired (domain : Nat) (t : Nat)
  | fwSensePass (temps : List TempReading) (results : List SenseResult) (t : Nat)
  | thermMonitorPass (temps : List TempReading) (results : List SenseResult) (t : Nat)
  | hostSensePass (conv : Nat) (edge : Nat) (results : List SenseResult) (t : Nat)
  | etEdge (timer : Nat) (t : Nat)
  -- the data path
  | strobe (r : StrobeCmd) (t : Nat)
  | planeSwitch (core : Nat) (tile : Nat) (plane : Nat) (t : Nat)
  | skimProduct (core : Nat) (slotFilling : Bool) (t : Nat)
  | bankFinalise (core : Nat) (bank : Nat) (t : Nat)
  | splitReduction (region : Nat) (op : VecOp) (t : Nat)
  | routeTransfer (slot : Nat) (index : Nat) (t : Nat)
  | dualCompare (primary : Nat) (secondary : Nat) (tile : Nat) (words : DualWords) (t : Nat)
  | dualWordsTimeout (primary : Nat) (secondary : Nat) (t : Nat)
  | monitorCompare (core : Nat) (t : Nat)
  | monitorAbandon (core : Nat) (t : Nat)
  | auditCompare (core : Nat) (slot : Nat) (t : Nat)
  | auditTimeout (core : Nat) (slot : Nat) (t : Nat)
  /-- the records of the next planes of the walk, in its order, none from a source that cannot be read; and for each whether its checks held -/
  | auditRotation (fetched : List (Option (List Byte))) (checks : List Bool) (t : Nat)
  -- steps
  | checkSummary (region : Nat) (gap : Bool) (t : Nat)
  | stepSeal (t : Nat)
  | stepBoundary (inp : TickInput) (t : Nat)
  | pinLimit (t : Nat)
  | testDue (core : Nat) (t : Nat)
  | testOverdue (core : Nat) (t : Nat)
  | coreTest (core : Nat) (t : Nat)
  -- calibration
  /-- a tile by the fields of its address (R18); `refs`: the sum of the readings of the region's two reference converters (R166) -/
  | recalSlice (stack : Nat) (region : Nat) (core : Nat) (tile : Nat) (refs : Nat) (t : Nat)
  | driftPassStart (region : Nat) (t : Nat)
  /-- a tile by the fields of its address (R18), and its planes in the order of the slice: the first, and those after it -/
  | driftSlice (stack : Nat) (region : Nat) (core : Nat) (tile : Nat) (plane : Nat) (more : List Nat) (t : Nat)
  /-- what the trim searches found, and the band-gap readings of the first phase (R158) -/
  | calSelfComplete (results : TrimSearch) (bandgap : List (Nat × Int)) (t : Nat)
  -- plates
  /-- a decrypted record; the verdicts of the GCM tag and of DIGEST count with the last record of a shard, and with each record of a refill,
  with which `keyOk`, the unwrapping of the shard's key, counts too (R195) -/
  | plateRecord (bytes : List Byte) (tagOk : Bool) (digestOk : Bool) (keyOk : Bool) (t : Nat)
  | imageReadTimeout (t : Nat)
  | planeProgram (plane : Nat) (defects : List Defect) (t : Nat)
  /-- `rows` whole rows from `row` on -/
  | writeBurst (plane : Nat) (row : Nat) (rows : Nat) (t : Nat)
  | genRecordWritten (t : Nat)
  | drainTimeout (t : Nat)
  /-- the decrypted bytes of the run, of 64 records at most -/
  | inplaceRun (bytes : List Byte) (t : Nat)
  -- stored data and tenants
  | ueConsumed (e : MemError) (t : Nat)
  | patrolRead (correctable : List MemError) (uncorrectable : List MemError) (t : Nat)
  | sheetOverwrite (sheet : Nat) (t : Nat)
  | tenantKeyZeroise (tenant : Nat) (t : Nat)
  | tdiLeaveRun (fn : Nat) (t : Nat)
  | webSlot (channel : Nat) (t : Nat)
  -- quoin links
  | flitReceive (port : Nat) (f : Flit) (t : Nat)
  | flitAckTimeout (port : Nat) (t : Nat)
  | portSilence (port : Nat) (t : Nat)
  | laneLockLoss (port : Nat) (lane : Nat) (t : Nat)
  | portTrain (port : Nat) (lanes : Nat) (ok : Bool) (t : Nat)
  | ident (port : Nat) (m : Ident) (t : Nat)
  | keyx (port : Nat) (slot : Nat) (value : Option Nat) (t : Nat)
  | timeSyncSend (port : Nat) (t : Nat)
  | timeSync (port : Nat) (t1 : Nat) (t : Nat)
  | timeReply (port : Nat) (t1 : Int) (t2 : Int) (t3 : Int) (t4 : Int) (workerOffset : Int) (t : Nat)
  | lockLoss (t : Nat)
  | boundaryName (step : Nat) (tB : Nat) (owner : Nat) (withheld : List Nat) (rows : List SysRow) (t : Nat)
  | sealReport (r : SealReport) (t : Nat)
  | sealTimeout (t : Nat)
  | cut (step : Nat) (t : Nat)
  | commitPrep (txn : Nat) (t : Nat)
  | commitReady (module : Nat) (epoch : Nat) (t : Nat)
  | resetReq (port : Nat) (dest : Nat) (t : Nat)
  | fence (module : Nat) (cause : Nat) (t : Nat)
  | routes (table : List (Nat × Nat)) (t : Nat)
  | qlRstreq (port : Nat) (lowNs : Nat) (t : Nat)
  | qlFault (port : Nat) (t : Nat)
  -- resets and thermal
  | por (t : Nat)
  | perst (t : Nat)
  | modWarmN (lowNs : Nat) (t : Nat)
  | resetRelease (width : Nat) (rate : Nat) (t : Nat)
  | optionLoadComplete (fuseOk : Bool) (t : Nat)
  | vbkLoss (t : Nat)
  | thermalStop (r : TempReading) (t : Nat)
  | hardCut (t : Nat)
  | thermLatchClear (byPin : Bool) (lowNs : Nat) (t : Nat)
  | crossingReset (c : Crossing) (answered : Bool) (t : Nat)
  -- PCI Express and sideband
  | hotReset (width : Nat) (rate : Nat) (t : Nat)
  | flrPf (t : Nat)
  | flrVf (fn : Nat) (t : Nat)
  | d3hotEntry (fn : Nat) (t : Nat)
  | d0Return (fn : Nat) (t : Nat)
  | spdmMessage (m : SpdmMsg) (t : Nat)
  | mctpSetEndpointId (eid : Nat) (t : Nat)
  | pldmRequest (r : PldmReq) (t : Nat)
  | pldmSetPowerBudget (budget : Nat) (t : Nat)
  | pldmFirmwareUpdate (u : FwUpdate) (t : Nat)
  -- completions and delays
  | hostReadComplete (fn : Nat) (seq : Nat) (d : ReadData) (t : Nat)
  | hostAccessTimeout (fn : Nat) (seq : Nat) (t : Nat)
  | coreTestDone (core : Nat) (pass : Bool) (convFault : Option Nat) (t : Nat)
  | keyxTimeout (port : Nat) (slot : Nat) (t : Nat)
  | msixUnmask (fn : Nat) (entry : Option Nat) (t : Nat)
  | warmResetDelayEnd (t : Nat)
  | extSyncPulse (t : Nat)
deriving DecidableEq, Repr

end Sys2Proof
end

