-- ==== Sys2Proof/Machine/State.lean ====
section
/-! DEFINITION. The machine's state as plain data, its faults and refusals, and the state right after reset. A sparse
table lists only entries that differ from their reset value. Docstrings cite the rule that names the state. -/

namespace Sys2Proof.Machine

/-- A word held in three copies (R366). -/
structure Tri (α : Type) where
  a : α
  b : α
  c : α
deriving DecidableEq, Repr

/-- A record kept in two flash copies that are written in turn (R157, R216, R364, R392, R437); `turn` is the copy the next
write goes to, `none` a copy whose CRC fails. -/
structure TwoCopies (α : Type) where
  a : Option α
  b : Option α
  turn : Bool
deriving DecidableEq, Repr

/-- Status codes (R250). -/
inductive Status where
  | ok | opcodeUnknown | lengthInvalid | reservedNonzero | versionUnsupported | notNegotiated | functionDenied
  | tenantInvalid | addressInvalid | paramInvalid | registerInvalid | hostTimeout | txnNotOpen | txnBusy | txnExpired
  | optionsUnloaded | calRequired | dataPlaneActive | confidentialActive | plateBusy | plateInvalid | publisherUnknown
  | plateSignature | plateRollback | plateNotBound | noStandby | sourceTimeout | plateIncomplete | formeInvalid
  | overlayFull | plateDefects | resourceBusy | resourceLost | reqTableFull | channelBusy | requestUnknown | keySlotBusy
  | debugDenied | keyInvalid | cancelled | plateChanged | deadlineExpired
deriving DecidableEq, Repr, Inhabited

/-- Report causes (R252). -/
inductive Cause where
  | none | checksum | overrange | skimSlot | monitorAlarm | auditMismatch | selfTest | calReject | trimLost | hubRefSuspect
  | refillSource | descriptor | converter | host | sensor | bandGap
deriving DecidableEq, Repr, Inhabited

/-- Flags of the condition word (R251), one Boolean per bit in bit order. -/
structure Cond where
  failed : Bool := false
  precision : Bool := false
  sat : Bool := false
  nearMiss : Bool := false
  fallbackDenied : Bool := false
  ladderEnd : Bool := false
  nanInput : Bool := false
  accOrphan : Bool := false
  monitorAlarm : Bool := false
  auditMismatch : Bool := false
  emptyAttention : Bool := false
  pagesDropped : Bool := false
  restarted : Bool := false
  draftOff : Bool := false
  fillEmitted : Bool := false
  cmdSlow : Bool := false
  galleyOverrun : Bool := false
  galleyHeader : Bool := false
  unsolicited : Bool := false
deriving DecidableEq, Repr, Inhabited

/-- A reply (R236). -/
structure Reply where
  fn : Nat
  seq : Nat
  opcode : Nat
  status : Status
  cond : Cond
  txn : Nat
  source : Nat
  r0 : Nat
  r1 : Nat
  irq : Bool
  /-- when its command was taken; none for an unsolicited reply (R246) -/
  taken : Option Nat := none
deriving DecidableEq, Repr, Inhabited

/-- A unit of the hierarchy by physical numbers (R9). -/
inductive UnitId where
  | module
  | stack (s : Nat)
  | region (s g : Nat)
  | core (s g c : Nat)
  | tile (s g c t : Nat)
  | plane (s g c t p : Nat)
deriving DecidableEq, Repr, Inhabited

/-- Output pins (R401, R469). -/
inductive Pin where
  | modRst | fanPwm | feedEn | extSync | gpio (n : Nat) | ledPwr | ledFault | smbAlert
  | qlFault (p : Nat) | qlRstreq (p : Nat) | regulators | arrayDrivers | planeSelects
deriving DecidableEq, Repr, Inhabited

/-- What the block sends outwards, in the order it sends it. -/
inductive Out where
  /-- a posted write to host memory by a function -/
  | hostWrite (fn addr : Nat) (bytes : List Byte)
  /-- a host memory read request by a command -/
  | hostRead (fn addr len : Nat)
  /-- an MSI-X message -/
  | msix (fn vector : Nat)
  /-- a flit sent on a port -/
  | flit (port : Nat) (f : Flit)
  /-- a control message sent on a port: type of R441, destination module, words -/
  | control (port typ dest : Nat) (words : List Nat)
  /-- a pin driven to a level -/
  | pin (p : Pin) (level : Bool)
  /-- launch of a step at a region (R260) -/
  | launch (region step : Nat)
  /-- a record request to a plate source: host address or peer module -/
  | sourceRead (peer addr : Nat)
  /-- the value a register read returns -/
  | readValue (fn : Nat) (value : W32)
  /-- an answer on the sideband or the DOE mailbox -/
  | sideband (words : List Nat)
  /-- firmware's report to the host of a layer at the end of its ladder: forme slot, layer (R144) -/
  | layerReport (slot layer : Nat)
deriving DecidableEq, Repr, Inhabited

/-- Reset sources (R397), in code order. -/
inductive Src where
  | por | perst | warm | wdt | fatal | link | therm
deriving DecidableEq, Repr, Inhabited

/-- Where the module stands between reset and service (R398-R407, R412); `noFirmware` when no firmware slot verifies (R393). -/
inductive Phase where
  | inReset | loading | service | limp | latched | noFirmware
deriving DecidableEq, Repr, Inhabited

/-! ## Time -/

/-- An event timer (R426). `next` is the time base value of its next edge, `none` when it gives none. -/
structure Timer where
  en : Bool := false
  periodic : Bool := false
  period : W32 := 0
  cmpLo : W32 := 0
  cmpHi : W32 := 0
  late : Bool := false
  edges : Nat := 0
  next : Option Nat := none
deriving DecidableEq, Repr, Inhabited

/-- Time base and clock-domain crossings (R420-R427). -/
structure TimeBlk where
  base : Nat := 0
  valid : Bool := false
  locked : Bool := false
  stepped : Bool := false
  slew : Int := 0
  offset : Int := 0
  latch : Tbl W32 := []
  lastReply : Nat := 0
  timers : Tbl Timer := []
  stuck : Bool := false
  ovrAon : Bool := false
  ovrQl : Bool := false
  ovrPci : Bool := false
  ovrHbm : Bool := false
  ovrRgn : Bool := false
  ovrCount : Nat := 0
  resetting : List Crossing := []
deriving DecidableEq, Repr, Inhabited

/-! ## Reset, always-on domain, flash and fuses -/

structure RstBlk where
  phase : Phase
  /-- sources that joined the reset in progress (R399) -/
  sources : List Src
  started : Nat
  /-- when the WARM reset of an accepted RESET_WARM starts (R249) -/
  warmAt : Option Nat
  loadDone : Bool
  /-- the start in progress follows a cold reset -/
  cold : Bool
  /-- no option load has completed since the last cold reset -/
  fresh : Bool
  /-- MP0 started at (R243), last serviced the watchdog at (R400) -/
  mpStart : Nat
  lastService : Nat
  lastTick : Nat
  /-- consecutive housekeeping ticks each of MP1-MP3 has missed (R400) -/
  missed : Tbl Nat
  /-- CAL_SELF has completed since cold reset (R160) -/
  calDone : Bool
  /-- EXT_SYNC's last pulse (R469) -/
  lastSync : Nat
  /-- the last hourly commit of the ages (R171) -/
  lastAge : Nat
deriving DecidableEq, Repr

/-- The always-on domain (R398, R402, R416). -/
structure AonBlk where
  counts : Tri (List Nat)
  wdtMp : Nat
  limp : Bool
  vbkLost : Bool
  sources : List Src
  rstCfg : W32
  totalAborts : Nat
  consec : Nat
  errorLog : List MemError
  thermLatch : Bool
  latchAt : Nat
  latchPin : Option Nat
  thermCause : Nat
  thermHard : Bool
  thermReading : Int
  thermAddr : Nat
  /-- ns without input power, none after a loss of VBK (R171) -/
  unpowered : Option Nat
  powerBudget : Nat
deriving DecidableEq, Repr

/-- A plane descriptor (R39, R72). `xmap` lists (spare n, column index); `width` is the code width of the plate on it (R137, R189). -/
structure PlaneDesc where
  state : Nat
  wmode : Nat
  width : Nat
  zeroPoint : Nat
  skimValid : Nat
  skimRow : List Nat
  xmap : Tbl Nat
deriving DecidableEq, Repr, Inhabited

/-- A stuck-list entry (R81). -/
structure Stuck where
  plane : Nat
  row : Nat
  col : Nat
  intended : Nat
  stuck : Nat
deriving DecidableEq, Repr, Inhabited

/-- A plate-table entry (R195): identity, this module's shard descriptor with its index, source, modules with shards, the logical plane keys it
lies on in the order of its records, and (plane, twin) pairs. -/
structure Plate where
  imageId : Nat
  version : Nat
  keyId : Nat
  dual : Bool
  shard : Shard
  source : Nat
  peer : Nat
  addr : Nat
  modules : List Nat
  planes : List Nat
  twins : Tbl Nat
deriving DecidableEq, Repr, Inhabited

/-- The plate generation record (R216): the plate table, the plane descriptors with their plane maps, stuck lists by tile (R403), and
the planes an in-place change left in PROGRAMMING (R222). -/
structure GenRecord where
  epoch : Nat
  plates : List Plate
  descs : Tbl PlaneDesc
  planeMap : Tbl Nat
  stuck : Tbl (List Stuck)
  incomplete : List Nat
deriving DecidableEq, Repr, Inhabited

/-- The field record of drift recalibration and ages (R157): (age, age at drift) per region in 1/16 h × 2^20. -/
structure FieldRecord where
  ages : Tbl (Nat × Nat)
  corr : Tbl (Int × Int)
deriving DecidableEq, Repr, Inhabited

/-- Roles and peers (R437). -/
structure SysRecord where
  sysCfg : W32
  peerKeys : Tbl Nat
deriving DecidableEq, Repr, Inhabited

/-- A firmware slot of flash (R393). -/
structure FwSlot where
  version : Nat
  svn : Nat
  good : Bool
deriving DecidableEq, Repr, Inhabited

/-- Flash and fuses (R155, R216, R364, R365, R392-R394). -/
structure FlashBlk where
  p2Fuse : Bool
  fuseMapOk : Bool
  hbmLimit : Nat
  svnMin : Nat
  serial : Nat
  bindKey : Nat
  /-- factory record copies that pass CRC and digest, by stack: (A, B); absent = both good; key 40 is the hub's -/
  factory : Tbl (Bool × Bool)
  gen : TwoCopies GenRecord
  field : TwoCopies FieldRecord
  retired : TwoCopies (List Nat)
  publishers : TwoCopies (List Nat)
  system : TwoCopies SysRecord
  fw : List FwSlot
  fwActive : FwSlot
  leafBlocks : Nat
  nextLeaf : Nat
  /-- the factory's records (R155): gain and offset trims and DNL tables of the column converters and column corrections (G, O, κ), each by
  core; gain and offset of the other converters by their unit number; each stack's band-gap difference in µV -/
  factoryTrim : Tbl (Tbl (Nat × Int))
  factoryDnl : Tbl (Tbl Int)
  factoryCorr : Tbl (Tbl (Int × Int × Int))
  factoryUnit : Tbl (Int × Int)
  bandDiff : Tbl Int
  /-- adjustment records of planes (R202): rows moved -/
  adjust : Tbl (List (Nat × Nat × Nat))
deriving DecidableEq, Repr

/-! ## Functions, command queue, transactions -/

/-- A waiting reply store, galley and command registers of one function (R225-R237, R253, R456-R459). -/
structure FnBlk where
  level : Option Nat := none
  frontier : Nat := 0
  consume : Nat := 0
  nextSeq : Nat := 1
  /-- bytes between the consume point and F -/
  stored : List Byte := []
  /-- bytes of the packet in arrival still to come; 0 when a header is due -/
  due : Nat := 0
  overrun : Bool := false
  header : Bool := false
  droppedSeq : Nat := 0
  mirrorLo : W32 := 0
  mirrorHi : W32 := 0
  replyLo : W32 := 0
  replyHi : W32 := 0
  replyCfg : W32 := 6
  head : Nat := 0
  tail : Nat := 0
  cmdCfg : W32 := 0x3E8
  ringPhase : Bool := true
  store : List Reply := []
  latSum : Nat := 0
  latNum : Nat := 0
  latency : Nat := 0
  d3hot : Bool := false
  tdi : Nat := 0
  ide : Bool := false
  funcMask : Bool := false
  unmasked : List Nat := []
  pendingMsg : List Nat := []
  msixTable : Tbl W32 := []
deriving DecidableEq, Repr, Inhabited

/-- What an accepted command waits for (R245). -/
inductive Wait where
  | queued
  | hostRead
  | hostWrite
  | boundary
  | commit
  | calSelf
  | passes (regions : List Nat) (total : Nat)
  | test (core : Nat)
  | load
  | defect (plane : Nat)
  | removal
  | cancel (rid : Nat)
  | webClose (channel : Nat)
  | replyRoom (r : Reply)
deriving DecidableEq, Repr, Inhabited

/-- An entry of the command queue (R244). -/
structure CmdEntry where
  hdr : Hdr
  par : CmdParams
  taken : Nat
  wait : Wait
  attempts : Nat
deriving DecidableEq, Repr, Inhabited

/-- A staged change of a transaction (R239). -/
inductive Staged where
  | option (off : Nat) (mask val : W32)
  | tenant (t : Nat) (cfg : TenantCfg)
  | overlay (t slot layer : Nat) (rec : Option Overlay) (bytes : Nat)
  | group (g : Nat) (members : List Nat)
  | release (imageId : Nat)
  | forme (slot : Nat) (image : Option (FormeImage × List Byte)) (length : Nat)
  | plate (p : Plate)
deriving DecidableEq, Repr, Inhabited

/-- A transaction (R238-R241): its staged changes, whether its commit has been accepted, and the state of a plate change:
record written, flip held since. -/
structure Txn where
  id : Nat
  staged : List Staged
  idleSince : Nat
  committing : Bool
  acceptedAt : Nat
  recordWritten : Bool
  /-- IMAGE_IDs whose newest load failed, with its status (R215) -/
  failed : List (Nat × Status)
  /-- header of the TXN_COMMIT whose reply is to come; none after a function-level reset -/
  reply : Option Hdr
deriving DecidableEq, Repr, Inhabited

structure TxnBlk where
  tenant : Option Txn := none
  plate : Option Txn := none
  stream : Option Txn := none
  options : Option Txn := none
  nextId : Nat := 1
deriving DecidableEq, Repr, Inhabited

/-! ## Units -/

/-- A refill in progress (R358): the fenced unit, its spare, planes still to write, records not readable. -/
structure Refill where
  unit : UnitId
  /-- none: no spare stack remains (R24) -/
  spare : Option UnitId
  /-- map entry that moves: logical stack, 16 × physical stack + logical region, 160 × region key + logical core, or the
  logical plane key within its physical tile -/
  logical : Nat
  planes : List Nat
  blocked : Bool
  attempts : Nat := 0
  /-- a boundary has passed since its spare was assigned, so a later fence does not reorder it (R26) -/
  settled : Bool := false
deriving DecidableEq, Repr, Inhabited

/-- Maps and fences as the reserve registers last showed them (R32). -/
structure MapSnap where
  fenced : List UnitId
  withdrawn : List Nat
  stackMap : Tbl (Option Nat)
  regionMap : Tbl (Option Nat)
  coreMap : Tbl (Option Nat)
deriving DecidableEq, Repr, Inhabited

/-- Fence map and unit maps (R13-R31). A map lists only logical units that differ from the identity; `none` is a logical
unit without a physical one (R24). Region keys are 16 × physical stack + region, core keys 160 × region key + core. -/
structure MapBlk where
  fenced : Tri (List UnitId)
  stackMap : Tbl (Option Nat)
  regionMap : Tbl (Option Nat)
  coreMap : Tbl (Option Nat)
  refills : List Refill
  snap : Option MapSnap
  /-- HBM halves withdrawn (R25) -/
  withdrawn : List Nat
deriving DecidableEq, Repr

/-! ## Cores and regions -/

/-- Conversions of one strobe: column codes with over-range marks, the nibble drive codes, the latched temperature. -/
structure Conv where
  codes : List (Nat × Bool)
  drive : Tbl Nat
  fine : Bool
deriving DecidableEq, Repr, Inhabited

/-- A product between its strobes and the skim path: the request and the conversions so far; `skipped` when no block was
driven (R46). -/
structure Held where
  req : StrobeReq
  phys : Nat
  convs : List Conv
  skipped : Bool
  /-- the other twin's physical plane, when it could be strobed as this product was issued (R353, R355) -/
  other : Option Nat := none
deriving DecidableEq, Repr, Inhabited

structure Tile where
  /-- activities under way or to come as TILE_STATUS.STATE codes them (R71), each with its start and its end -/
  work : List (Nat × Nat × Nat) := []
  engaged : Option Nat := none
  /-- changes of the engaged plane that have not ended: start, end and the plane engaged from then on, in the order in which they were
  placed; and the plane engaged before the first of them (R41) -/
  changes : List (Nat × Nat × Option Nat) := []
  prior : Option Nat := none
  proofEngaged : Bool := false
  former : Option Nat := none
  badY0 : Bool := false
  badY1 : Bool := false
  pdescSel : W32 := 0
  freeAt : Nat := 0
  /-- write burst placed last whose wait is not yet settled: start and end (R200) -/
  burst : Option (Nat × Nat) := none
  /-- products of the open dual window and each output's sum in quarter LSB (R353) -/
  winCount : Nat := 0
  winSum : List Int := []
  stuck : List Stuck := []
  newStuck : List Stuck := []
deriving DecidableEq, Repr, Inhabited

/-- An accumulator lane (R117). -/
structure Lane where
  r : Int := 0
  er : Int := 0
  n : Nat := 0
  m : Int := 0
  e : Int := 0
  count : Nat := 0
  sat : Bool := false
  /-- add_total has marked the lane (R118, R136). -/
  capped : Bool := false
deriving DecidableEq, Repr, Inhabited

/-- An accumulator bank: lanes, the descriptor of the reduction it holds, the lanes its planes use (R117), whether it is finalising. -/
structure Bank where
  lanes : Tbl Lane := []
  desc : Option AccDesc := none
  slot : Nat := 0
  layer : Nat := 0
  rid : Option Nat := none
  width : Nat := 256
  finalising : Bool := false
deriving DecidableEq, Repr, Inhabited

/-- Statistics of one column of the monitored plane (R91): minimum, maximum code, sum and sum of squares of the charge in
1/16 LSB. -/
structure ColStat where
  lo : Nat
  hi : Nat
  sum : Int
  sq : Nat
deriving DecidableEq, Repr, Inhabited

/-- A sampled product (R98): plane, time, driven rows with their values, skim inputs, corrected result. -/
structure AuditSlot where
  plane : Nat
  started : Nat
  xs : List (Nat × Int)
  skim : List Int
  y : List Int
  wmode : Nat
  wide : Bool
  slot : Nat
  layer : Nat
deriving DecidableEq, Repr, Inhabited

/-- Events of a core in the running step (R101). -/
structure CoreSummary where
  failed : List (Cause × Option Nat) := []
  alarm : Bool := false
  mismatch : List Nat := []
  precision : List (Nat × Nat) := []
  orphan : List (Nat × Nat) := []
  near : Tbl Nat := []
  sat : Tbl Nat := []
  satRids : List Nat := []
  nanRids : List Nat := []
  nearRids : List Nat := []
deriving DecidableEq, Repr, Inhabited

/-- A core's registers and stores (R71, R102, R136, R182, R373). Core key: 160 × (16 × stack + region) + core. -/
structure Core where
  fineLast : Bool := false
  convFault : Bool := false
  failedConv : Nat := 0xFF
  ovrCount : Nat := 0
  strobeCount : Nat := 0
  suppressCount : Nat := 0
  /-- the MODEL's own sum of the strobes' energy of R62, in 1/204,800 pJ -/
  energy : Nat := 0
  lateCount : Nat := 0
  proofCtrl : W32 := 0
  proofValid : Bool := false
  proofOverrun : Bool := false
  proofRefused : Bool := false
  proofFine : Bool := false
  proofTile : Nat := 0
  proofPlane : Nat := 0
  proofTime : Nat := 0
  proofResult : List (Nat × Bool) := []
  tiles : Tbl Tile := []
  /-- plane switches of the core's tiles under way or to come, each with its start and its end (R41, R42) -/
  switches : List (Nat × Nat) := []
  /-- strobes of the core under way or to come, each from its launch to the end of the integrator reset; the two of a nibble pair are
  one (R45, R50) -/
  strobes : List (Nat × Nat) := []
  /-- conversion sequences under way or to come: hold instant and end of the conversions (R49, R51) -/
  seqs : List (Nat × Nat) := []
  /-- products between their strobes and the skim path, oldest first -/
  held : List Held := []
  layerReg : W32 := 0
  layer1 : W32 := 0x01F00408
  layer2 : W32 := 0x00400000
  lastCause : Nat := 0
  stPrecision : Bool := false
  stSat : Bool := false
  stNear : Bool := false
  stFailed : Bool := false
  failCount : Nat := 0
  nearCount : Nat := 0
  clampCount : Nat := 0
  satCount : Nat := 0
  envArea : Nat := 0
  monEn : Bool := false
  monPlane : Option (Nat × Nat) := none
  /-- physical plane of the monitored plane when its window began (R93) -/
  monPhys : Option Nat := none
  monCount : Nat := 0
  monSince : Nat := 0
  monStats : Tbl ColStat := []
  monDone : Bool := false
  monPrec : Bool := false
  monAlarm : Bool := false
  monSkip : Nat := 0
  auditCount : Nat := 0
  auditFail : Nat := 0
  auditSkip : Nat := 0
  /-- products to the next sample; none before the first draw -/
  sample : Option Nat := none
  auditSlots : Tbl AuditSlot := []
  /-- correction store (R79): gain, offset, temperature coefficient by (11 × tile + class) × 270 + column -/
  corr : Tbl (Int × Int × Int) := []
  dnl : Tbl Int := []
  /-- DNL tables of the last CAL_SELF, taken at a boundary (R80) -/
  newDnl : Option (Tbl Int) := none
  banks : Tbl Bank := []
  parked : Nat := 0
  spills : Nat := 0
  accSat : Nat := 0
  sr : Nat := 0
  summary : CoreSummary := {}
  /-- CONV_FACTOR: gain trim, offset trim, source (R182) -/
  factor : Tbl (Nat × Int × Bool) := []
  rejects : Nat := 0
  /-- rejects in a row of each suspect unit: converters 0-67, tiles 100 + t (R163, R164) -/
  runs : Tbl Nat := []
  /-- tiles on which a checksum group 0-7 has failed, as a mask (R70) -/
  groupFails : Tbl Nat := []
  testResult : Nat := 0
  testDue : Bool := false
  testOverdue : Bool := false
  testSince : Nat := 0
  testing : Option Nat := none
  /-- waits write bursts caused in this step (R200), in ns -/
  burstWait : Nat := 0
  scratch : List Host.Cell := []
deriving DecidableEq, Repr, Inhabited

/-- What a drift slice measured on one plane (R173): ΔT of the slice in 1/16 K, and per column index 0-269 the codes of four strikes at
u = 3 and at u = 7, each summed in quarter LSB, and the level sum of the sum record. -/
structure PlaneFit where
  dT : Int
  cols : List (Int × Int × Int)
deriving DecidableEq, Repr, Inhabited

/-- A calibration pass of a region (R166, R173): kind 1 temperature or 2 drift. `slices` lists what is done with the start of its slice:
tiles of a temperature pass, planes of a drift pass; `temps` the region temperature readings taken during the pass (R167); `staged`
(γ × 2^18, β in 1/64 LSB) by tile, `fits` by plane; `left` the planes whose plate changed during the pass (R174). -/
structure Pass where
  kind : Nat
  slices : List (Nat × Nat) := []
  temps : List Int := []
  staged : Tbl (Int × Int) := []
  fits : Tbl PlaneFit := []
  left : List Nat := []
deriving DecidableEq, Repr, Inhabited

/-- One window of a sense entry (R180): sum, count, minimum, maximum, and the channel of the values. -/
structure Window where
  sum : Int := 0
  count : Nat := 0
  lo : Int := 0
  hi : Int := 0
  chan : Nat := 0
  /-- when the window was shown -/
  shownAt : Nat := 0
deriving DecidableEq, Repr, Inhabited

/-- A sense converter (R176-R182). -/
structure Sense where
  miss : Nat := 0
  badChannel : Bool := false
  /-- start of the host pass less the firmware passes that held it up (R179) -/
  hostFrom : Nat := 0
  /-- ends of the host pass and of the firmware pass in progress (HOST_BUSY, FW_BUSY) -/
  hostUntil : Nat := 0
  fwUntil : Nat := 0
  run : Tbl Window := []
  shown : Tbl Window := []
  /-- firmware and host passes since their windows were shown last -/
  passes : Nat := 0
  hostPasses : Nat := 0
  /-- SENSE_PROOF_RESULT: channel and code by entry -/
  proof : Tbl (Nat × Int) := []
  /-- gain and offset that CAL_SELF found last, none while the factory's hold (R158) -/
  trim : Option (Int × Int) := none
  /-- rejects in a row; the converter is suspect while there is one (R163, R164) -/
  rejectRun : Nat := 0
deriving DecidableEq, Repr, Inhabited

/-- A row in the key/value staging partition of a wide buffer (R284, R289): request, forme slot, attention layer, position, formats. -/
structure StagedRow where
  rid : Nat
  slot : Nat
  layer : Nat
  pos : Nat
  keyFmt : Nat
  valFmt : Nat
  bytes : List Byte
deriving DecidableEq, Repr, Inhabited

/-- Who left entries in a spill slot (R123, R136): forme slot, layer, core, request, and the bank that PARK emptied (none for a spill). -/
structure Park where
  slot : Nat
  layer : Nat
  core : Nat
  rid : Option Nat
  bank : Option Nat
deriving DecidableEq, Repr, Inhabited

/-- Firmware transfers of a region's DMA engine (R340): a record of a refill, of a plate change or of its second pass, an audit copy. -/
inductive DmaUser where
  | refill (u : UnitId)
  | change
  | rerun
  | audit
deriving DecidableEq, Repr, Inhabited

/-- A region's registers and stores (R71, R182, R347, R427). Region key: 16 × stack + region. -/
structure Region where
  edges : Nat := 0
  /-- edges from now on at which a core holds, already counted -/
  heldEdges : List Nat := []
  lastSimul : Bool := false
  tNow : Int := 0
  tCal : Int := 0
  /-- T_NOW and T_CAL as they show while a confidential tenant is present (R389) -/
  tShown : Int × Int := (0, 0)
  tRead : Int := 0
  tArray : Int := 0
  pass : Option Pass := none
  /-- a drift pass that a temperature pass put off (R174) -/
  wantDrift : Bool := false
  /-- the temperature left T_p by more than RECAL_DELTA during the last pass (R170) -/
  again : Bool := false
  passes : Nat := 0
  /-- reference converters: gain and offset of the last CAL_SELF, and rejects in a row (R158, R163) -/
  refTrim : Tbl (Int × Int) := []
  refRuns : Tbl Nat := []
  ageGap : Bool := false
  rejects : Nat := 0
  /-- age and age at drift in 1/16 h × 2^20 (R171) -/
  age : Nat := 0
  ageAtDrift : Nat := 0
  /-- the drift term σ_d² of R172 as last evaluated, in 10^-6 LSB² -/
  driftVar : Nat := 0
  twinOnly : Nat := 0
  sense : Sense := {}
  /-- staging bytes and adapter granules held in the running step (R338) -/
  stage : Nat := 0
  adapt : Nat := 0
  wbShort : Nat := 0
  /-- firmware transfers that hold a DMA credit, and those that wait for one (R340) -/
  dmaHeld : List DmaUser := []
  dmaQueue : List DmaUser := []
  dmaWaits : Nat := 0
  cdcCount : Nat := 0
  ovrHub : Bool := false
  ovrCore : Bool := false
  ovrConv : Bool := false
  wideBuf : List Host.Cell := []
  /-- rows of the running step's new positions (R289) -/
  staged : List StagedRow := []
  /-- who left entries in a spill slot, by the slot's address in the wide buffer (R123, R337) -/
  parks : Tbl Park := []
  /-- overlay store of the running owner: bytes used by (65,536 × tenant + layer) (R206) -/
  overlay : Tbl Nat := []
  /-- what the vector engine delivered last: values of R125, R131, R286 -/
  vec : List W32 := []
deriving DecidableEq, Repr, Inhabited

/-- Band-gap checks (R152-R154). -/
structure BandGap where
  suspect : List Nat := []
  beyond : List Nat := []
  hubSuspect : Bool := false
deriving DecidableEq, Repr, Inhabited

/-! ## Formes, plates, steps, requests -/

/-- A resident forme with the state of its layers (R142-R144): rung, clean steps, LADDER_END, PREC_LAST. -/
structure LayerState where
  rung : Nat := 0
  clean : Nat := 0
  ladderEnd : Bool := false
  reported : Bool := false
  precLast : Bool := false
deriving DecidableEq, Repr, Inhabited

structure Forme where
  image : FormeImage
  length : Nat
  layers : Tbl LayerState
  draining : Bool
  /-- the image as it was read, which FORME_DIGEST covers (R214) -/
  bytes : List Byte := []
deriving DecidableEq, Repr, Inhabited

/-- A plate load in progress (R191-R194): its command, the image as far as it has been read, the part to read (0 header, 1 signature block,
2 shard table, 3 binding block, 4 payload), records taken, planes it has written; in place, the SHA-256 of each run of 64 records and the
bytes of the run that arrives (R221). -/
structure Load where
  fn : Nat
  seq : Nat
  par : LoadParams
  image : PlateImage
  part : Nat
  next : Nat
  /-- logical plane of the last record -/
  last : Option Nat
  /-- physical planes programmed -/
  written : List Nat
  attempts : Nat
  authenticated : Bool
  digests : List Nat := []
  run : List Byte := []
  /-- the records taken so far: DIGEST covers them all (R188, R193) -/
  payload : List Byte := []
deriving DecidableEq, Repr, Inhabited

structure PlateBlk where
  table : List Plate := []
  load : Option Load := none
  /-- planes being written or waiting for a write slot: plane key, record (R197); readbacks and test patterns carry none -/
  writing : Tbl (Option PlaneRecord) := []
  /-- planes that hold a write slot (R198) -/
  slots : List Nat := []
  /-- planes whose records firmware fetches next: they take their write slots before the fetch (R329) -/
  wants : List Nat := []
  /-- firmware transfers that hold a place in the hub working area (R329, R334, R341) -/
  area : List DmaUser := []
  /-- STANDBY planes that tiles without a SPARE plane use in a core test (R369) -/
  testPlanes : List Nat := []
  /-- planes that a fence has moved off the core they were written on, by logical plane: they are written anew from their record (R28) -/
  movedClaims : List Nat := []
  /-- logical planes reported with PLATE_DEFECTS in the open transaction, and those of them that a load has written again since: what such a
  retrained plate still leaves takes step 5 (R201) -/
  reported : List Nat := []
  retrained : List Nat := []
  /-- logical planes of the current or last load's image (R224) -/
  loadPlanes : List Nat := []
  /-- planes that wait under R204, with the defects left -/
  waiting : Tbl (List Defect) := []
  /-- records of loaded planes of the open transaction -/
  records : Tbl PlaneRecord := []
  /-- planes the open transaction claims: logical plane key ↦ physical plane key (R191) -/
  claims : Tbl Nat := []
  draining : Option Nat := none
  /-- authenticated in-place loads whose second pass is still to come or runs (R221) -/
  inplace : List Load := []
  rewriting : Bool := false
  incomplete : List Nat := []
  progress : Nat := 0
  epoch : Nat := 0
  /-- cells programmed since the last housekeeping tick, and the rate of the last one (R224) -/
  cells : Nat := 0
  rate : Nat := 0
  nSpare : Nat := 0
  nReported : Nat := 0
  nStuck : Nat := 0
  nAdjusted : Nat := 0
  /-- copies in the audit window, oldest first; the logical plane from which the walk goes on; the start of the period; planes of the period still
  to fetch; and how many copies of the period before have not left (R96) -/
  auditSet : List AuditCopy := []
  auditAt : Nat := 0
  auditStart : Option Nat := none
  auditPlan : List Nat := []
  auditOld : Nat := 0
  auditSkips : Nat := 0
  /-- a system plate change whose flip has no boundary yet: its transaction, and whether the flip has been ordered (R220) -/
  systemPrep : Option (Nat × Bool) := none
  /-- T_B of the boundary named for a system flip -/
  flipAt : Option Nat := none
deriving DecidableEq, Repr, Inhabited

/-- The arrays by global plane key (16 × core key + tile) × 1,408 + plane: descriptors, plane maps, cell levels by
272 × row + column index, envelopes, digital sections (R196: shifts, weights by 256 × k + column). Absent descriptors stand for the
factory state (R39). `undef` numbers the planes whose contents an abandoned write left undefined (R223, R369); `built` are the intended levels that
a plane's sum record was built from (R76). -/
structure ArrayBlk where
  desc : Tbl PlaneDesc
  planeMap : Tbl Nat
  cells : Tbl (Tbl Nat)
  undef : Tbl Nat
  built : Tbl (Tbl Nat)
  envelope : Tbl (Tbl Envelope)
  skim : Tbl (List Nat × Tbl Int)
deriving DecidableEq, Repr

/-- States of a request (R257). -/
inductive ReqState where
  | queued | held | prefill | decode | stalled | restarting
deriving DecidableEq, Repr, Inhabited

/-- A page set (R292-R297): log2 size, key and value format of each attention layer, fill mark, set record sheet; first sheet, length and half of each page. A page on
module m of the system has half 1,000 + m (R442). -/
structure PageSet where
  k : Nat
  fmts : List (Nat × Nat)
  fill : Nat
  record : Nat
  pages : List (Nat × Nat × Nat)
  draft : Bool
deriving DecidableEq, Repr, Inhabited

/-- A step record (R279) kept as fields. -/
structure Rec where
  rid : Nat
  step : Nat
  epoch : Nat
  cond : Cond
  status : Status
  kind : Nat
  emitted : Nat
  keyBits : Nat
  draftLen : Nat
  rung : Nat
  payload : List Nat
deriving DecidableEq, Repr, Inhabited

/-- A request (R254-R257, R271-R280, R360). -/
structure Req where
  p : ReqParams
  fn : Nat
  tenant : Nat
  order : Nat
  state : ReqState
  saved : ReqState
  /-- prompt and released tokens: the token history -/
  history : List Nat
  done : Nat
  emitted : Nat
  age : Nat
  last : Nat
  counts : List (Nat × Nat)
  d : Nat
  rejectRun : Nat
  zeroSteps : Nat
  sets : List PageSet
  /-- first sheet of the set table of the main forme (0) and of the draft forme (1) (R293) -/
  tables : Tbl Nat
  /-- prompt positions sealed in each of the last 64 steps: (step, positions) -/
  sealed : List (Nat × Nat)
  restarts : Nat
  horizon : Nat
  /-- records written to the ring and read by the host since admission (R280) -/
  writeIdx : Nat
  readIdx : Nat
  waiting : List Rec
  cond : Cond
  /-- ends that were asked for, each with the number of the step at whose boundary it takes effect (R218, R276, R315) -/
  endAs : List (Status × Nat)
  silent : Bool
  fillSeen : Bool
  historySheets : Nat
  /-- positions completed before sets were dropped (R301) -/
  redo : Nat
  /-- the step's record, while the boundary that writes it takes its actions (R279) -/
  record : Option Rec := none
deriving DecidableEq, Repr, Inhabited

/-- A row of the running step (R259). -/
structure Row where
  rid : Nat
  slot : Nat
  n : Nat
  draft : Nat
  final : Bool
  charged : Bool
  web : Bool
  /-- positions completed: sampled tokens of the pass, accepted proposals, scores -/
  tokens : List Nat
  accepted : Nat
  nan : Bool
  cond : Cond
  keyBits : Nat
  rung : Nat
  granted : Bool
  withheld : Bool
  sampled : Bool
  /-- the request's age before the formation, which a cut step leaves it (R388) -/
  age : Nat := 0
  /-- experts that the pass's routers have selected: (forme slot, layer of the router, expert) (R211) -/
  experts : List (Nat × Nat × Nat) := []
  /-- released positions beyond the draft's fill mark, which its first pass processes (R291) -/
  catchUp : Nat := 0
deriving DecidableEq, Repr, Inhabited

/-- The running step (R260). `waiting` lists regions whose check summary is to come. -/
structure Step where
  number : Nat
  began : Nat
  rows : List Row
  owner : Nat
  waiting : List Nat
  summaries : List CoreSummary
  alarmed : List UnitId
  cut : Bool
  sealing : Bool
  settled : Bool
  tBase : Nat
  dT : Nat
  system : Bool
  /-- when the seal began: the last check summary arrived (R260) -/
  sealBegan : Nat := 0
deriving DecidableEq, Repr, Inhabited

/-- The product of a logical core's entries in one group that was issued last: forme slot, group and request, the entry and the plane of
its run, and which of the twins have issued it (R211, R353). -/
structure Issued where
  slot : Nat
  group : Nat
  rid : Option Nat
  entry : Nat
  index : Nat
  twins : List Bool
deriving DecidableEq, Repr, Inhabited

structure SchedBlk where
  step : Option Step := none
  /-- what each logical core has issued last in the running step (R211) -/
  issued : Tbl Issued := []
  nextStep : Nat := 0
  sealed : Nat := 0
  stepTime : Nat := 0
  /-- boundaries of the last 64 sealed steps, newest first: step, B, rows as (request identifier, slot) -/
  history : List (Nat × Nat × List (Nat × Nat)) := []
  lastB : Nat := 0
  /-- B of the step before, and whether a formation has taken place since reset (R265) -/
  prevB : Nat := 0
  formed : Bool := false
  /-- the step whose formation has given its credit, when it gave no row (R265) -/
  credited : Option Nat := none
  /-- ended requests whose last records wait for ring space, by submission order (R280) -/
  ended : Tbl Req := []
  lambdaNum : Nat := 1
  lambdaDen : Nat := 1
  stretch : Nat := 0
  short : Bool := false
  used : Nat := 0
  denied : Nat := 0
  granted : Nat := 0
  precSel : W32 := 0
  aged : Nat := 0
  overcommit : Bool := false
  overcommits : Nat := 0
  deadlines : Nat := 0
  tenantSel : W32 := 0
  lastCredited : Nat := 0
  lastExcess : Nat := 0
  nextOrder : Nat := 0
  owner : Nat := 256
  ownerSince : Nat := 0
  lastConf : Nat := 0
  /-- a boundary is wanted although no request has work (R239, R387) -/
  wantBoundary : Bool := false
  slotNext : Bool := false
  /-- cores of the test slot that runs (R371), and functions whose rings have records not yet announced (R281) -/
  slotCores : List Nat := []
  ringFns : List Nat := []
  stopped : Bool := false
deriving DecidableEq, Repr, Inhabited

/-- A tenant's pair of states is its key slot state with `enabled` (R374). Slot: 0 EMPTY, 1 ACTIVE, 2 RETIRING. -/
structure Tenant where
  slot : Tri Nat := ⟨0, 0, 0⟩
  cfg : TenantCfg := ⟨false, false, 0, 0, 0, 0, 0, 0⟩
  enabled : Bool := false
  confidential : Bool := false
  epoch : Nat := 0
  /-- deficit in 1/256 token (R265), and as it stood after the last seal (R282) -/
  deficit : Int := 0
  sealedD : Int := 0
  /-- ns of formations that other owners' steps kept from it (R383) -/
  credited : Nat := 0
  removing : Option Nat := none
  removeBoundary : Bool := false
  removeFns : List (Nat × Nat)
    := []
  /-- the unsolicited notice of R381 is due at the end of the removal -/
  notice : Bool := false
deriving DecidableEq, Repr, Inhabited

/-- Allocated sheets of a half: first, length, tenant (R297). -/
structure KvBlk where
  alloc : Tbl (List (Nat × Nat × Nat)) := []
  drops : Nat := 0
  recomputed : Nat := 0
  crcFails : Nat := 0
  remote : Nat := 0
  empty : Nat := 0
  claims : List (Nat × Nat) := []
  claimsMet : Nat := 0
  claimMiss : Nat := 0
  /-- requests that hold sets received for a page claim and have not used them (R333) -/
  claimed : List Nat := []
  reserveShort : Bool := false
  history : Nat := 0
  /-- free sheets as of the last boundary (R306) -/
  freeShown : Nat := 0
  /-- free sheets a removed tenant last held (R386) -/
  overwrite : List (Nat × Nat) := []
  /-- sheets that failed their check in the running step -/
  bad : List Nat := []
  /-- contents of the page pool in plain text: byte i of sheet n has address 4,096 × n + i (R294) -/
  hbm : List Host.Cell := []
  /-- free system pages that other modules reported, less what this module has taken of them (R442) -/
  others : Tbl Nat := []
deriving DecidableEq, Repr, Inhabited

/-- A web channel (R309-R325). -/
structure Channel where
  tenant : Nat
  fn : Nat
  p : WebParams
  g : Nat
  t0 : Nat
  slot : Nat
  queue : List (List Nat × Bool)
  data : Nat
  fills : Nat
  run : Nat
  filling : Bool
  lastTokens : List Nat
  silence : Option (List Nat)
  bound : Option Nat
  closing : Bool
  restarted : Bool
deriving DecidableEq, Repr, Inhabited

structure WebBlk where
  channels : Tbl Channel := []
  groups : Tbl (List Nat) := []
  fillCount : Nat := 0
  chanSel : W32 := 0
deriving DecidableEq, Repr, Inhabited

/-- What the per-tenant registers read from while a confidential tenant is present (R389): the tenants, the requests by tenant and state,
the allocated sheets, the channels with their groups and the counts of the security block as they stood at the last 1 ms tick of the time base. -/
structure TickView where
  tenants : Tbl Tenant := []
  reqs : List (Nat × ReqState) := []
  alloc : Tbl (List (Nat × Nat × Nat)) := []
  channels : Tbl Channel := []
  groups : Tbl (List Nat) := []
  washdowns : Nat := 0
  cuts : Nat := 0
  epochDrops : Nat := 0
deriving DecidableEq, Repr, Inhabited

/-- Timers and pins (R344-R346): holder tag, or a safety user (1 thermal alert, 2 shutdown sequencing, 3 regulator-off). -/
structure ShareBlk where
  timers : Tbl (Nat ⊕ Nat) := []
  pins : Tbl (Nat ⊕ Nat) := []
  lost : Nat := 0
  resSel : W32 := 0
deriving DecidableEq, Repr, Inhabited

/-- A fence report (R372). -/
structure Report where
  kind : Nat
  cause : Cause
  detail : Nat
  seq : Nat
  time : Nat
  phys : Nat
  logical : Nat
  step : Nat
  second : Nat
  count : Nat
  data : Nat
  entries : List Defect
deriving DecidableEq, Repr, Inhabited

/-- A dual comparison that waits for the secondary's words (R353): primary core, secondary core, tile, strobe time, own words. -/
structure DualWait where
  primary : Nat
  secondary : Nat
  tile : Nat
  time : Nat
  own : DualWords
deriving DecidableEq, Repr, Inhabited

structure FaultBlk where
  reports : List Report := []
  nextReport : Nat := 0
  added : Bool := false
  lost : Nat := 0
  optionVote : Bool := false
  late : Nat := 0
  restarts : Nat := 0
  dualMismatch : Nat := 0
  ce : Nat := 0
  ue : Nat := 0
  voteRepair : Nat := 0
  testSlots : Nat := 0
  testFails : Nat := 0
  /-- correctable errors by (memory, owner, line) (R363) -/
  ceTable : List ((MemKind × Nat × Nat) × Nat) := []
  retired : List (MemKind × Nat × Nat) := []
  /-- hub SRAM banks without a spare line, withdrawn from allocation (R364), by their line -/
  hubWithdrawn : List Nat := []
  /-- events of R357 by core: (cause, time), newest first -/
  events : List (Cause × Nat × Nat) := []
  openLate : List UnitId := []
  dual : List DualWait := []
  /-- late faults to settle at the boundary: unit, cause, largest difference (R352) -/
  lateNow : List (UnitId × Cause × Nat) := []
  eccCtrl : W32 := 0
  eccOffset : W32 := 0
  eccUnitLo : W32 := 0
  eccUnitHi : W32 := 0
  eccDataLo : W32 := 0
  eccDataHi : W32 := 0
  eccDone : Bool := false
  eccRefused : Bool := false
  eccUe : Bool := false
  eccCe : Bool := false
  eccSyndrome : Nat := 0
  eccCheck : Nat := 0
  /-- test words by target: (memory code, unit word, offset) ↦ (data, check bits) -/
  eccMem : List ((Nat × Nat × Nat) × (Nat × Nat)) := []
deriving DecidableEq, Repr, Inhabited

structure SecBlk where
  debugScope : Option Nat := none
  challenge : Nat := 0
  proof : Bool := false
  washdowns : Nat := 0
  cuts : Nat := 0
  epochDrops : Nat := 0
  tenantSel : W32 := 0
  power : Nat := 0
  /-- mean of the last whole 100 ms window of the time base (R389) -/
  power100 : Nat := 0
  confPresent : Bool := false
deriving DecidableEq, Repr, Inhabited

structure ThermBlk where
  temps : List (Sensor × Int) := []
  past : List (Sensor × List (Nat × Int)) := []
  badRun : List (Sensor × Nat) := []
  sameTicks : List (Sensor × Int × Nat) := []
  broken : List Sensor := []
  brokenCount : Nat := 0
  alert : Bool := false
  stopping : Option Nat := none
  lastFwPass : Nat := 0
  /-- readings as registers and sensors show them, and since when (R389) -/
  shown : List (Sensor × Int) := []
  shownAt : Nat := 0
deriving DecidableEq, Repr, Inhabited

/-- A quoin port (R428-R447). -/
structure Port where
  state : Nat := 0
  cause : Nat := 0
  use : Nat := 0
  peer : Nat := 0
  lanes : Nat := 0
  fails : Nat := 0
  crc : Nat := 0
  retry : Nat := 0
  downs : Nat := 0
  /-- receive side: next SEQ expected, NAK due; send side: next SEQ, replay buffer, replays of its oldest -/
  expect : Nat := 0
  nakDue : Bool := false
  nextSeq : Nat := 0
  replay : List Flit := []
  replays : Nat := 0
  lastRx : Nat := 0
  lastTx : Nat := 0
  ctr : Nat := 0
  credits : List Nat := [32, 1024, 256, 512]
  owed : List Nat := [0, 0, 0, 0]
  peerSerial : Nat := 0
  keyed : Bool := false
  /-- tenants whose subkeys are derived; exchanges that wait with their start -/
  subkeys : List Nat := []
  kex : Tbl Nat := []
  syncAt : Nat := 0
  /-- flits that wait for a credit or a key, each with the port it arrived on -/
  waiting : List (Flit × Option Nat) := []
  /-- arbitration (R342), by class: what is left of the round's share, and the flit slots for which a flit that could leave has waited -/
  quota : List Nat := [0, 8, 2, 4]
  starved : List Nat := [0, 0, 0, 0]
deriving DecidableEq, Repr, Inhabited

structure QlBlk where
  ports : Tbl Port := []
  module : Nat := 0
  late : Bool := false
  peerSel : W32 := 0
  routeTable : List (Nat × Nat) := []
  absent : List Nat := []
  present : List Nat := []
  reports : List SealReport := []
  ready : List Nat := []
  sealAt : Option Nat := none
  /-- a named boundary not yet taken: step, T_B -/
  named : Option (Nat × Nat) := none
  /-- the owner and the system rows that the manager named for the next step (R384, R441) -/
  nextOwner : Option Nat := none
  nextRows : List SysRow := []
  nextNumber : Nat := 0
  /-- page sets held for requests of system formes that another module's table holds (R442), by request identifier -/
  remote : Tbl Req := []
  selfFenced : Bool := false
  /-- flits of messages that are not complete, and the sheets that each module has delivered in the step (R212) -/
  received : List Flit := []
  arrived : Tbl Nat := []
  /-- requests of system formes whose rows have been listed to other modules (R305, R442) -/
  told : List Nat := []
deriving DecidableEq, Repr, Inhabited

structure PciBlk where
  width : Nat := 0
  rate : Nat := 0
  retrains : Nat := 0
  accessErr : Nat := 0
  eventCfg : W32 := 0
  winSel : Tbl W32 := []
  spdm : Bool := false
deriving DecidableEq, Repr, Inhabited

structure SideBlk where
  eid : Nat := 0
  fwState : Nat := 0
  fwBytes : Nat := 0
  event : Bool := false
deriving DecidableEq, Repr, Inhabited

/-- Pin levels the module drives; an absent pin is not driven (R401). -/
structure PinBlk where
  driven : List (Pin × Bool) := []
deriving DecidableEq, Repr, Inhabited

/-- A power budget that takes effect at the next boundary (R415, R462). -/
structure PowerBlk where
  staged : Option Nat := none
deriving DecidableEq, Repr, Inhabited

/-- The whole machine. -/
structure State where
  /-- commands that wait, first in first out -/
  pending : List Instr
  /-- selects the next free value (log entry 2) -/
  free : Nat
  out : List Out
  time : TimeBlk
  rst : RstBlk
  aon : AonBlk
  nv : FlashBlk
  opts : Tri (Tbl W32)
  fns : Tbl FnBlk
  cmdq : List CmdEntry
  turn : Nat
  txns : TxnBlk
  map : MapBlk
  cores : Tbl Core
  regions : Tbl Region
  hubSense : Tbl Sense
  bandgap : BandGap
  formes : Tbl Forme
  plates : PlateBlk
  arr : ArrayBlk
  sched : SchedBlk
  reqs : Tbl Req
  gens : Tbl Nat
  tenants : Tbl Tenant
  overlays : Tbl (Overlay × Nat)
  kv : KvBlk
  web : WebBlk
  share : ShareBlk
  faults : FaultBlk
  sec : SecBlk
  therm : ThermBlk
  ql : QlBlk
  pci : PciBlk
  side : SideBlk
  pins : PinBlk
  power : PowerBlk
  /-- the last 1 ms tick (R389) -/
  seen : TickView
deriving DecidableEq, Repr

/-- Why the block stops. -/
inductive Fault where
  /-- raised by a meaning whose operand names a unit, port or channel the module does not have (R9, R428); safe: the
  hardware has no such event. -/
  | noSuchUnit
deriving DecidableEq, Repr

/-- Why a command has no meaning here. -/
inductive Refusal where
  /-- raised by an arm of exec whose command has no meaning yet; safe. -/
  | notModelled (mnemonic : String)
deriving DecidableEq, Repr

/-- A factory-fresh flash (log entry 6): every record good, nothing programmed, no publisher key, one firmware image. -/
def FlashBlk.fresh : FlashBlk :=
  { p2Fuse := false, fuseMapOk := true, hbmLimit := 0x69, svnMin := 0, serial := 0, bindKey := 0, factory := [],
    gen := ⟨some ⟨0, [], [], [], [], []⟩, none, true⟩, field := ⟨some ⟨[], []⟩, none, true⟩,
    retired := ⟨some [], none, true⟩, publishers := ⟨some [], none, true⟩,
    system := ⟨none, none, false⟩, fw := [⟨1, 0, true⟩], fwActive := ⟨1, 0, true⟩, leafBlocks := 4096, nextLeaf := 0,
    factoryTrim := [], factoryDnl := [], factoryCorr := [], factoryUnit := [], bandDiff := [], adjust := [] }

/-- The machine right after reset: the reset of the first power-up is in progress (R397 source POR, R399), nothing is
loaded, every register reads its reset value. -/
def State.reset : State :=
  { pending := [], free := 0, out := [], time := {},
    rst := { phase := .inReset, sources := [.por], started := 0, warmAt := none, loadDone := false, cold := true, fresh := true,
             mpStart := 0, lastService := 0, lastTick := 0, missed := [], calDone := false,
             lastSync := 0, lastAge := 0 },
    aon := { counts := ⟨[1, 0, 0, 0, 0, 0, 0], [1, 0, 0, 0, 0, 0, 0], [1, 0, 0, 0, 0, 0, 0]⟩, wdtMp := 0, limp := false,
             vbkLost := true, sources := [.por], rstCfg := 2, totalAborts := 0, consec := 0, errorLog := [],
             thermLatch := false, latchAt := 0, latchPin := none, thermCause := 0, thermHard := false, thermReading := 0,
             thermAddr := 0, unpowered := none, powerBudget := 0 },
    nv := FlashBlk.fresh, opts := ⟨[], [], []⟩, fns := [], cmdq := [], turn := 0, txns := {},
    map := { fenced := ⟨[], [], []⟩, stackMap := [], regionMap := [], coreMap := [], refills := [], snap := none,
             withdrawn := [] },
    cores := [], regions := [], hubSense := [], bandgap := {}, formes := [], plates := {},
    arr := { desc := [], planeMap := [], cells := [], undef := [], built := [], envelope := [], skim := [] },
    sched := {}, reqs := [], gens := [], tenants := [], overlays := [], kv := {}, web := {}, share := {}, faults := {},
    sec := {}, therm := {}, ql := {}, pci := {}, side := {}, pins := { driven := [(.modRst, false), (.arrayDrivers, false)] }, power := {}, seen := {} }

end Sys2Proof.Machine
end

