-- ==== Sys2Proof/Machine/Ops.lean ====
section
/-! DEFINITION. The named operations every meaning is built from: sparse tables and memories, the accessors of the blocks
of State, voted words, time, outward effects, free values. -/

namespace Sys2Proof.Machine

/-! ## Sparse tables -/

/-- The entry of a table, `none` when it lists none. -/
def tfind {α : Type} : Tbl α → Nat → Option α
  | [], _ => none
  | (k', v) :: r, k => if k = k' then some v else tfind r k

/-- The entry of a table whose absent entries stand for `d`. -/
def tget {α : Type} (d : α) (m : Tbl α) (k : Nat) : α := (tfind m k).getD d

/-- Insert in key order, replacing an entry of the same key. -/
def tput {α : Type} : Tbl α → Nat → α → Tbl α
  | [], k, v => [(k, v)]
  | (k', v') :: r, k, v => if k < k' then (k, v) :: (k', v') :: r else if k = k' then (k, v) :: r else (k', v') :: tput r k v

/-- Remove a key. -/
def tdel {α : Type} (m : Tbl α) (k : Nat) : Tbl α := m.filter (fun e => e.1 != k)

/-- Write an entry of a table whose absent entries stand for `d`: the canonical form lists no entry equal to `d`. -/
def tset {α : Type} [DecidableEq α] (d : α) (m : Tbl α) (k : Nat) (v : α) : Tbl α :=
  if v = d then tdel m k else tput m k v

def tmod {α : Type} [DecidableEq α] (d : α) (m : Tbl α) (k : Nat) (f : α → α) : Tbl α := tset d m k (f (tget d m k))

/-- Apply a function to every listed entry; entries that become `d` leave the table. -/
def tmap {α : Type} [DecidableEq α] (d : α) (f : Nat → α → α) : Tbl α → Tbl α
  | [] => []
  | (k, v) :: r => if f k v = d then tdel (tmap d f r) k else (k, f k v) :: tdel (tmap d f r) k

/-- Keys strictly rising. -/
def Tbl.rising {α : Type} : Tbl α → Bool
  | [] => true
  | [_] => true
  | (k, _) :: (k', v) :: r => k < k' && Tbl.rising ((k', v) :: r)

/-- First key at which a predicate holds, below a bound. -/
def firstBelow (n : Nat) (p : Nat → Bool) : Option Nat := (List.range n).find? p

/-! ## Memories: lists of cells in one canonical form, an unlisted address reads 0 (R367, log entry 8) -/

/-- Addresses strictly rising and no cell equal to what an unlisted address reads as. -/
def Memory.wf (m : List Host.Cell) : Bool := Tbl.rising (α := BitVec 8) m && m.all (fun c => c.2 != 0)

def mget (m : List Host.Cell) (a : Nat) : Byte := tget (0 : BitVec 8) m a

def mput (m : List Host.Cell) (a : Nat) (b : Byte) : List Host.Cell := tset (0 : BitVec 8) m a b

/-- Bytes at rising addresses. -/
def mwrite (m : List Host.Cell) (a : Nat) : List Byte → List Host.Cell
  | [] => m
  | b :: bs => mwrite (mput m a b) (a + 1) bs

def mread (m : List Host.Cell) (a : Nat) : Nat → List Byte
  | 0 => []
  | n + 1 => mget m a :: mread m (a + 1) n

/-- `n` bytes of a number, least significant first (00_scope, Notation). -/
def leBytes : Nat → Nat → List Byte
  | 0, _ => []
  | n + 1, v => BitVec.ofNat 8 v :: leBytes n (v / 256)

/-- The number that bytes spell, least significant first. -/
def leNat : List Byte → Nat
  | [] => 0
  | b :: bs => b.toNat + 256 * leNat bs

/-! ## Lists -/

/-- Replace or add an entry of an association list. -/
def aset {α β : Type} [DecidableEq α] : List (α × β) → α → β → List (α × β)
  | [], k, v => [(k, v)]
  | (k', v') :: r, k, v => if k' = k then (k, v) :: r else (k', v') :: aset r k v

def aget {α β : Type} [DecidableEq α] : List (α × β) → α → Option β
  | [], _ => none
  | (k', v) :: r, k => if k' = k then some v else aget r k

def adel {α β : Type} [DecidableEq α] (l : List (α × β)) (k : α) : List (α × β) := l.filter (fun e => e.1 ≠ k)

/-- Add to a list used as a set. -/
def addOnce {α : Type} [DecidableEq α] (l : List α) (x : α) : List α := if x ∈ l then l else l ++ [x]

def sumNat (l : List Nat) : Nat := l.foldl (· + ·) 0

def sumInt (l : List Int) : Int := l.foldl (· + ·) 0

/-- Insertion into an ascending list, and the ascending list of a list. -/
def insertAsc (x : Nat) : List Nat → List Nat
  | [] => [x]
  | y :: r => if x ≤ y then x :: y :: r else y :: insertAsc x r

def sortAsc (l : List Nat) : List Nat := l.foldr insertAsc []

/-- Stable insertion by a key. -/
def insertBy {α : Type} (key : α → Nat) (x : α) : List α → List α
  | [] => [x]
  | y :: r => if key x ≤ key y then x :: y :: r else y :: insertBy key x r

def sortBy {α : Type} (key : α → Nat) (l : List α) : List α := l.foldr (insertBy key) []

/-! ## Three voted copies (R366) -/

def triOf {α : Type} (x : α) : Tri α := ⟨x, x, x⟩

/-- Bitwise majority of three words. -/
def maj (a b c : Nat) : Nat := Nat.lor (Nat.lor (Nat.land a b) (Nat.land a c)) (Nat.land b c)

/-- The newest good copy of a record kept in two flash copies, and a write of a new one (R157, R216, R364, R392, R437). -/
def newest {α : Type} (r : TwoCopies α) : Option α := if r.turn then r.a.orElse (fun _ => r.b) else r.b.orElse (fun _ => r.a)
def writeCopy {α : Type} (r : TwoCopies α) (x : α) : TwoCopies α :=
  if r.turn then { r with b := some x, turn := false } else { r with a := some x, turn := true }

/-! ## Blocks of State -/

def fnOf (s : State) (f : Nat) : FnBlk := tget {} s.fns f
def setFn (s : State) (f : Nat) (b : FnBlk) : State := { s with fns := tset {} s.fns f b }
def modFn (s : State) (f : Nat) (g : FnBlk → FnBlk) : State := setFn s f (g (fnOf s f))

def coreOf (s : State) (k : Nat) : Core := tget {} s.cores k
def setCore (s : State) (k : Nat) (c : Core) : State := { s with cores := tset {} s.cores k c }
def modCore (s : State) (k : Nat) (g : Core → Core) : State := setCore s k (g (coreOf s k))

def tileOf (c : Core) (t : Nat) : Tile := tget {} c.tiles t
def setTile (c : Core) (t : Nat) (x : Tile) : Core := { c with tiles := tset {} c.tiles t x }
def modTile (c : Core) (t : Nat) (g : Tile → Tile) : Core := setTile c t (g (tileOf c t))

def bankOf (c : Core) (b : Nat) : Bank := tget {} c.banks b
def setBank (c : Core) (b : Nat) (x : Bank) : Core := { c with banks := tset {} c.banks b x }
def laneOf (b : Bank) (i : Nat) : Lane := tget {} b.lanes i
def setLane (b : Bank) (i : Nat) (x : Lane) : Bank := { b with lanes := tset {} b.lanes i x }

def regionOf (s : State) (k : Nat) : Region := tget {} s.regions k
def setRegion (s : State) (k : Nat) (r : Region) : State := { s with regions := tset {} s.regions k r }
def modRegion (s : State) (k : Nat) (g : Region → Region) : State := setRegion s k (g (regionOf s k))

def tenantOf (s : State) (n : Nat) : Tenant := tget {} s.tenants n
def setTenant (s : State) (n : Nat) (x : Tenant) : State := { s with tenants := tset {} s.tenants n x }
def modTenant (s : State) (n : Nat) (g : Tenant → Tenant) : State := setTenant s n (g (tenantOf s n))

def portOf (s : State) (p : Nat) : Port := tget {} s.ql.ports p
def setPort (s : State) (p : Nat) (x : Port) : State := { s with ql := { s.ql with ports := tset {} s.ql.ports p x } }
def modPort (s : State) (p : Nat) (g : Port → Port) : State := setPort s p (g (portOf s p))

def timerOf (s : State) (n : Nat) : Timer := tget {} s.time.timers n
def setTimer (s : State) (n : Nat) (x : Timer) : State :=
  { s with time := { s.time with timers := tset {} s.time.timers n x } }

def reqOf (s : State) (i : Nat) : Option Req := tfind s.reqs i
def setReq (s : State) (i : Nat) (r : Req) : State := { s with reqs := tput s.reqs i r }
def modReq (s : State) (i : Nat) (g : Req → Req) : State :=
  match reqOf s i with
  | some r => setReq s i (g r)
  | none => s
def delReq (s : State) (i : Nat) : State := { s with reqs := tdel s.reqs i }

def chanOf (s : State) (w : Nat) : Option Channel := tfind s.web.channels w
def setChan (s : State) (w : Nat) (c : Channel) : State :=
  { s with web := { s.web with channels := tput s.web.channels w c } }
def modChan (s : State) (w : Nat) (g : Channel → Channel) : State :=
  match chanOf s w with
  | some c => setChan s w (g c)
  | none => s

def setFaults (s : State) (f : FaultBlk → FaultBlk) : State := { s with faults := f s.faults }
def setKv (s : State) (f : KvBlk → KvBlk) : State := { s with kv := f s.kv }
def setSched (s : State) (f : SchedBlk → SchedBlk) : State := { s with sched := f s.sched }
def setPlates (s : State) (f : PlateBlk → PlateBlk) : State := { s with plates := f s.plates }

/-! ## Time, outward effects, free values -/

/-- What R389 takes at a 1 ms tick. -/
def viewOf (s : State) : TickView :=
  { tenants := s.tenants, reqs := s.reqs.map (fun (e : Nat × Req) => (e.2.tenant, e.2.state)), alloc := s.kv.alloc, channels := s.web.channels,
    groups := s.web.groups, washdowns := s.sec.washdowns, cuts := s.sec.cuts, epochDrops := s.sec.epochDrops }

/-- A command happens at time base value `t`; the time base never counts backwards (R423, log entry 4). When it passes a whole ms, the
state until then is what the last tick saw (R389). -/
def advance (t : Nat) (s : State) : State :=
  { s with time := { s.time with base := max s.time.base t },
           seen := if s.time.base / 1000000 < max s.time.base t / 1000000 then viewOf s else s.seen }

def now (s : State) : Nat := s.time.base

/-- Send something outwards (log entry 3). -/
def emit (s : State) (o : Out) : State := { s with out := s.out ++ [o] }

/-- Drive a pin to a level. -/
def drive (s : State) (p : Pin) (level : Bool) : State :=
  emit { s with pins := { driven := aset s.pins.driven p level } } (.pin p level)

/-- Stop driving a pin. -/
def release (s : State) (p : Pin) : State := { s with pins := { driven := adel s.pins.driven p } }

/-- The level a pin is driven to, `none` when the module does not drive it. -/
def pinLevel (s : State) (p : Pin) : Option Bool := aget s.pins.driven p

/-- A fresh free value (log entry 2). -/
def drawNat (s : State) : Nat := Config.freeNat s.free

/-- Advance the selector of free values. -/
def drawn (s : State) : State := { s with free := s.free + 1 }

/-- The block is in service: the option load has completed and no thermal stop or latch holds it. -/
def inService (s : State) : Bool := s.rst.phase == .service

end Sys2Proof.Machine
end

