-- ==== Sys2Proof/Machine/Operands.lean ====
section
/-! DEFINITION. The operand forms of the commands: unit numbers and keys (R9), the address word (R18, R19), the option
words of the module options domain (R4, R7, R454). -/

namespace Sys2Proof.Machine

/-! ## Unit keys -/

def regionKey (s g : Nat) : Nat := 16 * s + g
def coreKey (s g c : Nat) : Nat := 160 * regionKey s g + c
def tileKey (ck t : Nat) : Nat := 16 * ck + t
def planeKey (tk p : Nat) : Nat := 1408 * tk + p

/-- Region, stack of a core; core, tile and plane of a plane key. -/
def coreRegion (ck : Nat) : Nat := ck / 160
def coreStack (ck : Nat) : Nat := ck / 2560
def regionStack (rk : Nat) : Nat := rk / 16
def planeTile (pk : Nat) : Nat := pk / 1408
def planeNo (pk : Nat) : Nat := pk % 1408
def planeCore (pk : Nat) : Nat := pk / 22528
def tileOfPlane (pk : Nat) : Nat := pk / 1408 % 16
def planeRegion (pk : Nat) : Nat := coreRegion (planeCore pk)
def planeStack (pk : Nat) : Nat := coreStack (planeCore pk)

def nRegions : Nat := 640
def nCores : Nat := 102400

def unitOfStack (s : Nat) : UnitId := .stack s
def unitOfRegion (rk : Nat) : UnitId := .region (rk / 16) (rk % 16)
def unitOfCore (ck : Nat) : UnitId := .core (ck / 2560) (ck / 160 % 16) (ck % 160)
def unitOfTile (tk : Nat) : UnitId := .tile (tk / 40960) (tk / 2560 % 16) (tk / 16 % 160) (tk % 16)
def unitOfPlane (pk : Nat) : UnitId :=
  .plane (planeStack pk) (planeRegion pk % 16) (planeCore pk % 160) (tileOfPlane pk) (planeNo pk)

/-- The planes (global keys) that lie on a unit. -/
def UnitId.holds : UnitId → Nat → Bool
  | .module, _ => true
  | .stack s, pk => planeStack pk == s
  | .region s g, pk => planeRegion pk == regionKey s g
  | .core s g c, pk => planeCore pk == coreKey s g c
  | .tile s g c t, pk => planeTile pk == tileKey (coreKey s g c) t
  | .plane s g c t p, pk => pk == planeKey (tileKey (coreKey s g c) t) p

/-- Whether a unit takes in a core (a tile or a plane counts as its core, R22). -/
def UnitId.hasCore : UnitId → Nat → Bool
  | .module, _ => true
  | .stack s, ck => coreStack ck == s
  | .region s g, ck => coreRegion ck == regionKey s g
  | .core s g c, ck => ck == coreKey s g c
  | .tile s g c _, ck => ck == coreKey s g c
  | .plane s g c _ _, ck => ck == coreKey s g c

/-- Order of physical addresses (R26). -/
def UnitId.order : UnitId → Nat
  | .module => 0
  | .stack s => planeKey (tileKey (coreKey s 0 0) 0) 0
  | .region s g => planeKey (tileKey (coreKey s g 0) 0) 0
  | .core s g c => planeKey (tileKey (coreKey s g c) 0) 0
  | .tile s g c t => planeKey (tileKey (coreKey s g c) t) 0
  | .plane s g c t p => planeKey (tileKey (coreKey s g c) t) p

/-! ## The address word (R18) -/

structure AddrWord where
  phys : Bool
  level : Nat
  module : Nat
  stack : Nat
  region : Nat
  core : Nat
  tile : Nat
  plane : Nat
deriving DecidableEq, Repr

def addrDecode (w : Nat) : AddrWord :=
  { phys := bitAt w 63, level := fld w 58 56, module := fld w 50 40, stack := fld w 33 28, region := fld w 27 24,
    core := fld w 23 16, tile := fld w 15 12, plane := fld w 10 0 }

/-- Reserved bits of the address word are zero. -/
def addrReservedZero (w : Nat) : Bool :=
  fld w 62 59 == 0 && fld w 55 51 == 0 && fld w 39 34 == 0 && fld w 11 11 == 0 && w / 2 ^ 64 == 0

/-- The address word of a physical unit, naming the receiving module (R18). -/
def physWord (u : UnitId) : Nat :=
  let base := 2 ^ 63 + 0x7FF * 2 ^ 40
  match u with
  | .module => base + 5 * 2 ^ 56
  | .stack s => base + 4 * 2 ^ 56 + s * 2 ^ 28
  | .region s g => base + 3 * 2 ^ 56 + s * 2 ^ 28 + g * 2 ^ 24
  | .core s g c => base + 2 * 2 ^ 56 + s * 2 ^ 28 + g * 2 ^ 24 + c * 2 ^ 16
  | .tile s g c t => base + 2 ^ 56 + s * 2 ^ 28 + g * 2 ^ 24 + c * 2 ^ 16 + t * 2 ^ 12
  | .plane s g c t p => base + s * 2 ^ 28 + g * 2 ^ 24 + c * 2 ^ 16 + t * 2 ^ 12 + p

/-- The same word with PHYS 0: the address word of a logical unit. -/
def logicalWord (u : UnitId) : Nat := physWord u - 2 ^ 63

/-- The unit that an address word names at its level. -/
def AddrWord.unit (a : AddrWord) : UnitId :=
  match a.level with
  | 0 => .plane a.stack a.region a.core a.tile a.plane
  | 1 => .tile a.stack a.region a.core a.tile
  | 2 => .core a.stack a.region a.core
  | 3 => .region a.stack a.region
  | 4 => .stack a.stack
  | _ => .module

/-- The logical plane key of an address word of level 0. -/
def wordPlane (w : Nat) : Nat :=
  let a := addrDecode w
  planeKey (tileKey (coreKey a.stack a.region a.core) a.tile) a.plane

/-- The checks of R19: reserved bits, deeper fields zero, ranges, and MODULE 0x7FF or a module present. -/
def addrOk (present : List Nat) (w : Nat) : Bool :=
  let a := addrDecode w
  addrReservedZero w && a.level ≤ 5
  && (a.module == 0x7FF || a.module == 0 && present == [] || a.module ∈ present)
  && (if a.level ≤ 4 then a.stack < (if a.phys then 40 else 36) else a.stack == 0)
  && (if a.level ≤ 3 then a.region < (if a.phys then 16 else 15) else a.region == 0)
  && (if a.level ≤ 2 then a.core < (if a.phys then 160 else 152) else a.core == 0)
  && (if a.level ≤ 1 then a.tile < 16 else a.tile == 0)
  && (if a.level ≤ 0 then a.plane < (if a.phys then 1408 else 1344) else a.plane == 0)

/-! ## The module options domain -/

namespace Off
def pci : Nat := 0x0000
def cmd : Nat := 0x1000
def sched : Nat := 0x2000
def fallback : Nat := 0x3000
def plate : Nat := 0x4000
def kv : Nat := 0x5000
def web : Nat := 0x6000
def share : Nat := 0x7000
def fault : Nat := 0x8000
def sec : Nat := 0x9000
def rst : Nat := 0xA000
def therm : Nat := 0xB000
def time : Nat := 0xC000
def ql : Nat := 0xE000
def sense (j : Nat) : Nat := 0x10000 + 0x1000 * j
def region (rk : Nat) : Nat := 0x100000 + 0x1000 * rk
def core : Nat := 0x400000
def strobeCfg : Nat := core
def convCfg : Nat := core + 0x4
def auditCfg : Nat := core + 0x1040
def srSeed : Nat := core + 0x300C
def dualCfg : Nat := fault + 0x8
def testCfg : Nat := fault + 0xC
def auditPeriod : Nat := fault + 0x34
def confCfg : Nat := sec + 0x4
def rstCfg : Nat := rst + 0x4
def portCtrl (p : Nat) : Nat := ql + 0x1000 + 0x40 * p
/-- QL_PEER_KEY[i] as QL_PEER_SEL names port `p` (R447): kept under an offset of its own per port. -/
def peerKey (p i : Nat) : Nat := 0x1000000 + 0x20 * p + 4 * i
end Off

/-- Offset within a sense block of the entries and the trigger (R182), relative to 0x0100. -/
def senseRel (rel : Nat) : Option Nat :=
  if rel % 4 == 0 && rel < 0x80 then some (rel / 4) else if rel == 0x80 then some 32 else none

/-- Reset value of an option word in the region block (R71, R182). -/
def optResetRegion (rel : Nat) : Nat :=
  if rel == 0x40 then 0x00081400 else if rel == 0x80 then 0x00080A01
  else if rel < 0x100 then 0 else match senseRel (rel - 0x100) with
    | some 32 => 0
    | some _ => 0x00001900
    | none => 0

/-- Mask of the RW-T fields in the region block. Entries 0–15 of a sense converter are RO (R182). -/
def optMaskRegion (rel : Nat) : Nat :=
  if rel == 0x40 then 0x00FF3F03 else if rel == 0x80 then 0x001F3F01
  else if rel < 0x100 then 0 else match senseRel (rel - 0x100) with
    | some 32 => 0xFFF0FFFF
    | some n => if 16 ≤ n then 0x8CFFFFFF else 0
    | none => 0

/-- Reset value of the RW-T fields of the word at a BAR0 offset (register tables of the chapters). -/
def optReset (off : Nat) : Nat :=
  if 0x1000000 ≤ off then 0
  else if off == Off.strobeCfg then 4
  else if off == Off.convCfg then 1
  else if off == Off.auditCfg then 0x8000000C
  else if off == Off.srSeed then 0x5A17C0DE
  else if off == Off.fallback then 0x8000C019
  else if off == Off.plate then 0x07D03200
  else if off == Off.sched then 0x32
  else if off == Off.kv then 0x10C
  else if off == Off.web then 0x00001408
  else if off == Off.fault then 0x00200400
  else if off == Off.dualCfg then 0x016800F0
  else if off == Off.testCfg then 0x801E0A10
  else if off == Off.auditPeriod then 0x3C
  else if off == Off.confCfg then 0xA
  else if off == Off.rstCfg then 2
  else if off == Off.therm then 0x64
  else if off == Off.ql then 0x00140200
  else if Off.ql + 0x1000 ≤ off ∧ off < Off.portCtrl 36 ∧ (off - Off.ql) % 0x40 = 0 then 1
  else if Off.sense 0 ≤ off ∧ off < Off.sense 4 ∧ 0x100 ≤ off % 0x1000 then
    match senseRel (off % 0x1000 - 0x100) with
    | some 32 => 0
    | some _ => 0x00001900
    | none => 0
  else if Off.region 0 ≤ off ∧ off < Off.region 640 then optResetRegion (off % 0x1000)
  else 0

/-- Mask of the RW-T fields of the module options domain at a BAR0 offset; 0 where a register has none (R249). -/
def optMask (off : Nat) : Nat :=
  if off == Off.strobeCfg then 0xF
  else if off == Off.convCfg then 1
  else if off == Off.auditCfg then 0x8000001F
  else if off == Off.srSeed then 0xFFFFFFFF
  else if off == Off.fallback then 0x8000F07F
  else if off == Off.plate then 0xFFFFFF01
  else if off == Off.sched then 0x7F
  else if off == Off.kv then 0x10F
  else if off == Off.web then 0xFFFFFF0F
  else if off == Off.fault then 0xA0FF0F00
  else if off == Off.dualCfg then 0xFFFFFFFF
  else if off == Off.testCfg then 0x803F3F3F
  else if off == Off.auditPeriod then 0xFFF
  else if off == Off.confCfg then 0x800000FF
  else if off == Off.rstCfg then 3
  else if off == Off.therm then 0xFF
  else if off == Off.ql then 0xFFFFFF00
  else if Off.ql + 0x10 ≤ off ∧ off < Off.ql + 0x30 ∧ off % 4 = 0 then 0xFFFFFFFF
  else if Off.ql + 0x1000 ≤ off ∧ off < Off.portCtrl 36 ∧ (off - Off.ql) % 0x40 = 0 then 1
  else if Off.sense 0 ≤ off ∧ off < Off.sense 4 ∧ 0x100 ≤ off % 0x1000 then
    match senseRel (off % 0x1000 - 0x100) with
    | some 32 => 0xFFF0FFFF
    | some n => if 16 ≤ n then 0x8CFFFFFF else 0
    | none => 0
  else if Off.region 0 ≤ off ∧ off < Off.region 640 then optMaskRegion (off % 0x1000)
  else 0

/-- One vote of three: the majority, or the safe side when no two agree (R366). -/
def vote3 (safe a b c : Nat) : Nat := if a = b ∨ a = c then a else if b = c then b else safe

/-- One stored copy of an option word. -/
def optCopy (m : Tbl W32) (off : Nat) : Nat := (tget (BitVec.ofNat 32 (optReset off)) m off).toNat

/-- The option word in effect at a BAR0 offset (R4 RW-T, R366). -/
def opt (s : State) (off : Nat) : Nat :=
  vote3 (optReset off) (optCopy s.opts.a off) (optCopy s.opts.b off) (optCopy s.opts.c off)

/-- Write an option word in all three copies. -/
def setOpt (s : State) (off v : Nat) : State :=
  let d := BitVec.ofNat 32 (optReset off)
  let w := BitVec.ofNat 32 v
  { s with opts := ⟨tset d s.opts.a off w, tset d s.opts.b off w, tset d s.opts.c off w⟩ }

/-! ## Fields of the option words, with the limits their tables give -/

def clampTo (lo hi v : Nat) : Nat := max lo (min hi v)

/-- CORE_STROBE_CFG.CONV_DELAY, CONV_CFG.PD_EN (R71). -/
def convDelay (s : State) : Nat := fld (opt s Off.strobeCfg) 3 0
def pdEn (s : State) : Bool := bitAt (opt s Off.convCfg) 0
/-- RGN_STROBE_CFG (R71): MODE 3 acts as 0, EDGE_PHASE above 39 as 39. -/
def strobeMode (s : State) (rk : Nat) : Nat :=
  let m := fld (opt s (Off.region rk + 0x40)) 1 0
  if m = 3 then 0 else m
def edgePhase (s : State) (rk : Nat) : Nat := min 39 (fld (opt s (Off.region rk + 0x40)) 13 8)
def autoCores (s : State) (rk : Nat) : Nat := fld (opt s (Off.region rk + 0x40)) 23 16
/-- SKIM_AUDIT_CFG (R102). -/
def auditEn (s : State) : Bool := bitAt (opt s Off.auditCfg) 31
def auditN (s : State) : Nat := 2 ^ clampTo 8 16 (fld (opt s Off.auditCfg) 4 0)
/-- MOD_FALLBACK_CFG (R151). -/
def fbEn (s : State) : Bool := bitAt (opt s Off.fallback) 31
def fbHold (s : State) : Nat := 2 ^ max 6 (fld (opt s Off.fallback) 15 12)
def fbBudget (s : State) : Nat := min 100 (fld (opt s Off.fallback) 6 0)
/-- RGN_CAL_CFG (R182). -/
def recalDelta (s : State) (rk : Nat) : Nat := clampTo 2 20 (fld (opt s (Off.region rk + 0x80)) 20 16)
def driftInterval (s : State) (rk : Nat) : Nat := 100 * clampTo 1 50 (fld (opt s (Off.region rk + 0x80)) 13 8)
def tempEn (s : State) (rk : Nat) : Bool := bitAt (opt s (Off.region rk + 0x80)) 0
/-- MOD_PLATE_CFG (R224), in ns. -/
def pinMax (s : State) : Nat := 1000000 * max 10 (fld (opt s Off.plate) 31 16)
def drainMax (s : State) : Nat := 100000000 * max 1 (fld (opt s Off.plate) 15 8)
def autoSpare (s : State) : Bool := bitAt (opt s Off.plate) 0
/-- MOD_SCHED_CFG.WEB_SHARE (R282). -/
def webShare (s : State) : Nat := min 100 (fld (opt s Off.sched) 6 0)
/-- MOD_KV_CFG (R306). -/
def dropEn (s : State) : Bool := bitAt (opt s Off.kv) 8
def kMax (s : State) : Nat := clampTo 4 12 (fld (opt s Off.kv) 3 0)
/-- WEB_CFG (R325). -/
def fillLimit (s : State) : Nat := fld (opt s Off.web) 31 16
def startMs (s : State) : Nat := max 1 (fld (opt s Off.web) 15 8)
def queueMax (s : State) : Nat := clampTo 1 8 (fld (opt s Off.web) 3 0)
/-- MOD_FAULT_CFG (R373), P2 mode under R365. -/
def p2Mode (s : State) : Bool := bitAt (opt s Off.fault) 31 || s.nv.p2Fuse
def dualOnly (s : State) : Bool := bitAt (opt s Off.fault) 29
def ceRetire (s : State) : Nat := max 1 (fld (opt s Off.fault) 23 16)
def restartMax (s : State) : Nat := fld (opt s Off.fault) 11 8
def tauW (s : State) : Nat := fld (opt s Off.dualCfg) 31 16
def tauD (s : State) : Nat := fld (opt s Off.dualCfg) 15 0
/-- MOD_TEST_CFG (R373), times in ns. -/
def testEn (s : State) : Bool := bitAt (opt s Off.testCfg) 31
def testDefer (s : State) : Nat := 60000000000 * clampTo 1 60 (fld (opt s Off.testCfg) 21 16)
def slotCores (s : State) : Nat := 1024 * clampTo 1 40 (fld (opt s Off.testCfg) 13 8)
def testInterval (s : State) : Nat := 900000000000 * clampTo 1 32 (fld (opt s Off.testCfg) 5 0)
def auditPeriodNs (s : State) : Nat := 1000000000 * clampTo 10 3600 (fld (opt s Off.auditPeriod) 11 0)
/-- SEC_CONF_CFG (R396). -/
def overwriteEn (s : State) : Bool := bitAt (opt s Off.confCfg) 31
def confRunMs (s : State) : Nat := clampTo 1 100 (fld (opt s Off.confCfg) 7 0)
/-- THERM_CFG.ALERT in °C (R416). -/
def alertLevel (s : State) : Nat := clampTo 60 105 (fld (opt s Off.therm) 7 0)
/-- QL_SYS_CFG (R447). -/
def sysRole (s : State) : Nat := fld (opt s Off.ql) 31 30
def uplink (s : State) : Nat := min 35 (fld (opt s Off.ql) 29 24)
def sealTimeoutNs (s : State) : Nat := 1000000 * max 1 (fld (opt s Off.ql) 23 16)
def boundaryLead (s : State) : Nat := 1000 * clampTo 1 100 (fld (opt s Off.ql) 15 8)
def portEn (s : State) (p : Nat) : Bool := bitAt (opt s (Off.portCtrl p)) 0
/-- Expected BIND_KEY_ID of a port's peer (R437). -/
def peerKeyOf (s : State) (p : Nat) : Nat :=
  (List.range 8).foldl (fun acc i => acc + opt s (Off.peerKey p i) * 2 ^ (32 * i)) 0
/-- RST_CFG lies in the always-on domain (R416). -/
def warmPinEn (s : State) : Bool := bitAt s.aon.rstCfg.toNat 1
def keepTrain (s : State) : Bool := bitAt s.aon.rstCfg.toNat 0
/-- A sense entry or trigger word: converter 0–639 a region's, 640 + j hub converter j. -/
def senseOff (conv rel : Nat) : Nat := if conv < 640 then Off.region conv + rel else Off.sense (conv - 640) + rel
def senseEntry (s : State) (conv n : Nat) : Nat := opt s (senseOff conv (0x100 + 4 * n))
def senseTrig (s : State) (conv : Nat) : Nat := opt s (senseOff conv 0x180)

/-! ## Voted words of R366 -/

def tenantSlot (s : State) (n : Nat) : Nat :=
  let x := (tenantOf s n).slot
  vote3 2 x.a x.b x.c

def rstCount (s : State) (i : Nat) : Nat :=
  let c := s.aon.counts
  vote3 0xFFFF (c.a.getD i 0) (c.b.getD i 0) (c.c.getD i 0)

/-- Units fenced by majority (each entry is one bit). -/
def fencedUnits (s : State) : List UnitId :=
  let f := s.map.fenced
  f.a.filter (fun u => u ∈ f.b || u ∈ f.c) ++ f.b.filter (fun u => u ∈ f.c && u ∉ f.a)

end Sys2Proof.Machine
end

