-- ==== Sys2Proof/Decode.lean ====
section
/-! DEFINITION. The layouts of R231 and R249: what a packet's bytes spell. The table of commands gives no bits, so no word
spells a command by itself. -/

namespace Sys2Proof

open Sys2Proof.Machine

/-- No row of the table gives bits. -/
def decodeTableWord (_nbits _w : Nat) : Option Instr := none

/-! ## Packets -/

/-- The number at `n` bytes from offset `o`; bytes beyond the end read zero. -/
def leAt (b : List Byte) (o n : Nat) : Nat := leNat ((b.drop o).take n)

def w32At (b : List Byte) (o : Nat) : W32 := BitVec.ofNat 32 (leAt b o 4)

/-- Entries of OPTION_SET (R249): one for each 16-byte unit after the header. -/
def optEntries (b : List Byte) : Nat → List OptEntry
  | 0 => []
  | n + 1 => ⟨leAt b 0 4, w32At b 4, w32At b 8⟩ :: optEntries (b.drop 16) n

def u16s (b : List Byte) : Nat → List Nat
  | 0 => []
  | n + 1 => leAt b 0 2 :: u16s (b.drop 2) n

/-- Parameters by opcode (R249); `none` for an unassigned opcode. `p` is the payload, `units` the packet's LENGTH. -/
def decodeParams (op units : Nat) (p : List Byte) : Option CmdParams :=
  match op with
  | 0x0001 => some (.identify (leAt p 0 8))
  | 0x0002 => some (.negotiate (leAt p 0 1))
  | 0x0003 => some (.fenceReportGet (leAt p 0 8) (leAt p 8 4))
  | 0x0010 => some (.optionSet (optEntries p (units - 1)))
  | 0x0011 => some (.powerSet (leAt p 0 2))
  | 0x0012 => some (.resourceAlloc (leAt p 0 1) (leAt p 1 1) (leAt p 2 2))
  | 0x0013 => some (.resourceFree (leAt p 0 1) (leAt p 1 1))
  | 0x0014 => some (.resetWarm (leAt p 0 4))
  | 0x0020 => some (.txnBegin (leAt p 0 1))
  | 0x0021 => some .txnCommit
  | 0x0022 => some .txnRollback
  | 0x0030 => some .calSelf
  | 0x0031 => some (.calRecal (leAt p 0 8))
  | 0x0032 => some (.calDrift (leAt p 0 8))
  | 0x0033 => some (.testRun (leAt p 0 8))
  | 0x0034 => some (.fenceUnit (leAt p 0 8))
  | 0x0035 => some .proofEnter
  | 0x0036 => some .proofLeave
  | 0x0040 => some (.plateLoad ⟨⟨leAt p 0 1, leAt p 2 2, leAt p 8 8, leAt p 16 8⟩, bitAt (leAt p 1 1) 0⟩)
  | 0x0041 => some (.plateRelease (leAt p 0 16))
  | 0x0042 => some (.formeLoad (leAt p 0 1) (leAt p 8 8) (leAt p 16 4))
  | 0x0043 => some (.plateSourceSet (leAt p 0 16) (leAt p 16 1) (leAt p 18 2) (leAt p 24 8))
  | 0x0044 => some (.plateDefectAccept (leAt p 0 8))
  | 0x0045 => some (.overlaySet (leAt p 0 2) (leAt p 2 1) (leAt p 4 2) (leAt p 8 8) (leAt p 16 4))
  | 0x0050 => some (.tenantSet (leAt p 0 2)
      ⟨bitAt (leAt p 2 1) 0, bitAt (leAt p 2 1) 1, leAt p 4 4, leAt p 8 4, leAt p 12 4, leAt p 16 4, leAt p 20 2, leAt p 22 2⟩)
  | 0x0051 => some (.keyLoad (leAt p 0 2))
  | 0x0052 => some (.tenantRemove (leAt p 0 2))
  | 0x0053 => some (.keyRegister (leAt p 0 56))
  | 0x0054 => some (.attest (leAt p 0 32) (leAt p 32 8))
  | 0x0055 => some (.debugUnlock (leAt p 5 1))
  | 0x0060 => some (.reqSubmit
      { slot := leAt p 0 1, pinned := bitAt (leAt p 1 1) 0, speculate := bitAt (leAt p 1 1) 1, web := bitAt (leAt p 1 1) 2,
        channel := leAt p 2 2, dclass := leAt p 4 1, maxTokens := leAt p 8 4, temperature := w32At p 12, topK := leAt p 16 2,
        topP := w32At p 20, repPenalty := w32At p 24, promptTokens := leAt p 28 4, promptAddr := leAt p 32 8,
        ringAddr := leAt p 40 8, ringBytes := leAt p 48 4, deadline := leAt p 52 8 })
  | 0x0061 => some (.reqCancel (leAt p 0 4))
  | 0x0070 => some (.webOpen
      { channel := leAt p 0 2, cadence := leAt p 2 2, frameBytes := leAt p 4 4, fill := leAt p 8 1, dclass := leAt p 9 1,
        group := leAt p 10 2, silenceAddr := leAt p 16 8, destAddr := leAt p 24 8, destBytes := leAt p 32 4 })
  | 0x0071 => some (.webClose (leAt p 0 2) (leAt p 2 1))
  | 0x0072 => some (.webGroup (leAt p 0 2) (u16s (p.drop 8) (leAt p 2 2)))
  | _ => none

/-- Ranges (offset, bytes) of the payload that hold parameters (R249); every other byte is reserved. -/
def paramRanges (p : CmdParams) (units : Nat) : List (Nat × Nat) :=
  match p with
  | .identify _ => [(0, 8)]
  | .negotiate _ => [(0, 1)]
  | .fenceReportGet _ _ => [(0, 12)]
  | .optionSet _ => (List.range (units - 1)).map (fun i => (16 * i, 12))
  | .powerSet _ => [(0, 2)]
  | .resourceAlloc _ _ _ => [(0, 4)]
  | .resourceFree _ _ => [(0, 2)]
  | .resetWarm _ => [(0, 4)]
  | .txnBegin _ => [(0, 1)]
  | .txnCommit => []
  | .txnRollback => []
  | .calSelf => []
  | .calRecal _ => [(0, 8)]
  | .calDrift _ => [(0, 8)]
  | .testRun _ => [(0, 8)]
  | .fenceUnit _ => [(0, 8)]
  | .proofEnter => []
  | .proofLeave => []
  | .plateLoad _ => [(0, 4), (8, 16)]
  | .plateRelease _ => [(0, 16)]
  | .formeLoad _ _ _ => [(0, 1), (8, 12)]
  | .plateSourceSet _ _ _ _ => [(0, 17), (18, 2), (24, 8)]
  | .plateDefectAccept _ => [(0, 8)]
  | .overlaySet _ _ _ _ _ => [(0, 3), (4, 2), (8, 12)]
  | .tenantSet _ _ => [(0, 3), (4, 20)]
  | .keyLoad _ => [(0, 2), (4, 1616)]
  | .tenantRemove _ => [(0, 2)]
  | .keyRegister _ => [(0, 56)]
  | .attest _ _ => [(0, 40)]
  | .debugUnlock _ => [(0, 4096)]
  | .reqSubmit _ => [(0, 5), (8, 10), (20, 40)]
  | .reqCancel _ => [(0, 4)]
  | .webOpen _ => [(0, 12), (16, 20)]
  | .webClose _ _ => [(0, 3)]
  | .webGroup _ ms => [(0, 4), (8, 2 * ms.length)]

/-- Reserved bits inside the flag bytes and the address words of a parameter block (R8, R18). -/
def flagBitsZero (p : CmdParams) (b : List Byte) : Bool :=
  match p with
  | .plateLoad _ => leAt b 1 1 < 2
  | .tenantSet _ _ => leAt b 2 1 < 4
  | .reqSubmit _ => leAt b 1 1 < 8
  | .calRecal w => addrReservedZero w
  | .calDrift w => addrReservedZero w
  | .testRun w => addrReservedZero w
  | .fenceUnit w => addrReservedZero w
  | .plateDefectAccept w => addrReservedZero w
  | _ => true

/-- Every byte outside the ranges is zero. -/
def restZero (rs : List (Nat × Nat)) : Nat → List Byte → Bool
  | _, [] => true
  | i, x :: xs => (x == 0 || rs.any (fun r => r.1 ≤ i && i < r.1 + r.2)) && restZero rs (i + 1) xs

/-- Header and parameters of a packet (R231); the parameters are `none` for an unassigned opcode. -/
def decodePacket (fn : Nat) (b : List Byte) : Hdr × Option CmdParams :=
  let units := leAt b 4 2
  let pay := b.drop 16
  let p := decodeParams (leAt b 0 2) units pay
  let fl := leAt b 3 1
  let zero := fl < 8 && leAt b 14 2 == 0 && (match p with
    | some q => flagBitsZero q pay && restZero (paramRanges q units) 0 pay
    | none => true)
  ({ fn := fn, tenant := leAt b 6 2, seq := leAt b 8 4, txn := leAt b 12 2, arch := leAt b 2 1 % 16, version := leAt b 2 1 / 16,
     length := units, irq := bitAt fl 0, fence := bitAt fl 1, quiet := bitAt fl 2, resZero := zero }, p)

end Sys2Proof
end

