-- ==== Sys2Proof/Machine/Units.lean ====
section
/-! DEFINITION. The unit hierarchy of 01_levels: logical and physical numbering, health, spares, fences with their
escalation and refills, map changes, fence reports (R372), and the reserve registers (R32). -/

namespace Sys2Proof.Machine

/-! ## Health (R13, R22) -/

def stackFenced (s : State) (ps : Nat) : Bool := UnitId.stack ps ∈ fencedUnits s
def regionFenced (s : State) (rk : Nat) : Bool := unitOfRegion rk ∈ fencedUnits s || stackFenced s (regionStack rk)
def coreFenced (s : State) (ck : Nat) : Bool := unitOfCore ck ∈ fencedUnits s || regionFenced s (coreRegion ck)

/-- Fenced units of a parent by themselves (R22 counts those). -/
def fencedCoresOf (fs : List UnitId) (rk : Nat) : Nat :=
  (fs.filter (fun u => match u with
    | .core s g _ => regionKey s g == rk
    | _ => false)).length
def fencedRegionsOf (fs : List UnitId) (ps : Nat) : Nat :=
  (fs.filter (fun u => match u with
    | .region s _ => s == ps
    | _ => false)).length
def fencedStacksOf (fs : List UnitId) : Nat :=
  (fs.filter (fun u => match u with
    | .stack _ => true
    | _ => false)).length

/-! ## Logical to physical (R13-R16) -/

def physStack (s : State) (l : Nat) : Option Nat := tget (some l) s.map.stackMap l
def physRegion (s : State) (ps l : Nat) : Option Nat := tget (some l) s.map.regionMap (16 * ps + l)
def physCore (s : State) (rk l : Nat) : Option Nat := tget (some l) s.map.coreMap (160 * rk + l)
/-- The plane map of a tile (R43): logical plane to physical plane. -/
def physPlane (s : State) (tk p : Nat) : Nat := tget p s.arr.planeMap (1408 * tk + p)

/-- The physical core of a logical core key. -/
def physCoreKey (s : State) (lck : Nat) : Option Nat :=
  match physStack s (coreStack lck) with
  | none => none
  | some ps => match physRegion s ps (coreRegion lck % 16) with
    | none => none
    | some pg => match physCore s (regionKey ps pg) (lck % 160) with
      | none => none
      | some pc => some (coreKey ps pg pc)

/-- The physical plane of a logical plane key. -/
def physPlaneKey (s : State) (lpk : Nat) : Option Nat :=
  match physCoreKey s (planeCore lpk) with
  | none => none
  | some ck =>
    let tk := tileKey ck (tileOfPlane lpk)
    some (planeKey tk (physPlane s tk (planeNo lpk)))

/-- The physical unit of a logical unit as an address word names it; `none` when it has none (R24). -/
def physUnit (s : State) : UnitId → Option UnitId
  | .module => some .module
  | .stack l => (physStack s l).map .stack
  | .region l g => match physStack s l with
    | none => none
    | some ps => (physRegion s ps g).map (fun pg => .region ps pg)
  | .core l g c => (physCoreKey s (coreKey l g c)).map unitOfCore
  | .tile l g c t => (physCoreKey s (coreKey l g c)).map (fun ck => unitOfTile (tileKey ck t))
  | .plane l g c t p => (physPlaneKey s (planeKey (tileKey (coreKey l g c) t) p)).map unitOfPlane

/-- The logical stack, region (with its physical stack's logical number) and core that a physical one holds. -/
def logicalStack (s : State) (ps : Nat) : Option Nat := firstBelow 36 (fun l => physStack s l == some ps)
def logicalRegion (s : State) (rk : Nat) : Option Nat :=
  firstBelow 15 (fun l => physRegion s (regionStack rk) l == some (rk % 16))
def logicalCore (s : State) (ck : Nat) : Option Nat :=
  firstBelow 152 (fun l => physCore s (coreRegion ck) l == some (ck % 160))

/-- The logical core key that a physical core holds, `none` when any level holds none. -/
def logicalCoreKey (s : State) (ck : Nat) : Option Nat :=
  match logicalStack s (coreStack ck), logicalRegion s (coreRegion ck), logicalCore s ck with
  | some l, some g, some c => some (coreKey l g c)
  | _, _, _ => none

/-- The logical plane number of a physical plane of a tile. -/
def logicalPlane (s : State) (tk p : Nat) : Option Nat :=
  if p < 1344 ∧ physPlane s tk p = p then some p
  else (s.arr.planeMap.find? (fun e => e.1 / 1408 == tk && e.2 == p)).map (fun e => e.1 % 1408)

/-- The logical unit that a physical unit holds. -/
def logicalUnit (s : State) : UnitId → Option UnitId
  | .module => some .module
  | .stack p => (logicalStack s p).map .stack
  | .region p g => match logicalStack s p, logicalRegion s (regionKey p g) with
    | some l, some lg => some (.region l lg)
    | _, _ => none
  | .core p g c => (logicalCoreKey s (coreKey p g c)).map unitOfCore
  | .tile p g c t => (logicalCoreKey s (coreKey p g c)).map (fun ck => unitOfTile (tileKey ck t))
  | .plane p g c t n => match logicalCoreKey s (coreKey p g c), logicalPlane s (tileKey (coreKey p g c) t) n with
    | some ck, some l => some (unitOfPlane (planeKey (tileKey ck t) l))
    | _, _ => none

def logicalWordOf (s : State) (u : UnitId) : Nat := ((logicalUnit s u).map logicalWord).getD 0

/-! ## Fence reports (R372) -/

/-- Queue a report; a full queue of 1,024 discards it and counts it in LOST. -/
def addReport (s : State) (r : Report) : State :=
  if s.faults.reports.length < 1024 then
    { s with faults := { s.faults with reports := s.faults.reports ++ [{ r with seq := s.faults.nextReport }],
                                       nextReport := (s.faults.nextReport + 1) % 2 ^ 32, added := true } }
  else { s with faults := { s.faults with lost := satAdd 16 s.faults.lost 1 } }

/-- The step of detection of a report: the running step, or the next one (R259). -/
def stepNow (s : State) : Nat :=
  match s.sched.step with
  | some k => k.number
  | none => s.sched.nextStep

def fenceReport (s : State) (u : UnitId) (cause : Cause) (detail : Nat) (spare : Option UnitId) : Report :=
  { kind := 0, cause := cause, detail := detail, seq := 0, time := now s, phys := physWord u,
    logical := logicalWordOf s u, step := stepNow s, second := (spare.map physWord).getD 0, count := 0, data := 0,
    entries := [] }

/-! ## Spares (R14, R15, R20) -/

def refillUses (s : State) (u : UnitId) : Bool := s.map.refills.any (fun r => r.spare == some u)

def stackSpare (s : State) (ps : Nat) : Bool :=
  !stackFenced s ps && (logicalStack s ps).isNone && !refillUses s (.stack ps)
def regionSpare (s : State) (rk : Nat) : Bool :=
  !regionFenced s rk && (logicalRegion s rk).isNone && !refillUses s (unitOfRegion rk)
def coreSpare (s : State) (ck : Nat) : Bool :=
  !coreFenced s ck && (logicalCore s ck).isNone && !refillUses s (unitOfCore ck)

/-- The lowest-numbered healthy spare of a unit's parent (R15). -/
def spareFor (s : State) : UnitId → Option UnitId
  | .stack _ => (firstBelow 40 (stackSpare s)).map .stack
  | .region p _ => (firstBelow 16 (fun g => regionSpare s (regionKey p g))).map (fun g => .region p g)
  | .core p g _ => (firstBelow 160 (fun c => coreSpare s (coreKey p g c))).map (fun c => .core p g c)
  | _ => none

/-- Same parent, for R26. -/
def sameParent : UnitId → UnitId → Bool
  | .stack _, .stack _ => true
  | .region a _, .region b _ => a == b
  | .core a g _, .core b h _ => a == b && g == h
  | _, _ => false

/-- The map entry that a physical unit holds: key of its map. -/
def mapKeyOf (s : State) : UnitId → Option Nat
  | .stack p => logicalStack s p
  | .region p g => (logicalRegion s (regionKey p g)).map (fun l => 16 * p + l)
  | .core p g c => (logicalCore s (coreKey p g c)).map (fun l => 160 * regionKey p g + l)
  | _ => none

/-- Logical planes that the records of an image name: ADDR and TWIN (R189). -/
def imagePlanes (img : PlateImage) : List Nat :=
  img.addrs.flatMap (fun a => wordPlane a.1 :: (if a.2 = 0 then [] else [wordPlane a.2]))

/-- Logical plane keys of committed plates. Planes that an open change writes move with their claims (R28). -/
def platePlanes (s : State) : List Nat := s.plates.table.flatMap (·.planes)

/-- Where a logical plane lies once the refill's map change is made. -/
def physInSpare (s : State) (r : Refill) (lpk : Nat) : Option Nat :=
  let t := tileOfPlane lpk
  let inCore := fun (ck : Nat) => let tk := tileKey ck t; some (planeKey tk (physPlane s tk (planeNo lpk)))
  match r.spare with
  | some (.stack p) => match physRegion s p (planeRegion lpk % 16) with
    | none => none
    | some g => match physCore s (regionKey p g) (planeCore lpk % 160) with
      | none => none
      | some c => inCore (coreKey p g c)
  | some (.region p g) => match physCore s (regionKey p g) (planeCore lpk % 160) with
    | none => none
    | some c => inCore (coreKey p g c)
  | some (.core p g c) => inCore (coreKey p g c)
  | some (.plane p g c t1 n) => some (planeKey (tileKey (coreKey p g c) t1) n)
  | _ => none

/-- Where a logical plane that lies at `pk` lies now and will lie as refills go on: in a spare, and in a spare of a unit of that spare. A chain
has one step for each level at most. -/
def placesOf (s : State) (l : Nat) : Nat → Nat → List Nat
  | 0, pk => [pk]
  | n + 1, pk => pk :: ((s.map.refills.filter (fun r => r.unit.holds pk)).filterMap (fun r => physInSpare s r l)).flatMap (placesOf s l n)

def placesNow (s : State) (l : Nat) : List Nat := match physPlaneKey s l with
  | some p => placesOf s l 4 p
  | none => []

/-- Logical planes of committed plates that lie on a physical unit. -/
def planesOn (s : State) (u : UnitId) : List Nat :=
  sortAsc ((platePlanes s).filter (fun l => match physPlaneKey s l with
    | some p => u.holds p
    | none => false))

/-- The plane is written by a refill and not by a load. -/
def isRefill (s : State) (pk : Nat) : Bool := s.map.refills.any (fun r => r.planes.any (fun l => physInSpare s r l == some pk))

/-! ## Fencing (R17, R22-R28, R358) -/

def markFenced (s : State) (u : UnitId) : State :=
  let f := s.map.fenced
  { s with map := { s.map with fenced := ⟨addOnce f.a u, addOnce f.b u, addOnce f.c u⟩ } }

/-- Products of the unit still outstanding in the running step fail: the passes that name it are withheld (R263, R358). -/
def failOutstanding (s : State) (u : UnitId) : State :=
  match s.sched.step with
  | none => s
  | some k => { s with sched := { s.sched with step := some { k with alarmed := addOnce k.alarmed u } } }

/-- Spares of one parent in ascending order of the fenced units' addresses (R26): the refills of the parent give up
their spares and take them again in order. A refill whose spare changes starts over (R27). -/
def assignSpares (s : State) : List Refill → State
  | [] => s
  | r :: rs =>
    let sp := spareFor s r.unit
    let r' := if sp = r.spare then r else { r with spare := sp, planes := planesOn s r.unit, blocked := false }
    assignSpares { s with map := { s.map with refills := s.map.refills ++ [r'] } } rs

/-- A refill of the parent whose spare the fences of this boundary still order: one of an earlier boundary keeps its spare. -/
def reorders (u : UnitId) (r : Refill) : Bool := sameParent r.unit u && !(r.settled && r.spare.isSome)

def reassign (s : State) (u : UnitId) : State :=
  let mine := sortBy (fun r => r.unit.order) (s.map.refills.filter (reorders u))
  assignSpares { s with map := { s.map with refills := s.map.refills.filter (fun r => !reorders u r) } } mine

/-- Refills of other units leave a unit that is fenced, with what waits to be written there: one whose spare it is gives it back (R27); one whose
spare holds it writes the planes that lie there anew, once the unit's own map change has given them another place. -/
def leaveUnit (s : State) (u : UnitId) : State :=
  { s with
    plates := { s.plates with writing := s.plates.writing.filter (fun e => !(u.holds e.1 && isRefill s e.1)) },
    map := { s.map with refills := s.map.refills.map (fun r =>
      if r.spare = some u then { r with spare := none }
      else { r with planes := sortAsc ((r.planes ++ (planesOn s r.unit).filter (fun l => (physInSpare s r l).any u.holds)).eraseDups) }) } }

/-- Fence one unit at its level: mark it, stop its strobes, move its logical identity to a spare, report it. -/
def fenceOne (s : State) (u : UnitId) (cause : Cause) (detail : Nat) : State :=
  if u ∈ fencedUnits s then s
  else
    let s1 := failOutstanding (markFenced s u) u
    let s2 := leaveUnit s1 u
    let s3 := match mapKeyOf s2 u with
      | some k => { s2 with map := { s2.map with refills := s2.map.refills ++
          [{ unit := u, spare := none, logical := k, planes := planesOn s2 u, blocked := false }] } }
      | none => s2
    let s4 := reassign s3 u
    let spare := ((s4.map.refills.find? (fun r => r.unit == u)).map (·.spare)).getD none
    addReport s4 (fenceReport s u cause detail spare)

/-- Withdraw the HBM half of a fenced stack (R25). -/
def withdrawHalf (s : State) (ps : Nat) : State := { s with map := { s.map with withdrawn := addOnce s.map.withdrawn ps } }

def fenceStack (s : State) (ps : Nat) (cause : Cause) (detail : Nat) : State :=
  withdrawHalf (fenceOne s (.stack ps) cause detail) ps

/-- A stack with more than one fenced region is fenced (R22). -/
def fenceRegion (s : State) (rk : Nat) (cause : Cause) (detail : Nat) : State :=
  let s1 := fenceOne s (unitOfRegion rk) cause detail
  if 1 < fencedRegionsOf (fencedUnits s1) (regionStack rk) then fenceStack s1 (regionStack rk) cause detail else s1

/-- A region with more than 8 fenced cores is fenced (R22). -/
def fenceCore (s : State) (ck : Nat) (cause : Cause) (detail : Nat) : State :=
  let s1 := fenceOne s (unitOfCore ck) cause detail
  if 8 < fencedCoresOf (fencedUnits s1) (coreRegion ck) then fenceRegion s1 (coreRegion ck) cause detail else s1

/-- The physical planes of a tile in a state of R39, by the descriptors listed and the factory default. -/
def descDefault (s : State) (p : Nat) : PlaneDesc :=
  { state := if !s.rst.loadDone then 0 else if p < 1344 then 1 else 3, wmode := 0, width := 0, zeroPoint := 0, skimValid := 0,
    skimRow := [], xmap := [] }

def descOf (s : State) (pk : Nat) : PlaneDesc :=
  if s.rst.loadDone then (tfind s.arr.desc pk).getD (descDefault s (planeNo pk)) else descDefault s (planeNo pk)

def setDesc (s : State) (pk : Nat) (d : PlaneDesc) : State := { s with arr := { s.arr with desc := tput s.arr.desc pk d } }

def setDescState (s : State) (pk st : Nat) : State := setDesc s pk { descOf s pk with state := st }

def planesIn (s : State) (tk st : Nat) : List Nat :=
  (List.range 1408).filter (fun p => (descOf s (planeKey tk p)).state == st)

/-- Retire a physical plane: it holds no logical plane any more; its logical plane, if any, moves to the lowest-numbered
SPARE plane of the tile and is refilled there (R15, R22, R201). More than 64 retired planes fence the tile, and with it
the core (R22). -/
def retirePlane (s : State) (pk : Nat) (cause : Cause) : State :=
  let tk := planeTile pk
  let s1 := setDescState s pk 4
  let s2 := match logicalPlane s tk (planeNo pk), (planesIn s1 tk 3).head? with
    | some l, some sp =>
      let s' := setDescState s1 (planeKey tk sp) 5
      { s' with map := { s'.map with refills := s'.map.refills ++
          [{ unit := unitOfPlane pk, spare := some (unitOfPlane (planeKey tk sp)), logical := 1408 * tk + l,
             planes := planesOn s (unitOfPlane pk), blocked := false }] } }
    | _, _ => s1
  let s3 := addReport s2 (fenceReport s (unitOfPlane pk) cause 0
    ((s2.map.refills.find? (fun r => r.unit == unitOfPlane pk)).map (·.spare)).join)
  if 64 < (planesIn s3 tk 4).length ∨ ((logicalPlane s tk (planeNo pk)).isSome ∧ (planesIn s1 tk 3) = []) then
    fenceCore (markFenced s3 (unitOfTile tk)) (planeCore pk) cause 0
  else s3

/-- A unit is fenced, by itself or within a fenced larger unit; a plane is fenced once it is retired (R22). -/
def unitFenced (s : State) (u : UnitId) : Bool :=
  u ∈ fencedUnits s || (match u with
    | .module => false
    | .stack _ => false
    | .region p _ => stackFenced s p
    | .core p g c => coreFenced s (coreKey p g c)
    | .tile p g c _ => coreFenced s (coreKey p g c)
    | .plane p g c t n => (descOf s (planeKey (tileKey (coreKey p g c) t) n)).state == 4 || coreFenced s (coreKey p g c))

/-- Fence a unit of any level (R22): a tile takes its core with it, a plane is retired. -/
def fenceUnitOp (s : State) (u : UnitId) (cause : Cause) (detail : Nat) : State :=
  match u with
  | .module => s
  | .stack p => fenceStack s p cause detail
  | .region p g => fenceRegion s (regionKey p g) cause detail
  | .core p g c => fenceCore s (coreKey p g c) cause detail
  | .tile p g c t => fenceCore (markFenced s (.tile p g c t)) (coreKey p g c) cause detail
  | .plane p g c t n => retirePlane s (planeKey (tileKey (coreKey p g c) t) n) cause

/-! ## Twins and usable planes (R353, R355) -/

/-- Twin of a logical plane in the committed plates, in either direction (R353). -/
def twinOf (s : State) (lpk : Nat) : Option Nat :=
  s.plates.table.findSome? (fun p => tfind p.twins lpk)

def primaryOf (s : State) (lpk : Nat) : Option Nat :=
  s.plates.table.findSome? (fun p => (p.twins.find? (fun e => e.2 == lpk)).map (·.1))

/-- A logical plane can be strobed now: its physical unit exists, is not fenced, its core is not in a test
(R371) and it is not being rewritten. -/
def planeUsable (s : State) (lpk : Nat) : Bool :=
  match physPlaneKey s lpk with
  | none => false
  | some pk => !coreFenced s (planeCore pk) && (coreOf s (planeCore pk)).testing.isNone && (descOf s pk).state != 4
      && (descOf s pk).state != 5

/-! ## Map changes (R17, R32) -/

/-- One map change: no other logical unit moves (R15). -/
def mapChange (s : State) (r : Refill) : State :=
  match r.unit, r.spare with
  | .stack _, sp =>
    let dst : Option Nat := match sp with
      | some (.stack p) => some p
      | _ => none
    { s with map := { s.map with stackMap := tset (some r.logical) s.map.stackMap r.logical dst } }
  | .region _ _, some (.region _ g) =>
    { s with map := { s.map with regionMap := tset (some (r.logical % 16)) s.map.regionMap r.logical (some g) } }
  | .core _ _ _, some (.core _ _ c) =>
    { s with map := { s.map with coreMap := tset (some (r.logical % 160)) s.map.coreMap r.logical (some c) } }
  | .plane _ _ _ _ _, some (.plane st g c tl p) =>
    let pk := planeKey (tileKey (coreKey st g c) tl) p
    let s1 := if (descOf s pk).state = 5 then setDescState s pk 1 else s
    { s1 with arr := { s1.arr with planeMap := tset (r.logical % 1408) s1.arr.planeMap r.logical p } }
  | _, _ => s

/-- A refill is complete when no plane is left to write; the refill of a stack without a spare is complete at once (R24). A
region or core without a spare has had its parent fenced. -/
def refillDone (r : Refill) : Bool :=
  match r.unit, r.spare with
  | .stack _, none => true
  | _, none => false
  | _, some _ => r.planes == []

/-- Halves whose withdrawal has taken effect: the refill of their stack, if it has one, is done. A spare stack has none, so its half goes
at the first boundary after its fence (R25; log entry 67). -/
def settledHalves (s : State) : List Nat := s.map.withdrawn.filter (fun h => !s.map.refills.any (fun r => r.unit == .stack h))

/-- The reserve registers follow the map (R32). -/
def snapMaps (s : State) : State :=
  let n : MapSnap := ⟨fencedUnits s, settledHalves s, s.map.stackMap, s.map.regionMap, s.map.coreMap⟩
  { s with map := { s.map with snap := some n } }

/-- A spare's units that lie inside a fenced larger unit drop their refills: the larger unit's refill writes their planes. -/
def dropCovered (s : State) : State :=
  let keep : Refill → Bool := fun r => match r.unit with
    | .region p _ => !stackFenced s p
    | .core p g _ => !regionFenced s (regionKey p g)
    | .tile p g c _ => !coreFenced s (coreKey p g c)
    | .plane p g c _ _ => !coreFenced s (coreKey p g c)
    | _ => true
  { s with map := { s.map with refills := s.map.refills.filter keep } }

/-- Refills that wait on have their spares for good (R26). -/
def settleRefills (s : State) : State :=
  { s with map := { s.map with refills := s.map.refills.map (fun r => { r with settled := true }) } }

/-- A half leaves the pool at this boundary (R25). -/
def halvesMove (s : State) : Bool := s.map.snap.any (fun n => n.withdrawn != settledHalves s)

/-- The map changes of a boundary (R17), with the halves that leave (R25). -/
def applyMapChanges (s : State) : State :=
  let s := dropCovered s
  let done := s.map.refills.filter refillDone
  if done = [] && !halvesMove s then settleRefills s
  else
    let s1 := done.foldl mapChange s
    settleRefills (snapMaps { s1 with map := { s1.map with refills := s1.map.refills.filter (fun r => !refillDone r) } })

/-! ## Reserve registers (R32) -/

def snapState (s : State) (n : MapSnap) : State :=
  { s with map := { s.map with fenced := triOf n.fenced, stackMap := n.stackMap, regionMap := n.regionMap,
                               coreMap := n.coreMap,
                               refills := [] } }

def mappedStacks (s : State) : Nat := ((List.range 36).filter (fun l => (physStack s l).isSome)).length

def regModCapacity (s : State) : Nat :=
  match s.map.snap with
  | none => 2 ^ 31
  | some n =>
    let v := snapState s n
    let l := mappedStacks v
    b2n (l < 36) * 2 ^ 31 + b2n (n.withdrawn ≠ []) * 2 ^ 30 + fencedStacksOf n.fenced * 2 ^ 16
      + ((List.range 40).filter (stackSpare v)).length * 2 ^ 8 + l

def regStkReserve (s : State) (ps : Nat) : Nat :=
  match s.map.snap with
  | none => 0
  | some n =>
    let v := snapState s n
    let role := if stackFenced v ps then 2 else if (logicalStack v ps).isSome then 0 else 1
    (if role = 0 then (logicalStack v ps).getD 0x3F else 0x3F) * 2 ^ 24 + role * 2 ^ 16
      + fencedRegionsOf n.fenced ps * 2 ^ 8 + b2n ((List.range 16).any (fun g => regionSpare v (regionKey ps g)))

/-- RGN_RESERVE. DESIGN CHOICE (log entry 68): a region of a stack without a logical stack, and a region that is fenced while the map still
names it, hold no logical region here (MAPPED 0, LREGION 0xF); SPARE_CORES counts by the region's own core map in every case. -/
def regRgnReserve (s : State) (rk : Nat) : Nat :=
  match s.map.snap with
  | none => 0
  | some n =>
    let v := snapState s n
    let m := !regionFenced v rk && (logicalRegion v rk).isSome && (logicalStack v (regionStack rk)).isSome
    (if m then (logicalRegion v rk).getD 0xF else 0xF) * 2 ^ 20 + b2n m * 2 ^ 16 + fencedCoresOf n.fenced rk * 2 ^ 8
      + ((List.range 160).filter (fun c => coreSpare v (160 * rk + c))).length

end Sys2Proof.Machine
end

