-- ==== Sys2Proof/Machine/Dma.lean ====
section
/-! DEFINITION. DMA credits of 12_sharing (R340): the floors, the shared credits, the class order of firmware transfers, and the waits that
RGN_DMA_STATUS counts. -/

namespace Sys2Proof.Machine

/-- Of a region's 512 credits: the floor of step transfers, the floor of firmware transfers, and what both share (R340). -/
def stepFloor : Nat := 384
def firmwareFloor : Nat := 64
def sharedCredits : Nat := 64

/-- Shared credits that neither kind holds. -/
def sharedFree (step firmware : Nat) : Nat := sharedCredits - (step - stepFloor) - (firmware - firmwareFloor)

/-- Credits that step transfers, and firmware transfers, can still take. -/
def stepRoom (step firmware : Nat) : Nat := (stepFloor - step) + sharedFree step firmware
def firmwareRoom (step firmware : Nat) : Nat := (firmwareFloor - firmware) + sharedFree step firmware

/-- Class of a firmware transfer (R199, R340); drift readback is the last. -/
def dmaClass : DmaUser → Nat
  | .refill _ => 0
  | .change | .rerun => 1
  | .audit => 2

/-- The firmware transfers that a region needs now take credits in class order, and give back those of transfers no longer needed. A transfer
that finds no credit waits, and is counted once. -/
def settleCredits (wanted : List DmaUser) (g : Region) : Region :=
  let held := g.dmaHeld.filter (· ∈ wanted)
  let queue := sortBy dmaClass (g.dmaQueue.filter (· ∈ wanted) ++ wanted.filter (fun u => u ∉ held && u ∉ g.dmaQueue))
  let room := firmwareRoom 0 held.length
  { g with dmaHeld := held ++ queue.take room, dmaQueue := queue.drop room,
           dmaWaits := satAdd 16 g.dmaWaits ((queue.drop room).filter (· ∉ g.dmaQueue)).length }

/-- Transfers that begin and end within one command: they wait only for credits beyond those free. A waiting step transfer takes a free shared
credit before firmware does, so no step transfer waits behind a firmware one (R340). -/
def passingTransfers (step : Bool) (n : Nat) (g : Region) : Region :=
  let room := if step then stepRoom 0 g.dmaHeld.length else firmwareRoom 0 (g.dmaHeld.length + g.dmaQueue.length)
  { g with dmaWaits := satAdd 16 g.dmaWaits (n - room) }

/-- A transfer completes or fails: its credit and its place in the hub working area return at once; what it brought for a plane write stays
there with the write. -/
def endTransfer (s : State) (u : DmaUser) : State :=
  { s with regions := tmap {} (fun _ g => { g with dmaHeld := g.dmaHeld.filter (· ≠ u) }) s.regions,
           plates := { s.plates with area := s.plates.area.filter (· ≠ u) } }

end Sys2Proof.Machine
end

