-- ==== Sys2Proof/Machine/Flags.lean ====
section
/-! DEFINITION. Codes and flags: status codes (R250), the condition word (R251), report causes (R252), opcodes with their
issuer, domain and defined payload (R249). -/

namespace Sys2Proof.Machine

/-- Status codes as numbers (R250). -/
def statusCode : Status → Nat
  | .ok => 0x0000
  | .opcodeUnknown => 0x0101
  | .lengthInvalid => 0x0102
  | .reservedNonzero => 0x0103
  | .versionUnsupported => 0x0104
  | .notNegotiated => 0x0105
  | .functionDenied => 0x0106
  | .tenantInvalid => 0x0107
  | .addressInvalid => 0x0108
  | .paramInvalid => 0x0109
  | .registerInvalid => 0x010A
  | .hostTimeout => 0x010B
  | .txnNotOpen => 0x0201
  | .txnBusy => 0x0202
  | .txnExpired => 0x0203
  | .optionsUnloaded => 0x0204
  | .calRequired => 0x0205
  | .dataPlaneActive => 0x0206
  | .confidentialActive => 0x0207
  | .plateBusy => 0x0208
  | .plateInvalid => 0x0301
  | .publisherUnknown => 0x0302
  | .plateSignature => 0x0303
  | .plateRollback => 0x0304
  | .plateNotBound => 0x0305
  | .noStandby => 0x0306
  | .sourceTimeout => 0x0307
  | .plateIncomplete => 0x0308
  | .formeInvalid => 0x0309
  | .overlayFull => 0x030A
  | .plateDefects => 0x030B
  | .resourceBusy => 0x0401
  | .resourceLost => 0x0402
  | .reqTableFull => 0x0403
  | .channelBusy => 0x0404
  | .requestUnknown => 0x0405
  | .keySlotBusy => 0x0406
  | .debugDenied => 0x0501
  | .keyInvalid => 0x0502
  | .cancelled => 0x0601
  | .plateChanged => 0x0602
  | .deadlineExpired => 0x0603

/-- The condition word (R251). -/
def condWord (c : Cond) : Nat :=
  b2n c.failed + 2 * b2n c.precision + 2 ^ 2 * b2n c.sat + 2 ^ 3 * b2n c.nearMiss + 2 ^ 4 * b2n c.fallbackDenied
    + 2 ^ 5 * b2n c.ladderEnd + 2 ^ 6 * b2n c.nanInput + 2 ^ 7 * b2n c.accOrphan + 2 ^ 8 * b2n c.monitorAlarm
    + 2 ^ 9 * b2n c.auditMismatch + 2 ^ 10 * b2n c.emptyAttention + 2 ^ 11 * b2n c.pagesDropped + 2 ^ 12 * b2n c.restarted
    + 2 ^ 13 * b2n c.draftOff + 2 ^ 14 * b2n c.fillEmitted + 2 ^ 15 * b2n c.cmdSlow + 2 ^ 16 * b2n c.galleyOverrun
    + 2 ^ 17 * b2n c.galleyHeader + 2 ^ 18 * b2n c.unsolicited

/-- Flags of two records together. -/
def condOr (x y : Cond) : Cond :=
  { failed := x.failed || y.failed, precision := x.precision || y.precision, sat := x.sat || y.sat,
    nearMiss := x.nearMiss || y.nearMiss, fallbackDenied := x.fallbackDenied || y.fallbackDenied,
    ladderEnd := x.ladderEnd || y.ladderEnd, nanInput := x.nanInput || y.nanInput, accOrphan := x.accOrphan || y.accOrphan,
    monitorAlarm := x.monitorAlarm || y.monitorAlarm, auditMismatch := x.auditMismatch || y.auditMismatch,
    emptyAttention := x.emptyAttention || y.emptyAttention, pagesDropped := x.pagesDropped || y.pagesDropped,
    restarted := x.restarted || y.restarted, draftOff := x.draftOff || y.draftOff, fillEmitted := x.fillEmitted || y.fillEmitted,
    cmdSlow := x.cmdSlow || y.cmdSlow, galleyOverrun := x.galleyOverrun || y.galleyOverrun,
    galleyHeader := x.galleyHeader || y.galleyHeader, unsolicited := x.unsolicited || y.unsolicited }

/-- Causes of fence reports (R252); the band-gap fence of R153 has no code of its own there and is reported as SENSOR (log entry 10). -/
def reportCause : Cause → Nat
  | .none => 0
  | .checksum => 1
  | .overrange => 2
  | .skimSlot => 3
  | .monitorAlarm => 4
  | .auditMismatch => 5
  | .selfTest => 6
  | .calReject => 7
  | .trimLost => 8
  | .hubRefSuspect => 9
  | .refillSource => 10
  | .descriptor => 11
  | .converter => 12
  | .host => 13
  | .sensor => 14
  | .bandGap => 14

/-! ## The opcode table (R249) -/

def opcodeOf : CmdParams → Nat
  | .identify _ => 0x0001
  | .negotiate _ => 0x0002
  | .fenceReportGet _ _ => 0x0003
  | .optionSet _ => 0x0010
  | .powerSet _ => 0x0011
  | .resourceAlloc _ _ _ => 0x0012
  | .resourceFree _ _ => 0x0013
  | .resetWarm _ => 0x0014
  | .txnBegin _ => 0x0020
  | .txnCommit => 0x0021
  | .txnRollback => 0x0022
  | .calSelf => 0x0030
  | .calRecal _ => 0x0031
  | .calDrift _ => 0x0032
  | .testRun _ => 0x0033
  | .fenceUnit _ => 0x0034
  | .proofEnter => 0x0035
  | .proofLeave => 0x0036
  | .plateLoad _ => 0x0040
  | .plateRelease _ => 0x0041
  | .formeLoad _ _ _ => 0x0042
  | .plateSourceSet _ _ _ _ => 0x0043
  | .plateDefectAccept _ => 0x0044
  | .overlaySet _ _ _ _ _ => 0x0045
  | .tenantSet _ _ => 0x0050
  | .keyLoad _ => 0x0051
  | .tenantRemove _ => 0x0052
  | .keyRegister _ => 0x0053
  | .attest _ _ => 0x0054
  | .debugUnlock _ => 0x0055
  | .reqSubmit _ => 0x0060
  | .reqCancel _ => 0x0061
  | .webOpen _ => 0x0070
  | .webClose _ _ => 0x0071
  | .webGroup _ _ => 0x0072

def assignedOpcodes : List Nat :=
  [0x0001, 0x0002, 0x0003, 0x0010, 0x0011, 0x0012, 0x0013, 0x0014, 0x0020, 0x0021, 0x0022, 0x0030, 0x0031, 0x0032, 0x0033,
   0x0034, 0x0035, 0x0036] ++ [0x0040, 0x0041, 0x0042, 0x0043, 0x0044, 0x0045, 0x0050, 0x0051, 0x0052, 0x0053, 0x0054, 0x0055, 0x0060,
   0x0061, 0x0070, 0x0071, 0x0072]

/-- Opcodes any function may issue: IDENTIFY, NEGOTIATE, ATTEST, REQ_SUBMIT, REQ_CANCEL, WEB_OPEN, WEB_CLOSE (R233). -/
def anyIssuer : CmdParams → Bool
  | .identify _ => true
  | .negotiate _ => true
  | .attest _ _ => true
  | .reqSubmit _ => true
  | .reqCancel _ => true
  | .webOpen _ => true
  | .webClose _ _ => true
  | _ => false

/-- The three commands that run for a virtual function whose tenant is not ENABLED (R233). -/
def tenantlessOk : CmdParams → Bool
  | .identify _ => true
  | .negotiate _ => true
  | .attest _ _ => true
  | _ => false

/-- Opcodes a limp start accepts (R248). -/
def limpOk : CmdParams → Bool
  | .identify _ => true
  | .negotiate _ => true
  | .fenceReportGet _ _ => true
  | .attest _ _ => true
  | .resetWarm _ => true
  | _ => false

/-- IDENTIFY and NEGOTIATE. -/
def preNegotiation : CmdParams → Bool
  | .identify _ => true
  | .negotiate _ => true
  | _ => false

/-- Domain of an opcode that belongs to one by its code (R249). -/
def domainOf : CmdParams → Option Nat
  | .optionSet _ => some 3
  | .plateLoad _ => some 1
  | .plateRelease _ => some 1
  | .formeLoad _ _ _ => some 1
  | .plateDefectAccept _ => some 1
  | .overlaySet _ _ _ _ _ => some 0
  | .tenantSet _ _ => some 0
  | .webGroup _ _ => some 2
  | _ => none

/-- Bytes of the defined payload that a packet must cover (R232 step 5, R249). -/
def definedPayload : CmdParams → Nat
  | .identify _ => 8
  | .negotiate _ => 1
  | .fenceReportGet _ _ => 12
  | .optionSet es => 16 * max 1 es.length
  | .powerSet _ => 2
  | .resourceAlloc _ _ _ => 4
  | .resourceFree _ _ => 2
  | .resetWarm _ => 4
  | .txnBegin _ => 1
  | .txnCommit => 0
  | .txnRollback => 0
  | .calSelf => 0
  | .calRecal _ => 8
  | .calDrift _ => 8
  | .testRun _ => 8
  | .fenceUnit _ => 8
  | .proofEnter => 0
  | .proofLeave => 0
  | .plateLoad _ => 24
  | .plateRelease _ => 16
  | .formeLoad _ _ _ => 20
  | .plateSourceSet _ _ _ _ => 32
  | .plateDefectAccept _ => 8
  | .overlaySet _ _ _ _ _ => 20
  | .tenantSet _ _ => 24
  | .keyLoad _ => 1620
  | .tenantRemove _ => 2
  | .keyRegister _ => 56
  | .attest _ _ => 40
  | .debugUnlock _ => 64
  | .reqSubmit _ => 60
  | .reqCancel _ => 4
  | .webOpen _ => 36
  | .webClose _ _ => 3
  | .webGroup _ ms => 8 + 2 * min 64 (max 1 ms.length)

/-- LENGTH covers the header and the defined payload. -/
def lengthCovers (len : Nat) (p : CmdParams) : Bool := 16 + definedPayload p ≤ 16 * len

/-- The request table index of a request identifier (R254). -/
def ridIndex (rid : Nat) : Nat := rid % 65536

end Sys2Proof.Machine
end

