-- ==== Sys2Proof/Machine/Faults.lean ====
section
/-! DEFINITION. Shared operations of 13_faults: events by unit and their fences (R357), late faults (R351), tests due and
overdue (R370, R371), correctable and uncorrectable errors (R363, R364). -/

namespace Sys2Proof.Machine

/-- The alarm of a unit in the running step: the rows of the passes that name it are withheld (R263, R352). -/
def alarm (s : State) (u : UnitId) : State := failOutstanding s u

/-- Open a late fault on a unit (R351): counted, and, unless one is open on it already, settled at the boundary with its
largest difference. -/
def lateFault (s : State) (u : UnitId) (cause : Cause) (delta : Nat) : State :=
  let s1 := setFaults s (fun f => { f with late := satAdd 32 f.late 1 })
  if u ∈ s.faults.openLate then alarm s1 u
  else setFaults (alarm s1 u) (fun f => { f with openLate := f.openLate ++ [u], lateNow := f.lateNow ++ [(u, cause, delta)] })

/-- The corrective action on a unit has ended: a readback, a test or a refill (R351). -/
def closeLate (s : State) (u : UnitId) : State := setFaults s (fun f => { f with openLate := f.openLate.filter (· ≠ u) })

/-- Causes whose fence is a late fault (R351). -/
def lateCause : Cause → Bool
  | .checksum => true
  | .overrange => true
  | .monitorAlarm => true
  | .auditMismatch => true
  | .selfTest => true
  | .converter => true
  | .bandGap => true
  | _ => false

/-- Fence a unit for a cause, with the late fault that the cause makes (R351, R358); a fenced unit stays as it is (R357). -/
def fenceFor (s : State) (u : UnitId) (cause : Cause) (detail : Nat) : State :=
  if unitFenced s u then s
  else
    let s1 := fenceUnitOp s u cause detail
    if lateCause cause then lateFault s1 u cause 0 else s1

/-- A core's test falls due now, or becomes overdue at once (R357, R370, R371). -/
def testDueNow (s : State) (ck : Nat) : State := modCore s ck (fun c => { c with testDue := true })
def testOverdueNow (s : State) (ck : Nat) : State := modCore s ck (fun c => { c with testDue := true, testOverdue := true })

def tenSeconds : Nat := 10000000000
def oneHour : Nat := 3600000000000

/-- Note an event of R357 against a key (a core or plane key), and count those of the same cause within a window; an event older than the
longest window no longer counts. -/
def noteEvent (s : State) (cause : Cause) (key : Nat) : State :=
  setFaults s (fun f => { f with events := (cause, key, now s) :: f.events.filter (fun e => now s ≤ e.2.2 + oneHour) })

def eventsWithin (s : State) (cause : Cause) (key window : Nat) : Nat :=
  (s.faults.events.filter (fun e => e.1 == cause && e.2.1 == key && now s ≤ e.2.2 + window)).length

/-- A failed product (R88, R357): its core's test falls due; the third CHECKSUM or the second OVERRANGE failure of the core
within 10 s fences it; SKIM_SLOT only counts. -/
def productFailed (s : State) (ck : Nat) (cause : Cause) : State :=
  let s1 := noteEvent s cause ck
  match cause with
  | .checksum =>
    let s2 := testDueNow s1 ck
    if 3 ≤ eventsWithin s2 .checksum ck tenSeconds then fenceFor s2 (unitOfCore ck) .checksum 0 else s2
  | .overrange =>
    let s2 := testDueNow s1 ck
    if 2 ≤ eventsWithin s2 .overrange ck tenSeconds then fenceFor s2 (unitOfCore ck) .overrange 0 else s2
  | _ => s1

/-! ## Write slots (R198, R199) -/

/-- Class of a plane write in the order of R199: 0 refills, with the planes that a fence moved off a change's target (R28), 1 plate changes,
2 readbacks and rewrites in service, 3 test patterns. A plane whose record is still to be fetched is one of a plate change. -/
def writeClass (s : State) (pk : Nat) : Nat :=
  if isRefill s pk || s.plates.claims.any (fun e => e.2 == pk && e.1 ∈ s.plates.movedClaims) then 0
  else match tfind s.plates.writing pk with
    | some none => if pk ∈ s.plates.testPlanes then 3 else 2
    | _ => 1

/-- Planes written at once: 2,000, or what a host-set power budget leaves room for, one at least (R198; DESIGN CHOICE, log entry 84). -/
def slotLimit (s : State) : Nat :=
  if s.aon.powerBudget = 0 then 2000 else min 2000 (max 1 (Config.writeSlots s.aon.powerBudget))

/-- A waiting write takes a slot when its tile and the limit leave one. A refill never waits for another class: it takes the slot of its tile,
or the last one in the order of R199, from a write that starts over. -/
def takeSlot (s : State) (slots : List Nat) (pk : Nat) : List Nat :=
  let swap := fun (q : Nat) => slots.filter (· != q) ++ [pk]
  let refill := writeClass s pk == 0
  match slots.find? (fun q => planeTile q == planeTile pk) with
  | some q => if refill && writeClass s q != 0 then swap q else slots
  | none =>
    if slots.length < slotLimit s then slots ++ [pk]
    else if refill then
      match (sortBy (fun q => writeClass s q * 2 ^ 40 + q) (slots.filter (fun q => writeClass s q != 0))).getLast? with
      | some q => swap q
      | none => slots
    else slots

/-- Planes that ask for a write slot: those to be written, and those whose records are fetched next (R329). -/
def slotAsks (b : PlateBlk) : List Nat := (b.writing.map (fun (e : Nat × Option PlaneRecord) => e.1) ++ b.wants).eraseDups

/-- Free slots go to waiting writes, class by class in ascending physical address order (R199). -/
def fillSlots (s : State) : State :=
  let held := s.plates.slots.filter (· ∈ slotAsks s.plates)
  let queue := sortBy (fun q => writeClass s q * 2 ^ 40 + q) ((slotAsks s.plates).filter (· ∉ held))
  { s with plates := { s.plates with slots := queue.foldl (takeSlot s) held } }

/-- A plane that can be written now: it has its slot, and what it takes. -/
def canWrite (s : State) (pk : Nat) : Bool := decide (pk ∈ s.plates.slots) && (tfind s.plates.writing pk).isSome

/-- A plane waits for a write slot: with the record it takes, or none for a readback and a test pattern. -/
def queueWrite (s : State) (pk : Nat) (r : Option PlaneRecord) : State :=
  fillSlots { s with plates := { s.plates with writing := tput s.plates.writing pk r } }

/-- Firmware reads a plane in service back: a plane write without a record (R205). -/
def queueReadback (s : State) (pk : Nat) : State :=
  if (descOf s pk).state = 2 ∧ (tfind s.plates.writing pk).isNone then queueWrite s pk none else s

/-- MONITOR_ALARM against a core (R351, R357), with the readback of the plane that it monitors (R205). -/
def monitorAlarmed (s : State) (ck : Nat) : State :=
  let s1 := testOverdueNow (lateFault (noteEvent s .monitorAlarm ck) (unitOfCore ck) .monitorAlarm 0) ck
  if 2 ≤ eventsWithin s1 .monitorAlarm ck oneHour then fenceFor s1 (unitOfCore ck) .monitorAlarm 0
  else ((coreOf s ck).monPhys.map (queueReadback s1)).getD s1

/-- AUDIT_MISMATCH against a plane (R351, R357): readback of the plane, or retirement and refill at the second within 1 h. -/
def auditMismatched (s : State) (pk delta : Nat) : State :=
  let s1 := lateFault (noteEvent s .auditMismatch pk) (unitOfPlane pk) .auditMismatch delta
  if 2 ≤ eventsWithin s1 .auditMismatch pk oneHour then fenceFor s1 (unitOfPlane pk) .auditMismatch 0
  else queueReadback s1 pk

/-- A sheet that fails its CRC-32C as it is consumed counts against the core that produced it; at the third from one core within 10 s
that core's test is overdue. -/
def sheetFailed (s : State) (ck : Nat) : State :=
  if nCores ≤ ck then s
  else
    let s1 := noteEvent s .none ck
    if 3 ≤ eventsWithin s1 .none ck tenSeconds then testOverdueNow s1 ck else s1

/-- Change the row of a request in the running step. -/
def modRow (s : State) (rid : Nat) (f : Row → Row) : State :=
  match s.sched.step with
  | none => s
  | some k => setSched s (fun c => { c with step := some { k with rows := k.rows.map (fun w => if w.rid = rid then f w else w) } })

/-- The row of a request that consumed such a sheet is withheld (R263, R302). -/
def withholdRow (s : State) (rid : Option Nat) : State :=
  match rid with
  | none => s
  | some i => modRow s i (fun w => { w with withheld := true, cond := condOr w.cond { failed := true } })

/-- Units of a core that calibration marks: converters 0-67 by number, tiles 100 + t. -/
def tileUnit (t : Nat) : Nat := 100 + t

/-- A rejected calibration result of a unit of a core: the test comes forward, the unit's third reject in a row fences the core (R163, R164). -/
def calReject (s : State) (ck unit : Nat) : State :=
  let c := coreOf s ck
  let n := tget 0 c.runs unit + 1
  let s1 := setCore s ck { c with rejects := satAdd 16 c.rejects 1, runs := tset 0 c.runs unit n, testDue := true }
  if 3 ≤ n then fenceFor s1 (unitOfCore ck) .calReject 0 else s1

/-- A unit of a core passes: its mark and its run of rejects clear (R164). -/
def calPass (s : State) (ck unit : Nat) : State := modCore s ck (fun c => { c with runs := tdel c.runs unit })

/-- Rejects of region-level results are counted (R163, R182). -/
def regionReject (s : State) (rk : Nat) : State := modRegion s rk (fun r => { r with rejects := satAdd 32 r.rejects 1 })

/-! ## Converters (R70) -/

/-- A failed converter: FAULT, the lowest number so far in FAILED_CONV, and the fence of the core. -/
def converterFailed (s : State) (ck conv : Nat) : State :=
  fenceFor (modCore s ck (fun c => { c with convFault := true, failedConv := min c.failedConv conv })) (unitOfCore ck) .converter 0

/-- A failure on every tile of a core, as a mask of tiles. -/
def allTiles : Nat := 0xFFFF

/-- The converter that checksum failures on every tile of a core point to. Groups 0-3 take their checksum columns from converter 64 and groups
4-7 from converter 65 (R49); the data columns of one group n lie on converters 8n to 8n + 7, which its residual does not tell apart, so
the number among them is a free value (DESIGN CHOICE, log entry 81). -/
def suspectOf (fails : Tbl Nat) (draw : Nat) : Option Nat :=
  match (List.range 8).filter (fun n => tget 0 fails n == allTiles) with
  | [0, 1, 2, 3] => some 64
  | [4, 5, 6, 7] => some 65
  | [n] => some (8 * n + draw % 8)
  | _ => none

/-- Firmware notes the groups that failed on a tile and looks for a converter that explains the failures (R70). -/
def attributeGroups (s : State) (ck t : Nat) (groups : List Nat) : State :=
  let s1 := modCore s ck (fun c => { c with groupFails := groups.foldl (fun m n => tset 0 m n (Nat.lor (tget 0 m n) (2 ^ t))) c.groupFails })
  match suspectOf (coreOf s1 ck).groupFails (drawNat s) with
  | some k => converterFailed (drawn s1) ck k
  | none => s1

/-- A reference column has failed on every tile: converter 67 reads both (R49, R70). -/
def attributeReferences (s : State) (ck : Nat) : State :=
  if (List.range 16).all (fun t => (tileOf (coreOf s ck) t).badY0 || (tileOf (coreOf s ck) t).badY1) then converterFailed s ck 67 else s

/-! ## Stored data -/

def memCode : MemKind → Nat
  | .scratch => 0
  | .wideBuffer => 1
  | .hubSram => 2
  | .overlay => 3
  | .descriptors => 4
  | .hbm => 5
  | .mpMemory => 2

def memReport (s : State) (e : MemError) (detail : Nat) : State :=
  addReport s { kind := 2, cause := .none, detail := memCode e.mem + detail, seq := 0, time := now s, phys := e.owner,
                logical := 0, step := stepNow s, second := 0, count := 0, data := e.line, entries := [] }

def memKey (e : MemError) : MemKind × Nat × Nat := (e.mem, e.owner, e.line)

/-- Retire a location with its report (R363, R364, R372): an HBM sheet goes into the retired-sheet list in flash, 65,536 at most. -/
def retireCell (s : State) (e : MemError) (detail : Nat) : State :=
  let s1 := setFaults s (fun f => { f with retired := addOnce f.retired (memKey e) })
  let s2 : State := if e.mem = .hbm then
      let old := (newest s1.nv.retired).getD []
      if old.length < 65536 then
        let l := addOnce old e.line
        { s1 with nv := { s1.nv with retired := writeCopy s1.nv.retired l } }
      else s1
    else s1
  memReport s2 e (detail + 32)

/-- A bank with no spare line left (R364): the core or region that owns it is fenced; a hub bank leaves hub allocation. -/
def exhaustBank (s : State) (e : MemError) : State :=
  match e.mem with
  | .hbm => s
  | .mpMemory => s
  | .hubSram => setFaults s (fun f => { f with hubWithdrawn := addOnce f.hubWithdrawn e.line })
  | _ => match (addrDecode e.owner).unit with
    | .region p g => fenceRegion s (regionKey p g) .none 0
    | .core p g c => fenceCore s (coreKey p g c) .none 0
    | .tile p g c _ => fenceCore s (coreKey p g c) .none 0
    | .plane p g c _ _ => fenceCore s (coreKey p g c) .none 0
    | _ => s

/-- Retire a location (R363, R364); its line is remapped to a spare one of its bank while the bank has one. -/
def retireLocation (s : State) (e : MemError) (detail : Nat) : State :=
  if e.noSpare then exhaustBank (retireCell s e detail) e else retireCell s e detail

/-- A correctable error (R363): corrected, counted for its location, retired at CE_RETIRE. -/
def countCe (s : State) (e : MemError) : State :=
  let k := memKey e
  let n := (aget s.faults.ceTable k).getD 0 + 1
  let s1 := setFaults s (fun f => { f with ce := satAdd 32 f.ce 1, ceTable := aset f.ceTable k n })
  if ceRetire s ≤ n ∧ k ∉ s.faults.retired then retireLocation s1 e 0 else s1

end Sys2Proof.Machine
end

