-- ==== Sys2Proof/Machine/Analog.lean ====
section
/-! DEFINITION. The analogue tile of 02_tile: cell levels, plane switches (R41-R43, R73), drive, hold and conversion of
one tile product (R44-R59), proof-mode captures (R65, R66). Times are ns of the time base. -/

namespace Sys2Proof.Machine

/-! ## Formes and layers as the cores see them (R210) -/

def formeOf (s : State) (slot : Nat) : Option Forme := tfind s.formes slot

def layerRec (s : State) (slot layer : Nat) : Option LayerRec :=
  match formeOf s slot with
  | some f => f.image.layers.find? (fun l => l.layer == layer)
  | none => none

/-- τ in quarter LSB (R89, R210). -/
def tauOf (l : LayerRec) : Nat := if l.tau = 0 then 0x01F0 else max 0x20 l.tau
def nearOf (l : LayerRec) : Nat := if l.nearLimit = 0 then 4 else l.nearLimit
def tauAOf (l : LayerRec) : Nat := if l.tauA = 0 then 8 else l.tauA
def satOf (l : LayerRec) : Nat := if l.satLimit = 0 then 64 else l.satLimit

/-! ## Cells -/

/-- Level of the factory test pattern (R369): column c sums to 64 + 14 × c over its 256 rows. -/
def patternLevel (row col : Nat) : Nat :=
  if 264 ≤ col then 0 else
    let m := 64 + 14 * col
    m * (row + 1) / 256 - m * row / 256

/-- A spare column that no valid XMAP entry uses (R35, R43). -/
def spareUnused (d : PlaneDesc) (col : Nat) : Bool := 264 ≤ col && col < 270 && !d.xmap.any (fun e => 264 + e.1 == col)

/-- The level a cell holds (R36, R38). Data and checksum columns of a plane that no write has completed on hold undefined levels (R223); its
unused spare columns hold level 0. -/
def cellLevel (s : State) (pk row col : Nat) : Nat :=
  if col = 270 then 3 else if col = 271 then 12
  else match tfind s.arr.cells pk with
    | some m => tget 0 m (272 * row + col)
    | none => match tfind s.arr.undef pk with
      | some d => if spareUnused (descOf s pk) col then 0 else Config.undefLevel pk d (272 * row + col) % 16
      | none =>
        if (descOf s pk).state = 3 then patternLevel row col
        else if spareUnused (descOf s pk) col then 0
        else Config.undefLevel pk 0 (272 * row + col) % 16

/-- The intended level that the plane's sum record was built from; a stuck cell does not change it (R76). A plane that no write has completed
on has the levels its cells hold. -/
def intendedLevel (s : State) (pk row col : Nat) : Nat :=
  match tfind s.arr.built pk with
  | some m => if col < 270 then tget 0 m (272 * row + col) else cellLevel s pk row col
  | none => cellLevel s pk row col

/-- Valid skim rows of a descriptor: (k, row) (R72). -/
def skimRowsOf (d : PlaneDesc) : List (Nat × Nat) :=
  ((List.range 8).filter (fun k => bitAt d.skimValid k)).map (fun k => (k, d.skimRow.getD k 0))

/-- The spare column that replaces a column index, or the index itself (R43). -/
def colRoute (d : PlaneDesc) (c : Nat) : Nat :=
  match d.xmap.find? (fun e => e.2 == c) with
  | some e => 264 + e.1
  | none => c

/-- No two valid XMAP entries name one column and no two valid skim rows one row (R73). -/
def descGood (d : PlaneDesc) : Bool :=
  decide (d.xmap.map (·.2)).Nodup && decide ((skimRowsOf d).map (·.2)).Nodup

/-- The array drivers of a stack are energised only while it holds a logical stack (R31). -/
def stackDriven (s : State) (ps : Nat) : Bool := (logicalStack s ps).isSome

/-! ## Switching planes (R41-R43, R73) -/

/-- The earliest moment from `t` on at which an activity fits between those of a list: `span b` is the time it takes when it may begin at
`b`. -/
def firstFit (span : Nat → Nat × Nat) (t : Nat) (l : List (Nat × Nat)) : Nat :=
  match (t :: l.map (fun e => max t e.2)).filter (fun b => l.all (fun e => (span b).2 ≤ e.1 || e.2 ≤ (span b).1)) with
  | [] => l.foldl (fun m e => max m e.2) t
  | b :: r => r.foldl min b

/-- An activity joins a list, from which those that have ended are forgotten. -/
def occupy (t : Nat) (l : List (Nat × Nat)) (e : Nat × Nat) : List (Nat × Nat) := l.filter (fun x => t < x.2) ++ [e]

/-- When a switch of a tile starts: the tile is free, and no other tile of the core switches during its 120 ns (R41, R42). -/
def tileReady (s : State) (c : Core) (t : Nat) : Nat := firstFit (fun b => (b, b + 120)) (max (now s) (tileOf c t).freeAt) c.switches

/-- TILE_STATUS.STATE at an instant: the activity that covers it, 0 when none does (R71). -/
def workAt (x : Tile) (t : Nat) : Nat := ((x.work.find? (fun w => w.2.1 ≤ t && t < w.2.2)).map (·.1)).getD 0

/-- A tile takes on an activity (its code, start and end); activities that have ended are forgotten. -/
def addWork (t : Nat) (x : Tile) (kind start stop : Nat) : Tile :=
  { x with work := x.work.filter (fun w => t < w.2.2) ++ [(kind, start, stop)] }

/-- The plane that TILE_STATUS shows engaged: the old one until a switch starts, none during it, the new one from 120 ns on (R41).
DESIGN CHOICE (log entry 69): ENGAGED_VALID reads 0 while a switch runs. -/
def engagedShown (x : Tile) (t : Nat) : Option Nat :=
  if x.changes.any (fun e => e.1 ≤ t && t < e.2.1) then none
  else if x.changes.all (fun e => e.2.1 ≤ t) then x.engaged
  else match (x.changes.filter (fun e => e.2.1 ≤ t)).getLast? with
    | some e => e.2.2
    | none => x.prior

/-- A tile changes its engaged plane from `b` to `e`; changes that have ended at `t` are forgotten. -/
def addChange (t : Nat) (x : Tile) (b e : Nat) (p : Option Nat) : Tile :=
  { x with prior := if x.changes.all (fun w => w.2.1 ≤ t) then x.engaged
                    else ((x.changes.filter (fun w => w.2.1 ≤ t)).getLast?.map (·.2.2)).getD x.prior,
           changes := x.changes.filter (fun w => t < w.2.1) ++ [(b, e, p)], engaged := p }

/-- Engage a physical plane: the switch starts when the tile is free and no other switch of the core runs, and takes
120 ns. -/
def engage (s : State) (ck t p : Nat) (proof : Bool) : State :=
  modCore s ck (fun c =>
    let b := tileReady s c t
    modTile { c with switches := occupy (now s) c.switches (b, b + 120) } t (fun x =>
      { addWork (now s) (addChange (now s) x b (b + 120) (some p)) 2 b (b + 120) with
        proofEngaged := proof, former := none, freeAt := b + 120 }))

/-- The module refuses to engage a plane whose descriptor breaks R73: it is marked RETIRED and reported. -/
def rejectDescriptor (s : State) (pk : Nat) : State := retirePlane s pk .descriptor

/-- A forme strobes and engages planes in state STANDBY or ALLOCATED only (R17, R43). -/
def formeState (d : PlaneDesc) : Bool := d.state == 1 || d.state == 2

/-- Engage a physical plane for the module's own use, with the checks of R43 and R73. -/
def engageChecked (s : State) (ck t p : Nat) : State :=
  let pk := planeKey (tileKey ck t) p
  let d := descOf s pk
  if formeState d = false then s
  else if descGood d = false then rejectDescriptor s pk
  else engage s ck t p false

/-- A forme engages a plane by logical number. -/
def engageLogical (s : State) (ck t lp : Nat) : State := engageChecked s ck t (physPlane s (tileKey ck t) lp)

/-- Before the first strobe after a write burst or a slice the core engages anew the plane engaged before it (R69). -/
def reengage (s : State) (ck t : Nat) : State :=
  match (tileOf (coreOf s ck) t).former with
  | none => s
  | some q => modCore (engageChecked s ck t q) ck (fun c => modTile c t (fun x => { x with former := none }))

/-- A strobe falls due on a tile at an instant: a write burst ends with the row in progress, and that wait with the switch after it counts
against the core's bound of the step (R200). -/
def endBurst (s : State) (ck t due : Nat) : State :=
  match (tileOf (coreOf s ck) t).burst with
  | none => s
  | some (b, e) =>
    let d := max due b
    let stop := if d < e then b + 625 * ((d - b) / 625 + 1) else e
    modCore s ck (fun c => modTile { c with burstWait := c.burstWait + (stop - d) + 120 } t (fun x =>
      { x with burst := none, freeAt := if x.freeAt = e then stop else x.freeAt,
               work := x.work.map (fun w => if w = (3, b, e) then (3, b, stop) else w) }))

/-! ## Drive (R44-R47) -/

/-- Blocks of the segment that are driven: inside the vector, and not carrying the zero scale code (0xFF reads as a zero
block, R106). -/
def drivenBlocks (g : Segment) (rows : Nat) : List Nat :=
  (List.range 8).filter (fun j => 32 * j < rows && g.scales.getD j 0 != 0 && g.scales.getD j 0 != 0xFF)

/-- The driven rows D with their element values. -/
def drivenRows (d : PlaneDesc) (g : Segment) (rows : Nat) : List (Nat × Int) :=
  (drivenBlocks g rows).flatMap (fun j => ((List.range 32).map (fun i => 32 * j + i)).filterMap (fun i =>
    if rows ≤ i ∨ (skimRowsOf d).any (fun k => k.2 == i) then none
    else some (i, (g.elems.getD j []).getD (i % 32) 0)))

/-- Drive codes u = x + 2^(b−1) of the driven rows (R44). -/
def driveCodes (b : Nat) (xs : List (Nat × Int)) : List (Nat × Nat) :=
  xs.map (fun x => (x.1, (x.2 + 2 ^ (b - 1)).toNat))

/-- The strobes of one strike: one for up to 4 bits, the high then the low nibble otherwise (R45). -/
def strikeDrives (b : Nat) (us : List (Nat × Nat)) : List (List (Nat × Nat)) :=
  if b ≤ 4 then [us] else [us.map (fun u => (u.1, u.2 / 16)), us.map (fun u => (u.1, u.2 % 16))]

/-! ## Conversion (R48-R53) -/

/-- Charge of a physical column in level·ns. -/
def columnCharge (s : State) (pk : Nat) (us : List (Nat × Nat)) (col : Nat) : Nat :=
  us.foldl (fun q u => q + u.2 * cellLevel s pk u.1 col) 0

/-- Nominal code of a charge: round to nearest, limited to the highest code (R52). -/
def nominalCode (fine : Bool) (q : Nat) : Nat :=
  if fine then min 2047 ((32 * q + 225) / 450) else min 511 ((8 * q + 225) / 450)

/-- The code of one conversion and its over-range mark. What a converter adds to the nominal transfer is free. -/
def convert (core col : Nat) (fine : Bool) (q draw : Nat) : Nat × Bool :=
  let top := if fine then 2047 else 511
  if 28800 ≤ q then (top, true)
  else ((limitInt 0 top ((nominalCode fine q : Int) + Config.codeDeviation core col fine draw)).toNat, false)
where
  limitInt (lo hi : Nat) (x : Int) : Int := max (lo : Int) (min (hi : Int) x)

/-- One conversion sequence of all 272 columns; the draw selects the converters' departures. -/
def convertAll (s : State) (ck pk : Nat) (fine : Bool) (us : List (Nat × Nat)) (draw : Nat) : Conv :=
  { codes := (List.range 272).map (fun c => convert ck c fine (columnCharge s pk us c) draw),
    drive := us.filter (fun u => u.2 != 0), fine := fine }

/-- Sequence entry of a column (R49). -/
def entryOfColumn (c : Nat) : Nat := 68 * (c % 4) + c / 4

/-! ## Trigger modes and intervals (R55-R59) -/

def simultaneous (s : State) (rk cores : Nat) : Bool :=
  match strobeMode s rk with
  | 1 => false
  | 2 => true
  | _ => autoCores s rk < cores

/-- The region strobe timer is locked while the time base is valid and the region serves (R55, RGN_STROBE_STATUS). -/
def regionLocked (s : State) (rk : Nat) : Bool := s.time.valid && inService s && !regionFenced s rk

/-- First edge 40m + EDGE_PHASE at or after a time. -/
def edgeFrom (phase x : Nat) : Nat := 40 * ((x - phase + 39) / 40) + phase

/-- Hold instants of `n` strobes in a row: the first launches when the core is ready, each later one after the integrator
reset of the one before. -/
def holdTimes (simul : Bool) (phase w d tc : Nat) : Nat → Nat → List Nat
  | 0, _ => []
  | n + 1, ready =>
    let h := if simul then edgeFrom phase (ready + w + d) else ready + w + d
    h :: holdTimes simul phase w d tc n (h + tc + 4)

def strobeWindow (b : Nat) : Nat := 2 ^ min 4 b
def convTime (fine : Bool) : Nat := if fine then 64 else 16

/-- Hold instants of `n` strobes in a row that may begin at `ready`, moved on until they and their integrator resets overlap no strobe of
the list. -/
def placeHolds (simul : Bool) (phase w d tc n ready : Nat) (l : List (Nat × Nat)) : List Nat :=
  let span := fun (b : Nat) =>
    let hs := holdTimes simul phase w d tc n b
    (hs.headD b - (w + d), hs.getLastD b + tc + 4)
  holdTimes simul phase w d tc n (firstFit span ready l)

/-- Hold instants of several strikes of `n` strobes each, one after the other, with the strobes of the core when they are placed (R45,
R50). -/
def placeStrikes (simul : Bool) (phase w d tc n : Nat) : Nat → Nat → List (Nat × Nat) → List Nat × List (Nat × Nat)
  | 0, _, l => ([], l)
  | k + 1, ready, l =>
    let hs := placeHolds simul phase w d tc n ready l
    let e := hs.getLastD ready + tc + 4
    let x := placeStrikes simul phase w d tc n k e (l ++ [(hs.headD ready - (w + d), e)])
    (hs ++ x.1, x.2)

/-! ## Power of the converter bank (R51) -/

/-- The bank is powered at an instant: it wakes 6 ns before a hold and stays on for sequences that start within 10 ns of the end of the one
before; with PD_EN 0 it never powers down. -/
def bankPowered (s : State) (c : Core) (t : Nat) : Bool :=
  !pdEn s || c.seqs.any (fun q => q.1 ≤ t + 6 && t < q.2)
    || c.seqs.any (fun q => q.2 ≤ t && c.seqs.any (fun r => t < r.1 && r.1 ≤ q.2 + 10))

/-- The earliest hold instant: 6 ns after now when the bank is to be woken first (R51). -/
def wakeBy (s : State) (c : Core) : Nat := if bankPowered s c (now s) then now s else now s + 6

/-- Sequences that a core has scheduled; those long past are forgotten. -/
def addSeqs (t : Nat) (c : Core) (hs : List Nat) (tc : Nat) : Core :=
  { c with seqs := c.seqs.filter (fun q => t ≤ q.2 + 10) ++ hs.map (fun h => (h, h + tc)) }

/-! ## Proof captures (R65, R66) -/

/-- Offer one sequence to the capture. -/
def capture (s : State) (c : Core) (tile plane hold : Nat) (v : Conv) : Core :=
  let ctl := c.proofCtrl.toNat
  if !s.sec.proof || !bitAt ctl 0 || !(bitAt ctl 2 || fld ctl 7 4 == tile) then c
  else if c.proofValid && bitAt ctl 1 then { c with proofOverrun := true }
  else { c with proofOverrun := c.proofOverrun || c.proofValid, proofValid := true, proofFine := v.fine, proofTile := tile,
                proofPlane := plane, proofTime := hold, proofResult := v.codes }

def captureAll (s : State) (tile plane : Nat) (c : Core) : List (Nat × Conv) → Core
  | [] => c
  | (h, v) :: r => captureAll s tile plane (capture s c tile plane h v) r

/-! ## Energy of a strobe (R62) -/

/-- E of one strobe in 1/204,800 pJ: E_conv + 9.1 + 48 × Σu / 1,920 + 54 × Q / 14,400, Q the mean charge of the 256 data columns. -/
def strobeEnergy (s : State) (pk : Nat) (fine : Bool) (us : List (Nat × Nat)) : Nat :=
  (if fine then 66478080 else 18022400) + 5120 * sumNat (us.map (·.2)) + 3 * sumNat ((List.range 256).map (columnCharge s pk us))

/-! ## One tile product -/

/-- The bytes of a skim slot (R83): tag, shifts, weights. -/
def skimSlotBytes (tag : Nat) (shifts : List Nat) (w : Tbl Int) : List Byte :=
  leBytes 8 tag ++ (List.range 8).map (fun k => BitVec.ofNat 8 (shifts.getD k 0))
    ++ (List.range 2048).map (fun i => BitVec.ofNat 8 (ofSigned 8 (tget 0 w i)))

/-- Logical plane address word of a physical plane (R83 tag). -/
def planeTag (s : State) (pk : Nat) : Nat := logicalWordOf s (unitOfPlane pk)

/-- The region DMA fills the named slot from the plate's digital section before the strobe (R83). -/
def fillSkimSlot (s : State) (ck pk slot : Nat) : State :=
  match tfind s.arr.skim pk with
  | some d => if slot = 0xFFFF then s else
      modCore (modRegion s (coreRegion ck) (passingTransfers true 1)) ck (fun c => { c with scratch := mwrite c.scratch (16 * slot) (skimSlotBytes (planeTag s pk) d.1 d.2) })
  | none => s

/-- The layer record in effect shows in SKIM_LAYER0–2 (R102). -/
def showLayer (c : Core) (layer restrike : Nat) (l : LayerRec) : Core :=
  { c with layerReg := BitVec.ofNat 32 (layer * 2 ^ 16 + restrike * 2 ^ 14),
           layer1 := BitVec.ofNat 32 (tauOf l * 2 ^ 16 + nearOf l * 2 ^ 8 + tauAOf l),
           layer2 := BitVec.ofNat 32 (satOf l * 2 ^ 16) }

/-- Codes of the re-strike factor (R94, R138): 0 one, 1 two, 2 four strikes. -/
def strikes (code : Nat) : Nat := 2 ^ min 2 code

/-- Strobes of one product: each nibble and each re-strike is one (R45, R46, R94). -/
def productStrobes (r : StrobeReq) : Nat := strikes r.restrike * (if r.bits ≤ 4 then 1 else 2)

/-- Strobe one product on the engaged plane, or skip it when no block is driven (R46). The strobes of the product run in a
row; the product then waits for the skim path. -/
def strobeProduct (s : State) (r : StrobeReq) (p : Nat) (other : Option Nat) : State :=
  let pk := planeKey (tileKey r.core r.tile) p
  let d := descOf s pk
  let rk := coreRegion r.core
  let xs := drivenRows d r.seg r.rows
  let k := strikes r.restrike
  let per := if r.bits ≤ 4 then 1 else 2
  let shown := modCore s r.core (fun c => match layerRec s r.slot r.layer with
    | some l => showLayer c r.layer r.restrike l
    | none => c)
  if drivenBlocks r.seg r.rows = [] then
    modCore shown r.core (fun c => { c with suppressCount := satAdd 32 c.suppressCount (k * per),
                                            held := c.held ++ [{ req := r, phys := p, convs := [], skipped := true, other := other }] })
  else
    let simul := simultaneous s rk r.groupCores
    let c := coreOf s r.core
    let dd := convDelay s
    let w := strobeWindow r.bits
    let tc := convTime r.fine
    let start := max (max r.ready (now s)) (tileOf c r.tile).freeAt
    let ready := max start (wakeBy s c - (w + dd))
    let placed := placeStrikes simul (edgePhase s rk) w dd tc per k ready (c.strobes.filter (fun e => now s < e.2))
    let hs := placed.1
    let drives := (List.replicate k (strikeDrives r.bits (driveCodes r.bits xs))).flatten
    let seqs := (hs.zip drives).zip (List.range (k * per))
    let convs := seqs.map (fun q => (q.1.1, convertAll s r.core pk r.fine q.1.2 (s.free + q.2)))
    let last := hs.getLastD ready
    let overs := sumNat (convs.map (fun v => (v.2.codes.filter (·.2)).length))
    let lateN := if simul && r.edge != 0 then (hs.headD 0 - r.edge) / 40 else 0
    let s1 := modCore shown r.core (fun c0 =>
      let c1 := captureAll s r.tile p c0 convs
      let c2 := addSeqs (now s) c1 hs tc
      modTile { c2 with fineLast := r.fine, ovrCount := satAdd 32 c1.ovrCount overs,
                        strobeCount := satAdd 64 c1.strobeCount (k * per), lateCount := satAdd 32 c1.lateCount lateN,
                        energy := c1.energy + sumNat (drives.map (strobeEnergy s pk r.fine)), strobes := placed.2, monSince := c1.monSince + k * per,
                        held := c1.held ++ [{ req := r, phys := p, convs := convs.map (·.2), skipped := false, other := other }] }
        r.tile (fun x => { addWork (now s) x 1 (hs.headD ready - (w + dd)) (last + tc + 4) with freeAt := last + tc }))
    let s2 := modRegion s1 rk (fun g =>
      if simul then
        let new := hs.filter (· ∉ g.heldEdges)
        { g with lastSimul := true, edges := (g.edges + new.length) % 65536, heldEdges := g.heldEdges.filter (now s ≤ ·) ++ new }
      else { g with lastSimul := false })
    { s2 with free := s2.free + k * per }

/-- A core may strobe for a forme: service, its array driven, not fenced, not in a test (R17, R31, R39, R371). -/
def coreUsable (s : State) (ck : Nat) : Bool :=
  inService s && stackDriven s (coreStack ck) && !coreFenced s ck && (coreOf s ck).testing.isNone

/-- A segment whose sheet fails its CRC-32C as the strobe consumes it. -/
def takeBadSheet (s : State) (r : StrobeReq) : State :=
  match r.badSheet with
  | none => s
  | some ck => withholdRow (sheetFailed s ck) r.rid

/-- A product is strobed (R46-R59): the tile takes back the plane engaged before a burst, then switches when it does not engage the
product's plane; a plane that no forme may strobe is not strobed (R17, R43); a simultaneous group waits while the region timer is not
locked. `other` is the other twin's plane when it can be strobed too. -/
def strobeReady (s : State) (r : StrobeReq) (other : Option Nat) : State :=
  let rk := coreRegion r.core
  let tk := tileKey r.core r.tile
  let p := physPlane s tk r.plane
  if !coreUsable s r.core || !formeState (descOf s (planeKey tk p)) || (simultaneous s rk r.groupCores && !regionLocked s rk) then s
  else
    let s0 := reengage (endBurst s r.core r.tile (max r.ready (now s))) r.core r.tile
    let s1 := if (tileOf (coreOf s0 r.core) r.tile).engaged = some p then s0 else engageLogical s0 r.core r.tile r.plane
    if (tileOf (coreOf s1 r.core) r.tile).engaged = some p then
      strobeProduct (fillSkimSlot (takeBadSheet s1 r) r.core (planeKey tk p) r.skimSlot) r p other
    else s1

end Sys2Proof.Machine
end

