-- ==== Sys2Proof/Machine/Numerics.lean ====
section
/-! DEFINITION. The formats of 04_numerics: rounding, host floating-point formats (R108, R109), block integers and input
segments (R105-R116), the lane arithmetic of R118, activation tables (R127), top-k (R131). Values are exact dyadic
numbers until a format rounds them. -/

namespace Sys2Proof.Machine

/-! ## Rounding (R129) -/

/-- Round a quotient to the nearest integer, ties to even. -/
def rneDiv (n : Int) (d : Nat) : Int :=
  let q := n / (d : Int)
  let r := n % (d : Int)
  if 2 * r < d then q else if (d : Int) < 2 * r then q + 1 else if q % 2 = 0 then q else q + 1

/-- Stochastic rounding with a 16-bit random value: up exactly when it lies below the discarded fraction, truncated to 16
bits (R129). -/
def srDiv (n : Int) (d : Nat) (r : Nat) : Int :=
  let q := n / (d : Int)
  let f := (n % (d : Int)) * 65536 / (d : Int)
  if (r : Int) < f then q + 1 else q

/-- Rounding mode of a value: nearest even, or stochastic with the generator's next 16 bits. -/
def roundDiv (mode : Option Nat) (n : Int) (d : Nat) : Int :=
  match mode with
  | none => rneDiv n d
  | some r => srDiv n d r

/-- `n / d` scaled by `2^e`, as a quotient of integers. -/
def scaleNum (n : Int) (e : Int) : Int := if 0 ≤ e then n * 2 ^ e.toNat else n
def scaleDen (d : Nat) (e : Int) : Nat := if 0 ≤ e then d else d * 2 ^ (-e).toNat

/-- The magnitude a signed number of `w` bits is limited to. -/
def limitTo (lo hi x : Int) : Int := max lo (min hi x)

/-! ## Floating point (R108, R109) -/

inductive Fp where
  | nan
  | inf (neg : Bool)
  | fin (neg : Bool) (m : Nat) (e : Int)
deriving DecidableEq, Repr, Inhabited

structure Fmt where
  eb : Nat
  mb : Nat
  maxBits : Nat
  nanBits : Nat
  hasInf : Bool
deriving DecidableEq, Repr

def fp32 : Fmt := ⟨8, 23, 0x7F7FFFFF, 0x7FC00000, true⟩
def bf16 : Fmt := ⟨8, 7, 0x7F7F, 0x7FC0, true⟩
def fp16 : Fmt := ⟨5, 10, 0x7BFF, 0x7E00, true⟩
def e4m3 : Fmt := ⟨4, 3, 0x7E, 0x7F, false⟩
def e5m2 : Fmt := ⟨5, 2, 0x7B, 0x7E, true⟩

def Fmt.bias (f : Fmt) : Int := 2 ^ (f.eb - 1) - 1
/-- Exponent of the smallest step of the format. -/
def Fmt.minExp (f : Fmt) : Int := 1 - f.bias - f.mb
def Fmt.width (f : Fmt) : Nat := 1 + f.eb + f.mb

/-- The value of a bit pattern. -/
def fpDecode (f : Fmt) (w : Nat) : Fp :=
  let neg := bitAt w (f.eb + f.mb)
  let ex := w / 2 ^ f.mb % 2 ^ f.eb
  let ma := w % 2 ^ f.mb
  if f.hasInf && ex == 2 ^ f.eb - 1 then (if ma = 0 then .inf neg else .nan)
  else if !f.hasInf && ex == 2 ^ f.eb - 1 && ma == 2 ^ f.mb - 1 then .nan
  else if ex = 0 then .fin neg ma f.minExp
  else .fin neg (ma + 2 ^ f.mb) (f.minExp + (ex - 1 : Nat))

/-- Magnitude bits of the quotient `n / d × 2^e`, n not 0, rounded by the mode; the sign matters for stochastic rounding. -/
def fpMag (f : Fmt) (mode : Option Nat) (neg : Bool) (n d : Nat) (e : Int) : Nat :=
  let l0 : Int := (Nat.log2 n : Int) - Nat.log2 d
  -- floor of log2 (n / d)
  let l := if n * 2 ^ (-l0).toNat < d * 2 ^ l0.toNat then l0 - 1 else l0
  let q := max f.minExp (e + l - f.mb)
  let x : Int := if neg then -(n : Int) else n
  let k := (roundDiv mode (scaleNum x (e - q)) (scaleDen d (e - q))).natAbs
  (q - f.minExp).toNat * 2 ^ f.mb + k

/-- Conversion of a quotient into a format: the bit pattern and whether the value counts as SAT (R109: a value beyond the
largest finite value becomes that value with its sign). -/
def fpEncodeQ (f : Fmt) (mode : Option Nat) (neg : Bool) (n d : Nat) (e : Int) : Nat × Bool :=
  let sign := b2n neg * 2 ^ (f.eb + f.mb)
  if n = 0 ∨ d = 0 then (sign, false)
  else
    let mag := fpMag f mode neg n d e
    let beyond : Bool := match fpDecode f f.maxBits with
      | .fin _ m e1 => decide (scaleNum (m : Int) (e1 - e) * d < (n : Int) * scaleDen 1 (e1 - e))
      | _ => false
    if f.maxBits < mag ∨ beyond then (sign + f.maxBits, true) else (sign + mag, false)

def fpEncode (f : Fmt) (mode : Option Nat) : Fp → Nat × Bool
  | .nan => (f.nanBits, false)
  | .inf neg => (b2n neg * 2 ^ (f.eb + f.mb) + f.maxBits, true)
  | .fin neg m e => fpEncodeQ f mode neg m 1 e

/-- Exact sum and product of dyadic values (NaN and infinities as IEEE 754 gives them). -/
def fpInt (neg : Bool) (m : Nat) : Int := if neg then -(m : Int) else m

def fpAdd : Fp → Fp → Fp
  | .nan, _ => .nan
  | _, .nan => .nan
  | .inf a, .inf b => if a = b then .inf a else .nan
  | .inf a, _ => .inf a
  | _, .inf b => .inf b
  | .fin a m e, .fin b n f =>
    let g := min e f
    let s := fpInt a m * 2 ^ (e - g).toNat + fpInt b n * 2 ^ (f - g).toNat
    .fin (if s = 0 then a && b else s < 0) s.natAbs g

def fpMul : Fp → Fp → Fp
  | .nan, _ => .nan
  | _, .nan => .nan
  | .inf a, .inf b => .inf (xor a b)
  | .inf a, .fin b n _ => if n = 0 then .nan else .inf (xor a b)
  | .fin a m _, .inf b => if m = 0 then .nan else .inf (xor a b)
  | .fin a m e, .fin b n f => .fin (xor a b) (m * n) (e + f)

def fpNeg : Fp → Fp
  | .nan => .nan
  | .inf a => .inf (!a)
  | .fin a m e => .fin (!a) m e

/-- Signed comparison of finite values and infinities: -1, 0 or 1; NaN compares as none. -/
def fpCmp (x y : Fp) : Option Int :=
  let sgn : Int → Int := fun i => if i < 0 then -1 else if i = 0 then 0 else 1
  match x, y with
  | .nan, _ => none
  | _, .nan => none
  | .inf a, .inf b => some (if a = b then 0 else if a then -1 else 1)
  | .inf a, _ => some (if a then -1 else 1)
  | _, .inf b => some (if b then 1 else -1)
  | .fin _ _ _, .fin _ _ _ =>
    match fpAdd x (fpNeg y) with
    | .fin n m _ => some (sgn (fpInt n m))
    | _ => none

def fpLt (x y : Fp) : Bool := fpCmp x y == some (-1)
def fpLe (x y : Fp) : Bool := fpCmp x y == some (-1) || fpCmp x y == some 0

def fpAbs : Fp → Fp
  | .nan => .nan
  | .inf _ => .inf false
  | .fin _ m e => .fin false m e

/-- FP32 words. -/
def f32 (w : W32) : Fp := fpDecode fp32 w.toNat
def toF32 (x : Fp) : W32 := BitVec.ofNat 32 (fpEncode fp32 none x).1
def f32Add (a b : W32) : W32 := toF32 (fpAdd (f32 a) (f32 b))
def f32Mul (a b : W32) : W32 := toF32 (fpMul (f32 a) (f32 b))
/-- One fused multiply-add with one rounding, and its SAT mark (R126 stage 2). -/
def f32Fma (a b c : W32) : W32 × Bool :=
  let r := fpEncode fp32 none (fpAdd (fpMul (f32 a) (f32 b)) (f32 c))
  (BitVec.ofNat 32 r.1, r.2)
def f32Sub (a b : W32) : W32 := toF32 (fpAdd (f32 a) (fpNeg (f32 b)))
/-- FP32 quotient; a zero divisor gives the largest finite value, or NaN for 0/0. -/
def f32Div (a b : W32) : W32 :=
  match f32 a, f32 b with
  | .fin x m e, .fin y n f =>
    if n = 0 then (if m = 0 then BitVec.ofNat 32 0x7FC00000 else BitVec.ofNat 32 (fpEncode fp32 none (.inf (xor x y))).1)
    else BitVec.ofNat 32 (fpEncodeQ fp32 none (xor x y) m n (e - f)).1
  | .nan, _ => BitVec.ofNat 32 0x7FC00000
  | _, .nan => BitVec.ofNat 32 0x7FC00000
  | .inf _, .inf _ => BitVec.ofNat 32 0x7FC00000
  | .inf x, .fin y _ _ => toF32 (.inf (xor x y))
  | .fin x _ _, .inf y => toF32 (.fin (xor x y) 0 0)
def f32OfNat (n : Nat) : W32 := toF32 (.fin false n 0)
def f32IsNan (w : W32) : Bool := f32 w == .nan
/-- Finite FP32 value. -/
def f32Finite (w : W32) : Bool := match f32 w with
  | .fin _ _ _ => true
  | _ => false
def f32Lt (a b : W32) : Bool := fpLt (f32 a) (f32 b)
def f32MaxFinite : W32 := 0x7F7FFFFF

/-- A value divided by a tensor scale, rounded and limited to 8 bits (R109). DESIGN CHOICE (log entry 74): a NaN becomes 0 and counts as SAT; a
scale that is no finite number other than 0 acts as 1. -/
def toInt8 (scale : W32) (mode : Option Nat) (x : Fp) : Nat × Bool :=
  match x with
  | .nan => (0, true)
  | .inf neg => (ofSigned 8 (if neg then -128 else 127), true)
  | .fin neg m e =>
    let d : Bool × Nat × Int := match f32 scale with
      | .fin g k f => if k = 0 then (false, 1, 0) else (g, k, f)
      | _ => (false, 1, 0)
    let v := roundDiv mode (scaleNum (fpInt (xor neg d.1) m) (e - d.2.2)) (scaleDen d.2.1 (e - d.2.2))
    (ofSigned 8 (limitTo (-128) 127 v), v < -128 || 127 < v)

/-- Bit pattern of a value in the host format of a 4-bit code (R108), with its SAT mark; `scale` is the tensor scale of INT8. -/
def toHostFmt (scale : W32) (code : Nat) (mode : Option Nat) (x : Fp) : Nat × Bool :=
  match code with
  | 0 => fpEncode fp32 mode x
  | 1 => fpEncode bf16 mode x
  | 2 => fpEncode fp16 mode x
  | 3 => fpEncode e4m3 mode x
  | 4 => fpEncode e5m2 mode x
  | _ => toInt8 scale mode x

/-- Bytes of one element in a host format. -/
def hostBytes (code : Nat) : Nat := if code = 0 then 4 else if code ≤ 2 then 2 else 1

/-! ## Block integers (R105-R107) -/

/-- Largest magnitude used for scaling (R105). -/
def biMax (b : Nat) : Nat := if b ≤ 2 then 1 else 2 ^ (b - 1) - 1

/-- `m × 2^me ≤ M × 2^e`. -/
def fitsScale (m : Nat) (me : Int) (big : Nat) (e : Int) : Bool :=
  let g := min me e
  m * 2 ^ (me - g).toNat ≤ big * 2 ^ (e - g).toNat

/-- The smallest integer e with m ≤ M × 2^e, limited to −126…127 (R107 step 2). -/
def biScale (m : Nat) (me : Int) (big : Nat) : Int :=
  let e0 : Int := me + Nat.log2 m - Nat.log2 big - 1
  let e := if fitsScale m me big e0 then e0 else if fitsScale m me big (e0 + 1) then e0 + 1 else e0 + 2
  limitTo (-126) 127 e

/-- The scale of step 2 is limited to 127: only then does an element leave its range (R107, R116). -/
def scaleLimited (m : Nat) (me : Int) (big : Nat) : Bool := !fitsScale m me big 127

/-- Largest magnitude of a list of finite values: mantissa and exponent. -/
def maxMag (xs : List Fp) : Nat × Int :=
  xs.foldl (fun acc x => match x with
    | .fin _ m e => if fitsScale m e acc.1 acc.2 then acc else (m, e)
    | _ => acc) (0, 0)

/-- A value as an integer of `lo … hi` at scale e, and whether it left the range (R107 step 3). -/
def atScale (mode : Option Nat) (lo hi : Int) (e : Int) (x : Fp) : Int × Bool :=
  match x with
  | .fin neg m f =>
    let v := roundDiv mode (scaleNum (fpInt neg m) (f - e)) (scaleDen 1 (f - e))
    (limitTo lo hi v, v < lo || hi < v)
  | _ => (0, false)

def biLo (b : Nat) : Int := -(2 ^ (b - 1) : Int)
def biHi (b : Nat) : Int := 2 ^ (b - 1) - 1

/-- Elements packed b bits each, element 0 in the least significant bits (R105). -/
def packBits (b : Nat) : List Int → Nat
  | [] => 0
  | x :: r => ofSigned b x + 2 ^ b * packBits b r

/-- A block formed on its own: E8 code, elements, elements that left their range (R107). -/
def biBlock (b : Nat) (modes : List (Option Nat)) (xs : List Fp) : Nat × List Int × Nat :=
  let m := maxMag xs
  if m.1 = 0 then (0, xs.map (fun _ => 0), 0)
  else
    let e := biScale m.1 m.2 (biMax b)
    let qs := (xs.zip (modes ++ xs.map (fun _ => none))).map (fun x => atScale x.2 (biLo b) (biHi b) e x.1)
    let vs := qs.map (·.1)
    if vs.all (· == 0) then (0, vs, 0)
    else ((e + 127).toNat, vs, if scaleLimited m.1 m.2 (biMax b) then (qs.filter (·.2)).length else 0)

/-- Elements of a packed field of b bits each. -/
def unpackBits (b n w : Nat) : List Int := (List.range n).map (fun i => toSigned b (w / 2 ^ (b * i) % 2 ^ b))

/-- Widening of a stored block (R105, R106, R285): its values; a zero block and a reserved code read as zeros, and a reserved code counts
as SAT. -/
def blockValues (b : Nat) (bs : List Byte) : List W32 × Bool :=
  let code := (bs.headD 0).toNat
  if code = 0 ∨ code = 255 then (List.replicate 32 0, code == 255)
  else ((unpackBits b 32 (leNat bs.tail)).map (fun q => toF32 (.fin (q < 0) q.natAbs ((code : Int) - 127))), false)

/-! ## The array edge (R110, R111) -/

/-- The declared clamp: the value and whether the clamp count takes it (R110). -/
def edgeClamp (clamp : Fp) (x : Fp) : Fp × Bool :=
  match x with
  | .nan => (.fin false 0 0, true)
  | _ => if fpLe (fpAbs x) clamp then (x, false)
    else match clamp with
      | .fin _ m e => (.fin (match x with
          | .inf n => n
          | .fin n _ _ => n
          | .nan => false) m e, true)
      | _ => (x, false)

/-- Split a list into blocks of n. -/
def chunks {α : Type} (n : Nat) : Nat → List α → List (List α)
  | 0, _ => []
  | k + 1, xs => xs.take n :: chunks n k (xs.drop n)

/-- An input segment from up to 256 source values (R111). `skimRows` lists the valid skim rows k with their row index;
`satIn` the elements that carry a lane's SAT mark (R126); `modes` the rounding mode of each source value, which becomes an element or a
skim value. Elements beyond the given values are zero. -/
def formSegment (b : Nat) (clamp : Fp) (skimRows : List (Nat × Nat)) (modes : List (Option Nat)) (satIn : List Nat)
    (vals : List Fp) : Segment :=
  let zero : Fp := .fin false 0 0
  let cl := (List.range 256).map (fun i => edgeClamp clamp (vals.getD i zero))
  let isSkim := fun i => skimRows.any (fun s => s.2 == i)
  let body := (List.range 256).map (fun i => if isSkim i then zero else (cl.getD i (zero, false)).1)
  let sk := skimRows.map (fun s => (s.1, s.2, cl.getD s.2 (zero, false)))
  let m := maxMag body
  let mk := maxMag (sk.map (fun s => s.2.2.1))
  let e : Int := if m.1 ≠ 0 then biScale m.1 m.2 (biMax b) else if mk.1 ≠ 0 then biScale mk.1 mk.2 127 else 0
  let qs := (List.range 256).map (fun i => atScale (modes.getD i none) (biLo b) (biHi b) e (body.getD i zero))
  let blocks := chunks 32 8 (qs.map (·.1))
  let scales := blocks.map (fun bl => if bl.all (· == 0) then 0 else (e + 127).toNat)
  let limited : Bool := m.1 != 0 && scaleLimited m.1 m.2 (biMax b)
  let marked := fun i => !isSkim i && ((cl.getD i (zero, false)).2 || (limited && (qs.getD i (0, false)).2) || i ∈ satIn)
  let clamps := (List.range 8).map (fun j => ((List.range 32).filter (fun i => marked (32 * j + i))).length)
  let vk := sk.map (fun s => (s.1, s.2.1, s.2.2.2, atScale (modes.getD s.2.1 none) (-128) 127 e s.2.2.1))
  { scales := scales, clamps := clamps,
    skim := (List.range 8).map (fun k => ((vk.find? (fun v => v.1 == k)).map (fun v => v.2.2.2.1)).getD 0),
    skimClamps := (vk.filter (fun v => v.2.2.1 || v.2.2.2.2 || v.2.1 ∈ satIn)).length,
    skimValid := (skimRows.foldl (fun acc s => Nat.lor acc (2 ^ s.1)) 0),
    eSeg := (e + 127).toNat, elems := blocks }

/-- Bytes of an input segment (R113). -/
def segmentBytes (b : Nat) (g : Segment) : List Byte :=
  ((List.range 8).flatMap (fun j => [BitVec.ofNat 8 (g.scales.getD j 0), BitVec.ofNat 8 (g.clamps.getD j 0)]))
  ++ (List.range 8).map (fun k => BitVec.ofNat 8 (ofSigned 8 (g.skim.getD k 0)))
  ++ [BitVec.ofNat 8 g.skimClamps, BitVec.ofNat 8 g.skimValid, BitVec.ofNat 8 g.eSeg] ++ List.replicate 5 0
  ++ (List.range 8).flatMap (fun j => leBytes (4 * b) (packBits b (g.elems.getD j [])))

/-- The segment that bytes spell (R113). -/
def segmentOf (b : Nat) (bs : List Byte) : Segment :=
  let at_ := fun (i : Nat) => (bs.getD i 0).toNat
  { scales := (List.range 8).map (fun j => at_ (2 * j)), clamps := (List.range 8).map (fun j => at_ (2 * j + 1)),
    skim := (List.range 8).map (fun k => toSigned 8 (at_ (16 + k))), skimClamps := at_ 24, skimValid := at_ 25, eSeg := at_ 26,
    elems := (chunks (4 * b) 8 (bs.drop 32)).map (fun x => unpackBits b 32 (leNat x)) }

/-- CRC-32C (reflected, polynomial 0x82F63B78, initial and final inversion) of bytes: PRESUMED from RFC 3720 (log 7). -/
def crcBit : Nat → Nat → Nat
  | 0, c => c
  | n + 1, c => crcBit n (if c % 2 = 1 then Nat.xor (c / 2) 0x82F63B78 else c / 2)

def crc32c (bs : List Byte) : Nat := Nat.xor (bs.foldl (fun c b => crcBit 8 (Nat.xor c b.toNat)) 0xFFFFFFFF) 0xFFFFFFFF

/-! ## Lanes (R117, R118) -/

def fits24 (x : Int) : Bool := -(2 ^ 23 : Int) ≤ x && x < 2 ^ 23

/-- Bring a total into 48 bits and its exponent into range (the last lines of add_total). `fuel` bounds the halvings. -/
def normTotal : Nat → Lane → Lane
  | 0, l => l
  | k + 1, l => if 2 ^ 47 ≤ l.m.natAbs then normTotal k { l with m := rneDiv l.m 2, e := l.e + 1 } else l

def capTotal (l : Lane) : Lane :=
  if 511 < l.e then { l with m := if l.m < 0 then -(2 ^ 47 - 1) else 2 ^ 47 - 1, e := 511, sat := true, capped := true } else l

/-- Align two operands: to the smaller exponent when the shifted operand keeps within 47 magnitude bits, otherwise the one
with the smaller exponent is shifted right, rounding half to even. -/
def alignSum (m : Int) (e : Int) (v : Int) (f : Int) : Int × Int :=
  let big := if f ≤ e then (m, e) else (v, f)
  let small := if f ≤ e then (v, f) else (m, e)
  let d := (big.2 - small.2).toNat
  if (big.1 * 2 ^ d).natAbs < 2 ^ 47 then (big.1 * 2 ^ d + small.1, small.2)
  else (big.1 + rneDiv small.1 (2 ^ d), big.2)

def addTotal (l : Lane) (v : Int) (e : Int) : Lane :=
  if l.m = 0 then capTotal (normTotal 8 { l with m := v, e := e })
  else
    let s := alignSum l.m l.e v e
    capTotal (normTotal 8 { l with m := s.1, e := s.2 })

def promote (l : Lane) : Lane := { addTotal l l.r l.er with r := 0, n := 0 }

/-- One partial enters a lane (R118). The count of 4,096 that spills is taken by the bank. -/
def acceptLane (l : Lane) (y : Int) (e : Int) : Lane :=
  let l1 := if 0 < l.n ∧ (l.n = 16 ∨ e ≠ l.er ∨ fits24 (l.r + y) = false) then promote l else l
  let l2 := if l1.n = 0 ∧ fits24 y then { l1 with r := y, er := e, n := 1 }
    else if 0 < l1.n ∧ fits24 (l1.r + y) then { l1 with r := l1.r + y, n := l1.n + 1 }
    else addTotal l1 y e
  { l2 with count := l2.count + 1 }

/-- A partial entry as a lane total, and back (R124). -/
def entryAdd (p : PartialEntry) (v : Int) (e : Int) (sat : Bool) : PartialEntry :=
  let l := addTotal { m := p.mant, e := p.exp, sat := p.sat || sat } v e
  { mant := l.m, exp := l.e, sat := l.sat, resume := p.resume }

/-- Whether adding a total into an entry saturates it (R136). -/
def entryCaps (p : PartialEntry) (l : Lane) : Bool := (addTotal { m := p.mant, e := p.exp } l.m l.e).capped && !l.capped

def entryNat (p : PartialEntry) : Nat :=
  ofSigned 48 p.mant * 2 ^ 16 + ofSigned 10 p.exp * 2 ^ 6 + b2n p.sat * 2 ^ 5 + b2n p.resume * 2 ^ 4

def entryOf (w : Nat) : PartialEntry :=
  { mant := toSigned 48 (w / 2 ^ 16), exp := toSigned 10 (fld w 15 6), sat := bitAt w 5, resume := bitAt w 4 }

/-! ## Activation tables (R127)

Fixed-point arithmetic with 2^-900 steps gives the exact function well beyond the precision that rounding to FP32 needs
over [-16, 16]. -/

def fixBits : Nat := 900
def fixOne : Int := 2 ^ fixBits
def fixMul (a b : Int) : Int := a * b / fixOne

/-- Taylor sum of exp: term k is term (k-1) × x / k. -/
def expSum (x : Int) : Nat → Nat → Int → Int → Int
  | 0, _, _, acc => acc
  | fuel + 1, k, term, acc => let t := fixMul term x / (k : Int); expSum x fuel (k + 1) t (acc + t)

/-- exp of x = n / 16 in fixed point. -/
def expFix (n : Int) : Int := expSum (n * fixOne / 16) 260 1 fixOne fixOne

/-- Series of the integral of exp(-t²/2): the term a_k = a_(k-1) × (-x²/2) / k adds a_k × x / (2k + 1). -/
def phiSum (x h : Int) : Nat → Nat → Int → Int → Int
  | 0, _, _, acc => acc
  | fuel + 1, k, a, acc =>
    let a' := fixMul a h / (k : Int)
    phiSum x h fuel (k + 1) a' (acc + fixMul a' x / ((2 * k + 1 : Nat) : Int))

/-- √(2π) in fixed point: 2π from the arctangent series of Machin, the root as an integer square root. -/
def atanInv (n : Nat) : Nat → Nat → Int → Int → Int
  | 0, _, _, acc => acc
  | fuel + 1, k, p, acc =>
    let p' := p / ((n * n : Nat) : Int)
    atanInv n fuel (k + 1) p' (if k % 2 = 1 then acc - p' / ((2 * k + 1 : Nat) : Int) else acc + p' / ((2 * k + 1 : Nat) : Int))

def piFix : Int :=
  4 * (4 * atanInv 5 220 1 (fixOne / 5) (fixOne / 5) - atanInv 239 80 1 (fixOne / 239) (fixOne / 239))

/-- Integer square root by Newton's method. -/
def isqrt : Nat → Nat → Nat → Nat
  | 0, _, g => g
  | k + 1, n, g => if g = 0 then 0 else isqrt k n ((g + n / g) / 2)

def sqrtTwoPi : Int := (isqrt 24 (2 * piFix * fixOne).toNat (2 ^ (fixBits + 1)) : Nat)

/-- Φ(x) of the normal distribution at x = n / 16. -/
def phiFix (n : Int) : Int :=
  let x := n * fixOne / 16
  let h := -(fixMul x x) / 2
  fixOne / 2 + phiSum x h 700 1 fixOne x * fixOne / sqrtTwoPi

def fixToF32 (v : Int) : W32 := BitVec.ofNat 32 (fpEncodeQ fp32 none (v < 0) v.natAbs 1 (-(fixBits : Int))).1

/-- Node value n_i of GELU (act 2) and SiLU (act 3) at x_i = −16 + i / 16 (R127). -/
def actNode (act i : Nat) : W32 :=
  let n : Int := (i : Int) - 256
  if act = 2 then fixToF32 (n * phiFix n / 16)
  else fixToF32 (n * fixOne / 16 * fixOne / (fixOne + expFix (-n)))

/-- Segment slope s_i = 16 × (n_(i+1) − n_i), rounded to FP32. -/
def actSlope (act i : Nat) : W32 :=
  toF32 (fpMul (.fin false 16 0) (fpAdd (f32 (actNode act (i + 1))) (fpNeg (f32 (actNode act i)))))

/-- The activation of epilogue stage 3 (R126, R127): 0 none, 1 ReLU, 2 GELU, 3 SiLU. -/
def actF32 (act : Nat) (v : W32) : W32 :=
  match act, f32 v with
  | _, .nan => v
  | 0, _ => v
  | 1, x => if fpLt x (.fin false 0 0) then 0 else v
  | _, .inf neg => if neg then 0 else v
  | a, .fin neg m e =>
    -- floor of 16 × v
    let k := scaleNum (fpInt neg m) (e + 4) / (scaleDen 1 (e + 4) : Int)
    if 256 ≤ k then v
    else if k < -256 then 0
    else
      let i := (k + 256).toNat
      let x := fpAdd (.fin neg m e) (.fin (0 < k) k.natAbs (-4))
      toF32 (fpAdd (fpMul x (f32 (actSlope a i))) (f32 (actNode a i)))

/-! ## Top-k (R131) -/

/-- Insert a record into a list by descending value, equal values by ascending position. -/
def topInsert (r : W32 × Nat) : List (W32 × Nat) → List (W32 × Nat)
  | [] => [r]
  | h :: t => if fpLt (f32 h.1) (f32 r.1) ∨ (fpCmp (f32 h.1) (f32 r.1) = some 0 ∧ r.2 < h.2) then r :: h :: t
    else h :: topInsert r t

/-- The k largest of records that are no NaN. -/
def topOf (k : Nat) (rs : List (W32 × Nat)) : List (W32 × Nat) := rs.foldl (fun acc r => (topInsert r acc).take k) []

/-- The k largest elements with their positions, and the number of NaN elements. -/
def topK (k : Nat) (xs : List W32) : List (W32 × Nat) × Nat :=
  let pos := (xs.zip (List.range xs.length)).filter (fun x => !f32IsNan x.1)
  (topOf k pos, xs.length - pos.length)

/-- The second stage of a vector in several regions: the merge of the lists that its parts gave (R131). -/
def mergeTop (k : Nat) (parts : List (List (W32 × Nat))) : List (W32 × Nat) := topOf k parts.flatten

end Sys2Proof.Machine
end

