-- ==== Sys2Proof/Machine/Accum.lean ====
section
/-! DEFINITION. Accumulator banks of 04_numerics: partials entering lanes with spills (R118, R120), parking (R119, R123),
finalisation and the fused epilogue (R121, R126-R130). -/

namespace Sys2Proof.Machine

/-! ## Spill slots and partial entries -/

/-- SPILL_SLOT and the DEST_ADDR of DEST 2 are offsets in the accumulation area of their own forme (R337): the address of a byte of that
area in the wide buffer (log entry 64), and of a slot, 2 KiB each (R119). -/
def areaAddr (forme a : Nat) : Nat := 2 ^ 27 * forme + a
def areaSlot (forme n : Nat) : Nat := areaAddr forme (2048 * n)

/-- The entry of a lane in the slot at an address: 256 entries of 8 bytes (R120). -/
def spillGet (g : Region) (slot lane : Nat) : PartialEntry := entryOf (leNat (mread g.wideBuf (slot + 8 * lane) 8))

/-- A slot's lane holds something to add. -/
def spilled (g : Region) (slot lane : Nat) : Bool := leNat (mread g.wideBuf (slot + 8 * lane) 8) != 0

/-- Zero into the 2 KiB of a slot. -/
def clearSlot (m : List Host.Cell) (slot : Nat) : List Host.Cell := m.filter (fun c => !(slot ≤ c.1 && c.1 < slot + 2048))

/-- Clear a spill slot. -/
def spillClear (g : Region) (slot : Nat) : Region :=
  { g with wideBuf := clearSlot g.wideBuf slot, parks := tdel g.parks slot }

/-- Lanes that a bank holds totals of. -/
def lanesOf (b : Bank) : List Nat := b.lanes.map (·.1)

/-- Lanes of a bank: 256, or 128 for weight mode 4 (R117). -/
def bankLanes (b : Bank) : Nat := b.width

/-- Add a total into the lane's entry of a slot with the ADD rule and set its RESUME mark (R120). -/
def spillLane (slot : Nat) (g : Region) (i : Nat) (l : Lane) : Region :=
  let p := entryAdd (spillGet g slot i) l.m l.e l.sat
  { g with wideBuf := mwrite g.wideBuf (slot + 8 * i) (leBytes 8 (entryNat { p with resume := true })) }

def spillLanes (slot : Nat) (b : Bank) (g : Region) : List Nat → Region
  | [] => g
  | i :: r => spillLanes slot b (spillLane slot g i (laneOf b i)) r

/-- Reload of a lane from its slot: the slot's content is added to the total (R120, R123). -/
def reloadLane (slot : Nat) (g : Region) (b : Bank) (i : Nat) : Bank :=
  if spilled g slot i then
    let p := spillGet g slot i
    let l := addTotal (promote (laneOf b i)) p.mant p.exp
    setLane b i { l with sat := l.sat || p.sat }
  else setLane b i (promote (laneOf b i))

def reloadLanes (slot : Nat) (g : Region) (b : Bank) : List Nat → Bank
  | [] => b
  | i :: r => reloadLanes slot g (reloadLane slot g b i) r

/-! ## A product enters a bank -/

def enterLanes (b : Bank) (sat : Bool) (e : Int) : Nat → List Int → Bank
  | _, [] => b
  | i, y :: r =>
    let l := acceptLane (laneOf b i) y e
    enterLanes (setLane b i { l with sat := l.sat || sat }) sat e (i + 1) r

/-- Lanes newly marked SAT by add_total (R136). -/
def newSat (old new : Bank) (n : Nat) : Nat :=
  ((List.range n).filter (fun i => (laneOf new i).capped && !(laneOf old i).capped)).length

/-- Lanes whose spilled entry add_total saturates (R120, R136). -/
def spillSat (slot : Nat) (g : Region) (b : Bank) (is : List Nat) : Nat :=
  (is.filter (fun i => entryCaps (spillGet g slot i) (laneOf b i))).length

/-- Lanes that reached 4,096 partials: promote, spill, clear (R120). -/
def overflowLanes (b : Bank) (n : Nat) : List Nat := (List.range n).filter (fun i => 4096 ≤ (laneOf b i).count)

def clearLanes (b : Bank) : List Nat → Bank
  | [] => b
  | i :: r => clearLanes (setLane b i { sat := (laneOf b i).sat, capped := (laneOf b i).capped }) r

def promoteLanes (b : Bank) : List Nat → Bank
  | [] => b
  | i :: r => promoteLanes (setLane b i (promote (laneOf b i))) r

/-- The bank that PARK put into a spill slot is parked no more (R136). -/
def unpark (s : State) (g : Region) (slot : Nat) : State :=
  match tfind g.parks slot with
  | some ⟨_, _, ck, _, some b⟩ => modCore s ck (fun c => { c with parked := Nat.land c.parked (15 - 2 ^ b) })
  | _ => s

/-- The bank of a product's group, which holds the group's descriptor from its first product on, whether or not that product fails (R119). A group
that starts with RESUME first reloads the bank from its slot (R120, R123). With the core's last product of a group that ends a reduction the
bank runs its epilogue until it is finalised (R126, R128, R136). -/
def openBank (s : State) (r : StrobeReq) (width : Nat) : State :=
  let rk := coreRegion r.core
  let g := regionOf s rk
  let b0 := bankOf (coreOf s r.core) r.acc.bank
  let sp := areaSlot r.slot r.acc.spillSlot
  let b1 : Bank := { b0 with desc := some r.acc, slot := r.slot, layer := r.layer, rid := r.rid, width := width,
                             finalising := r.last && r.acc.last && r.acc.dest == 0 }
  if b0.desc != some r.acc && r.acc.resume then
    let b2 := reloadLanes sp g b1 (List.range width)
    let s1 := unpark s g sp
    let c := coreOf s1 r.core
    setRegion (setCore s1 r.core { setBank c r.acc.bank b2 with accSat := satAdd 32 c.accSat (newSat b0 b2 width) }) rk (spillClear g sp)
  else modCore s r.core (fun c => setBank c r.acc.bank b1)

/-- A corrected product enters its bank (R117-R120). -/
def acceptProduct (s0 : State) (r : StrobeReq) (ys : List Int) (e : Int) (sat : Bool) : State :=
  let s := openBank s0 r ys.length
  let rk := coreRegion r.core
  let c := coreOf s r.core
  let g := regionOf s rk
  let b0 := bankOf c r.acc.bank
  let sp := areaSlot r.slot r.acc.spillSlot
  let b1 := enterLanes b0 sat e 0 ys
  let overs := overflowLanes b1 ys.length
  let b2 := promoteLanes b1 overs
  let g1 := if overs = [] then g else
    { spillLanes sp b2 g overs with
      parks := tput g.parks sp { slot := r.slot, layer := r.layer, core := r.core, rid := r.rid, bank := none } }
  setRegion (setCore s r.core
    { setBank c r.acc.bank (clearLanes b2 overs) with
      spills := satAdd 32 c.spills (if overs = [] then 0 else 1),
      accSat := satAdd 32 c.accSat (newSat b0 b2 ys.length + spillSat sp g b2 overs) }) rk g1

/-! ## Finalisation (R121, R126-R130) -/

/-- Logical core of a strobe entry. -/
def entryCore (e : StrobeEntry) : Nat := let a := addrDecode e.plane; coreKey a.stack a.region a.core

/-- Finalising (group index, logical core) pairs of a layer in forme order: the k-th holds output columns from block k. -/
def finalBlocks (img : FormeImage) (layer : Nat) : List (Nat × Nat) :=
  ((img.groups.zip (List.range img.groups.length)).filter (fun g => g.1.layer == layer && g.1.acc.last)).flatMap
    (fun g => ((g.1.entries.map entryCore).eraseDups).map (fun c => (g.2, c)))

def blockIndex (img : FormeImage) (layer lck : Nat) (acc : AccDesc) : Nat :=
  ((finalBlocks img layer).findIdx? (fun p => p.2 == lck && (img.groups[p.1]?.map (·.acc)) == some acc)).getD 0

def segBytes (b : Nat) : Nat := 32 + 32 * b
def segsPerSheet (b : Nat) : Nat := 4064 / segBytes b

/-- A strobe entry of a layer reads the sheets that hold a scratch address of its core (R211). DESIGN CHOICE (log entry 73): the address names a
segment in the layout of the layer's own input width, IN_BITS, whatever rung the layer runs at. -/
def readsSheet (lck dest inBits : Nat) (e : StrobeEntry) : Bool :=
  entryCore e == lck && e.sheet * 64 ≤ dest
    && dest < e.sheet * 64 + 4096 * ((e.segment + e.run + segsPerSheet inBits - 1) / segsPerSheet inBits)

def addrCore (w : Nat) : Nat := let a := addrDecode w; coreKey a.stack a.region a.core

/-- The input width of a layer's record, IN_BITS. -/
def layerBits (img : FormeImage) (layer : Nat) : Nat := ((img.layers.find? (fun l => l.layer == layer)).map (·.inBits)).getD 8

/-- The layer whose groups read the sheet that holds a scratch address of a logical core, with the entry and the start of the entry's first sheet,
directly or after a route (R211, R212; log entry 9). -/
def consumerLayer (img : FormeImage) (lck dest : Nat) : Option (Nat × StrobeEntry × Nat) :=
  let find := fun (c d : Nat) => img.groups.findSome? (fun g =>
    (g.entries.find? (readsSheet c d (layerBits img g.layer))).map (fun e => (g.layer, e, e.sheet * 64)))
  match find lck dest with
  | some x => some x
  | none => match img.routes.find? (fun r => addrCore r.src == lck && r.srcOff ≤ dest && dest < r.srcOff + 4096 * r.sheets) with
    | some r => (find (addrCore r.dst) (r.dstOff + (dest - r.srcOff))).map (fun x => (x.1, x.2.1, x.2.2 + r.srcOff - r.dstOff))
    | none => none

/-- The row of a request in the running step. -/
def rowOf (s : State) (rid : Nat) : Option Row :=
  match s.sched.step with
  | some k => k.rows.find? (fun w => w.rid == rid)
  | none => none

/-- Rung of a layer for a request (R140, R145): rung 0 when the request was refused its rungs. -/
def rungFor (s : State) (slot layer : Nat) (rid : Option Nat) : Nat :=
  let rung := match formeOf s slot with
    | some f => (tget {} f.layers layer).rung
    | none => 0
  match rid with
  | some i => match rowOf s i with
    | some w => if w.granted then rung else 0
    | none => rung
  | none => rung

/-- Width of the segments that a layer consumes (R139). -/
def widthFor (s : State) (slot : Nat) (l : LayerRec) (rid : Option Nat) : Nat :=
  if rungFor s slot l.layer rid = 0 then l.inBits else 8

/-- Rounding modes of the next n values of a core (R129): the generator gives 16 bits to each value it rounds and to nothing else. -/
def srModes (s : State) (c : Core) (stochastic : Bool) (n : Nat) : List (Option Nat) :=
  if stochastic then (List.range n).map (fun i => some (Config.srWord (opt s Off.srSeed) (c.sr + i) % 65536))
  else List.replicate n none

/-- Epilogue stages 1 and 2 of one lane: the value and whether a stage saturated. -/
def scaledLane (l : LayerRec) (col : Nat) (t : Lane) : W32 × Bool :=
  let v := fpEncode fp32 none (.fin (t.m < 0) t.m.natAbs t.e)
  let scale := l.scales.getD col 0
  let bias := if l.biasValid then l.biases.getD col 0 else 0
  let w := f32Fma (BitVec.ofNat 32 v.1) scale bias
  (w.1, v.2 || w.2)

/-- Epilogue stages 1–3 of one lane. -/
def epilogueLane (l : LayerRec) (col : Nat) (t : Lane) : W32 × Bool :=
  let w := scaledLane l col t
  (actF32 l.act w.1, w.2)

/-- Header of a sheet of input segments (R114). -/
def sheetHeader (b count layer : Nat) : List Byte :=
  [1, BitVec.ofNat 8 (7 + b)] ++ leBytes 2 count ++ leBytes 2 layer ++ List.replicate 22 0

/-- The segment that an address names in sheets of a width, counted from the first segment of the first sheet. DESIGN CHOICE (log entry 73):
(address − 28) / (32 + 32b) within its sheet, limited to the sheet's last segment. -/
def segmentIndex (b off : Nat) : Nat :=
  off / 4096 * segsPerSheet b + min (segsPerSheet b - 1) ((off % 4096 - 28) / segBytes b)

/-- Where segment n of a width lies, from the first sheet on (R114, R211). -/
def segmentOffset (b n : Nat) : Nat := n / segsPerSheet b * 4096 + 28 + segBytes b * (n % segsPerSheet b)

/-- Write segment n of a width into the sheets that start at `base`, with the header and the CRC-32C of its sheet (R114, R130). DESIGN CHOICE
(log entry 73): the header's segment count is the full count of the width however many segments have been written; the layer number is the
consuming layer's. -/
def putSegment (m : List Host.Cell) (b base n layer : Nat) (g : Segment) : List Host.Cell :=
  let sheet := base + n / segsPerSheet b * 4096
  let m1 := mwrite m sheet (sheetHeader b (segsPerSheet b) layer)
  let m2 := mwrite m1 (base + segmentOffset b n) (segmentBytes b g)
  mwrite m2 (sheet + 4092) (leBytes 4 (crc32c (mread m2 sheet 4092)))

/-- Dense output in a host format, INT8 with its tensor scale, or in BI blocks (R105, R108, R130). -/
def denseBytes (scale : W32) (fmt : Nat) (modes : List (Option Nat)) (vs : List W32) : List Byte × Bool :=
  if fmt < 8 then
    let xs := (vs.zip modes).map (fun v => toHostFmt scale fmt v.2 (f32 v.1))
    (xs.flatMap (fun x => leBytes (hostBytes fmt) x.1), xs.any (·.2))
  else
    let b := fmt - 7
    let bl := (chunks 32 ((vs.length + 31) / 32) (vs.zip modes)).map (fun x =>
      biBlock b (x.map (·.2)) (x.map (fun v => match f32 v.1 with
        | .nan => .fin false 0 0
        | y => y)))
    (bl.flatMap (fun x => BitVec.ofNat 8 x.1 :: leBytes (4 * b) (packBits b x.2.1)), bl.any (fun x => x.2.2 != 0))

/-- What a bank's epilogue leaves: scratch, rounding position, lanes newly marked SAT, values SAT and NaN at an edge conversion. -/
structure EpiOut where
  scratch : List Host.Cell
  sr : Nat
  marks : Nat
  satOut : Bool
  nan : Bool

/-- Write outputs at a scratch address of a core (R130): as input segments of the layer that reads them there (stage 4), else dense in the
layer's output format (stage 5). `satLanes` are the outputs with a SAT mark; the answer is the scratch, the mark of a row's condition word and
whether an edge conversion met a NaN (R110, R126). -/
def writeOutputs (s : State) (ck slot : Nat) (rid : Option Nat) (l : LayerRec) (dest : Nat) (modes : List (Option Nat)) (satLanes : List Nat)
    (vals : List W32) (m : List Host.Cell) : List Host.Cell × Bool × Bool :=
  let lck := (logicalCoreKey s ck).getD ck
  let img := (formeOf s slot).map (·.image)
  let consumer := if 8 ≤ l.outFmt then (img.map (fun i => consumerLayer i lck dest)).join else none
  match consumer.map (fun x => (layerRec s slot x.1, x.2)) with
  | some (some cl, e, base) =>
    let w := widthFor s slot cl rid
    let clamp := if cl.clampValid then f32 cl.clamp else f32 f32MaxFinite
    let d := match physPlaneKey s (planeKey (tileKey (entryCore e) (addrDecode e.plane).tile) (addrDecode e.plane).plane) with
      | some pk => descOf s pk
      | none => descDefault s 0
    (putSegment m w base (segmentIndex cl.inBits (dest - base)) cl.layer (formSegment w clamp (skimRowsOf d) modes satLanes (vals.map f32)), false, vals.any f32IsNan)
  | _ =>
    let o := denseBytes (Config.tensorScale slot l.layer) l.outFmt modes vals
    (mwrite m dest o.1, o.2 || satLanes != [], 8 ≤ l.outFmt && vals.any f32IsNan)

/-- Epilogue of a bank with DEST 0 (R126). -/
def epilogue (s : State) (ck : Nat) (b : Bank) (acc : AccDesc) (l : LayerRec) (n : Nat) : EpiOut :=
  let c := coreOf s ck
  let lck := (logicalCoreKey s ck).getD ck
  let base := n * ((formeOf s b.slot).map (fun f => blockIndex f.image b.layer lck acc)).getD 0
  let outs := (List.range n).map (fun i => (i, epilogueLane l (base + i) (laneOf b i)))
  let satLanes := (List.range n).filter (fun i => (laneOf b i).sat || ((outs.map (fun o => o.2.2)).getD i false))
  let marks := (outs.filter (fun o => o.2.2 && !(laneOf b o.1).capped)).length
  let o := writeOutputs s ck b.slot b.rid l (8 * acc.destAddr) (srModes s c l.stochastic n) satLanes (outs.map (fun o => o.2.1)) c.scratch
  { scratch := o.1, sr := if l.stochastic then c.sr + n else c.sr, marks := marks, satOut := o.2.1, nan := o.2.2 }

/-- Write one lane's partial entry at a destination (R121): OVERWRITE replaces, ADD adds under add_total. -/
def writeEntry (m : List Host.Cell) (a : Nat) (add : Bool) (t : Lane) : List Host.Cell :=
  let p := if add then entryAdd (entryOf (leNat (mread m a 8))) t.m t.e t.sat else ⟨t.m, t.e, t.sat, false⟩
  mwrite m a (leBytes 8 (entryNat p))

def writeEntries (add : Bool) (b : Bank) (dest : Nat) : List Host.Cell → List Nat → List Host.Cell
  | m, [] => m
  | m, i :: r => writeEntries add b dest (writeEntry m (dest + 8 * i) add (laneOf b i)) r

/-- Entries of a destination that an ADD of the bank saturates (R136). -/
def addSat (add : Bool) (b : Bank) (dest : Nat) (m : List Host.Cell) (is : List Nat) : Nat :=
  if add then (is.filter (fun i => entryCaps (entryOf (leNat (mread m (dest + 8 * i) 8))) (laneOf b i))).length else 0

/-- Condition events of the running step for the request of a bank. -/
def noteRid (l : List Nat) (r : Option Nat) (on : Bool) : List Nat :=
  match r with
  | some i => if on then addOnce l i else l
  | none => l

/-- End of a group on a bank (R119-R121, R126): at LAST the spill slot is added, the slot cleared and the result written; at
PARK the bank goes to its slot and is freed; a group with neither leaves the bank as it is. -/
def finaliseOp (s : State) (ck bn : Nat) : State :=
  let c := coreOf s ck
  let b := bankOf c bn
  let rk := coreRegion ck
  let g := regionOf s rk
  match b.desc with
  | none => s
  | some acc =>
    let sp := areaSlot b.slot acc.spillSlot
    if acc.last then
      let n := bankLanes b
      let b1 := reloadLanes sp g b (List.range n)
      let g1 := spillClear g sp
      let marks := newSat b b1 n
      let freed := setBank c bn {}
      let wa := areaAddr b.slot (8 * acc.destAddr)
      match acc.dest with
      | 0 => match layerRec s b.slot b.layer with
        | none => s
        | some l =>
          let o := epilogue s ck b1 acc l n
          setRegion (setCore s ck { freed with
            scratch := o.scratch, sr := o.sr, accSat := satAdd 32 c.accSat (marks + o.marks),
            summary := { c.summary with satRids := noteRid c.summary.satRids b.rid o.satOut,
                                        nanRids := noteRid c.summary.nanRids b.rid o.nan } }) rk g1
      | 1 => setRegion (setCore s ck { freed with
          accSat := satAdd 32 c.accSat (marks + addSat acc.add b1 (8 * acc.destAddr) c.scratch (List.range n)),
          scratch := writeEntries acc.add b1 (8 * acc.destAddr) c.scratch (List.range n) }) rk g1
      | _ => setRegion (setCore s ck { freed with
            accSat := satAdd 32 c.accSat (marks + addSat acc.add b1 wa g1.wideBuf (List.range n)) }) rk
          { g1 with wideBuf := writeEntries acc.add b1 wa g1.wideBuf (List.range n) }
    else if acc.park then
      let b1 := reloadLanes sp g b (List.range (bankLanes b))
      let g1 := spillLanes sp b1 (spillClear g sp) (lanesOf b1)
      setRegion (setCore s ck { setBank c bn {} with
          accSat := satAdd 32 c.accSat (newSat b b1 (bankLanes b)), parked := Nat.lor c.parked (2 ^ bn) }) rk
        { g1 with parks := tput g1.parks sp { slot := b.slot, layer := b.layer, core := ck, rid := b.rid, bank := some bn } }
    else s

end Sys2Proof.Machine
end

