-- ==== Sys2Proof/Machine/Queue.lean ====
section
/-! DEFINITION. Command execution of 08_commands: host accesses, MSI-X (R456), replies with their ring and store (R236,
R237), the command queue with its keys (R244), transactions as commands see them (R238-R241), and the checks of R232. -/

namespace Sys2Proof.Machine

/-! ## Host accesses and MSI-X -/

/-- A posted write to host memory. -/
def hostWrite (s : State) (fn addr : Nat) (bytes : List Byte) : State := emit s (.hostWrite fn addr bytes)

def vectorsOf (fn : Nat) : Nat := if fn = 0 then 2048 else 16

/-- Send an MSI-X message, or leave its pending bit while it is masked or the function is in D3hot (R456, R457). -/
def sendMsix (s : State) (fn v : Nat) : State :=
  let f := fnOf s fn
  if vectorsOf fn ≤ v then s
  else if f.d3hot || f.funcMask || v ∉ f.unmasked then setFn s fn { f with pendingMsg := addOnce f.pendingMsg v }
  else emit s (.msix fn v)

/-- HUB_REPLY_CFG.VECTOR (R253). -/
def replyVector (f : FnBlk) : Nat := fld f.replyCfg.toNat 31 16

/-! ## Transactions as commands see them -/

def txnOf (x : TxnBlk) : Nat → Option Txn
  | 0 => x.tenant
  | 1 => x.plate
  | 2 => x.stream
  | _ => x.options

def setTxn (x : TxnBlk) (d : Nat) (v : Option Txn) : TxnBlk :=
  match d with
  | 0 => { x with tenant := v }
  | 1 => { x with plate := v }
  | 2 => { x with stream := v }
  | _ => { x with options := v }

def putTxn (s : State) (d : Nat) (v : Option Txn) : State := { s with txns := setTxn s.txns d v }

/-- The domain whose transaction carries an identifier. -/
def txnDomain (s : State) (id : Nat) : Option Nat :=
  if id = 0 then none else (List.range 4).find? (fun d => (txnOf s.txns d).any (·.id == id))

/-- The open transaction of a domain carries the identifier (R232 step 8). -/
def txnOpen (s : State) (d id : Nat) : Bool :=
  id != 0 && (txnOf s.txns d).any (fun x => x.id == id && !x.committing)

/-- Idle time of a transaction starts over (R241). -/
def touchTxn (s : State) (id : Nat) : State :=
  match txnDomain s id with
  | some d => putTxn s d ((txnOf s.txns d).map (fun x => { x with idleSince := now s }))
  | none => s

/-- Add a staged change to the open transaction of a domain. -/
def stage (s : State) (d : Nat) (c : Staged) : State :=
  putTxn s d ((txnOf s.txns d).map (fun x => { x with staged := x.staged ++ [c] }))

def stagedOf (s : State) (d : Nat) : List Staged := ((txnOf s.txns d).map (·.staged)).getD []

/-! ## The reply ring (R237) -/

def replyEn (f : FnBlk) : Bool := bitAt f.replyCfg.toNat 5
def replyEntries (f : FnBlk) : Nat := 2 ^ clampTo 6 16 (fld f.replyCfg.toNat 4 0)
def replyBase (f : FnBlk) : Nat := f.replyHi.toNat * 2 ^ 32 + fld f.replyLo.toNat 31 12 * 4096

/-- Unread records of the ring. -/
def replyUnread (f : FnBlk) : Nat := (f.tail + replyEntries f - f.head % replyEntries f) % replyEntries f

def replyRoom (f : FnBlk) : Bool := replyEn f && !f.d3hot && replyUnread f + 1 < replyEntries f

/-- The 32 bytes of a reply (R236). -/
def replyBytes (r : Reply) (phase : Bool) : List Byte :=
  leBytes 4 r.seq ++ leBytes 2 r.opcode ++ leBytes 2 (statusCode r.status) ++ leBytes 4 (condWord r.cond) ++ leBytes 2 r.txn
    ++ leBytes 1 r.source ++ leBytes 1 (128 * b2n phase) ++ leBytes 8 r.r0 ++ leBytes 8 r.r1

/-- SLOW_US in ns (R246, R253). -/
def slowNs (f : FnBlk) : Nat := 1000 * max 1 (fld f.cmdCfg.toNat 15 0)

/-- The time from the moment a reply's command was taken until now, none for an unsolicited reply (R246). -/
def replyTime (s : State) (r : Reply) : Option Nat := r.taken.map (fun t => now s - t)

/-- A reply is written: CMD_SLOW when its command took longer than SLOW_US. -/
def timedReply (s : State) (r : Reply) : Reply :=
  { r with cond := { r.cond with cmdSlow := r.cond.cmdSlow || (replyTime s r).any (fun n => slowNs (fnOf s r.fn) < n) } }

/-- The time of a command is counted (R246). -/
def countTime (f : FnBlk) : Option Nat → FnBlk
  | some n => { f with latSum := f.latSum + n, latNum := f.latNum + 1 }
  | none => f

/-- Write one record into the ring and announce it. The command's time ends here (R246), and its transaction's idle time begins (R241). -/
def writeReply (s0 : State) (r : Reply) : State :=
  let s := if r.taken.isSome then touchTxn s0 r.txn else s0
  let f := countTime (fnOf s r.fn) (replyTime s r)
  let s1 := hostWrite s r.fn (replyBase f + 32 * f.tail) (replyBytes (timedReply s r) f.ringPhase)
  let next := (f.tail + 1) % replyEntries f
  let s2 := setFn s1 r.fn { f with tail := next, ringPhase := if next = 0 then !f.ringPhase else f.ringPhase }
  if r.irq then sendMsix s2 r.fn (replyVector f) else s2

/-- Move records of a store into the ring while it has room. -/
def drainReplies (s : State) (fn : Nat) : List Reply → State
  | [] => modFn s fn (fun f => { f with store := [] })
  | r :: rs =>
    if replyRoom (fnOf s fn) then drainReplies (writeReply s r) fn rs
    else modFn s fn (fun f => { f with store := r :: rs })

def storeMax : Nat := 4096

/-- A reply enters the ring or the store. -/
def pushReply (s : State) (r : Reply) : State :=
  let f := fnOf s r.fn
  if f.store = [] ∧ replyRoom f then writeReply s r else setFn s r.fn { f with store := f.store ++ [r] }

/-- The reply an entry waits with. -/
def roomReply (e : CmdEntry) : Option Reply := match e.wait with
  | .replyRoom r => some r
  | _ => none

/-- Replies of completed commands that wait for the store of a function enter it in completion order. -/
def pumpWaiting (s : State) (fn : Nat) : List CmdEntry → State
  | [] => s
  | e :: es =>
    match roomReply e with
    | some r => if r.fn = fn ∧ (fnOf s fn).store.length < storeMax then
        pumpWaiting (pushReply { s with cmdq := s.cmdq.erase e } r) fn es
      else pumpWaiting s fn es
    | none => pumpWaiting s fn es

/-- Ring room may have appeared: the store drains, then waiting replies enter. -/
def pumpReplies (s : State) (fn : Nat) : State :=
  let s1 := drainReplies s fn (fnOf s fn).store
  let s2 := pumpWaiting s1 fn s1.cmdq
  drainReplies s2 fn (fnOf s2 fn).store

/-- A function's ring or store takes one more reply, and no completed command waits before it. -/
def replyFits (s : State) (fn : Nat) : Bool :=
  let f := fnOf s fn
  (f.store.length < storeMax || (replyRoom f && f.store == [])) && !s.cmdq.any (fun e => (roomReply e).any (fun r => r.fn == fn))

/-- An unsolicited reply to the physical function, with its MSI-X message (R236). DESIGN CHOICE (log entry 87): one that finds the store full waits
in a queue entry of its own, behind the commands that completed before it (R237). -/
def unsolicited (s : State) (opcode : Nat) (st : Status) (txn seq r0 r1 : Nat) : State :=
  let r : Reply := { fn := 0, seq := seq, opcode := opcode, status := st, cond := { unsolicited := true }, txn := txn, source := 0,
                     r0 := r0, r1 := r1, irq := true }
  if replyFits s 0 then pushReply s r
  else { s with cmdq := s.cmdq ++ [{ hdr := default, par := default, taken := now s, wait := .replyRoom r, attempts := 0 }] }

/-! ## Keys (R244) -/

/-- The tenant a command acts for: a virtual function's bound tenant (R233), or the header's. -/
def hdrTenant (h : Hdr) : Option Nat := if h.fn ≠ 0 then some h.fn else if h.tenant = 0xFFFF then none else some h.tenant

def tenantOfCmd (h : Hdr) (p : CmdParams) : Option Nat :=
  match p with
  | .tenantSet t _ => some t
  | .overlaySet t _ _ _ _ => some t
  | .keyLoad t => some t
  | .tenantRemove t => some t
  | _ => hdrTenant h

def cmdDomain (s : State) (h : Hdr) (p : CmdParams) : Option Nat :=
  match p with
  | .txnBegin d => some d
  | .txnCommit => txnDomain s h.txn
  | .txnRollback => txnDomain s h.txn
  | _ => domainOf p

/-- Keys as (kind, number): 0 domain, 1 tenant, 2 request, 3 web channel, 4 IMAGE_ID, 5 resource, 6 module. -/
def keysOf (s : State) (h : Hdr) (p : CmdParams) : List (Nat × Nat) :=
  let dom := ((cmdDomain s h p).map (fun d => (0, d))).toList
  let ten := ((tenantOfCmd h p).map (fun t => (1, t))).toList
  let own : List (Nat × Nat) := match p with
    | .reqCancel rid => [(2, ridIndex rid)]
    | .reqSubmit q => if q.web then [(3, q.channel)] else []
    | .webOpen q => [(3, q.channel)]
    | .webClose c _ => [(3, c)]
    | .webGroup _ ms => ms.map (fun c => (3, c))
    | .plateRelease i => [(4, i)]
    | .plateSourceSet i _ _ _ => [(4, i)]
    | .resourceAlloc k i _ => [(5, 256 * k + i)]
    | .resourceFree k i => [(5, 256 * k + i)]
    | _ => []
  let ks := dom ++ ten ++ own
  if ks = [] then [(6, 0)] else ks

def entryDone (e : CmdEntry) : Bool := (roomReply e).isSome
def isRollback : CmdParams → Bool
  | .txnRollback => true
  | _ => false
def isCommit : CmdParams → Bool
  | .txnCommit => true
  | _ => false
def isRemove : CmdParams → Bool
  | .tenantRemove _ => true
  | _ => false

/-- A later command does not wait for an executing one on the keys that they share: what needs only the domain of a TXN_COMMIT is answered at once
(R238, R239); a TENANT_REMOVE and the tenant's other commands do not wait for each other (R375, R387); a TXN_ROLLBACK stops the commands of its own
transaction (R223, R241). DEDUCED, log entry 11. -/
def passesBy (h : Hdr) (p : CmdParams) (e : CmdEntry) (shared : List (Nat × Nat)) : Bool :=
  (isCommit e.par && shared.all (fun k => k.1 == 0)) || ((isRemove p || isRemove e.par) && shared.all (fun k => k.1 == 1))
    || (isRollback p && e.hdr.txn == h.txn)

/-- An earlier entry holds a later command back (R244). -/
def holdsBack (s : State) (h : Hdr) (p : CmdParams) (e : CmdEntry) : Bool :=
  let shared := (keysOf s h p).filter (· ∈ keysOf s e.hdr e.par)
  !entryDone e && (h.fence || (shared != [] && (e.wait == .queued || !passesBy h p e shared)))

/-! ## The queue -/

def sameCmd (fn seq : Nat) (e : CmdEntry) : Bool := e.hdr.fn == fn && e.hdr.seq == seq && !entryDone e

def findCmd (s : State) (fn seq : Nat) : Option CmdEntry := s.cmdq.find? (sameCmd fn seq)

def earlierThan (s : State) (fn seq : Nat) : List CmdEntry := s.cmdq.takeWhile (fun e => !sameCmd fn seq e)

/-- Change the first entry that satisfies a test. -/
def modFirst (p : CmdEntry → Bool) (f : CmdEntry → CmdEntry) : List CmdEntry → List CmdEntry
  | [] => []
  | e :: es => if p e then f e :: es else e :: modFirst p f es

def setWait (s : State) (fn seq : Nat) (w : Wait) : State :=
  { s with cmdq := modFirst (sameCmd fn seq) (fun e => { e with wait := w, attempts := 0 }) s.cmdq }

/-- A command completes: its queue entry frees, and its reply is written unless it is QUIET and OK, which ends its time at once (R246). With its
function's store full it keeps the entry until the reply finds room (R237). -/
def finish (s : State) (fn seq : Nat) (st : Status) (cond : Cond) (r0 r1 : Nat) : State :=
  match findCmd s fn seq with
  | none => s
  | some e =>
    let s1 := { s with cmdq := s.cmdq.eraseP (sameCmd fn seq) }
    if e.hdr.quiet && st == .ok then modFn (touchTxn s1 e.hdr.txn) fn (fun f => countTime f (some (now s - e.taken)))
    else
      let r : Reply := { fn := fn, seq := seq, opcode := opcodeOf e.par, status := st, cond := cond, txn := e.hdr.txn,
                         source := 1 + drawNat s1 % 3, r0 := r0, r1 := r1, irq := e.hdr.irq, taken := some e.taken }
      let s2 := drawn s1
      if replyFits s2 fn then pushReply s2 r
      else { s2 with cmdq := s2.cmdq ++ [{ e with wait := .replyRoom r }] }

/-- Complete with a status and no results. -/
def reply (s : State) (h : Hdr) (st : Status) : State := finish s h.fn h.seq st {} 0 0

/-- Complete OK with results. -/
def replyOk (s : State) (h : Hdr) (r0 r1 : Nat) : State := finish s h.fn h.seq .ok {} r0 r1

/-! ## The checks of R232 -/

/-- A virtual function of a confidential tenant commands only while its TDI is in RUN and an IDE stream covers it (R381). -/
def confDenied (s : State) (fn : Nat) : Bool :=
  fn != 0 && (tenantOf s fn).confidential && !((fnOf s fn).tdi == 2 && (fnOf s fn).ide)

/-- Step 7: the tenant of the header (R233, R375, R381): a removal in progress closes a tenant to commands. -/
def tenantStatus (s : State) (h : Hdr) (p : CmdParams) : Option Status :=
  if h.fn ≠ 0 then
    if h.tenant ≠ 0xFFFF ∧ h.tenant ≠ h.fn then some .tenantInvalid
    else if !tenantlessOk p && !((tenantOf s h.fn).enabled && tenantSlot s h.fn != 2) then some .tenantInvalid
    else none
  else if h.tenant ≠ 0xFFFF ∧ 256 ≤ h.tenant then some .tenantInvalid
  else
    let removing : Bool := match p with
      | .keyLoad _ => false
      | _ => h.tenant != 0xFFFF && tenantSlot s h.tenant == 2
    let named : Bool := match p with
      | .reqSubmit _ => h.tenant == 0xFFFF || (tenantOf s h.tenant).confidential
      | .webOpen _ => h.tenant == 0xFFFF || (tenantOf s h.tenant).confidential
      | _ => false
    if removing || named then some .tenantInvalid else none

/-- Step 8. -/
def txnStatus (s : State) (h : Hdr) (p : CmdParams) : Option Status :=
  let good : Bool := match p with
    | .txnBegin _ => h.txn == 0
    | .txnCommit => match txnDomain s h.txn with
      | some d => txnOpen s d h.txn
      | none => false
    | .txnRollback => match txnDomain s h.txn with
      | some d => txnOpen s d h.txn
      | none => false
    | _ => match domainOf p with
      | some d => txnOpen s d h.txn
      | none => h.txn == 0
  if good then none else some .txnNotOpen

/-- An address parameter: R19, R13 and the levels the opcode takes. Only this module's own units are acted on (log
entry 12). -/
def addrStatus (s : State) (w : Nat) (levels : List Nat) (phys : Bool) : Option Status :=
  let a := addrDecode w
  if addrOk s.ql.present w && a.level ∈ levels && (phys || !a.phys) && (a.module == 0x7FF || a.module == s.ql.module)
  then none else some .addressInvalid

def aligned (n a : Nat) : Bool := a % n == 0

/-- Step 9: ranges and alignments that depend on the parameters alone, and address words. -/
def fieldStatus (s : State) (p : CmdParams) : Option Status :=
  let need := fun (b : Bool) => if b then (none : Option Status) else some .paramInvalid
  match p with
  | .identify a => need (aligned 64 a)
  | .negotiate _ => none
  | .fenceReportGet a n => need (aligned 64 a && aligned 64 n)
  | .optionSet es => need (1 ≤ es.length && es.length ≤ 256)
  | .powerSet b => need (b == 0 || (500 ≤ b && b ≤ 3300))
  | .resourceAlloc k i _ => need (k ≤ 1 && (i == 0xFF || i < (if k = 0 then 64 else 16)))
  | .resourceFree k i => need (k ≤ 1 && i < (if k = 0 then 64 else 16))
  | .resetWarm k => need (k == 0x5741524D)
  | .txnBegin d => need (d ≤ 3)
  | .txnCommit => none
  | .txnRollback => none
  | .calSelf => none
  | .calRecal w => addrStatus s w [3, 5] true
  | .calDrift w => addrStatus s w [3, 5] true
  | .testRun w => addrStatus s w [2] true
  | .fenceUnit w => addrStatus s w [1, 2, 3, 4] true
  | .proofEnter => none
  | .proofLeave => none
  | .plateLoad q => need (q.source ≤ 1)
  | .plateRelease _ => none
  | .formeLoad sl a n => need (sl ≤ 255 && aligned 64 a && n ≤ 2147483648)
  | .plateSourceSet _ so _ _ => need (so ≤ 1)
  | .plateDefectAccept w => addrStatus s w [0] false
  | .overlaySet _ _ _ _ _ => none
  | .tenantSet _ _ => none
  | .keyLoad _ => none
  | .tenantRemove _ => none
  | .keyRegister _ => none
  | .attest _ a => need (aligned 64 a)
  | .debugUnlock _ => none
  | .reqSubmit q => need (q.topK ≤ 64 && aligned 64 q.ringAddr)
  | .reqCancel _ => none
  | .webOpen q => need (10 ≤ q.cadence && q.cadence ≤ 1000 && q.fill ≤ 2 && q.dclass ≤ 7 && aligned 64 q.silenceAddr && aligned 64 q.destAddr)
  | .webClose _ m => need (m ≤ 1)
  | .webGroup _ ms => need (1 ≤ ms.length && ms.length ≤ 64)

/-- Steps 2 to 9 in order; the limp refusal of R248 stands before step 8 (log entry 13). -/
def checkStatus (s : State) (h : Hdr) (p : CmdParams) : Option Status :=
  let lv := (fnOf s h.fn).level
  if !preNegotiation p && (h.version != 1 || lv.any (· != h.arch)) then some .versionUnsupported
  else if !preNegotiation p && lv.isNone then some .notNegotiated
  else if h.fn ≠ 0 ∧ !anyIssuer p ∨ confDenied s h.fn then some .functionDenied
  else if !lengthCovers h.length p then some .lengthInvalid
  else if !h.resZero then some .reservedNonzero
  else match tenantStatus s h p with
  | some st => some st
  | none =>
    if s.rst.phase = .limp ∧ !limpOk p then some .optionsUnloaded
    else match txnStatus s h p with
    | some st => some st
    | none => fieldStatus s p

/-- Firmware starts commands in service and in a limp start, but not during a thermal stop (R410); while the option load runs,
IDENTIFY and NEGOTIATE only (R403). -/
def startsNow (s : State) (p : CmdParams) : Bool :=
  s.therm.stopping.isNone && match s.rst.phase with
  | .service => true
  | .limp => true
  | .loading => preNegotiation p
  | .inReset => false
  | .latched => false
  | .noFirmware => false

def queueMaxCmds : Nat := 1024

/-- The entry of a command in the queue, entering it when it is not there and the queue has room (R244). -/
def enqueue (s : State) (h : Hdr) (p : CmdParams) : State :=
  match findCmd s h.fn h.seq with
  | some _ => s
  | none => if s.cmdq.length < queueMaxCmds ∧ startsNow s p then
      { s with cmdq := s.cmdq ++ [{ hdr := h, par := p, taken := now s, wait := .queued, attempts := 0 }] }
    else s

/-- A command may start: it waits in the queue under exactly these fields, and nothing earlier holds it back. -/
def mayStart (s : State) (h : Hdr) (p : CmdParams) : Bool :=
  startsNow s p && (findCmd s h.fn h.seq).any (fun e => e.hdr == h && e.par == p && e.wait == .queued)
    && !(earlierThan s h.fn h.seq).any (holdsBack s h p)

/-- Firmware starts a command: the checks of R232 answer a status, or its effect happens. -/
def startCmd (h : Hdr) (p : CmdParams) (t : Nat) (s : State) (body : State → State) : State :=
  let s1 := enqueue (advance t s) h p
  if mayStart s1 h p then
    match checkStatus s1 h p with
    | some st => reply s1 h st
    | none => body s1
  else s1

/-- A row of the table whose function number exists (R451). -/
def onFn (fn : Nat) (t : State) : Host.Outcome State Fault Refusal :=
  if fn < 256 then .next t else .fault .noSuchUnit

/-- The outcome of a command of the host. -/
def runCmd (h : Hdr) (p : CmdParams) (t : Nat) (s : State) (body : State → State) : Host.Outcome State Fault Refusal :=
  onFn h.fn (startCmd h p t s body)

end Sys2Proof.Machine
end

