-- ==== Sys2Proof/Machine/Formes.lean ====
section
/-! DEFINITION. What a forme names and needs: its planes, cores and regions, whether it is held (R17, R352), the checks of
R208-R214 and R137, its strobe time by rung (R59, R140, R145). -/

namespace Sys2Proof.Machine

/-! ## Planes and units a forme names -/

/-- Logical plane keys of a strobe entry (R211). -/
def entryPlanes (e : StrobeEntry) : List Nat :=
  let a := addrDecode e.plane
  (List.range e.run).map (fun i => planeKey (tileKey (entryCore e) a.tile) (a.plane + i))

/-- The plane lies on this module: MODULE 0x7FF, or its number in a system forme (R211). -/
def ownEntry (s : State) (e : StrobeEntry) : Bool := (addrDecode e.plane).module == 0x7FF || (addrDecode e.plane).module == s.ql.module

def formeEntries (s : State) (img : FormeImage) : List StrobeEntry := img.groups.flatMap (fun g => g.entries.filter (ownEntry s))

def formePlanes (s : State) (img : FormeImage) : List Nat := (formeEntries s img).flatMap entryPlanes

def formeCores (s : State) (img : FormeImage) : List Nat := ((formeEntries s img).map entryCore).eraseDups

/-- The home of an attention layer lies on this module (R213, R442). -/
def ownHome (s : State) (a : AttnRec) : Bool := (addrDecode a.home).module == 0x7FF || (addrDecode a.home).module == s.ql.module

def ownAttn (s : State) (img : FormeImage) : List AttnRec := img.attn.filter (ownHome s)

/-- Logical region keys (16 × stack + region) of strobes and attention homes. -/
def homeRegion (a : AttnRec) : Nat := let w := addrDecode a.home; regionKey w.stack w.region

def formeRegions (s : State) (img : FormeImage) : List Nat := ((formeCores s img).map coreRegion ++ (ownAttn s img).map homeRegion).eraseDups

/-- The physical region of a logical region key. -/
def physRegionKey (s : State) (lrk : Nat) : Option Nat :=
  match physStack s (regionStack lrk) with
  | none => none
  | some ps => (physRegion s ps (lrk % 16)).map (fun g => regionKey ps g)

/-- A forme names a physical unit (R352): one of its planes, or a twin of one, lies there. -/
def formeNames (s : State) (img : FormeImage) (u : UnitId) : Bool :=
  (formePlanes s img).any (fun l =>
    (physPlaneKey s l).any (fun p => u.holds p) || ((twinOf s l).bind (physPlaneKey s)).any (fun p => u.holds p))

/-- A forme is held while a plane it names cannot be strobed and no twin stands in, or a home region of its attention is
fenced or unmapped (R17, R303, R355). -/
def formeHeld (s : State) (img : FormeImage) : Bool :=
  (formePlanes s img).any (fun l => !planeUsable s l && !((twinOf s l).any (planeUsable s)))
    || (ownAttn s img).any (fun a => (physRegionKey s (homeRegion a)).all (regionFenced s))

/-- Modules a system forme names (R211, R442), and whether one is absent (R444). -/
def formeModules (img : FormeImage) : List Nat :=
  ((img.groups.flatMap (·.entries)).map (fun e => (addrDecode e.plane).module) ++ img.attn.map (fun a => (addrDecode a.home).module)).eraseDups
def formeAbsent (s : State) (img : FormeImage) : Bool := img.system && (formeModules img).any (· ∈ s.ql.absent)

/-- A forme uses a plane left in PROGRAMMING (R222, R255). -/
def formeIncomplete (s : State) (img : FormeImage) : Bool := (formePlanes s img).any (· ∈ s.plates.incomplete)

/-! ## Attention and token counts -/

/-- Width of a BI format code (R108). -/
def biWidth (code : Nat) : Nat := code - 7

/-- Bytes of a head record of key and value formats, padded to a multiple of 16 (R284). -/
def headRecord (a : AttnRec) (kf vf : Nat) : Nat := (a.headDim / 32 * (2 + 4 * (biWidth kf + biWidth vf)) + 15) / 16 * 16

/-- ROW_BYTES of a row of given formats (R284). -/
def rowBytesAs (a : AttnRec) (kf vf : Nat) : Nat := 8 + a.kvHeads * headRecord a kf vf

/-- ROW_BYTES (R284). -/
def rowBytes (a : AttnRec) : Nat := rowBytesAs a a.keyFmt a.valFmt

/-- Tokens of one position (R307). -/
def formeG (img : FormeImage) : Nat := if img.web = 0 then 1 else img.web

/-! ## Strobe times (R59, R140, R145) -/

/-- Width, re-strike factor and fine mode of a layer at a rung (R140). -/
def rungRecipe (l : LayerRec) (rung : Nat) : Nat × Nat × Bool :=
  match rung with
  | 0 => (l.inBits, strikes l.baseRestrike, false)
  | 1 => (8, strikes l.baseRestrike, false)
  | 2 => (8, max 2 (strikes l.baseRestrike), false)
  | _ => (8, 4, true)

/-- Strobe interval (R59). -/
def interval (s : State) (simul : Bool) (bits : Nat) (fine : Bool) : Nat :=
  let i := strobeWindow bits + convDelay s + convTime fine + 4
  if simul then (i + 39) / 40 * 40 else i

def productTime (s : State) (simul : Bool) (r : Nat × Nat × Bool) : Nat :=
  (if r.1 ≤ 4 then 1 else 2) * r.2.1 * interval s simul r.1 r.2.2

/-- Trigger mode of a group (R56). -/
def groupSimul (s : State) (g : Group) : Bool :=
  let cs := (g.entries.map entryCore).eraseDups
  match cs with
  | [] => false
  | c :: _ => simultaneous s ((physRegionKey s (coreRegion c)).getD (coreRegion c)) cs.length

/-- Products of a group for one position, those of a plane's twin counted for that plane alone (R145, R148, R353). -/
def groupProducts (s : State) (g : Group) : Nat :=
  sumNat (g.entries.map (fun e => sumNat ((entryPlanes e).map (fun l => if (twinOf s l).isSome then 2 else 1))))

/-- Experts that a router selects at most: the k of R131. -/
def expertsMax : Nat := 64

/-- Sum of the n largest of a list. -/
def sumLargest (n : Nat) (l : List Nat) : Nat := let t := sumNat l; sumNat ((sortBy (fun x => t - x) l).take n)

/-- Strobe time of one position of a layer at a rung, in core-ns. DESIGN CHOICE (log entry 49): which experts a router will select is not known
at formation; the dearest that it can select count. -/
def layerTime (s : State) (img : FormeImage) (l : LayerRec) (rung : Nat) : Nat :=
  let gs := img.groups.filter (fun g => g.layer == l.layer)
  let cost := fun (gs : List Group) => sumNat (gs.map (fun g => groupProducts s g * productTime s (groupSimul s g) (rungRecipe l rung)))
  let routed := gs.filter (fun g => g.expert != 0xFFFF)
  let experts := fun (r : Nat) => ((routed.filter (fun g => g.router == r)).map (·.expert)).eraseDups
  cost (gs.filter (fun g => g.expert == 0xFFFF)) + sumNat (((routed.map (·.router)).eraseDups).map (fun r =>
    sumLargest expertsMax ((experts r).map (fun e => cost (routed.filter (fun g => g.router == r && g.expert == e))))))

def rungOf (f : Forme) (l : LayerRec) : Nat := (tget {} f.layers l.layer).rung

/-- Strobe time of one position at rung 0, and the extra time at the layers' rungs. -/
def baseTime (s : State) (f : Forme) : Nat := sumNat (f.image.layers.map (fun l => layerTime s f.image l 0))
def extraTime (s : State) (f : Forme) : Nat :=
  sumNat (f.image.layers.map (fun l => layerTime s f.image l (rungOf f l) - layerTime s f.image l 0))

/-! ## The wide buffer by region (R337, R338) -/

/-- ACC_GRANULES of a forme in a logical region key. -/
def accOf (img : FormeImage) (lrk : Nat) : Nat := tget 0 img.acc (15 * (lrk / 16) + lrk % 16)

/-- Logical region key that a physical region holds. -/
def logicalRegionKey (s : State) (rk : Nat) : Option Nat :=
  match logicalStack s (regionStack rk), logicalRegion s rk with
  | some l, some g => some (regionKey l g)
  | _, _ => none

/-- Accumulation granules of the resident formes in a logical region. -/
def accTotal (fs : Tbl Forme) (lrk : Nat) : Nat := sumNat (fs.map (fun f => accOf f.2.image lrk))

/-- Shared granules left after the accumulation overflow (R336, R337). -/
def sharedLeft (fs : Tbl Forme) (lrk : Nat) : Nat := 1024 - (accTotal fs lrk - 1024)

/-- Two attention layers have one home region: of the same module. -/
def sameHome (a b : AttnRec) : Bool := (addrDecode a.home).module == (addrDecode b.home).module && homeRegion a == homeRegion b

/-- Staging bytes of n positions in the home region of an attention layer (R338). -/
def stageBytes (l : List AttnRec) (n : Nat) (a : AttnRec) : Nat := sumNat ((l.filter (sameHome a)).map (fun b => n * rowBytes b))

def stageGranules (bytes : Nat) : Nat := (bytes + 2047) / 2048

/-! ## The checks of FORME_LOAD (R208-R214) -/

/-- Parts start at multiples of 64, lie within the image and do not overlap. -/
def partsOk (length : Nat) (parts : List (Nat × Nat)) : Bool :=
  parts.all (fun p => aligned 64 p.1 && p.1 + p.2 ≤ length)
    && decide (parts.Pairwise (fun p q => p.2 = 0 ∨ q.2 = 0 ∨ p.1 + p.2 ≤ q.1 ∨ q.1 + q.2 ≤ p.1))

def finitePositive (w : W32) : Bool := f32Finite w && f32Lt 0 w

/-- Ranges of a layer record (R138, R210). -/
def layerOk (img : FormeImage) (l : LayerRec) : Bool :=
  l.maxRung ≤ 3 && l.baseRestrike ≤ 2 && 1 ≤ l.inBits && l.inBits ≤ 8 && (l.outFmt ≤ 5 || (8 ≤ l.outFmt && l.outFmt ≤ 15))
    && l.act ≤ 3 && (if l.clampValid then finitePositive l.clamp else l.clamp == 0) && (l.biasValid || l.biasOff == 0)
    && l.scaleOff + 4 * l.outCols ≤ img.paramLen && (!l.biasValid || l.biasOff + 4 * l.outCols ≤ img.paramLen)
    && (l.attn == 0xFFFF || l.attn < img.attn.length)
    && (List.range img.groups.length).all (fun i =>
      (img.groups[i]?.map (·.layer) == some l.layer) == (l.firstGroup ≤ i && i < l.firstGroup + l.groupCount))
    && l.firstGroup + l.groupCount ≤ img.groups.length

/-- An address word of a forme: logical, of one level, good under R19 (R211-R214). -/
def formeAddr (s : State) (system : Bool) (level w : Nat) : Bool :=
  let a := addrDecode w
  addrOk s.ql.present w && !a.phys && a.level == level && (system || a.module == 0x7FF)

def accDescOk (d : AccDesc) : Bool := d.resZero && d.dest ≤ 2 && !(d.add && d.dest == 0) && !(d.last && d.park) && d.spillSlot ≤ 3071

def entryOk (s : State) (system : Bool) (e : StrobeEntry) : Bool :=
  formeAddr s system 0 e.plane && 1 ≤ e.run && e.run ≤ 1344 && (addrDecode e.plane).plane + e.run ≤ 1344 && e.segment ≤ 62

def groupOk (s : State) (img : FormeImage) (g : Group) : Bool :=
  accDescOk g.acc && 1 ≤ g.entries.length && g.entries.length ≤ 65535 && g.entries.all (entryOk s img.system)
    && (g.expert != 0xFFFF || g.router == 0xFFFF)
    && ((g.entries.map (fun e => coreRegion (entryCore e))).eraseDups).length ≤ 1

def routeOk (s : State) (img : FormeImage) (r : Route) : Bool :=
  formeAddr s img.system 2 r.src && formeAddr s img.system 2 r.dst && aligned 4096 r.srcOff && aligned 4096 r.dstOff
    && 1 ≤ r.sheets && r.sheets ≤ 40

/-- Two routes of one layer that write one destination sheet. -/
def routesClash (r q : Route) : Bool :=
  r.after == q.after && r.dst == q.dst && r.dstOff < q.dstOff + 4096 * q.sheets && q.dstOff < r.dstOff + 4096 * r.sheets

def attnOk (s : State) (img : FormeImage) (a : AttnRec) : Bool :=
  1 ≤ a.kvHeads && a.kvHeads ≤ 64 && 1 ≤ a.qPerKv && a.qPerKv ≤ 16 && 32 ≤ a.headDim && a.headDim ≤ 256 && a.headDim % 32 == 0
    && 8 ≤ a.keyFmt && a.keyFmt ≤ 15 && 8 ≤ a.valFmt && a.valFmt ≤ 15 && a.queryFmt ≤ 1
    && f32Finite a.scale && fpCmp (f32 a.scale) (.fin false 0 0) != some 0 && a.mask ≤ 3
    && (a.mask < 2 || (1 ≤ a.window && a.window ≤ 2097152)) && formeAddr s img.system 3 a.home

/-- Scheduler record (R258). DRAFT_MAX is ignored without a draft slot. -/
def schedOk (r : SchedRec) : Bool :=
  1 ≤ r.rowsMax && r.rowsMax ≤ 4096 && 16 ≤ r.chunk && r.chunk ≤ 4096 && r.chunk == 2 ^ Nat.log2 r.chunk && r.prefillCost ≤ 255
    && r.outputKind ≤ 1 && (if r.outputKind = 0 then r.scores == 0 else 1 ≤ r.scores && r.scores ≤ 9)
    && 2 ≤ r.vocab && r.vocab ≤ 16777216 && r.eosValid < 16 && r.eos.all (· < 2 ^ 24)
    && (r.draftSlot == 0xFF || (1 ≤ r.draftMax && r.draftMax ≤ 8))

def risingLayers : List LayerRec → Bool
  | [] => true
  | [_] => true
  | a :: b :: r => a.layer < b.layer && risingLayers (b :: r)

def risingGroups : List Group → Bool
  | [] => true
  | [_] => true
  | a :: b :: r => a.layer ≤ b.layer && risingGroups (b :: r)

/-- DRAFT_SLOT names an empty slot or a draft forme, and a draft names no draft (R214). -/
def draftOk (fs : Tbl Forme) (img : FormeImage) : Bool :=
  img.sched.draftSlot == 0xFF
    || (!img.draft && (match tfind fs img.sched.draftSlot with
      | some f => f.image.draft
      | none => true))

/-- Weight mode and code width of the plane a logical plane will have after the open plate change, or has now (R137). -/
def planeMode (s : State) (lpk : Nat) : Option (Nat × Nat) :=
  match tfind s.plates.records lpk with
  | some r => some (r.wmode, r.width)
  | none => (physPlaneKey s lpk).map (fun pk => ((descOf s pk).wmode, (descOf s pk).width))

/-- A later group of a core goes on with the reduction that a group leaves: by its bank, or out of the spill slot it was parked in (R119,
R123). -/
def goesOn (core : Nat) (cur g : Group) : Bool :=
  g.entries.any (fun e => entryCore e == core)
    && (if cur.acc.park then g.acc.resume && g.acc.spillSlot == cur.acc.spillSlot else g.acc.bank == cur.acc.bank)

/-- The group that ends the reduction which a group of a core adds to: the one with LAST. -/
def endingGroup (core : Nat) : Group → List Group → Group
  | cur, [] => cur
  | cur, g :: r => if cur.acc.last then cur else if goesOn core cur g then endingGroup core g r else endingGroup core cur r

/-- Where a reduction's results go: planes with equal keys add into the same output columns (R137). With DEST 0 that is a place of the core's
own scratch, which the address of the ending group gives; a reduction that ends with DEST 1 or 2 may go on in other cores, regions and modules
(R125), and no field of the forme says which outputs its entries belong to, so all of a layer's count as one (log entry 75). -/
def reductionKey (core : Nat) (g : Group) (rest : List Group) : Nat × Nat × Nat × Nat :=
  let x := endingGroup core g rest
  if x.acc.dest = 0 then (x.layer, 0, x.acc.destAddr, core) else (x.layer, 1, 0, 0)

/-- The key and the weight mode with code width of every plane that a forme's groups strobe. -/
def reductionModesOf (s : State) : List Group → List ((Nat × Nat × Nat × Nat) × (Nat × Nat))
  | [] => []
  | g :: rest => (g.entries.filter (ownEntry s)).flatMap (fun e => (entryPlanes e).filterMap (fun l =>
      (planeMode s l).map (fun m => (reductionKey (entryCore e) g rest, m)))) ++ reductionModesOf s rest

def reductionModes (s : State) (img : FormeImage) : List ((Nat × Nat × Nat × Nat) × (Nat × Nat)) := reductionModesOf s img.groups

/-- The rule of R137. -/
def modesOk (s : State) (img : FormeImage) : Bool :=
  decide ((reductionModes s img).Pairwise (fun a b => a.1 = b.1 → a.2 = b.2))

/-- Staging of attention layers at ROWS_MAX against a limit by logical region. -/
def stagingOk (l : List AttnRec) (rowsMax : Nat) (limit : Nat → Nat) : Bool :=
  l.all (fun a => stageGranules (stageBytes l rowsMax a) ≤ limit (homeRegion a))

def residentBytes (fs : Tbl Forme) : Nat := sumNat (fs.map (fun f => f.2.length))

/-- Resident formes after a plate change (R214). -/
def formesAfter (fs : Tbl Forme) : List Staged → Tbl Forme
  | [] => fs
  | .forme slot (some x) n :: r => formesAfter (tput fs slot { image := x.1, length := n, layers := [], draining := false, bytes := x.2 }) r
  | .forme slot none _ :: r => formesAfter (tdel fs slot) r
  | _ :: r => formesAfter fs r

/-- Resident formes as the open plate change would leave them (R214). -/
def formesNext (s : State) : Tbl Forme := formesAfter s.formes (stagedOf s 1)

/-- The status of a forme image that FORME_LOAD read (R208-R214, R137, R338). -/
def formeStatus (s : State) (slot length : Nat) (img : FormeImage) : Option Status :=
  if img.magic ≠ 0x4D52465A then some .formeInvalid
  else if img.arch ≠ 1 ∨ img.version ≠ 1 then some .versionUnsupported
  else if img.resZero && partsOk length img.parts && 1 ≤ img.layers.length && img.layers.length ≤ 4096 && img.attn.length ≤ 1020
      && img.web ≤ 64 && schedOk img.sched && risingLayers img.layers && risingGroups img.groups
      && img.layers.all (layerOk img) && img.groups.all (groupOk s img)
      && img.groups.all (fun g => img.layers.any (fun l => l.layer == g.layer))
      && img.routes.all (routeOk s img) && decide (img.routes.Pairwise (fun r q => routesClash r q = false))
      && img.attn.all (attnOk s img) && img.acc.all (fun e => e.1 < 540 && e.2 ≤ 2048)
      && draftOk (formesAfter (formesNext s) [.forme slot (some (img, [])) length]) img && modesOk s img && stagingOk img.attn img.sched.rowsMax (fun _ => 1792)
      && residentBytes (tdel (formesNext s) slot) + length ≤ 2147483648 then none
  else some .formeInvalid

end Sys2Proof.Machine
end

