-- ==== Sys2Proof/Machine/Skim.lean ====
section
/-! DEFINITION. The skim path of 03_skim_path: corrections (R74-R84), clamps (R86), checksum verification (R87-R90), range
monitors (R91, R92), re-strike (R94), wide weights and inputs (R95), audit sampling (R97-R99). Column charges are exact
integers in units of 2^-54 level·ns. -/

namespace Sys2Proof.Machine

/-- Units of charge in one level·ns: Q̂_c = 225 × (2^18 + G) × (2^28 + κ × ΔT) × (16 × C − O) / 2^54 with C in quarter LSB and ΔT in
1/16 K (R79). -/
def chargeOne : Int := 2 ^ 54

/-- Plane class (R79). -/
def planeClass (p : Nat) : Nat := p / 128

/-- Correction word set of a tile, class and column: G, O, κ (R79). -/
def corrOf (c : Core) (t p col : Nat) : Int × Int × Int := tget (0, 0, 0) c.corr ((11 * t + planeClass p) * 270 + col)

/-- The code after the converter's DNL table, in quarter LSB (R79). -/
def dnlKey (col : Nat) (fine : Bool) (code : Nat) : Nat := (col / 4) * 4096 + (if fine then 2048 else 0) + code

def correctedCode (c : Core) (col : Nat) (fine : Bool) (code : Nat) : Int :=
  (if fine then (code : Int) else 4 * code) + tget 0 c.dnl (dnlKey col fine code)

/-- Stage 2: column charge of a column index 0–269. -/
def stage2 (c : Core) (dT : Int) (t p col : Nat) (v : Conv) : Int :=
  let k := corrOf c t p col
  225 * (2 ^ 18 + k.1) * (2 ^ 28 + k.2.2 * dT) * (16 * correctedCode c col v.fine ((v.codes.getD col (0, false)).1) - k.2.1)

/-- Stage 3, stuck cells (R81, R82): entries of the engaged plane and of this physical column whose row is driven; skim rows
are never driven. -/
def stuckTerm (x : Tile) (p col : Nat) (us : Tbl Nat) (driven : List Nat) : Int :=
  sumInt (x.stuck.map (fun e =>
    if e.plane = p ∧ e.col = col ∧ e.row ∈ driven then ((e.intended : Int) - e.stuck) * ((tget 0 us e.row : Nat) : Int) * chargeOne
    else 0))

/-- Column charge Q̃ of the column that stands for index c (its spare when it is replaced, so that an entry of a replaced
column takes no part, R82). -/
def charge (c : Core) (dT : Int) (t p : Nat) (d : PlaneDesc) (v : Conv) (driven : List Nat) (col : Nat) : Int :=
  let k := colRoute d col
  stage2 c dT t p k v + stuckTerm (tileOf c t) p k v.drive driven

/-! ## Sum record (R76) -/

/-- Level sum of a column over the driven rows' blocks, excluding skim rows. -/
def levelSum (s : State) (pk : Nat) (d : PlaneDesc) (blocks : List Nat) (col : Nat) : Nat :=
  sumNat (blocks.flatMap (fun j => (List.range 32).map (fun i =>
    if (skimRowsOf d).any (fun k => k.2 == 32 * j + i) then 0 else intendedLevel s pk (32 * j + i) col)))

/-- Checksum remainder δ_ni, zero on skim rows. -/
def remainder (s : State) (pk : Nat) (d : PlaneDesc) (n i : Nat) : Int :=
  if (skimRowsOf d).any (fun k => k.2 == i) then 0
  else (sumNat ((List.range 32).map (fun c => intendedLevel s pk i (32 * n + c))) : Int) - 32 * intendedLevel s pk i (256 + n)

/-! ## Stage 6: checksum verification (R87) -/

/-- Residual of a group in units of charge. -/
def residual (s : State) (pk : Nat) (d : PlaneDesc) (q : Nat → Int) (driven : List Nat) (us : Tbl Nat) (n : Nat) : Int :=
  sumInt ((List.range 32).map (fun c => q (32 * n + c))) - 32 * q (256 + n)
    - chargeOne * sumInt (driven.map (fun i => remainder s pk d n i * ((tget 0 us i : Nat) : Int)))

/-- ρ > τ with ρ = |r| / 56.25 and τ in quarter LSB. -/
def beyondTau (r : Int) (tau : Nat) : Bool := 225 * tau * 2 ^ 54 < 16 * r.natAbs
/-- ρ > 3/4 × τ. -/
def beyondNear (r : Int) (tau : Nat) : Bool := 3 * 225 * tau * 2 ^ 54 < 64 * r.natAbs

/-- Over-range mark on a group or its checksum column (R90). -/
def groupOver (d : PlaneDesc) (v : Conv) (n : Nat) : Bool :=
  ((List.range 32).map (fun c => 32 * n + c) ++ [256 + n]).any (fun c => (v.codes.getD (colRoute d c) (0, false)).2)

/-- The check of one strobe: failure, or whether a near miss occurred. -/
def checkGroups (s : State) (pk : Nat) (d : PlaneDesc) (v : Conv) (q : Nat → Int) (driven : List Nat) (tau : Nat) :
    List Nat → Bool → Except Cause Bool
  | [], near => .ok near
  | n :: r, near =>
    let x := residual s pk d q driven v.drive n
    if groupOver d v n then .error .overrange
    else if beyondTau x tau then .error .checksum
    else checkGroups s pk d v q driven tau r (near || beyondNear x tau)

/-- The groups of a product whose residual fails in some strobe (R70, R87). -/
def failedGroups (s : State) (c : Core) (dT : Int) (t pk : Nat) (d : PlaneDesc) (driven : List Nat) (tau : Nat) (vs : List Conv) : List Nat :=
  (List.range 8).filter (fun n => vs.any (fun v =>
    !groupOver d v n && beyondTau (residual s pk d (charge c dT t (planeNo pk) d v driven) driven v.drive n) tau))

/-- All strobes of a product are checked (R87): the first failure, when there is one (R94, R95), and the number of strobes with a near
miss. -/
def checkStrobes (s : State) (c : Core) (dT : Int) (t pk : Nat) (d : PlaneDesc) (driven : List Nat) (tau : Nat) :
    List Conv → Option Cause × Nat → Option Cause × Nat
  | [], r => r
  | v :: vs, r =>
    match checkGroups s pk d v (charge c dT t (planeNo pk) d v driven) driven tau (List.range 8) false with
    | .error e => checkStrobes s c dT t pk d driven tau vs (some (r.1.getD e), r.2)
    | .ok near => checkStrobes s c dT t pk d driven tau vs (r.1, r.2 + b2n near)

/-! ## The corrected product (R74, R78, R95) -/

/-- Spacing s of a weight mode (R37). -/
def spacing (wmode : Nat) : Int := match wmode with
  | 0 => 15
  | 1 => 5
  | 2 => 2
  | _ => 1

/-- Skim term of an output column (R74, R83, R84), from the slot's bytes in scratch. -/
def skimTerm (c : Core) (d : PlaneDesc) (g : Segment) (slot col : Nat) : Int :=
  sumInt ((skimRowsOf d).map (fun k =>
    2 ^ ((mget c.scratch (16 * slot + 8 + k.1)).toNat % 4) *
      toSigned 8 (mget c.scratch (16 * slot + 16 + 256 * k.1 + col)).toNat * g.skim.getD k.1 0))

/-- Charge of an output column of one strike: nibbles joined for wide inputs, column pairs for weight mode 4. -/
def strikeCharge (wide4 : Bool) (q : Conv → Nat → Int) (vs : List Conv) (col : Nat) : Int :=
  let one := fun (c : Nat) => vs.foldl (fun acc v => 16 * acc + q v c) 0
  if wide4 then 16 * one (2 * col) + one (2 * col + 1) else one col

/-- One rounded y_c of a strike (R74). -/
def strikeY (s : State) (c : Core) (dT : Int) (r : StrobeReq) (pk : Nat) (d : PlaneDesc) (xs : List (Nat × Int))
    (vs : List Conv) (col : Nat) : Int :=
  let driven := xs.map (·.1)
  let wide4 := d.wmode == 4
  let sp := if wide4 then 1 else spacing d.wmode
  let h : Int := 2 ^ (r.bits - 1)
  let q := strikeCharge wide4 (fun v k => charge c dT r.tile (planeNo pk) d v driven k) vs col
  let bl := drivenBlocks r.seg r.rows
  let sum : Int := if wide4 then 16 * levelSum s pk d bl (2 * col) + levelSum s pk d bl (2 * col + 1) else levelSum s pk d bl col
  let sx := sumInt (xs.map (·.2))
  let k := skimTerm c d r.seg r.skimSlot col
  rneDiv (q - h * sum * chargeOne - ((d.zeroPoint : Int) * sx - k) * sp * chargeOne) (sp.toNat * 2 ^ 54)

def satInt32 (y : Int) : Int × Bool :=
  (limitTo (-(2 ^ 31)) (2 ^ 31 - 1) y, y < -(2 ^ 31) || 2 ^ 31 - 1 < y)

/-- Output columns of a plane (R37, R117). -/
def outputCols (d : PlaneDesc) : Nat := if d.wmode = 4 then 128 else 256

/-- The product: strikes averaged with rounding to even (R94), or the skim term alone when nothing was driven (R46). -/
def productY (s : State) (c : Core) (dT : Int) (h : Held) (pk : Nat) (d : PlaneDesc) : List Int × Bool :=
  let n := outputCols d
  if h.skipped then
    let ys := (List.range n).map (fun col => satInt32 (skimTerm c d h.req.seg h.req.skimSlot col))
    (ys.map (·.1), ys.any (·.2))
  else
    let k := strikes h.req.restrike
    let xs := drivenRows d h.req.seg h.req.rows
    let groups := chunks (if h.req.bits ≤ 4 then 1 else 2) k h.convs
    let ys := (List.range n).map (fun col =>
      satInt32 (rneDiv (sumInt (groups.map (fun vs => strikeY s c dT h.req pk d xs vs col))) k))
    (ys.map (·.1), ys.any (·.2))

/-! ## Stage 7: range monitors (R91) -/

def chargeSixteenth (q : Int) : Int := rneDiv (64 * q) (225 * 2 ^ 54)

def colStat (old : Option ColStat) (code : Nat) (x : Int) : ColStat :=
  match old with
  | none => ⟨code, code, x, (x * x).toNat⟩
  | some o => ⟨min o.lo code, max o.hi code, o.sum + x, o.sq + (x * x).toNat⟩

def nineBit (v : Conv) (code : Nat) : Nat := if v.fine then code / 4 else code

def trackStrobe (q : Conv → Nat → Int) (st : Tbl ColStat) (d : PlaneDesc) (v : Conv) : Tbl ColStat :=
  (List.range 256).foldl (fun m col =>
    tput m col (colStat (tfind m col) (nineBit v ((v.codes.getD (colRoute d col) (0, false)).1)) (chargeSixteenth (q v col)))) st

/-- Products of the monitored plane enter its window, up to 4,096 of them. -/
def monitorTrack (c : Core) (dT : Int) (t pk lp : Nat) (d : PlaneDesc) (driven : List Nat) (vs : List Conv) : Core :=
  if c.monEn && c.monPlane == some (t, lp) && vs != [] then
    let room := vs.take (4096 - c.monCount)
    { c with monStats := room.foldl (fun st v => trackStrobe (fun v k => charge c dT t (planeNo pk) d v driven k) st d v) c.monStats,
             monCount := c.monCount + room.length, monSince := 0 }
  else c

/-! ## Audit sampling (R97-R99) -/

/-- A uniform value from N/2 to 3N/2 − 1 out of a draw. -/
def auditReload (n draw : Nat) : Nat := n / 2 + draw % n

def freeSlot (c : Core) : Option Nat := (List.range 4).find? (fun i => (tfind c.auditSlots i).isNone)

/-- One product on a plane of the audit set: the counter falls; at zero the product is sampled when a slot is free. -/
def auditSample (n draw : Nat) (x : AuditSlot) (c : Core) : Core :=
  let left := (c.sample.getD (1 + auditReload n draw)) - 1
  if left ≠ 0 then { c with sample := some left }
  else match freeSlot c with
    | some i => { c with auditSlots := tput c.auditSlots i x, sample := some (auditReload n draw) }
    | none => { c with auditSkip := satAdd 32 c.auditSkip 1, sample := some 0 }

def inAuditSet (s : State) (ck t lp : Nat) : Bool :=
  match logicalCoreKey s ck with
  | some l => s.plates.auditSet.any (fun a => a.plane == planeKey (tileKey l t) lp)
  | none => false

/-! ## Precision events of a layer (R101) -/

def layerKey (slot layer : Nat) : Nat := 65536 * slot + layer

def raisePrecision (c : Core) (slot layer : Nat) : Core :=
  { c with stPrecision := true, summary := { c.summary with precision := addOnce c.summary.precision (slot, layer) } }

/-- Near misses and saturations against the layer's limits. DESIGN CHOICE (log entry 71): a core compares its own counts of the layer; the
seal compares the counts over all cores (`raised`). -/
def precisionEvents (c : Core) (slot layer : Nat) (l : Option LayerRec) : Core :=
  let k := layerKey slot layer
  let nl := (l.map nearOf).getD 4
  let sl := (l.map satOf).getD 64
  if nl ≤ tget 0 c.summary.near k ∨ sl ≤ tget 0 c.summary.sat k then raisePrecision c slot layer else c

/-! ## The whole path -/

def causeCode : Cause → Nat
  | .checksum => 1
  | .overrange => 2
  | .skimSlot => 3
  | _ => 0

/-- Clamped elements of a product (R86), and blocks that carry the reserved scale code (R106). -/
def clampCount (g : Segment) (rows : Nat) : Nat :=
  sumNat ((drivenBlocks g rows).map (fun j => g.clamps.getD j 0)) + g.skimClamps

/-! ## Dual mode (R353, R355) -/

/-- A twin can be strobed: its plane is usable, its core not in a test and its tile in no slice or write burst. -/
def twinReady (s : State) (lpk : Nat) : Bool :=
  planeUsable s lpk && (match physPlaneKey s lpk with
    | none => false
    | some pk => (coreOf s (planeCore pk)).testing.isNone &&
        (let k := workAt (tileOf (coreOf s (planeCore pk)) (tileOfPlane pk)) (now s)
         k != 3 && k != 4))

/-- A value in product units as converter terms in 1/unit LSB (R98, R353). -/
def convTerm (d : PlaneDesc) (bits unit : Nat) (v : Int) : Int :=
  let mw := if d.wmode = 4 then 16 else 1
  let mx := if 4 < bits then 16 else 1
  rneDiv (v * (if d.wmode = 4 then 1 else spacing d.wmode) * (4 * unit : Nat)) (225 * mw * mx)

/-- Sign r_c of a column under the pattern word (R353). -/
def patternSign (c : Nat) : Int := if bitAt 0xB4D32E58 (c % 32) then -1 else 1

/-- Group words of a product: sums and signed sums of the outputs of each group, in 1/2 LSB, as signed 16-bit values. -/
def groupWords (d : PlaneDesc) (bits : Nat) (ys : List Int) : DualWords :=
  let per := ys.length / 8
  let grp := fun (n : Nat) => (List.range per).map (fun i => (per * n + i, ys.getD (per * n + i) 0))
  let lim := fun (x : Int) => limitTo (-32768) 32767 x
  { sums := (List.range 8).map (fun n => lim (convTerm d bits 2 (sumInt ((grp n).map (·.2))))),
    signed := (List.range 8).map (fun n => lim (convTerm d bits 2 (sumInt ((grp n).map (fun x => patternSign x.1 * x.2))))),
    window := [] }

/-- Add a product to the tile's open window; the 64th closes it. -/
def windowStep (x : Tile) (d : PlaneDesc) (bits : Nat) (ys : List Int) : Tile × List Int :=
  let add := (List.range ys.length).map (fun i => x.winSum.getD i 0 + convTerm d bits 4 (ys.getD i 0))
  if x.winCount + 1 = 64 then ({ x with winCount := 0, winSum := [] }, add)
  else ({ x with winCount := x.winCount + 1, winSum := add }, [])

/-- The logical plane of a physical plane. -/
def logicalKeyOf (s : State) (pk : Nat) : Option Nat :=
  match logicalCoreKey s (planeCore pk), logicalPlane s (planeTile pk) (planeNo pk) with
  | some l, some p => some (planeKey (tileKey l (tileOfPlane pk)) p)
  | _, _ => none

/-- A secondary's products are discarded when its primary could be strobed with them (R353, R355). -/
def discards (s : State) (h : Held) (pk : Nat) : Bool := h.other.isSome && ((logicalKeyOf s pk).bind (primaryOf s)).isSome

/-- The other twin of a logical plane of a dual-mode plate, whichever of the two it is (R353). -/
def otherTwin (s : State) (lpk : Nat) : Option Nat := (twinOf s lpk).orElse (fun _ => primaryOf s lpk)

/-- The other twin's physical plane when it can be strobed as a product is issued. -/
def otherReady (s : State) (lpk : Nat) : Option Nat :=
  match otherTwin s lpk with
  | some l => if twinReady s l then physPlaneKey s l else none
  | none => none

/-- Strobes of a product that runs on one twin alone are counted, one by one (R169, R355). -/
def countAlone (s : State) (lpk : Nat) (ck n : Nat) : State :=
  if (otherTwin s lpk).isSome && (otherReady s lpk).isNone then
    modRegion s (coreRegion ck) (fun g => { g with twinOnly := satAdd 32 g.twinOnly n })
  else s

/-- The consumer notes the comparison that its product awaits (R353). -/
def noteDual (s : State) (ck : Nat) (h : Held) (d : PlaneDesc) (ys : List Int) : State :=
  match h.other with
  | none => s
  | some tpk =>
    let w := windowStep (tileOf (coreOf s ck) h.req.tile) d h.req.bits ys
    let own : DualWords := { groupWords d h.req.bits ys with window := w.2 }
    let s1 := modCore s ck (fun c => setTile c h.req.tile w.1)
    setFaults s1 (fun f => { f with dual := f.dual ++
      [{ primary := ck, secondary := planeCore tpk, tile := h.req.tile, time := now s, own := own }] })

/-- What stages 5 to 7 note of a product, failed or not: its clamps once (R86, R95), its marks, the near misses of its strobes (R87), the
layer's precision events (R101) and the monitored columns (R91). -/
def notedProduct (s : State) (ck : Nat) (h : Held) (rest : List Held) (pk : Nat) (d : PlaneDesc) (near : Nat) (sat : Bool) : Core :=
  let c := coreOf s ck
  let rg := regionOf s (coreRegion ck)
  let clamps := clampCount h.req.seg h.req.rows
  let k := layerKey h.req.slot h.req.layer
  let sm := c.summary
  let sm1 : CoreSummary :=
    { sm with near := if near = 0 then sm.near else tmod 0 sm.near k (· + near),
              sat := if clamps = 0 then sm.sat else tmod 0 sm.sat k (· + 1),
              satRids := noteRid sm.satRids h.req.rid sat, nearRids := noteRid sm.nearRids h.req.rid (near != 0) }
  let c1 : Core :=
    { c with held := rest, nearCount := satAdd 32 c.nearCount near, clampCount := satAdd 32 c.clampCount clamps,
             satCount := satAdd 32 c.satCount (b2n sat), stSat := c.stSat || sat, stNear := c.stNear || near != 0,
             summary := sm1 }
  let c2 := precisionEvents c1 h.req.slot h.req.layer (layerRec s h.req.slot h.req.layer)
  monitorTrack c2 (rg.tNow - rg.tCal) h.req.tile pk h.req.plane d ((drivenRows d h.req.seg h.req.rows).map (·.1)) h.convs

/-- Clamps, or a block with the reserved scale code, mark a product SAT (R86, R106). -/
def segmentSat (h : Held) : Bool :=
  clampCount h.req.seg h.req.rows != 0 || h.req.seg.scales.any (· == 0xFF)

/-- A product fails (R88): it stays in the core, is counted and reported in the check summary; its bank takes the group's descriptor all the same
(R119). On a plane of the audit set it counts
down the sample counter and is not sampled (R97). -/
def failProduct (s : State) (ck : Nat) (h : Held) (rest : List Held) (pk : Nat) (d : PlaneDesc) (near : Nat) (cause : Cause) : State :=
  let c := notedProduct s ck h rest pk d near (segmentSat h)
  let c1 : Core :=
    { c with failCount := satAdd 32 c.failCount 1, stFailed := true, lastCause := causeCode cause,
             summary := { c.summary with failed := c.summary.failed ++ [(cause, h.req.rid)] },
             sample := if auditEn s && inAuditSet s ck h.req.tile h.req.plane then c.sample.map (· - 1) else c.sample }
  let u := setCore s ck c1
  productFailed (if discards s h pk then u else openBank u h.req (outputCols d)) ck cause

def passProduct (s : State) (ck : Nat) (h : Held) (rest : List Held) (pk : Nat) (d : PlaneDesc) (near : Nat) : State :=
  let c := coreOf s ck
  let rg := regionOf s (coreRegion ck)
  let y := productY s c (rg.tNow - rg.tCal) h pk d
  let sat := y.2 || segmentSat h
  let c3 := notedProduct s ck h rest pk d near sat
  let audited := auditEn s && inAuditSet s ck h.req.tile h.req.plane
  let c4 := if audited then auditSample (auditN s) (drawNat s)
      { plane := pk, started := now s, xs := drivenRows d h.req.seg h.req.rows, skim := h.req.seg.skim, y := y.1, wmode := d.wmode,
        wide := 4 < h.req.bits, slot := h.req.slot, layer := h.req.layer } c3
    else c3
  let s1 := setCore s ck c4
  let s2 := if audited then drawn s1 else s1
  if discards s h pk then s2
  else acceptProduct (noteDual s2 ck h d y.1) h.req y.1 ((h.req.seg.eSeg : Int) - 127) sat

/-- SKIM_PRODUCT: the oldest product of the core, after its last conversion (R77). `filling`: the region DMA is filling
the named slot with a matching tag, so the product waits (R85). DESIGN CHOICE (log entry 72): a product that fails with SKIM_SLOT has its
strobes checked by no stage 6, so it counts no near miss. -/
def skimOp (s : State) (ck : Nat) (filling : Bool) : State :=
  let c := coreOf s ck
  match c.held with
  | [] => s
  | h :: rest =>
    let pk := planeKey (tileKey ck h.req.tile) h.phys
    let d := descOf s pk
    let tagOk := d.skimValid = 0 ∨ (h.req.skimSlot ≠ 0xFFFF ∧ leNat (mread c.scratch (16 * h.req.skimSlot) 8) = planeTag s pk)
    if tagOk then
      if h.skipped then passProduct s ck h rest pk d 0
      else
        let rg := regionOf s (coreRegion ck)
        let tau := ((layerRec s h.req.slot h.req.layer).map tauOf).getD 0x01F0
        let xs := drivenRows d h.req.seg h.req.rows
        match checkStrobes s c (rg.tNow - rg.tCal) h.req.tile pk d (xs.map (·.1)) tau h.convs (none, 0) with
        | (some e, near) =>
          attributeGroups (failProduct s ck h rest pk d near e) ck h.req.tile
            (failedGroups s c (rg.tNow - rg.tCal) h.req.tile pk d (xs.map (·.1)) tau h.convs)
        | (none, near) => passProduct s ck h rest pk d near
    else if filling then s
    else failProduct s ck h rest pk d 0 .skimSlot

end Sys2Proof.Machine
end

