-- ==== Sys2Proof/Machine/DataPath.lean ====
section
/-! DEFINITION. The rows of the data path: strobes and switches (R41-R59), the skim path (R77), finalisation (R126), dual
comparison (R353, R354), range monitors (R91-R93), the audit (R96-R99). -/

namespace Sys2Proof.Machine

/-- A command that names a core and a tile. -/
def onCore (ck tile : Nat) (s : State) : Host.Outcome State Fault Refusal :=
  if ck < nCores ∧ tile < 16 then .next s else .fault .noSuchUnit

/-! ## Plane switches (R41-R43, R73) -/

/-- A tile switches to a logical plane; the plane that a burst took away is engaged anew before (R69, R200). -/
def planeSwitchOp (s : State) (ck tile plane : Nat) : State :=
  if coreUsable s ck && formeState (descOf s (planeKey (tileKey ck tile) (physPlane s (tileKey ck tile) plane)))
  then engageLogical (reengage (endBurst s ck tile (now s)) ck tile) ck tile plane else s

/-! ## Strobes (R46-R59, R139, R140, R211) -/

/-- A group runs for a row: always, or when the row's routing selected its expert (R211). -/
def groupRuns (s : State) (slot : Nat) (g : Group) (rid : Option Nat) : Bool :=
  g.expert == 0xFFFF || ((rid.bind (rowOf s)).any (fun w => (slot, g.router, g.expert) ∈ w.experts))

/-- The re-strike code of a factor (R94, R138). -/
def restrikeCode (k : Nat) : Nat := Nat.log2 k

/-- The product that follows in a core's own entries of a group: the next plane of the run, or the first of the core's next entry (R211). -/
def nextOwn (g : Group) (lck entry index : Nat) : Option (Nat × Nat) :=
  if (g.entries[entry]?).any (fun e => index + 1 < e.run) then some (entry, index + 1)
  else ((List.range g.entries.length).find? (fun j => entry < j && (g.entries[j]?).any (fun e => entryCore e == lck))).map (fun j => (j, 0))

/-- The group of the product that a core has issued last has no further entry of the core. -/
def groupDone (s : State) (p : Issued) (lck : Nat) : Bool :=
  match (formeOf s p.slot).bind (fun f => f.image.groups[p.group]?) with
  | some g => (nextOwn g lck p.entry p.index).isNone
  | none => true

/-- Each core issues its own entries in order (R211): a group from its first product on, and no other group before it is through. Of twins
that both run a product each issues it once (R353). -/
def inTurn (s : State) (x : StrobeCmd) (g : Group) (lck : Nat) : Bool :=
  let first : Bool := x.index == 0 && (g.entries.findIdx? (fun e => entryCore e == lck)) == some x.entry
  match tfind s.sched.issued lck with
  | none => first
  | some p =>
    let same : Bool := p.slot == x.slot && p.group == x.group && p.rid == x.rid
    (same && p.entry == x.entry && p.index == x.index && x.twin ∉ p.twins)
      || (same && nextOwn g lck p.entry p.index == some (x.entry, x.index)) || (first && groupDone s p lck)

/-- A product has been issued. -/
def noteIssued (s : State) (x : StrobeCmd) : State :=
  match ((formeOf s x.slot).bind (fun f => f.image.groups[x.group]?)).bind (fun g => g.entries[x.entry]?) with
  | none => s
  | some e =>
    let lck := entryCore e
    setSched s (fun c => { c with issued := tput c.issued lck (match tfind c.issued lck with
      | some p => if p.slot = x.slot ∧ p.group = x.group ∧ p.rid = x.rid ∧ p.entry = x.entry ∧ p.index = x.index then
          { p with twins := x.twin :: p.twins } else ⟨x.slot, x.group, x.rid, x.entry, x.index, [x.twin]⟩
      | none => ⟨x.slot, x.group, x.rid, x.entry, x.index, [x.twin]⟩) })

/-- The product that a strobe entry stands for: its plane or the plane's twin, the layer's recipe at the rung in effect for the request (R140),
and the input segment as it lies in the core's scratch (R113, R211). -/
def resolveStrobe (s : State) (x : StrobeCmd) : Option (StrobeReq × Nat) :=
  match (formeOf s x.slot).bind (fun f => (f.image.groups[x.group]?)) with
  | none => none
  | some g => match g.entries[x.entry]?, layerRec s x.slot g.layer with
    | some e, some l =>
      if e.run ≤ x.index || !ownEntry s e || !groupRuns s x.slot g x.rid || !inTurn s x g (entryCore e) then none
      else match (entryPlanes e)[x.index]? with
        | none => none
        | some named => match (if x.twin then otherTwin s named else some named) with
          | none => none
          | some lpk => match physCoreKey s (planeCore lpk) with
            | none => none
            | some ck =>
              let rec_ := rungRecipe l (rungFor s x.slot l.layer x.rid)
              let at_ := 64 * e.sheet + segmentOffset rec_.1 (e.segment + x.index)
              some ({ core := ck, tile := tileOfPlane lpk, plane := planeNo lpk, slot := x.slot, layer := l.layer, rid := x.rid, bits := rec_.1,
                      fine := rec_.2.2, restrike := restrikeCode rec_.2.1, rows := x.rows,
                      seg := segmentOf rec_.1 (mread (coreOf s ck).scratch at_ (segBytes rec_.1)), skimSlot := e.skimSlot, acc := g.acc,
                      groupCores := ((g.entries.filter (ownEntry s)).map entryCore).eraseDups.length, ready := x.ready, edge := x.edge,
                      badSheet := x.badSheet, last := (nextOwn g (entryCore e) x.entry x.index).isNone }, lpk)
    | _, _ => none

/-- Strobes that a command has issued: one for each nibble and strike of a product that was struck. -/
def issuedStrobes (s u : State) (r : StrobeReq) : Nat :=
  match (coreOf u r.core).held.getLast? with
  | some h => if (coreOf s r.core).held.length < (coreOf u r.core).held.length && !h.skipped then productStrobes r else 0
  | none => 0

/-- A product has entered the core, struck or skipped. -/
def tookProduct (s u : State) (ck : Nat) : Bool := (coreOf s ck).held.length < (coreOf u ck).held.length

/-- STROBE: one product of a strobe entry; a product on one twin alone counts its strobes (R355). -/
def strobeOp (s : State) (x : StrobeCmd) : State :=
  match resolveStrobe s x with
  | none => s
  | some (r, lpk) =>
    let u := strobeReady s r (otherReady s lpk)
    let v := if tookProduct s u r.core then noteIssued u x else u
    if issuedStrobes s u r = 0 then v else countAlone v lpk r.core (issuedStrobes s u r)

/-! ## Dual comparison (R353, R354) -/

def far (lim unit : Nat) (a b : List Int) : Bool :=
  (List.range (max a.length b.length)).any (fun i => decide (lim < unit * (a.getD i 0 - b.getD i 0).natAbs))

/-- The two sets of words differ by more than TAU_D or TAU_W, both in 1/4 LSB (R353, R373). -/
def wordsDiffer (s : State) (own other : DualWords) : Bool :=
  far (tauD s) 2 own.sums other.sums || far (tauD s) 2 own.signed other.signed || far (tauW s) 1 own.window other.window

/-- Key under which the mismatches of a pair are counted. -/
def pairKey (a b : Nat) : Nat := 10 ^ 10 + nCores * a + b

/-- A mismatch (R354, R357): both cores' rows are withheld and their tests overdue, the consumer has a failed product, and
the third mismatch of the pair in 10 s fences both. -/
def dualMismatch (s : State) (a b : Nat) : State :=
  let s1 := setFaults s (fun f => { f with dualMismatch := satAdd 32 f.dualMismatch 1 })
  let s2 := testOverdueNow (testOverdueNow (alarm (alarm s1 (unitOfCore a)) (unitOfCore b)) a) b
  let s3 := modCore s2 a (fun c => { c with failCount := satAdd 32 c.failCount 1, stFailed := true, lastCause := 1 })
  let s4 := noteEvent (noteEvent s3 .checksum a) .checksum (pairKey a b)
  if 3 ≤ eventsWithin s4 .checksum (pairKey a b) tenSeconds then
    fenceFor (fenceFor s4 (unitOfCore a) .checksum 1) (unitOfCore b) .checksum 1
  else if 3 ≤ eventsWithin s4 .checksum a tenSeconds then fenceFor s4 (unitOfCore a) .checksum 1
  else s4

def dropDual (s : State) (w : DualWait) : State := setFaults s (fun f => { f with dual := f.dual.erase w })

/-- The secondary's words arrive. -/
def dualCompareOp (s : State) (a b tile : Nat) (words : DualWords) : State :=
  match s.faults.dual.find? (fun w => w.primary == a && w.secondary == b && w.tile == tile) with
  | none => s
  | some w =>
    let s1 := dropDual s w
    if wordsDiffer s w.own words then dualMismatch s1 a b else s1

/-- Words missing 10 µs after the consumer's strobe count as a mismatch. -/
def dualTimeoutOp (s : State) (a b : Nat) : State :=
  match s.faults.dual.find? (fun w => w.primary == a && w.secondary == b && w.time + 10000 ≤ now s) with
  | none => s
  | some w => dualMismatch (dropDual s w) a b

/-! ## Range monitors (R91-R93) -/

/-- The (tile, logical plane) pairs of a core's ALLOCATED planes, ascending; a core without a logical core has none. -/
def allocatedPlanes (s : State) (ck : Nat) : List (Nat × Nat) :=
  if (logicalCoreKey s ck).isNone then []
  else sortBy (fun (x : Nat × Nat) => 1344 * x.1 + x.2) ((s.arr.desc.filter (fun e => planeCore e.1 == ck && e.2.state == 2)).filterMap (fun e =>
    (logicalPlane s (planeTile e.1) (planeNo e.1)).map (fun l => (tileOfPlane e.1, l))))

/-- ENV_AREA. DESIGN CHOICE (log entry 76): firmware uses the last 4 KiB of scratch. -/
def envelopeArea : Nat := 39

/-- An envelope as it lies in the area, 16 bytes per data column (R91). -/
def envelopeBytes (t : Tbl Envelope) : List Byte :=
  (List.range 256).flatMap (fun c => match tfind t c with
    | some e => leBytes 2 (e.codeMin % 512) ++ leBytes 2 (e.codeMax % 512) ++ leBytes 2 (ofSigned 16 e.meanLo) ++ leBytes 2 (ofSigned 16 e.meanHi)
        ++ leBytes 2 e.varMax ++ List.replicate 6 0
    | none => leBytes 16 0)

/-- The envelope of a column as 16 bytes spell it. -/
def envelopeOf (bs : List Byte) : Envelope :=
  let w := fun (i : Nat) => leNat ((bs.drop i).take 2)
  { codeMin := w 0 % 512, codeMax := w 2 % 512, meanLo := toSigned 16 (w 4), meanHi := toSigned 16 (w 6), varMax := w 8 }

/-- Firmware names the next plane, and places its envelope in scratch (R91): the first after the last one named, or the first of all (R92). -/
def nameNext (s : State) (ck : Nat) : State :=
  let l : List (Nat × Nat) := allocatedPlanes s ck
  let after : Option (Nat × Nat) := match (coreOf s ck).monPlane with
    | some p => l.find? (fun (x : Nat × Nat) => 1344 * p.1 + p.2 < 1344 * x.1 + x.2)
    | none => none
  let next := after.orElse (fun _ => l.head?)
  let phys := next.map (fun (x : Nat × Nat) => let tk := tileKey ck x.1; planeKey tk (physPlane s tk x.2))
  let env := (phys.map (fun p => envelopeBytes (tget [] s.arr.envelope p))).getD []
  modCore s ck (fun c =>
    { c with monEn := l != [], monPlane := next, monPhys := phys, monCount := 0, monSince := 0, monStats := [], envArea := envelopeArea,
             scratch := mwrite c.scratch (4096 * envelopeArea) env })

/-- Layers of resident formes that run a logical plane of this module: they name it, or name its primary (R141, R353). -/
def layersOf (s : State) (lpk : Nat) : List (Nat × Nat) :=
  let named := lpk :: (primaryOf s lpk).toList
  s.formes.flatMap (fun f => (f.2.image.groups.filter (fun g => g.entries.any (fun e =>
    ownEntry s e && (entryPlanes e).any (· ∈ named)))).map (fun g => (f.1, g.layer)))

def precisionOn (s : State) (ck lpk : Nat) : State :=
  modCore s ck (fun c => (layersOf s lpk).foldl (fun x y => raisePrecision x y.1 y.2) c)

def codeAlarm (e : Envelope) (x : ColStat) : Bool := x.lo < e.codeMin || e.codeMax < x.hi

/-- Mean or variance outside its bounds: n products, means in 1/16 LSB, variances in 1/16 LSB². -/
def envelopeExcess (n : Nat) (e : Envelope) (x : ColStat) : Bool :=
  decide (x.sum < e.meanLo * n) || decide (e.meanHi * n < x.sum)
    || decide ((16 * e.varMax * n * n : Nat) < ((x.sq * n : Nat) : Int) - x.sum * x.sum)

def monitorCompareOp (s : State) (ck : Nat) : State :=
  let c := coreOf s ck
  match c.monPlane with
  | none => s
  | some (t, lp) =>
    if c.monCount < 4096 then s
    else
      let cols := c.monStats.map (fun x => (envelopeOf (mread c.scratch (4096 * c.envArea + 16 * x.1) 16), x.2))
      let bad := cols.any (fun x => codeAlarm x.1 x.2)
      let prec := cols.any (fun x => envelopeExcess c.monCount x.1 x.2)
      let s1 := modCore s ck (fun d => { d with monDone := true, monAlarm := bad, monPrec := prec,
                                                summary := { d.summary with alarm := d.summary.alarm || bad } })
      let s2 := if prec then precisionOn s1 ck (match logicalCoreKey s ck with
        | some l => planeKey (tileKey l t) lp
        | none => 0) else s1
      nameNext (if bad then monitorAlarmed s2 ck else s2) ck

/-- The window is given up and counted. -/
def abandonWindow (s : State) (ck : Nat) : State :=
  nameNext (modCore s ck (fun c => { c with monSkip := satAdd 32 c.monSkip 1 })) ck

/-- The monitored plane has another physical plane than when its window began, is no longer ALLOCATED, or lies on a core that a refill has
relieved of its logical core (R93). -/
def monitorMoved (s : State) (ck : Nat) : Bool :=
  let c := coreOf s ck
  match c.monPlane, c.monPhys with
  | some (t, lp), some p => physPlane s (tileKey ck t) lp != planeNo p || (descOf s p).state != 2 || (logicalCoreKey s ck).isNone
  | _, _ => false

/-- At a boundary a core gives up the window of a plane that a change, a refill or a retirement has moved (R93). -/
def refreshMonitors (s : State) : State :=
  ((s.cores.filter (fun e => monitorMoved s e.1)).map (fun e => e.1)).foldl abandonWindow s

def monitorAbandonOp (s : State) (ck : Nat) : State :=
  let c := coreOf s ck
  if c.monPlane.isSome && 2 ^ 20 ≤ c.monSince then abandonWindow s ck else s

/-! ## The audit (R96-R99) -/

def auditPeak (y ref : List Int) : Nat :=
  (List.range y.length).foldl (fun m i => max m (y.getD i 0 - ref.getD i 0).natAbs) 0

/-- Denominator of Δ_c in units of s / 225: 16 per weight mode 4 and wide input. -/
def auditDen (x : AuditSlot) : Nat := 225 * (if x.wmode = 4 then 16 else 1) * (if x.wide then 16 else 1)

def auditScale (x : AuditSlot) : Nat := 16 * (if x.wmode = 4 then 1 else (spacing x.wmode).toNat)

/-- The reference copy of a sampled plane. -/
def auditCopyOf (s : State) (x : AuditSlot) : Option AuditCopy :=
  (logicalKeyOf s x.plane).bind (fun l => s.plates.auditSet.find? (fun a => a.plane == l))

/-- The weight code of a row and output column (R37). -/
def copyCode (a : AuditCopy) (row col : Nat) : Int :=
  let at_ := fun (c : Nat) => ((tget 0 a.levels (264 * row + c) : Nat) : Int)
  if a.wmode = 4 then 16 * at_ (2 * col) + at_ (2 * col + 1) else at_ col / spacing a.wmode

/-- y_ref of one output column: the exact product of R74. -/
def referenceY (a : AuditCopy) (x : AuditSlot) (col : Nat) : Int :=
  sumInt (x.xs.map (fun e => (copyCode a e.1 col - a.zeroPoint) * e.2))
    + sumInt (((List.range 8).filter (fun k => bitAt a.skimValid k)).map (fun k =>
        2 ^ (a.skimShift.getD k 0 % 4) * tget 0 a.skimW (256 * k + col) * x.skim.getD k 0))

def auditReference (a : AuditCopy) (x : AuditSlot) : List Int := (List.range x.y.length).map (referenceY a x)

/-- The recomputation of a slot is complete (R98). -/
def auditCompareOp (s : State) (ck i : Nat) : State :=
  match (tfind (coreOf s ck).auditSlots i).bind (fun x => (auditCopyOf s x).map (fun a => (x, a))) with
  | none => s
  | some (x, a) =>
    let d := auditPeak x.y (auditReference a x) * auditScale x
    let tauA := ((layerRec s x.slot x.layer).map tauAOf).getD 8
    let prec : Bool := tauA * auditDen x < 2 * d
    let bad : Bool := tauA * auditDen x < d
    let s1 := modCore s ck (fun c => { c with auditSlots := tdel c.auditSlots i, auditCount := satAdd 32 c.auditCount 1 })
    let s2 := if prec then modCore s1 ck (fun c => raisePrecision c x.slot x.layer) else s1
    if bad then
      let s3 := modCore s2 ck (fun c =>
        { c with auditFail := satAdd 32 c.auditFail 1,
                 summary := { c.summary with mismatch := addOnce c.summary.mismatch x.plane } })
      auditMismatched s3 x.plane (d / auditDen x)
    else s2

/-- Abandon the audits of a core that satisfy a test; each counts as a skip (R99). -/
def abandonAudits (p : AuditSlot → Bool) (c : Core) : Core :=
  { c with auditSlots := c.auditSlots.filter (fun e => !p e.2),
           auditSkip := satAdd 32 c.auditSkip ((c.auditSlots.filter (fun e => p e.2)).length) }

def auditTimeoutOp (s : State) (ck i : Nat) : State :=
  match tfind (coreOf s ck).auditSlots i with
  | none => s
  | some x => if x.started + 50000 ≤ now s then modCore s ck (abandonAudits (fun y => y == x)) else s

/-- Apply to every core that State lists. -/
def mapCores (s : State) (f : Nat → Core → Core) : State :=
  { s with cores := tmap {} f s.cores }

/-- Leave the audits of planes outside a set (R99). -/
def keepAudits (s : State) (kept : List Nat) : State :=
  mapCores s (fun _ c => if c.auditSlots = [] then c else abandonAudits (fun x => !(logicalKeyOf s x.plane).any (· ∈ kept)) c)

/-! ## Rows -/

def execStrobe (r : StrobeCmd) (t : Nat) (s : State) : Host.Outcome State Fault Refusal := .next (strobeOp (advance t s) r)

def execPlaneSwitch (core tile plane : Nat) (t : Nat) (s : State) : Host.Outcome State Fault Refusal :=
  onCore core tile (planeSwitchOp (advance t s) core tile plane)

def execSkimProduct (core : Nat) (slotFilling : Bool) (t : Nat) (s : State) : Host.Outcome State Fault Refusal :=
  onCore core 0 (skimOp (advance t s) core slotFilling)

def execBankFinalise (core bank : Nat) (t : Nat) (s : State) : Host.Outcome State Fault Refusal :=
  if bank < 4 then onCore core 0 (finaliseOp (advance t s) core bank) else .fault .noSuchUnit

def execDualCompare (primary secondary tile : Nat) (words : DualWords) (t : Nat) (s : State) : Host.Outcome State Fault Refusal :=
  onCore (max primary secondary) tile (dualCompareOp (advance t s) primary secondary tile words)

def execDualWordsTimeout (primary secondary : Nat) (t : Nat) (s : State) : Host.Outcome State Fault Refusal :=
  onCore (max primary secondary) 0 (dualTimeoutOp (advance t s) primary secondary)

def execMonitorCompare (core : Nat) (t : Nat) (s : State) : Host.Outcome State Fault Refusal :=
  onCore core 0 (monitorCompareOp (advance t s) core)

def execMonitorAbandon (core : Nat) (t : Nat) (s : State) : Host.Outcome State Fault Refusal :=
  onCore core 0 (monitorAbandonOp (advance t s) core)

def execAuditCompare (core slot : Nat) (t : Nat) (s : State) : Host.Outcome State Fault Refusal :=
  onCore core 0 (auditCompareOp (advance t s) core slot)

def execAuditTimeout (core slot : Nat) (t : Nat) (s : State) : Host.Outcome State Fault Refusal :=
  onCore core 0 (auditTimeoutOp (advance t s) core slot)

end Sys2Proof.Machine
end

