-- ==== Sys2Proof/Machine/Share.lean ====
section
/-! DEFINITION. Timers and pins of R344-R346: RESOURCE_ALLOC, RESOURCE_FREE and the safety users. -/

namespace Sys2Proof.Machine

/-- Who holds a timer (kind 0) or a GPIO pin (kind 1): a HOLDER tag, or a safety user. -/
def resTable (s : State) (kind : Nat) : Tbl (Nat ⊕ Nat) := if kind = 0 then s.share.timers else s.share.pins

def resHolder (s : State) (kind i : Nat) : Option (Nat ⊕ Nat) := tfind (resTable s kind) i

def setRes (s : State) (kind i : Nat) (h : Option (Nat ⊕ Nat)) : State :=
  let f := fun (m : Tbl (Nat ⊕ Nat)) => match h with
    | some x => tput m i x
    | none => tdel m i
  { s with share := if kind = 0 then { s.share with timers := f s.share.timers } else { s.share with pins := f s.share.pins } }

def resCount (kind : Nat) : Nat := if kind = 0 then 64 else 16

/-- A RESOURCE_ALLOC holds the resource. -/
def heldByHost (s : State) (kind i : Nat) : Bool := match resHolder s kind i with
  | some (.inl _) => true
  | _ => false

/-- RESOURCE_ALLOC (R344). -/
def allocOp (h : Hdr) (kind index holder : Nat) (s : State) : State :=
  let i := if index = 0xFF then firstBelow (resCount kind) (fun n => (resHolder s kind n).isNone) else some index
  match i with
  | none => reply s h .resourceBusy
  | some n => match resHolder s kind n with
    | none =>
      let s1 := if kind = 0 then setTimer s n { timerOf s n with edges := 0 } else s
      replyOk (setRes s1 kind n (some (.inl holder))) h n 0
    | some x => if x = .inl holder then replyOk s h n 0 else reply s h .resourceBusy

/-- RESOURCE_FREE (R344): the holder is the physical function's allocation; the command carries no tag (log entry 14). -/
def freeOp (h : Hdr) (kind index : Nat) (s : State) : State :=
  if heldByHost s kind index then replyOk (setRes s kind index none) h 0 0 else reply s h .resourceBusy

/-! ## Safety users (R345) -/

def safetySet (kind : Nat) : List Nat := if kind = 0 then [63, 62, 61, 60] else [15, 14, 13, 12]

/-- The resources a safety user holds. -/
def safetyHolds (s : State) (kind user : Nat) : List Nat := (safetySet kind).filter (fun i => resHolder s kind i == some (.inr user))

/-- A safety user takes one resource of its set: the highest-numbered free one, else the highest-numbered held one. -/
def takeSafety (s : State) (kind user : Nat) : State × Option Nat :=
  match (safetySet kind).find? (fun i => (resHolder s kind i).isNone) with
  | some i => (setRes s kind i (some (.inr user)), some i)
  | none => match (safetySet kind).find? (heldByHost s kind) with
    | none => (s, none)
    | some i =>
      let s0 := if kind = 0 then setTimer s i { timerOf s i with en := false, next := none } else s
      let s1 := setRes s0 kind i (some (.inr user))
      let s2 := { s1 with share := { s1.share with lost := satAdd 32 s1.share.lost 1 } }
      (unsolicited s2 0x0012 .resourceLost 0 0 i 0, some i)

/-- A safety user is done: its resources become free. -/
def dropSafety (s : State) (kind user : Nat) : State :=
  (safetyHolds s kind user).foldl (fun x i => setRes x kind i none) s

/-- A reset or a function-level reset of the physical function frees every allocation (R346). -/
def freeAllocations (s : State) : State :=
  let keep := fun (m : Tbl (Nat ⊕ Nat)) => m.filter (fun e => match e.2 with
    | .inr _ => true
    | .inl _ => false)
  { s with share := { s.share with timers := keep s.share.timers, pins := keep s.share.pins } }

/-! ## Rows -/

def execResourceAlloc (h : Hdr) (kind index holder : Nat) (t : Nat) (s : State) : Host.Outcome State Fault Refusal :=
  runCmd h (.resourceAlloc kind index holder) t s (allocOp h kind index holder)

def execResourceFree (h : Hdr) (kind index : Nat) (t : Nat) (s : State) : Host.Outcome State Fault Refusal :=
  runCmd h (.resourceFree kind index) t s (freeOp h kind index)

end Sys2Proof.Machine
end

