-- ==== Sys2Proof/Machine/Control.lean ====
section
/-! DEFINITION. Single commands: identity (R235), levels (R234), options (R249), power (R415), RESET_WARM (R397), proof
mode (R64-R68), FENCE_UNIT (R357), fence reports (R372), TEST_RUN (R371). -/

namespace Sys2Proof.Machine

/-! ## IDENTIFY and NEGOTIATE -/

/-- A confidential tenant is present (R382, log entry 15). -/
def confPresent (s : State) : Bool := s.sec.confPresent

/-- The identity record (R235). -/
def identityBytes (s : State) (fn : Nat) : List Byte :=
  [1, 1] ++ leBytes 2 0x4036 ++ leBytes 4 s.nv.fwActive.version ++ leBytes 16 s.nv.serial ++ leBytes 32 s.nv.bindKey
    ++ leBytes 2 s.ql.module ++ leBytes 1 fn
    ++ leBytes 1 (b2n s.aon.limp + 2 * b2n (confPresent s) + 4 * b2n s.rst.calDone) ++ leBytes 196 0

def identifyOp (h : Hdr) (addr : Nat) (s : State) : State := replyOk (hostWrite s h.fn addr (identityBytes s h.fn)) h 0 0

def negotiateOp (h : Hdr) (level : Nat) (s : State) : State :=
  if level = 1 then replyOk (modFn s h.fn (fun f => { f with level := some 1 })) h 1 0
  else finish s h.fn h.seq .versionUnsupported {} ((fnOf s h.fn).level.getD 0) 0

/-! ## Fence reports (R372) -/

def defectWord (d : Defect) : Nat := fld d.row 7 0 + fld d.col 8 0 * 2 ^ 8 + fld d.level 3 0 * 2 ^ 17 + 2 ^ 21

def reportBytes (r : Report) : List Byte :=
  if r.kind = 4 then
    leBytes 4 4 ++ leBytes 4 r.seq ++ (List.range 14).flatMap (fun i => match r.entries[i]? with
      | some d => leBytes 4 (defectWord d)
      | none => leBytes 4 0)
  else
    leBytes 1 r.kind ++ leBytes 1 (reportCause r.cause) ++ leBytes 2 (r.detail % 256) ++ leBytes 4 r.seq ++ leBytes 8 r.time
      ++ leBytes 8 r.phys ++ leBytes 8 r.logical ++ leBytes 8 r.step ++ leBytes 8 r.second ++ leBytes 4 r.count
      ++ leBytes 4 r.data ++ leBytes 8 0

def reportGetOp (h : Hdr) (addr maxBytes : Nat) (s : State) : State :=
  let n := min (maxBytes / 64) s.faults.reports.length
  let s1 := if n = 0 then s else hostWrite s h.fn addr ((s.faults.reports.take n).flatMap reportBytes)
  let s2 := setFaults s1 (fun f => { f with reports := f.reports.drop n })
  replyOk s2 h (64 * n) s2.faults.reports.length

/-! ## OPTION_SET -/

/-- The option word an entry names: QL_PEER_KEY is that of the port QL_PEER_SEL names when the entry is staged (R447). -/
def optTarget (s : State) (off : Nat) : Nat :=
  if Off.ql + 0x10 ≤ off ∧ off < Off.ql + 0x30 then Off.peerKey (fld s.ql.peerSel.toNat 5 0) ((off - Off.ql - 0x10) / 4) else off

def optEntryOk (e : OptEntry) : Bool := Nat.land e.mask.toNat (optMask e.off) == e.mask.toNat

def optionSetOp (h : Hdr) (es : List OptEntry) (s : State) : State :=
  if es.all optEntryOk then
    replyOk (es.foldl (fun x e => stage x 3 (.option (optTarget s e.off) e.mask e.val)) s) h es.length 0
  else reply s h .registerInvalid

/-! ## Power and warm reset -/

/-- A boundary is wanted although no request may have work (R239). -/
def wantBoundary (s : State) : State := setSched s (fun c => { c with wantBoundary := true })

def powerSetOp (h : Hdr) (budget : Nat) (s : State) : State :=
  wantBoundary (setWait { s with power := { s.power with staged := some budget } } h.fn h.seq .boundary)

def resetWarmOp (h : Hdr) (s : State) : State :=
  let s1 := replyOk s h 0 0
  { s1 with rst := { s1.rst with warmAt := some (now s + 1000000) } }

/-! ## Proof mode (R64-R68) -/

def clearProof (c : Core) : Core :=
  { c with proofCtrl := 0, proofValid := false, proofOverrun := false, proofRefused := false, proofFine := false, proofTile := 0,
           proofPlane := 0, proofTime := 0, proofResult := [],
           tiles := tmap {} (fun _ x => if x.proofEngaged then { x with engaged := none, changes := [], prior := none, proofEngaged := false } else x)
             c.tiles }

/-- The module leaves proof mode. -/
def leaveProof (s : State) : State :=
  if s.sec.proof then let s1 := mapCores s (fun _ c => clearProof c); { s1 with sec := { s1.sec with proof := false } } else s

def proofEnterOp (h : Hdr) (s : State) : State :=
  if confPresent s then reply s h .confidentialActive else replyOk { s with sec := { s.sec with proof := true } } h 0 0

def proofLeaveOp (h : Hdr) (s : State) : State :=
  if confPresent s then reply s h .confidentialActive else replyOk (leaveProof s) h 0 0

/-- A resident forme names a physical core: a pass can strobe a plane there, or a plane's twin (R68, R352). A fenced core counts as not
named. -/
def coreNamed (s : State) (ck : Nat) : Bool := !coreFenced s ck && s.formes.any (fun f => formeNames s f.2.image (unitOfCore ck))

/-- TILE_ENGAGE (R67, R68, R43).
DESIGN CHOICE (log entry 88): a PLANE beyond the tile's planes engages nothing and sets no flag.
DEDUCED (log entry 89): neither does a core of a stack whose array drivers are de-energised (R31). -/
def tileEngageOp (s : State) (ck tile w : Nat) : State :=
  if !s.sec.proof || !bitAt w 31 || !stackDriven s (coreStack ck) then s
  else if coreNamed s ck then modCore s ck (fun c => { c with proofRefused := true })
  else
    let tk := tileKey ck tile
    let n := fld w 10 0
    let p := if bitAt w 30 then n else physPlane s tk n
    if (if bitAt w 30 then 1408 else 1344) ≤ n then s
    else
      let d := descOf s (planeKey tk p)
      let ok : Bool := d.state = 1 || d.state = 2 || (bitAt w 30 && (d.state = 3 || d.state = 4))
      if !ok then s
      else if descGood d = false then rejectDescriptor s (planeKey tk p)
      else engage s ck tile p true

/-! ## FENCE_UNIT and TEST_RUN -/

/-- The physical unit an address word names. -/
def namedUnit (s : State) (w : Nat) : Option UnitId :=
  let a := addrDecode w
  if a.phys then some a.unit else physUnit s a.unit

/-- A tile takes its core with it (R22), so RESULT0 names the core. -/
def movedUnit : UnitId → UnitId
  | .tile s g c _ => .core s g c
  | u => u

def fenceUnitCmd (h : Hdr) (w : Nat) (s : State) : State :=
  match namedUnit s w with
  | none => replyOk s h 0 0
  | some u =>
    let l := logicalWordOf s (movedUnit u)
    if unitFenced s u then replyOk s h l 0 else replyOk (fenceFor s u .host 0) h l 0

/-- The physical core of a unit at core level. -/
def coreOfUnit : UnitId → Option Nat
  | .core s g c => some (coreKey s g c)
  | _ => none

def testRunOp (h : Hdr) (w : Nat) (s : State) : State :=
  match (namedUnit s w).bind coreOfUnit with
  | none => reply s h .addressInvalid
  | some ck => setWait (wantBoundary (testOverdueNow s ck)) h.fn h.seq (.test ck)

/-! ## Rows -/

def execIdentify (h : Hdr) (resultAddr : Nat) (t : Nat) (s : State) : Host.Outcome State Fault Refusal :=
  runCmd h (.identify resultAddr) t s (identifyOp h resultAddr)

def execNegotiate (h : Hdr) (level : Nat) (t : Nat) (s : State) : Host.Outcome State Fault Refusal :=
  runCmd h (.negotiate level) t s (negotiateOp h level)

def execFenceReportGet (h : Hdr) (resultAddr maxBytes : Nat) (t : Nat) (s : State) : Host.Outcome State Fault Refusal :=
  runCmd h (.fenceReportGet resultAddr maxBytes) t s (reportGetOp h resultAddr maxBytes)

def execOptionSet (h : Hdr) (entries : List OptEntry) (t : Nat) (s : State) : Host.Outcome State Fault Refusal :=
  runCmd h (.optionSet entries) t s (optionSetOp h entries)

def execPowerSet (h : Hdr) (budget : Nat) (t : Nat) (s : State) : Host.Outcome State Fault Refusal :=
  runCmd h (.powerSet budget) t s (powerSetOp h budget)

def execResetWarm (h : Hdr) (key : Nat) (t : Nat) (s : State) : Host.Outcome State Fault Refusal :=
  runCmd h (.resetWarm key) t s (resetWarmOp h)

def execProofEnter (h : Hdr) (t : Nat) (s : State) : Host.Outcome State Fault Refusal :=
  runCmd h .proofEnter t s (proofEnterOp h)

def execProofLeave (h : Hdr) (t : Nat) (s : State) : Host.Outcome State Fault Refusal :=
  runCmd h .proofLeave t s (proofLeaveOp h)

def execTileEngage (core tile : Nat) (value : W32) (t : Nat) (s : State) : Host.Outcome State Fault Refusal :=
  onCore core tile (tileEngageOp (advance t s) core tile value.toNat)

def execFenceUnit (h : Hdr) (addr : Nat) (t : Nat) (s : State) : Host.Outcome State Fault Refusal :=
  runCmd h (.fenceUnit addr) t s (fenceUnitCmd h addr)

def execTestRun (h : Hdr) (addr : Nat) (t : Nat) (s : State) : Host.Outcome State Fault Refusal :=
  runCmd h (.testRun addr) t s (testRunOp h addr)

end Sys2Proof.Machine
end

