-- ==== Sys2Proof/Machine/Kv.lean ====
section
/-! DEFINITION. Key/value pages of 10_attention_and_kv: the pool and its halves (R299, R334), placement (R297), page sets
(R292-R296), victims (R300), drops (R301), page claims (R332, R333), freeing (R305). -/

namespace Sys2Proof.Machine

/-! ## Halves and free sheets -/

/-- Sheets of every partition but the page pool (R334): 720 MiB, four of 16 GiB, 4 GiB. -/
def partitionSheets : Nat := 18010112

def halvesLeft (gone : List Nat) : List Nat := (List.range 40).filter (· ∉ gone)

/-- A half's part of the partitions: they are spread over the halves that remain (R334). -/
def partShare (gone : List Nat) (h : Nat) : Nat :=
  let l := halvesLeft gone
  if l = [] then Config.halfSheets
  else partitionSheets / l.length + (if l.idxOf h < partitionSheets % l.length then 1 else 0)

/-- Pool sheets of a half, numbered from its first sheet. -/
def halfPool (gone : List Nat) (h : Nat) : Nat := if h ∈ gone then 0 else Config.halfSheets - partShare gone h

/-- MOD_KV_POOL: the pool loses a withdrawn half at the boundary of the map change (R25, R303, R332). -/
def goneHalves (s : State) : List Nat := (s.map.snap.map (·.withdrawn)).getD []

def kvPool (s : State) : Nat := sumNat ((List.range 40).map (halfPool (goneHalves s)))

/-- Sheets retired for good (R364), as they lie in flash. -/
def retiredSheets (s : State) : List Nat := (newest s.nv.retired).getD []

def retiredIn (s : State) (h : Nat) : List Nat :=
  ((retiredSheets s).filter (fun x => x / Config.halfSheets == h)).map (· % Config.halfSheets)

/-- Allocated runs of a half: (first, length, tenant) in rising order. -/
def runsOf (kv : KvBlk) (h : Nat) : List (Nat × Nat × Nat) := tget [] kv.alloc h

def heldIn (kv : KvBlk) (h : Nat) : Nat := sumNat ((runsOf kv h).map (fun r => r.2.1))

/-- A sheet of a half lies in an allocated run. -/
def inRun (kv : KvBlk) (h x : Nat) : Bool := (runsOf kv h).any (fun r => r.1 ≤ x && x < r.1 + r.2.1)

/-- Free sheets of a half; a retired sheet that is still held counts once. -/
def freeIn (s : State) (kv : KvBlk) (h : Nat) : Nat :=
  halfPool s.map.withdrawn h - heldIn kv h - ((retiredIn s h).filter (fun x => decide (x < halfPool s.map.withdrawn h) && !inRun kv h x)).length

def kvFree (s : State) : Nat := sumNat ((List.range 40).map (freeIn s s.kv))

/-- Sheets a tenant holds (R299). -/
def tenantSheets (kv : KvBlk) (t : Nat) : Nat :=
  sumNat (kv.alloc.flatMap (fun e => (e.2.filter (fun r => r.2.2 == t)).map (fun r => r.2.1)))

/-! ## Placement (R297) -/

/-- Lowest start of `n` free sheets before `limit`, over taken runs (first, length) in rising order. -/
def lowestRun (limit n : Nat) : Nat → List (Nat × Nat) → Option Nat
  | cur, [] => if cur + n ≤ limit then some cur else none
  | cur, (f, l) :: r => if cur + n ≤ f then (if cur + n ≤ limit then some cur else none) else lowestRun limit n (max cur (f + l)) r

def takenRuns (s : State) (kv : KvBlk) (h : Nat) : List (Nat × Nat) :=
  sortBy (·.1) ((runsOf kv h).map (fun r => (r.1, r.2.1)) ++ (retiredIn s h).map (fun x => (x, 1)))

def insertRun (r : Nat × Nat × Nat) : List (Nat × Nat × Nat) → List (Nat × Nat × Nat)
  | [] => [r]
  | x :: xs => if r.1 ≤ x.1 then r :: x :: xs else x :: insertRun r xs

/-- Take the lowest free run of a half. The answer is a sheet number of the module. -/
def placeIn (s : State) (kv : KvBlk) (h n t : Nat) : Option (KvBlk × Nat) :=
  match lowestRun (halfPool s.map.withdrawn h) n 0 (takenRuns s kv h) with
  | none => none
  | some f => some ({ kv with alloc := tset [] kv.alloc h (insertRun (f, n, t) (runsOf kv h)) }, Config.halfSheets * h + f)

/-- Halves by falling number of free sheets, equal ones by number. -/
def halvesByFree (s : State) (kv : KvBlk) : List Nat :=
  sortBy (fun h => Config.halfSheets - freeIn s kv h) (halvesLeft s.map.withdrawn)

/-- The half with the most free sheets that has room. -/
def placeAny (s : State) (kv : KvBlk) (n t : Nat) : Option (KvBlk × Nat) := (halvesByFree s kv).findSome? (fun h => placeIn s kv h n t)

/-- The half of a logical region: that of its stack's base die (R12). -/
def homeHalf (s : State) (lrk : Nat) : Option Nat := physStack s (regionStack lrk)

/-- A page: in its home half, or in the half with the most free sheets, counted as remote (R297). -/
def placePage (s : State) (kv : KvBlk) (home : Option Nat) (n t : Nat) : Option (KvBlk × Nat) :=
  match home.bind (fun h => placeIn s kv h n t) with
  | some x => some x
  | none => match placeAny s kv n t with
    | some x => some ({ x.1 with remote := satAdd 32 x.1.remote 1 }, x.2)
    | none => none

/-- A page on another module comes out of the free count that module reported; before its first report it fits (R442, log entry 25). -/
def placeOther (kv : KvBlk) (m n : Nat) : Option KvBlk :=
  match tfind kv.others m with
  | none => some kv
  | some f => if n ≤ f then some { kv with others := tput kv.others m (f - n) } else none

/-- Zero bytes pad a page's last sheet (R294). -/
def padPage (kv : KvBlk) (first n bytes : Nat) : KvBlk :=
  { kv with hbm := kv.hbm.filter (fun c => !(4096 * first + bytes ≤ c.1 && c.1 < 4096 * (first + n))) }

/-- The check word of a sheet in the sheet check table: the CRC-32C of its plaintext (R294). -/
def checkWord (s : State) (sheet : Nat) : Nat := crc32c (mread s.kv.hbm (4096 * sheet) 4096)

/-- The page of one attention layer for a number of bytes: (first, length, half). -/
def placeHome (s : State) (kv : KvBlk) (a : AttnRec) (bytes t : Nat) : Option (KvBlk × (Nat × Nat × Nat)) :=
  let n := (bytes + 4095) / 4096
  if ownHome s a then
    (placePage s kv (homeHalf s (homeRegion a)) n t).map (fun x => (padPage x.1 x.2 n bytes, (x.2, n, x.2 / Config.halfSheets)))
  else
    let m := (addrDecode a.home).module
    (placeOther kv m n).map (fun k => (k, (0, n, 1000 + m)))

/-- Pages of a set: (first, length, half) per attention layer. -/
def placePages (s : State) (k t : Nat) : KvBlk → List AttnRec → Option (KvBlk × List (Nat × Nat × Nat))
  | kv, [] => some (kv, [])
  | kv, a :: r =>
    match placeHome s kv a (2 ^ k * rowBytes a) t with
    | none => none
    | some x => match placePages s k t x.1 r with
      | none => none
      | some y => some (y.1, x.2 :: y.2)

/-- Free a run that starts at a sheet number. -/
def freeRun (kv : KvBlk) (first : Nat) : KvBlk :=
  let h := first / Config.halfSheets
  { kv with alloc := tset [] kv.alloc h ((runsOf kv h).filter (fun r => r.1 != first % Config.halfSheets)) }

/-- Free one page. -/
def freePage (kv : KvBlk) (q : Nat × Nat × Nat) : KvBlk :=
  if 1000 ≤ q.2.2 then
    match tfind kv.others (q.2.2 - 1000) with
    | none => kv
    | some f => { kv with others := tput kv.others (q.2.2 - 1000) (f + q.2.1) }
  else freeRun kv q.1

def freeSet (kv : KvBlk) (p : PageSet) : KvBlk := freeRun (p.pages.foldl freePage kv) p.record

/-! ## Page sets of a request -/

def setsOf (r : Req) (draft : Bool) : List PageSet := r.sets.filter (fun p => p.draft == draft)

def covered (l : List PageSet) : Nat := sumNat (l.map (fun p => 2 ^ p.k))

/-- Permitted k, largest first (R292, R293). -/
def permittedK (s : State) (l : List PageSet) : List Nat :=
  if 512 ≤ l.length then [12]
  else
    let k := min (kMax s) (max 4 (Nat.log2 (covered l / 8)))
    (List.range (k - 3)).map (fun i => k - i)

/-- One set of a given k with its record, and the set table when the forme's first set is taken (R293-R297). -/
def placeSet (s : State) (kv : KvBlk) (r : Req) (img : FormeImage) (draft : Bool) (k : Nat) : Option (KvBlk × Req) :=
  let ti := b2n draft
  let tbl : Option (KvBlk × Tbl Nat) := match tfind r.tables ti with
    | some _ => some (kv, r.tables)
    | none => (placeAny s kv 2 r.tenant).map (fun x => (x.1, tput r.tables ti x.2))
  match tbl with
  | none => none
  | some (kv1, tables) =>
    match placeAny s kv1 1 r.tenant with
    | none => none
    | some (kv2, rec) =>
      match placePages s k r.tenant kv2 img.attn with
      | none => none
      | some (kv3, pages) =>
        some (kv3, { r with tables := tables, sets := r.sets ++
          [{ k := k, fmts := img.attn.map (fun a => (a.keyFmt, a.valFmt)), fill := 0, record := rec, pages := pages, draft := draft }] })

def placeLargest (s : State) (kv : KvBlk) (r : Req) (img : FormeImage) (draft : Bool) (ks : List Nat) : Option (KvBlk × Req) :=
  ks.findSome? (placeSet s kv r img draft)

/-! ## Budget order and victims (R269, R300) -/

/-- Rank of a request for sacrifice: group, then a value rising within the group, then the last row's step, then the
latest submission (R269, R300). Deficits are made non-negative by an offset. -/
structure Rank where
  group : Nat
  num : Int
  den : Nat
  last : Nat
  order : Nat

def rankOf (s : State) (r : Req) : Rank :=
  let t := tenantOf s r.tenant
  if r.state = .stalled then ⟨0, 0, 1, r.last, r.order⟩
  else if r.p.web then ⟨3, -(r.p.dclass : Int), 1, r.last, r.order⟩
  else if t.deficit < 0 then ⟨1, t.deficit, 1, r.last, r.order⟩
  else ⟨2, t.deficit, max 1 (256 * t.cfg.burst), r.last, r.order⟩

/-- `a` ranks before `b` in budget order; `lru` breaks ties by least recent use first (R300). -/
def rankBefore (lru : Bool) (a b : Rank) : Bool :=
  let x := a.num * b.den
  let y := b.num * a.den
  a.group < b.group || (a.group == b.group && (x < y || (x == y &&
    (if lru then a.last < b.last || (a.last == b.last && b.order < a.order) else b.order < a.order))))

def insertRank (x : Nat × Rank) : List (Nat × Rank) → List (Nat × Rank)
  | [] => [x]
  | y :: r => if rankBefore true x.2 y.2 then x :: y :: r else y :: insertRank x r

/-- Effective page reserve of a tenant (R332). -/
def effReserve (s : State) (t : Nat) : Nat :=
  let sum := sumNat ((s.tenants.filter (fun e => e.2.enabled)).map (fun e => e.2.cfg.pageReserve))
  let p := (tenantOf s t).cfg.pageReserve
  if s.kv.reserveShort then (if sum = 0 then 0 else p * kvPool s / sum) else p

/-- The requester's tenant holds fewer sheets than its reserve (R300, rule 1). -/
def belowReserve (s : State) (r : Req) : Bool := tenantSheets s.kv r.tenant < effReserve s r.tenant

/-- A tenant holds more sheets than its reserve. -/
def overReserve (s : State) (t : Nat) : Bool := effReserve s t < tenantSheets s.kv t

/-- Victims of a requester in order (R300); requests with a row already are none, nor are claimants that have not used the sets they received
(R333). -/
def victimsOf (s : State) (rid : Nat) (r : Req) (placed : List Nat) : List Nat :=
  let cand := s.reqs.filter (fun e => e.1 != rid && e.1 ∉ placed && e.1 ∉ s.kv.claimed && e.2.sets != [])
  let below := belowReserve s r
  let spans : Bool := (formeOf s r.p.slot).any (fun f => f.image.system && f.image.attn.any (fun a => !ownHome s a))
  let cand := if spans then cand.filter (fun e => (formeOf s e.2.p.slot).any (·.image.system)) else cand
  let ok := cand.filter (fun e =>
    if below then overReserve s e.2.tenant
    else rankBefore false (rankOf s e.2) (rankOf s r))
  ((ok.map (fun e => (e.1, rankOf s e.2))).foldr insertRank []).map (·.1)

/-! ## Drops (R301) -/

/-- Positions that sets hold sealed. -/
def keptPositions (l : List PageSet) : Nat := sumNat (l.map (·.fill))

/-- The state of a request that has lost sets (R301): it keeps the positions that its remaining sets cover, those of the draft forme too when
some of them are lost. -/
def droppedState (s : State) (draftLost : Bool) (r : Req) : Req :=
  let low := if r.sets = [] then ReqState.queued else .prefill
  let attn : Bool := (formeOf s r.p.slot).any (fun f => f.image.attn != [])
  let main := if attn then min r.done (keptPositions (setsOf r false)) else r.done
  let kept := if draftLost then min main (keptPositions (setsOf r true)) else main
  let r1 := { r with done := kept, redo := if kept < r.done then max r.redo r.done else r.redo, cond := { r.cond with pagesDropped := true } }
  match r.state with
  | .stalled => { r1 with saved := low }
  | .restarting => r1
  | .held => { r1 with saved := low }
  | _ => { r1 with state := low }

/-- A request loses its sets from the n-th on, of whichever forme, in the order in which it took them (R301-R303). -/
def loseSets (s : State) (r : Req) (n : Nat) : KvBlk × Req :=
  let gone := r.sets.drop n
  ({ gone.foldl freeSet s.kv with drops := satAdd 32 s.kv.drops gone.length },
   droppedState s (gone.any (·.draft)) { r with sets := r.sets.take n })

def dropFrom (s : State) (v n : Nat) : State :=
  match reqOf s v with
  | none => s
  | some r => if r.sets.drop n = [] then s else let x := loseSets s r n; setReq { s with kv := x.1 } v x.2

/-- Take the last set of a victim (R300). -/
def dropLast (s : State) (v : Nat) : State :=
  match reqOf s v with
  | none => s
  | some r => dropFrom s v (r.sets.length - 1)

/-- The same of a request whose row another module lists (R442). -/
def dropRemoteFrom (s : State) (rid n : Nat) : State :=
  match tfind s.ql.remote rid with
  | none => s
  | some r => if r.sets.drop n = [] then s else
      let x := loseSets s r n
      { s with kv := x.1, ql := { s.ql with remote := tput s.ql.remote rid x.2 } }

/-! ## Taking sets for positions -/

/-- Take victims' sets one at a time until a set fits (R293). Under rule 1 of R300 a victim's tenant keeps its reserve (R299). -/
def takeVictims (rid : Nat) (img : FormeImage) (draft below : Bool) (ks : List Nat) : Nat → List Nat → State → Option State
  | 0, _, _ => none
  | _, [], _ => none
  | fuel + 1, v :: vs, s =>
    if ((reqOf s v).map (·.sets)).getD [] = [] ∨ (below ∧ ((reqOf s v).any (fun q => overReserve s q.tenant)) = false) then
      takeVictims rid img draft below ks fuel vs s
    else
      let s1 := dropLast s v
      match reqOf s1 rid with
      | none => none
      | some r => match placeLargest s1 s1.kv r img draft ks with
        | some x => some (setReq { s1 with kv := x.1 } rid x.2)
        | none => takeVictims rid img draft below ks fuel (v :: vs) s1

/-- Sets until `need` positions are covered; none leaves the state to the caller (R292, R300). -/
def takeSets (rid : Nat) (img : FormeImage) (draft : Bool) (need : Nat) (placed : List Nat) : Nat → State → Option State
  | 0, _ => none
  | fuel + 1, s =>
    match reqOf s rid with
    | none => none
    | some r =>
      let l := setsOf r draft
      if img.attn = [] ∨ need ≤ covered l then some s
      else if 1024 ≤ l.length then none
      else
        let ks := permittedK s l
        match placeLargest s s.kv r img draft ks with
        | some x => takeSets rid img draft need placed fuel (setReq { s with kv := x.1 } rid x.2)
        | none =>
          if dropEn s then
            let total := sumNat (s.reqs.map (fun e => e.2.sets.length))
            match takeVictims rid img draft (belowReserve s r) ks (total + s.reqs.length + 1) (victimsOf s rid r placed) s with
            | some s1 => takeSets rid img draft need placed fuel s1
            | none => none
          else none

/-- PAGE_CAP holds once victims are freed (R299, R300); a row that takes nothing stays as it is. -/
def withinCap (s : State) (t : Nat) (u : State) : Option State :=
  let cap := (tenantOf s t).cfg.pageCap
  if cap ≠ 0 ∧ cap < tenantSheets u.kv t ∧ tenantSheets s.kv t < tenantSheets u.kv t then none else some u

/-- The pages of a row: of the main forme and, while it drafts, of the draft forme (R291). -/
def takePages (s : State) (rid n : Nat) (drafting : Bool) (placed : List Nat) : Option State :=
  match reqOf s rid with
  | none => none
  | some r => match formeOf s r.p.slot with
    | none => none
    | some f =>
      match takeSets rid f.image false (r.done + n) placed 1025 s with
      | none => none
      | some s1 =>
        if drafting then
          match formeOf s f.image.sched.draftSlot with
          | some d => (takeSets rid d.image true (r.done + n) placed 1025 s1).bind (withinCap s r.tenant)
          | none => withinCap s r.tenant s1
        else withinCap s r.tenant s1

/-! ## Fill marks (R290, R291) -/

/-- Set the fill marks of a forme's sets so that together they hold `n` sealed positions; the sets stay in the order in which they were taken. -/
def fillTo (draft : Bool) : Nat → List PageSet → List PageSet
  | _, [] => []
  | n, p :: r => if p.draft == draft then { p with fill := min n (2 ^ p.k) } :: fillTo draft (n - 2 ^ p.k) r else p :: fillTo draft n r

def setFill (r : Req) (draft : Bool) (n : Nat) : Req := { r with sets := fillTo draft n r.sets }

/-- Released positions that the draft has not processed: those beyond the fill mark of its sets (R291). A draft forme without attention has no
mark and needs none of them. -/
def draftGap (d : FormeImage) (r : Req) : Nat := if d.attn = [] then 0 else r.done - keptPositions (setsOf r true)

/-! ## Halves that a map change withdraws (R303) -/

/-- A set touches a half. -/
def touchesHalf (halves : List Nat) (p : PageSet) : Bool :=
  p.record / Config.halfSheets ∈ halves || p.pages.any (fun q => q.2.2 ∈ halves)

/-- A request needs a half that a fence has withdrawn, before the boundary of the map change (R17, R303). -/
def needsHalf (s : State) (r : Req) : Bool :=
  let halves := s.map.withdrawn.filter (· ∉ goneHalves s)
  halves != [] && (r.sets.any (touchesHalf halves) || r.tables.any (fun e => e.2 / Config.halfSheets ∈ halves))

/-! ## Freeing (R305, R386) -/

/-- Sheets (first, length) of a request's pages, set records and set tables. -/
def heldRuns (r : Req) : List (Nat × Nat) :=
  r.sets.flatMap (fun p => (p.record, 1) :: (p.pages.filter (fun q => q.2.2 < 1000)).map (fun q => (q.1, q.2.1))) ++ r.tables.map (fun e => (e.2, 2))

def freePages (kv : KvBlk) (r : Req) : KvBlk := r.tables.foldl (fun k (e : Nat × Nat) => freeRun k e.2) (r.sets.foldl freeSet kv)

/-! ## Set tables and set records as they lie in HBM (R295, R296) -/

/-- A set table entry. Its KEY_FMT and VAL_FMT are those of the forme's first attention layer (log entry 50). -/
def setEntry (p : PageSet) : Nat :=
  let f := p.fmts.getD 0 (8, 8)
  2 ^ 63 + p.k * 2 ^ 59 + f.1 * 2 ^ 55 + f.2 * 2 ^ 51 + p.fill * 2 ^ 38 + p.record

/-- Bytes of a set record. -/
def setRecord (p : PageSet) : List Byte := leBytes 8 0 ++ p.pages.flatMap (fun q => leBytes 4 (q.1 % 2 ^ 28))

/-! ## The page walk (R298) -/

/-- Formats of a layer's rows in a set. -/
def setFmt (p : PageSet) (layer : Nat) : Nat × Nat := p.fmts.getD layer (8, 8)

/-- HBM address of row i of a layer's page; none when the page lies on another module. -/
def rowAddr (a : AttnRec) (layer : Nat) (p : PageSet) (i : Nat) : Option Nat :=
  let page := p.pages.getD layer (0, 0, 0)
  if 1000 ≤ page.2.2 then none else some (4096 * page.1 + i * rowBytesAs a (setFmt p layer).1 (setFmt p layer).2)

/-- The set that covers a position, and the position's row in it (R289). -/
def coverSet (pos : Nat) : Nat → List PageSet → Option (PageSet × Nat)
  | _, [] => none
  | base, p :: r => if pos < base + 2 ^ p.k then some (p, pos - base) else coverSet pos (base + 2 ^ p.k) r

/-- The visible positions of a query (R286): first and one past last. -/
def visible (a : AttnRec) (p : Nat) : Nat × Nat :=
  match a.mask with
  | 0 => (0, p + 1)
  | 1 => (0, p)
  | 2 => (p + 1 - a.window, p + 1)
  | _ => (p - a.window, p)

/-- Sheets of a layer's pages that hold sealed rows of a range. -/
def walkSheets (a : AttnRec) (layer lo hi : Nat) : Nat → List PageSet → List Nat
  | _, [] => []
  | base, p :: r =>
    let here := if base + p.fill > lo ∧ base < hi then
        let r0 := max lo base - base
        let r1 := min p.fill (hi - base)
        let page := p.pages.getD layer (0, 0, 0)
        ((List.range (if 1000 ≤ page.2.2 then 0 else page.2.1)).filter (fun i =>
          r0 * rowBytesAs a (setFmt p layer).1 (setFmt p layer).2 < 4096 * (i + 1)
            && 4096 * i < r1 * rowBytesAs a (setFmt p layer).1 (setFmt p layer).2)).map (fun i => page.1 + i)
      else []
    here ++ walkSheets a layer lo hi (base + 2 ^ p.k) r

end Sys2Proof.Machine
end

