-- ==== Sys2Proof/Machine/Web.lean ====
section
/-! DEFINITION. Web streams of 11_web_streams: the slot grid (R311, R319), frames (R308, R312), fills and groups (R315-R321),
opening and closing (R309, R323). -/

namespace Sys2Proof.Machine

/-! ## The grid -/

/-- t_n of a channel (R311). -/
def slotAt (t0 cadence n : Nat) : Nat := t0 + n * 1000000000 / cadence

def slotTime (c : Channel) (n : Nat) : Nat := slotAt c.t0 c.p.cadence n

/-- First slot number at or after a time. -/
def firstSlot (t0 cadence x : Nat) : Nat :=
  let n := (x - t0) * cadence / 1000000000
  if x ≤ slotAt t0 cadence n then n else if x ≤ slotAt t0 cadence (n + 1) then n + 1 else n + 2

def channelsMax : Nat := 4096

/-- Bytes of a frame and its stride in the destination (R308, R309). -/
def frameBytes (g : Nat) : Nat := 16 + 4 * g
def frameStride (g : Nat) : Nat := (frameBytes g + 63) / 64 * 64

/-- Open members of a group. -/
def groupMembers (s : State) (g : Nat) : List (Nat × Channel) := s.web.channels.filter (fun e => e.2.p.group == g && g != 0xFFFF)

/-! ## Requests that a channel ends (R315, R323) -/

/-- The step whose boundary comes next. -/
def nextBoundary (s : State) : Nat := ((s.sched.step.map (·.number)).getD s.sched.nextStep)

/-- The first step whose seal begins after a command taken at an instant (R260, R276). -/
def endFrom (s : State) (taken : Nat) : Nat :=
  match s.sched.step with
  | some k => if k.sealing && k.sealBegan ≤ taken then k.number + 1 else k.number
  | none => s.sched.nextStep

/-- Ask for the end of a request at the boundary of a step. -/
def markEndAt (s : State) (rid : Nat) (st : Status) (n : Nat) : State :=
  setSched (modReq s rid (fun r => { r with endAs := addOnce r.endAs (st, n) })) (fun c => { c with wantBoundary := true })

/-- Ask for the end of a request at the next boundary (R218, R315, R323). -/
def markEnd (s : State) (rid : Nat) (st : Status) : State := markEndAt s rid st (nextBoundary s)

/-! ## Writing frames (R308, R312) -/

def frameBody (slot kind flags g data : Nat) (tokens : List Nat) (crc : Nat) : List Byte :=
  leBytes 4 slot ++ leBytes 1 kind ++ leBytes 1 flags ++ leBytes 2 g ++ leBytes 4 data ++ leBytes 4 crc
    ++ (List.range g).flatMap (fun i => leBytes 4 (tokens.getD i 0))

/-- A frame with its CRC-32C. -/
def frameOf (slot kind flags g data : Nat) (tokens : List Nat) : List Byte :=
  frameBody slot kind flags g data tokens (crc32c (frameBody slot kind flags g data tokens 0))

/-- Write the frame of the channel's next slot and move to the slot after it. -/
def writeFrame (s : State) (w : Nat) (c : Channel) (kind flags : Nat) (tokens : List Nat) : State :=
  let stride := frameStride c.g
  let addr := c.p.destAddr + c.slot % (c.p.destBytes / stride) * stride
  setChan (hostWrite s c.fn addr (frameOf c.slot kind flags c.g c.data tokens)) w { c with slot := c.slot + 1 }

/-- The queue's head leaves as a data frame (R315). -/
def writeData (s : State) (w : Nat) (c : Channel) : State :=
  match c.queue with
  | [] => s
  | (tokens, after) :: q =>
    let s1 := writeFrame s w c 0 (2 * b2n after) tokens
    modChan s1 w (fun x => { x with queue := q, data := x.data + 1, run := 0, filling := false, lastTokens := tokens })

/-- A closed channel leaves the table (R323). -/
def closeChan (s : State) (w : Nat) : State := { s with web := { s.web with channels := tdel s.web.channels w } }

/-- An end frame, the close, and the end of the bound request (R315, R323). The end frame of FILL 2 counts as a fill frame; a request that
ends as under FILL 2 carries FILL_EMITTED (R317, R320). -/
def endFrame (s : State) (w : Nat) (c : Channel) (st : Status) (asFill : Bool) : State :=
  let s1 := writeFrame s w c 3 0 []
  let s2 := match c.bound with
    | some rid => markEnd (modReq s1 rid (fun r => { r with fillSeen := r.fillSeen || st = .deadlineExpired })) rid st
    | none => s1
  closeChan (if asFill then { s2 with web := { s2.web with fillCount := satAdd 32 s2.web.fillCount 1 } } else s2) w

/-- A fill frame under the channel's policy (R315); a channel at its FILL_LIMIT ends instead (R317). -/
def fillFrame (s : State) (w : Nat) (c : Channel) (forced : Bool) : State :=
  if fillLimit s ≠ 0 ∧ fillLimit s ≤ c.run then endFrame s w c .deadlineExpired false
  else if c.p.fill = 2 then endFrame s w c .deadlineExpired true
  else
    let silence := c.silence.getD (List.replicate c.g 0)
    let kind := if c.p.fill = 0 then 1 else 2
    let tokens := if c.p.fill = 0 then (if c.data = 0 then silence else c.lastTokens) else silence
    let s1 := writeFrame s w c kind (b2n forced) tokens
    let s2 := modChan s1 w (fun x => { x with fills := satAdd 32 x.fills 1, run := x.run + 1, filling := true })
    let s3 := { s2 with web := { s2.web with fillCount := satAdd 32 s2.web.fillCount 1 } }
    match c.bound with
    | some rid => modReq s3 rid (fun r => { r with fillSeen := true })
    | none => s3

/-- A channel that WEB_CLOSE MODE 0 closes: the end frame, and the reply (R323). -/
def closeNow (s : State) (w : Nat) (c : Channel) : State :=
  let s1 := endFrame s w c .cancelled false
  let reps := s1.cmdq.filter (fun e => e.wait == .webClose w)
  reps.foldl (fun x e => finish x e.hdr.fn e.hdr.seq .ok {} c.data c.fills) s1

/-- A live channel (R313); one that closes at its next slot no longer counts, since only that member closes (R323). -/
def chanLive (c : Channel) : Bool := !c.closing && (c.bound.isSome || c.queue != [])

/-- One channel without a group at its slot. -/
def slotAlone (s : State) (w : Nat) (c : Channel) : State :=
  if c.closing then closeNow s w c
  else if c.queue != [] then writeData s w c
  else fillFrame s w c false

/-- One member at a group slot: data when every live member holds a frame, else a fill (R320). -/
def slotMember (ready : Bool) (s : State) (e : Nat × Channel) : State :=
  match chanOf s e.1 with
  | none => s
  | some c =>
    if c.closing then closeNow s e.1 c
    else if ready && c.queue != [] then writeData s e.1 c
    else fillFrame s e.1 c (c.queue != [])

/-- A member that must fill under FILL 2 ends the whole group. -/
def groupEnds (ready : Bool) (l : List (Nat × Channel)) : Bool :=
  l.any (fun e => !e.2.closing && e.2.p.fill == 2 && !(ready && e.2.queue != []))

/-- WEB_SLOT: the channel's slot, with its group's members at the same slot (R315, R320). -/
def webSlotOp (s : State) (w : Nat) : State :=
  match chanOf s w with
  | none => s
  | some c =>
    if now s < slotTime c c.slot then s
    else if c.p.group = 0xFFFF then slotAlone s w c
    else
      let all := groupMembers s c.p.group
      let l := all.filter (fun e => e.2.slot == c.slot)
      let ready := (all.filter (fun e => chanLive e.2)).all (fun e => e.2.queue != [])
      if groupEnds ready l then
        all.foldl (fun x e => match chanOf x e.1 with
          | some d => if d.closing then closeNow x e.1 d else endFrame x e.1 d .deadlineExpired (d.p.fill == 2)
          | none => x) s
      else l.foldl (slotMember ready) s

/-! ## From steps to frames (R313, R314) -/

/-- Append released positions to the channel of a request. -/
def queueFrames (s : State) (w g : Nat) : List (List Nat) → State
  | [] => s
  | x :: xs =>
    queueFrames (modChan s w (fun c => { c with queue := c.queue ++ [(x, c.restarted)], restarted := false })) w g xs

/-- The earliest frame slot of a bound request (R314), as a time. -/
def earliestSlot (s : State) (c : Channel) : Nat := slotTime c (max c.slot (firstSlot c.t0 c.p.cadence (now s + 1)) + c.queue.length)

/-- Room for the frames that the next row would release (R314). -/
def webRoom (s : State) (c : Channel) (frames : Nat) : Bool := frames ≤ queueMax s - c.queue.length

/-! ## Opening (R309) -/

def webG (p : WebParams) : Nat := (p.frameBytes - 16) / 4

/-- Two channels can share a group's grid (R309, R318). -/
def sameGrid (p q : WebParams) : Bool := p.cadence == q.cadence && p.dclass == q.dclass

def webOpenStatus (s : State) (p : WebParams) : Option Status :=
  let g := webG p
  if channelsMax ≤ p.channel then some .paramInvalid
  else if (chanOf s p.channel).isSome then some .channelBusy
  else if p.frameBytes = 16 + 4 * g ∧ 1 ≤ g ∧ g ≤ 64 ∧ aligned 64 p.silenceAddr ∧ (p.fill ≠ 1 ∨ p.silenceAddr ≠ 0)
      ∧ (p.group = 0xFFFF ∨ (p.channel ∈ tget [] s.web.groups p.group ∧ (groupMembers s p.group).all (fun e => sameGrid p e.2.p)))
      ∧ aligned 64 p.destAddr ∧ p.destBytes % frameStride g = 0 ∧ 4 * frameStride g ≤ p.destBytes ∧ p.destBytes ≤ 2 ^ 30 then none
  else some .paramInvalid

/-- The channel opens at the acceptance time (R311, R319). -/
def openChannel (s : State) (fn tenant : Nat) (p : WebParams) (silence : Option (List Nat)) : State × Nat :=
  let start := now s + 1000000 * startMs s
  let t0own := (start + 999) / 1000 * 1000
  let t0 := match (groupMembers s p.group).head? with
    | some e => e.2.t0
    | none => t0own
  let n := if groupMembers s p.group = [] then 0 else firstSlot t0 p.cadence start
  let c : Channel := { tenant := tenant, fn := fn, p := p, g := webG p, t0 := t0, slot := n, queue := [], data := 0, fills := 0,
                       run := 0, filling := false, lastTokens := [], silence := silence, bound := none, closing := false,
                       restarted := false }
  (setChan s p.channel c, slotAt t0 p.cadence n)

/-- The tenant that owns what a command opens (R233, R474). -/
def ownerOf (h : Hdr) : Nat := (hdrTenant h).getD 0

def tenantEnabled (s : State) (n : Nat) : Bool := (tenantOf s n).enabled && tenantSlot s n == 1

def webOpenOp (h : Hdr) (p : WebParams) (s : State) : State :=
  if !tenantEnabled s (ownerOf h) then reply s h .tenantInvalid
  else match webOpenStatus s p with
  | some st => reply s h st
  | none =>
    if p.silenceAddr = 0 then
      let x := openChannel s h.fn (ownerOf h) p none
      replyOk x.1 h x.2 0
    else setWait (emit s (.hostRead h.fn p.silenceAddr (4 * webG p))) h.fn h.seq .hostRead

/-- The silence payload has been read (R309, R247); a frame carries its tokens in bits [23:0] (R308). -/
def webOpenRead (h : Hdr) (p : WebParams) (words : List Nat) (s : State) : State :=
  if !tenantEnabled s (ownerOf h) then reply s h .tenantInvalid
  else match webOpenStatus s p with
  | some st => reply s h st
  | none =>
    let x := openChannel s h.fn (ownerOf h) p (some (words.map (· % 2 ^ 24)))
    replyOk x.1 h x.2 0

/-! ## Closing (R323) -/

/-- The channel lies in the scope of R474. -/
def webScope (h : Hdr) (c : Channel) : Bool := match hdrTenant h with
  | some t => c.tenant == t
  | none => true

def cancelBound (s : State) (c : Channel) : State := match c.bound with
  | some rid => markEnd s rid .cancelled
  | none => s

def webCloseOp (h : Hdr) (w mode : Nat) (s : State) : State :=
  match chanOf s w with
  | none => reply s h .paramInvalid
  | some c =>
    if !webScope h c then reply s h .paramInvalid
    else if mode = 1 then
      let s1 := endFrame s w { c with queue := [] } .cancelled false
      replyOk s1 h c.data c.fills
    else setWait (setChan (cancelBound s c) w { c with queue := [], closing := true }) h.fn h.seq (.webClose w)

/-- Close every channel that satisfies a test with an end frame now (R324, R410). -/
def closeChannels (s : State) (p : Channel → Bool) : State :=
  (s.web.channels.filter (fun e => p e.2)).foldl (fun x e => match chanOf x e.1 with
    | some c => closeNow x e.1 { c with queue := [] }
    | none => x) s

/-! ## Groups (R318) -/

def dissolves (ms : List Nat) : Bool := ms == [0xFFFF]

/-- The groups as they will be after the open transaction of the stream group domain. -/
def groupsAfter (s : State) : Tbl (List Nat) :=
  (stagedOf s 2).foldl (fun m c => match c with
    | .group g ms => tset [] m g (if dissolves ms then [] else ms)
    | _ => m) s.web.groups

/-- A channel belongs to another group, committed or staged. -/
def inOtherGroup (s : State) (g w : Nat) : Bool := (groupsAfter s).any (fun e => e.1 != g && w ∈ e.2)

def webGroupOp (h : Hdr) (g : Nat) (ms : List Nat) (s : State) : State :=
  if g < 1024 ∧ (dissolves ms ∨ (ms.all (· < channelsMax) ∧ ms.Nodup)) then
    if ms.any (inOtherGroup s g) then reply s h .channelBusy
    else replyOk (stage s 2 (.group g ms)) h 0 0
  else reply s h .paramInvalid

/-- A staged group can lock up: its open members agree in cadence, class and T0. -/
def groupStatus (s : State) : Staged → Option Status
  | .group _ ms =>
    let l := ms.filterMap (chanOf s)
    match l with
    | [] => none
    | c :: r => if r.all (fun d => sameGrid c.p d.p && c.t0 == d.t0) then none else some .paramInvalid
  | _ => none

/-- Lock-up of a group: members take it, former members leave it, and a dissolved group's members go on ungrouped. -/
def applyGroup (s : State) (g : Nat) (ms : List Nat) : State :=
  let members := if dissolves ms then [] else ms
  { s with web := { s.web with
      groups := tset [] s.web.groups g members,
      channels := s.web.channels.map (fun e =>
        if e.1 ∈ members then (e.1, { e.2 with p := { e.2.p with group := g } })
        else if e.2.p.group = g then (e.1, { e.2 with p := { e.2.p with group := 0xFFFF } })
        else e) } }

/-! ## Rows -/

def execWebOpen (h : Hdr) (p : WebParams) (t : Nat) (s : State) : Host.Outcome State Fault Refusal :=
  runCmd h (.webOpen p) t s (webOpenOp h p)

def execWebClose (h : Hdr) (channel mode : Nat) (t : Nat) (s : State) : Host.Outcome State Fault Refusal :=
  runCmd h (.webClose channel mode) t s (webCloseOp h channel mode)

def execWebGroup (h : Hdr) (group : Nat) (members : List Nat) (t : Nat) (s : State) : Host.Outcome State Fault Refusal :=
  runCmd h (.webGroup group members) t s (webGroupOp h group members)

def execWebSlot (channel : Nat) (t : Nat) (s : State) : Host.Outcome State Fault Refusal :=
  if channel < channelsMax then .next (webSlotOp (advance t s) channel) else .fault .noSuchUnit

end Sys2Proof.Machine
end

