-- ==== Sys2Proof/Machine/Requests.lean ====
section
/-! DEFINITION. Requests of 09_requests_and_steps: admission (R255, R256, R335), step records and result rings (R279, R280),
ends (R276-R278), restarts (R359-R362), what a clean row changes (R272, R275, R290). -/

namespace Sys2Proof.Machine

/-! ## Identifiers and shares (R254, R256) -/

def genOf (s : State) (i : Nat) : Nat := tget 0 s.gens i

def ridOf (s : State) (i : Nat) : Nat := i + 65536 * (genOf s i % 65536)

def tableMax : Nat := 65536

/-- Lowest free table index. -/
def freeIndex : Nat → Tbl Req → Nat
  | n, [] => n
  | n, (k, _) :: r => if n = k then freeIndex (n + 1) r else n

/-- REQ_SUBMITs whose prompt is being read, each with its tenant: they hold their table entry and their history from the check on (R255, R335). -/
def submitsReading (s : State) : List (Nat × ReqParams) := s.cmdq.filterMap (fun e => match e.wait, e.par with
  | .hostRead, .reqSubmit p => some (ownerOf e.hdr, p)
  | _, _ => none)

/-- Table entries in use or reserved. -/
def tableUsed (s : State) : Nat := s.reqs.length + (submitsReading s).length

/-- A tenant's table entries, those reserved for it counted. -/
def tenantReqs (s : State) (t : Nat) : Nat :=
  (s.reqs.filter (fun e => e.2.tenant == t)).length + ((submitsReading s).filter (fun x => x.1 == t)).length

/-- Entries set aside for the reserves of enabled tenants but one (R256). -/
def reservedOthers (s : State) (t : Nat) : Nat :=
  sumNat ((s.tenants.filter (fun e => e.1 != t && e.2.enabled)).map (fun e => e.2.cfg.reqReserve - tenantReqs s e.1))

/-- A further entry is within the tenant's share. -/
def shareOk (s : State) (t : Nat) : Bool :=
  let c := (tenantOf s t).cfg
  let n := tenantReqs s t
  tableUsed s < tableMax && (c.reqCap = 0 || n < c.reqCap)
    && (n < c.reqReserve || tableUsed s + reservedOthers s t < tableMax)

def historyMax : Nat := 4194304

/-- Sheets of token history of a request (R335). -/
def historySheets (p : ReqParams) : Nat := ((p.promptTokens + p.maxTokens) * 4 + 4095) / 4096

def historyHeld (s : State) : Nat :=
  sumNat (s.reqs.map (fun e => e.2.historySheets)) + sumNat ((submitsReading s).map (fun x => historySheets x.2))

/-- History kept back for the reserves of the other tenants (R335). -/
def keptBack (s : State) (t : Nat) : Nat := 64 * reservedOthers s t

/-! ## Admission (R255) -/

def tokenRanges (p : ReqParams) : Bool :=
  1 ≤ p.maxTokens && fpLe (.fin false 0 0) (f32 p.temperature) && fpLe (f32 p.temperature) (.fin false 16 0) && p.topK ≤ 64
    && fpLt (.fin false 0 0) (f32 p.topP) && fpLe (f32 p.topP) (.fin false 1 0)
    && fpLe (.fin false 1 0) (f32 p.repPenalty) && fpLe (f32 p.repPenalty) (.fin false 4 0)

def scoreZero (p : ReqParams) : Bool :=
  p.maxTokens == 0 && p.temperature == 0 && p.topK == 0 && p.topP == 0 && p.repPenalty == 0 && !p.speculate

def positionsMax : Nat := 2097152

/-- The draft forme in effect for a forme (R214, R304). -/
def draftForme (s : State) (img : FormeImage) : Option Forme :=
  if img.sched.draftSlot = 0xFF then none
  else (formeOf s img.sched.draftSlot).bind (fun d => if d.image.draft then some d else none)

/-- The WEB row of R255 with the checks of R310. -/
def webStatus (s : State) (p : ReqParams) (tenant : Nat) (img : FormeImage) : Option Status :=
  if p.web then
    match chanOf s p.channel with
    | none => some .paramInvalid
    | some c =>
      if c.tenant ≠ tenant ∨ c.closing ∨ c.p.dclass ≠ p.dclass then some .paramInvalid
      else if img.sched.outputKind ≠ 0 ∨ formeG img ≠ c.g then some .paramInvalid
      else if c.bound.isSome then some .channelBusy
      else none
  else if p.channel = 0 ∧ p.dclass = 0 then none else some .paramInvalid

/-- The checks of R255 before that of the table, in order. -/
def submitBad (s : State) (p : ReqParams) (tenant : Nat) (confDone : Bool) : Option Status :=
  if !tenantEnabled s tenant then some .tenantInvalid
  else if !confDone then some .calRequired
  else match formeOf s p.slot with
  | none => some .formeInvalid
  | some f =>
    let img := f.image
    let g := formeG img
    if img.system && 2 ≤ sysRole s then some .formeInvalid
    else if formeIncomplete s img then some .plateIncomplete
    else if !(1 ≤ p.promptTokens / g && p.promptTokens % g == 0 && p.maxTokens % g == 0
        && p.promptTokens / g + p.maxTokens / g ≤ positionsMax) then some .paramInvalid
    else if !(if img.sched.outputKind = 0 then tokenRanges p else scoreZero p) then some .paramInvalid
    else if p.speculate && (draftForme s img).isNone then some .paramInvalid
    else match webStatus s p tenant img with
    | some st => some st
    | none =>
      if !(aligned 64 p.ringAddr && aligned 64 p.ringBytes && 4096 ≤ p.ringBytes && p.ringBytes ≤ 2 ^ 30) then some .paramInvalid
      else none

/-- The checks of R255 up to the prompt read: an entry and the history are free, and REQ_TABLE_FULL is answered here, at once (R343). -/
def submitStatus (s : State) (p : ReqParams) (tenant : Nat) (confDone : Bool) : Option Status :=
  match submitBad s p tenant confDone with
  | some st => some st
  | none =>
    if shareOk s tenant && historyHeld s + historySheets p + keptBack s tenant ≤ historyMax then none else some .reqTableFull

/-- CAL_SELF has completed since cold reset (R160). -/
def calDone (s : State) : Bool := s.rst.calDone

/-- REQ_SUBMIT up to the prompt read. -/
def submitOp (h : Hdr) (p : ReqParams) (s : State) : State :=
  match submitStatus s p (ownerOf h) (calDone s) with
  | some st => reply s h st
  | none => setWait (emit s (.hostRead h.fn p.promptAddr (4 * p.promptTokens))) h.fn h.seq .hostRead

/-- A pending flip that is accepted (R218). -/
def flipPending (s : State) : Bool := s.txns.plate.any (·.committing)

/-- A forme slot drains, or its draft forme does (R221). -/
def slotDraining (s : State) (slot : Nat) : Bool :=
  (formeOf s slot).any (fun f => f.draining || (draftForme s f.image).any (·.draining))

/-- A HELD request is admitted once neither a pending flip nor a drain holds it (R218, R221). -/
def releaseHeld (s : State) : State :=
  { s with reqs := s.reqs.map (fun e =>
      if e.2.state = .held ∧ !(e.2.p.pinned && flipPending s) ∧ !slotDraining s e.2.p.slot
      then (e.1, { e.2 with state := e.2.saved }) else e) }

/-- A new request (R257). -/
def newReq (s : State) (fn tenant : Nat) (p : ReqParams) (words : List Nat) (img : FormeImage) : Req :=
  { p := p, fn := fn, tenant := tenant, order := s.sched.nextOrder,
    state := if (p.pinned && flipPending s) || slotDraining s p.slot then .held else .queued, saved := .queued,
    history := words, done := 0, emitted := 0, age := 0, last := 0, counts := [],
    d := if p.speculate && formeG img == 1 then img.sched.draftMax else 0, rejectRun := 0, zeroSteps := 0, sets := [], tables := [], sealed := [],
    restarts := 0, horizon := 0, writeIdx := 0, readIdx := 0, waiting := [], cond := {}, endAs := [], silent := false,
    fillSeen := false, historySheets := historySheets p, redo := 0 }

/-- The prompt is in HBM (R255): its words are checked, and the request takes the entry that was reserved for it. -/
def submitRead (h : Hdr) (p : ReqParams) (words : List Nat) (s : State) : State :=
  match submitBad s p (ownerOf h) (calDone s) with
  | some st => reply s h st
  | none => match formeOf s p.slot with
    | none => reply s h .formeInvalid
    | some f =>
      if words.length = p.promptTokens ∧ words.all (· < f.image.sched.vocab) then
        let i := freeIndex 0 s.reqs
        let s1 := setReq s i (newReq s h.fn (ownerOf h) p words f.image)
        let s2 := setSched s1 (fun c => { c with nextOrder := c.nextOrder + 1 })
        let s3 := if p.web then modChan s2 p.channel (fun c => { c with bound := some i, restarted := false }) else s2
        replyOk s3 h (ridOf s i) 0
      else reply s h .paramInvalid

/-! ## Step records and result rings (R279, R280) -/

def ringSize (p : ReqParams) : Nat := p.ringBytes / 64 - 1

/-- The 64 bytes of a step record. -/
def recBytes (r : Rec) (phase : Bool) : List Byte :=
  leBytes 8 r.step ++ leBytes 4 r.epoch ++ leBytes 4 (condWord r.cond) ++ leBytes 2 (statusCode r.status) ++ leBytes 1 r.kind
    ++ leBytes 1 (min 9 r.payload.length + 128 * b2n phase) ++ leBytes 4 r.emitted ++ leBytes 1 r.keyBits ++ leBytes 1 r.draftLen
    ++ leBytes 1 r.rung ++ leBytes 1 0 ++ (List.range 9).flatMap (fun i => leBytes 4 (r.payload.getD i 0))

/-- Write one record into the ring. -/
def putRec (s : State) (q : Req) (r : Rec) : State × Req :=
  let n := ringSize q.p
  (setSched (hostWrite s q.fn (q.p.ringAddr + 64 + 64 * (q.writeIdx % n)) (recBytes r (q.writeIdx / n % 2 == 0)))
     (fun c => { c with ringFns := addOnce c.ringFns q.fn }),
   { q with writeIdx := q.writeIdx + 1 })

/-- Records of a request as the ring takes them; `head` is what the host's index reads as when the module has to read the
header. -/
def drainRing (head : Option Nat) : List Rec → State × Req → State × Req
  | [], x => (x.1, { x.2 with waiting := [] })
  | r :: rs, (s, q) =>
    let n := ringSize q.p
    let q1 := if q.writeIdx - q.readIdx < n then q else match head with
      | some h => { q with readIdx := q.readIdx + (h + n - q.readIdx % n) % n }
      | none => q
    if q1.writeIdx - q1.readIdx < n && !(fnOf s q.fn).d3hot then drainRing head rs (putRec s q1 r)
    else (s, { q1 with waiting := r :: rs })

/-- The host's index as the boundary or tick read it back. -/
def headOf (heads : List (Nat × Nat)) (q : Req) : Option Nat := (heads.find? (fun e => e.1 == q.p.ringAddr)).map (·.2)

/-- A record of a request; a silent request writes nothing to host memory (R457). -/
def writeRec (heads : List (Nat × Nat)) (s : State) (q : Req) (r : Rec) : State × Req :=
  if q.silent then (s, q) else drainRing (headOf heads q) (q.waiting ++ [r]) (s, q)

/-- The one record that a request gets in a step (R279): what the seal has already given it goes into the record of its end. -/
def mergeRec (q : Req) (r : Rec) : Rec := match q.record with
  | none => r
  | some p => { r with cond := condOr p.cond r.cond, emitted := p.emitted, keyBits := p.keyBits, rung := p.rung, payload := p.payload }

/-- A request whose record waits is STALLED (R280). -/
def stall (q : Req) : Req :=
  if q.waiting != [] && q.state != .stalled then { q with saved := q.state, state := .stalled }
  else if q.waiting == [] && q.state == .stalled then { q with state := q.saved }
  else q

/-- Read the ring headers of stalled requests again (R280). -/
def rereadReq (heads : List (Nat × Nat)) (s : State) (i : Nat) : State :=
  match reqOf s i with
  | none => s
  | some q => if q.waiting = [] then s else
      let x := drainRing (headOf heads q) q.waiting (s, q)
      setReq x.1 i (stall x.2)

def rereadEnded (heads : List (Nat × Nat)) (s : State) (e : Nat × Req) : State :=
  let x := drainRing (headOf heads e.2) e.2.waiting (s, e.2)
  setSched x.1 (fun c => { c with ended := if x.2.waiting = [] then tdel c.ended e.1 else tput c.ended e.1 x.2 })

def rereadRings (heads : List (Nat × Nat)) (s : State) : State :=
  let s1 := (s.reqs.map (·.1)).foldl (rereadReq heads) s
  s1.sched.ended.foldl (rereadEnded heads) s1

/-- The records of a boundary enter the rings. -/
def flushRec (heads : List (Nat × Nat)) (s : State) (e : Nat × Req) : State :=
  match reqOf s e.1, (reqOf s e.1).bind (·.record) with
  | some q, some r => let x := writeRec heads s { q with record := none } r; setReq x.1 e.1 (stall x.2)
  | _, _ => s

def flushRecs (heads : List (Nat × Nat)) (s : State) : State := s.reqs.foldl (flushRec heads) s

/-! ## Ends (R276-R278, R305) -/

/-- Sheets that a removed tenant last held wait for their overwrite (R386). -/
def noteOverwrite (s : State) (q : Req) : State :=
  if overwriteEn s && tenantSlot s q.tenant == 2 then setKv s (fun k => { k with overwrite := k.overwrite ++ heldRuns q }) else s

/-- The reply of REQ_CANCEL commands that wait for a request: OK with the tokens released (R276). -/
def replyCancels (s : State) (i emitted : Nat) : State :=
  (s.cmdq.filter (fun e => e.wait == .cancel i)).foldl (fun x e => finish x e.hdr.fn e.hdr.seq .ok {} emitted 0) s

/-- The claims of a request are discarded (R333). -/
def dropClaim (k : KvBlk) (i : Nat) : KvBlk :=
  { k with claims := k.claims.filter (fun c => c.1 != i), claimed := k.claimed.filter (· != i) }

/-- A request ends: pages and slot are freed, its channel unbinds, its end record is written, waiting REQ_CANCELs are answered. -/
def endReq (heads : List (Nat × Nat)) (s : State) (i : Nat) (r : Rec) : State :=
  match reqOf s i with
  | none => s
  | some q =>
    let r1 := mergeRec q r
    let x := writeRec heads s { q with record := none } { r1 with cond := { r1.cond with fillEmitted := r1.cond.fillEmitted || q.fillSeen } }
    let s1 := noteOverwrite x.1 q
    let s2 := delReq { s1 with kv := dropClaim (freePages s1.kv q) i,
                               gens := tset 0 s1.gens i ((genOf s1 i + 1) % 65536) } i
    let s3 := if q.p.web then modChan s2 q.p.channel (fun c => if c.bound = some i then { c with bound := none, restarted := false } else c) else s2
    let s4 := if x.2.waiting = [] then s3 else setSched s3 (fun c => { c with ended := tput c.ended q.order x.2 })
    replyCancels s4 i q.emitted

/-- DRAFT_OFF (R275, R307): the request speculates and runs with d = 0, or its positions hold several tokens. -/
def draftOff (img : FormeImage) (q : Req) : Bool := (q.p.speculate && q.d == 0) || 1 < formeG img

/-- A request's condition word in a record without a row. -/
def idleCond (s : State) (q : Req) (c : Cond) : Cond :=
  { c with draftOff := c.draftOff || (formeOf s q.p.slot).any (fun f => draftOff f.image q) }

/-- The record of an end without tokens. -/
def endRec (s : State) (k : Nat) (q : Req) (i : Nat) (st : Status) (cond : Cond) : Rec :=
  { rid := ridOf s i, step := k, epoch := s.plates.epoch, cond := idleCond s q cond, status := st, kind := 1, emitted := q.emitted,
    keyBits := 0, draftLen := q.d, rung := 0, payload := [] }

/-- End a request at the boundary of step k with a status. -/
def endNow (heads : List (Nat × Nat)) (k : Nat) (s : State) (i : Nat) (st : Status) : State :=
  match reqOf s i with
  | none => s
  | some q => endReq heads s i (endRec s k q i st q.cond)

/-! ## REQ_CANCEL (R276, R474) -/

def cancelOp (h : Hdr) (rid : Nat) (s : State) : State :=
  let i := ridIndex rid
  match reqOf s i with
  | none => reply s h .requestUnknown
  | some q =>
    let inScope : Bool := match hdrTenant h with
      | some t => q.tenant == t
      | none => true
    if ridOf s i ≠ rid ∨ !inScope then reply s h .requestUnknown
    else
      let taken := ((findCmd s h.fn h.seq).map (·.taken)).getD (now s)
      setWait (markEndAt s i .cancelled (endFrom s taken)) h.fn h.seq (.cancel i)

/-! ## Restarts (R359-R362) -/

def promptPositions (img : FormeImage) (q : Req) : Nat := q.p.promptTokens / formeG img

/-- Prompt positions sealed before the horizon (R360). -/
def trusted (img : FormeImage) (q : Req) (horizon : Nat) : Nat :=
  let total := min q.done (promptPositions img q)
  total - sumNat ((q.sealed.filter (fun e => horizon ≤ e.1)).map (·.2))

/-- Keep the sets that begin below `n` positions, the last one's FILL cut back. -/
def keepSets (n : Nat) : Nat → List PageSet → List PageSet
  | _, [] => []
  | base, p :: r => if base < n then { p with fill := min p.fill (n - base) } :: keepSets n (base + 2 ^ p.k) r else []

/-- The restart record (R359), with the key width and the rung of the row that was withheld. -/
def restartRec (s : State) (k i : Nat) (q : Req) (w : Option Row) (cond : Cond) : Rec :=
  { rid := ridOf s i, step := k, epoch := s.plates.epoch, cond := idleCond s q { cond with restarted := true }, status := .ok, kind := 2,
    emitted := q.emitted, keyBits := (w.map (·.keyBits)).getD 0, draftLen := q.d, rung := (w.map (·.rung)).getD 0, payload := [] }

/-- A request restarts at the boundary of step k, with the row that was withheld, or ends when it has restarted RESTART_MAX times already
(R362). -/
def restartReq (heads : List (Nat × Nat)) (k : Nat) (s : State) (i horizon : Nat) (w : Option Row) (cond : Cond) : State :=
  match reqOf s i, (reqOf s i).bind (fun q => formeOf s q.p.slot) with
  | some q, some f =>
    if restartMax s ≤ q.restarts then
      endReq heads s i { restartRec s k i q w { cond with failed := true } with status := .cancelled, kind := 1 }
    else
      let hz := if q.state = .restarting then min q.horizon horizon else horizon
      let n := trusted f.image q hz
      let keep := keepSets n 0 (setsOf q false)
      let gone := (setsOf q false).drop keep.length ++ setsOf q true
      let q1 := { q with sets := keep, done := n, horizon := hz, restarts := q.restarts + 1,
                         sealed := q.sealed.filter (fun e => e.1 < hz) }
      let q2 := if q.state = .stalled then { q1 with saved := .restarting } else { q1 with state := .restarting }
      let s0 := setFaults s (fun x => { x with restarts := satAdd 32 x.restarts 1 })
      let rc := mergeRec q (restartRec s k i q w cond)
      let s1 := setReq { s0 with kv := gone.foldl freeSet s0.kv } i { q2 with record := some rc }
      if q.p.web then modChan s1 q.p.channel (fun c => { c with restarted := true }) else s1
  | _, _ => s

/-! ## What a clean row changes -/

/-- One released token in the count table (R272): counts saturate at 15, and a full table of 4,096 gives up the token
released least recently. The list is in order of last release. -/
def countToken (l : List (Nat × Nat)) (tok : Nat) : List (Nat × Nat) :=
  match l.find? (fun e => e.1 == tok) with
  | some e => l.filter (fun x => x.1 != tok) ++ [(tok, min 15 (e.2 + 1))]
  | none => (if l.length < 4096 then l else l.drop 1) ++ [(tok, 1)]

/-- The draft length after a seal (R275): the step ran with the request's d, and `a` proposals were accepted. `zeroSteps`
counts the steps with d = 0; it keeps the value 64 while the probe step is due. -/
def nextDraft (q : Req) (draftMax a : Nat) : Req :=
  if q.d = 0 then
    if q.zeroSteps + 1 = 64 then { q with d := 1, zeroSteps := 64 } else { q with zeroSteps := q.zeroSteps + 1 }
  else if a = q.d then { q with d := min (2 * q.d) draftMax, rejectRun := 0, zeroSteps := 0 }
  else if 1 ≤ a then { q with rejectRun := 0, zeroSteps := 0 }
  else if q.zeroSteps = 64 then { q with d := 0, rejectRun := 0, zeroSteps := 0 }
  else if q.rejectRun + 1 = 4 then { q with d := q.d / 2, rejectRun := 0, zeroSteps := 0 }
  else { q with rejectRun := q.rejectRun + 1, zeroSteps := 0 }

/-! ## Rows -/

def execReqSubmit (h : Hdr) (p : ReqParams) (t : Nat) (s : State) : Host.Outcome State Fault Refusal :=
  runCmd h (.reqSubmit p) t s (submitOp h p)

def execReqCancel (h : Hdr) (rid : Nat) (t : Nat) (s : State) : Host.Outcome State Fault Refusal :=
  runCmd h (.reqCancel rid) t s (cancelOp h rid)

end Sys2Proof.Machine
end

