-- ==== Sys2Proof/Machine/Wash.lean ====
section
/-! DEFINITION. Owners of steps (R382) and washdowns (R384, R385), overlays as the regions hold them (R206). -/

namespace Sys2Proof.Machine

/-- The shared owner's number; a confidential owner is its tenant. -/
def sharedOwner : Nat := 256

/-- A tenant is confidential and enabled, or being removed. -/
def confLive (s : State) (t : Nat) : Bool :=
  (tenantOf s t).confidential && ((tenantOf s t).enabled || tenantSlot s t == 2)

/-- Owner of a tenant's requests (R382). -/
def ownerOfTenant (s : State) (t : Nat) : Nat := if (tenantOf s t).confidential then t else sharedOwner

/-! ## Overlays (R206) -/

def overlayKey (t slot layer : Nat) : Nat := (256 * t + slot) * 65536 + layer
def overlayTenant (k : Nat) : Nat := k / 65536 / 256
def overlaySlot (k : Nat) : Nat := k / 65536 % 256
def overlayLayer (k : Nat) : Nat := k % 65536

/-- The group that finalises a layer. -/
def finalGroup (img : FormeImage) (layer : Nat) : Option Group := img.groups.find? (fun g => g.layer == layer && g.acc.last)

/-- The logical region that finalises a layer (R125, R206). -/
def finalRegion (img : FormeImage) (layer : Nat) : Option Nat :=
  (finalGroup img layer).bind (fun g => g.entries.head?.map (fun e => coreRegion (entryCore e)))

/-- The physical region whose overlay store holds an overlay. -/
def overlayRegion (s : State) (slot layer : Nat) : Option Nat :=
  ((formeOf s slot).bind (fun f => finalRegion f.image layer)).bind (physRegionKey s)

/-- Overlays of an owner that a region holds, in bytes by (65,536 × tenant + layer). -/
def overlayStore (s : State) (owner rk : Nat) : Tbl Nat :=
  (s.overlays.filter (fun e => ownerOfTenant s (overlayTenant e.1) == owner
      && overlayRegion s (overlaySlot e.1) (overlayLayer e.1) == some rk)).foldl
    (fun m e => tmod 0 m (65536 * overlayTenant e.1 + overlayLayer e.1) (· + e.2.2)) []

/-- The overlay stores of the regions that hold overlays follow the running owner. -/
def reloadOverlays (s : State) (owner : Nat) : State :=
  let rs := (s.overlays.filterMap (fun e => overlayRegion s (overlaySlot e.1) (overlayLayer e.1))).eraseDups
  rs.foldl (fun x r => modRegion x r (fun g => { g with overlay := overlayStore s owner r })) s

/-! ## Washdown (R385) -/

/-- Every core of a region. The envelope area of scratch stays; audits in progress are abandoned and counted. -/
def washCore (c : Core) : Core :=
  { abandonAudits (fun _ => true) c with
    scratch := c.scratch.filter (fun e => 4096 * c.envArea ≤ e.1 && e.1 < 4096 * c.envArea + 4096), held := [], banks := [], parked := 0, lastCause := 0, stPrecision := false, stSat := false, stNear := false,
    stFailed := false, summary := {} }

def washRegion (s : State) (owner rk : Nat) : State :=
  modRegion s rk (fun g =>
    { g with wideBuf := [], staged := [], parks := [], vec := [], overlay := overlayStore s owner rk })

/-- A washdown of regions for the next owner, counted once. -/
def washdown (s : State) (regions : List Nat) (owner : Nat) : State :=
  let s1 := mapCores s (fun k c => if coreRegion k ∈ regions then washCore c else c)
  let s2 := regions.foldl (fun x r => washRegion x owner r) s1
  { s2 with sec := { s2.sec with washdowns := satAdd 32 s2.sec.washdowns 1 }, ql := { s2.ql with received := [] } }

/-- Whether a confidential tenant is still present (log entry 15). -/
def settlePresence (s : State) : State :=
  { s with sec := { s.sec with confPresent := (List.range 256).any (confLive s) } }

/-- Physical regions that the passes of a step run on. -/
def stepRegions (s : State) (k : Step) : List Nat :=
  (k.rows.flatMap (fun w => match formeOf s w.slot with
    | some f => (formeRegions s f.image).filterMap (physRegionKey s)
    | none => [])).eraseDups

end Sys2Proof.Machine
end

