-- ==== Sys2Proof/Machine/Pages.lean ====
section
/-! DEFINITION. Rows of key/value pages: their layout (R284), the blocks the vector engine forms (R283, R107), staging and the page slots
(R289), the page walk that reads them back (R298), widening (R285). -/

namespace Sys2Proof.Machine

/-- The request of a row: of the table, or of another module's table (R442). -/
def pageReq (s : State) (rid : Nat) : Option Req := if rid < 2 ^ 32 then reqOf s rid else tfind s.ql.remote (rid - 2 ^ 32)

/-- Whether a forme slot holds a draft forme, whose rows lie in the draft sets (R291). -/
def draftSlot (s : State) (slot : Nat) : Bool := (formeOf s slot).any (fun f => f.image.draft)

/-- An attention layer of a forme. -/
def attnOf (s : State) (slot layer : Nat) : Option AttnRec := (formeOf s slot).bind (fun f => f.image.attn[layer]?)

/-- Whether the forme layer of an attention layer rounds stochastically (R129, R283). -/
def attnStochastic (s : State) (slot layer : Nat) : Bool :=
  (formeOf s slot).any (fun f => f.image.layers.any (fun l => l.attn == layer && l.stochastic))

/-! ## The layout of a row (R284) -/

/-- STEP, VALID and POSITION. -/
def rowWord (pos step : Nat) : Nat := 2 ^ 32 * (step % 2 ^ 32) + 2 ^ 24 + pos % 2 ^ 24

/-- Head h of a list of values, HEAD_DIM of them. -/
def headValues (a : AttnRec) (h : Nat) (xs : List W32) : List W32 := (List.range a.headDim).map (fun i => xs.getD (a.headDim * h + i) 0)

/-- A head record: its key blocks, its value blocks, zero bytes up to a multiple of 16; and whether an element saturated. -/
def headImage (a : AttnRec) (kf vf h : Nat) (modes : List (Option Nat)) (keys vals : List W32) : List Byte × Bool :=
  let ms := modes.drop (2 * a.headDim * h)
  let k := denseBytes 0x3F800000 kf (ms.take a.headDim) (headValues a h keys)
  let v := denseBytes 0x3F800000 vf ((ms.drop a.headDim).take a.headDim) (headValues a h vals)
  (k.1 ++ v.1 ++ List.replicate (headRecord a kf vf - (k.1 ++ v.1).length) 0, k.2 || v.2)

/-- The bytes of a row: the row word, then the head records. -/
def rowImage (a : AttnRec) (kf vf pos step : Nat) (modes : List (Option Nat)) (keys vals : List W32) : List Byte × Bool :=
  let hs := (List.range a.kvHeads).map (fun h => headImage a kf vf h modes keys vals)
  (leBytes 8 (rowWord pos step) ++ hs.flatMap (·.1), hs.any (·.2))

/-- The values of consecutive blocks of a format, and whether a block carries the reserved code. -/
def widenBlocks (fmt n : Nat) (bs : List Byte) : List W32 × Bool :=
  let b := biWidth fmt
  let l := (chunks (1 + 4 * b) n bs).map (blockValues b)
  (l.flatMap (·.1), l.any (·.2))

/-- Keys and values of one key/value head of a row, widened (R285). -/
def rowHead (a : AttnRec) (kf vf h : Nat) (row : List Byte) : (List W32 × List W32) × Bool :=
  let n := a.headDim / 32
  let bs := row.drop (8 + h * headRecord a kf vf)
  let k := widenBlocks kf n bs
  let v := widenBlocks vf n (bs.drop (n * (1 + 4 * biWidth kf)))
  ((k.1, v.1), k.2 || v.2)

/-! ## Writing a row (R289) -/

/-- The row enters the staging partition of the region's wide buffer, in place of an older one of the same position. -/
def putStaged (l : List StagedRow) (x : StagedRow) : List StagedRow :=
  l.filter (fun y => !(y.rid == x.rid && y.slot == x.slot && y.layer == x.layer && y.pos == x.pos)) ++ [x]

/-- The DMA engine writes the row into its page slot. -/
def writeRow (s : State) (a : AttnRec) (layer : Nat) (p : PageSet) (i : Nat) (bytes : List Byte) : State :=
  match rowAddr a layer p i with
  | some x => setKv s (fun k => { k with hbm := mwrite k.hbm x bytes })
  | none => s

/-- The row of a new position of a request in a region: staged, and written into its page. -/
def stageRow (s : State) (rk rid slot layer pos : Nat) (a : AttnRec) (p : PageSet) (i : Nat) (modes : List (Option Nat))
    (keys vals : List W32) : State :=
  let f := setFmt p layer
  let row := rowImage a f.1 f.2 pos (stepNow s) modes keys vals
  let x : StagedRow := { rid := rid, slot := slot, layer := layer, pos := pos, keyFmt := f.1, valFmt := f.2, bytes := row.1 }
  writeRow (modRegion s rk (fun g => { g with staged := putStaged g.staged x })) a layer p i row.1

/-! ## Reading rows (R298) -/

/-- A row as the engine reads it: position, formats, bytes. -/
structure PageRow where
  pos : Nat
  keyFmt : Nat
  valFmt : Nat
  bytes : List Byte

/-- The rows below the fill marks of the sets that touch a range of positions. -/
def walkRows (s : State) (a : AttnRec) (layer lo hi : Nat) : Nat → List PageSet → List PageRow
  | _, [] => []
  | base, p :: r =>
    let f := setFmt p layer
    let here := ((List.range p.fill).filter (fun i => lo ≤ base + i && base + i < hi)).filterMap (fun i =>
      (rowAddr a layer p i).map (fun x => { pos := base + i, keyFmt := f.1, valFmt := f.2, bytes := mread s.kv.hbm x (rowBytesAs a f.1 f.2) }))
    here ++ walkRows s a layer lo hi (base + 2 ^ p.k) r

/-- The visible rows of a query in rising order: of its pages, then its own new positions from staging. -/
def visibleRows (s : State) (rk rid slot layer lo hi : Nat) (a : AttnRec) (sets : List PageSet) : List PageRow :=
  let old := walkRows s a layer lo hi 0 sets
  let own := ((regionOf s rk).staged.filter (fun x => x.rid == rid && x.slot == slot && x.layer == layer && lo ≤ x.pos && x.pos < hi
      && !(old.any (fun r => r.pos == x.pos)))).map (fun x => { pos := x.pos, keyFmt := x.keyFmt, valFmt := x.valFmt, bytes := x.bytes })
  old ++ sortBy (·.pos) own

/-- Sets that a walk over a range of positions touches: those outside the range are never read (R298). -/
def setsWalked (lo hi : Nat) : Nat → List PageSet → Nat
  | _, [] => 0
  | base, p :: r => b2n (lo < base + p.fill && base < hi) + setsWalked lo hi (base + 2 ^ p.k) r

/-- Narrowest key width that a query read (R279, R285). DESIGN CHOICE (log entry 103): 0 of one that read no row. -/
def keyWidth (rows : List PageRow) : Nat :=
  match rows with
  | [] => 0
  | r :: l => l.foldl (fun m x => min m (biWidth x.keyFmt)) (biWidth r.keyFmt)

end Sys2Proof.Machine
end

