-- ==== Sys2Proof/Machine/Vector.lean ====
section
/-! DEFINITION. The region vector engine: exponentials and logarithms (R271, R286), split reductions (R125) with overlays (R206), top-k (R131),
sampling (R271-R273), draft checks (R274), attention (R285-R288), staging (R289), scores (R258). -/

namespace Sys2Proof.Machine

/-! ## exp and ln within 2 units in the last place (R271, R286) -/

/-- A finite FP32 value in fixed point. -/
def fixOfF32 (w : W32) : Int := match f32 w with
  | .fin neg m e => scaleNum (fpInt neg m) (e + fixBits) / (scaleDen 1 (e + fixBits) : Int)
  | _ => 0

def fixSquare : Nat → Int → Int
  | 0, x => x
  | n + 1, x => fixSquare n (fixMul x x)

/-- exp of a fixed-point value of magnitude at most 128. -/
def expGen (x : Int) : Int := fixSquare 6 (expSum (x / 64) 220 1 fixOne fixOne)

/-- Inverse hyperbolic tangent of z, at most 1/3, by its series. -/
def atanhSum (z2 : Int) : Nat → Nat → Int → Int → Int
  | 0, _, _, acc => acc
  | fuel + 1, k, p, acc => let p' := fixMul p z2; atanhSum z2 fuel (k + 1) p' (acc + p' / ((2 * k + 1 : Nat) : Int))

def lnMant (m : Int) : Int :=
  let z := (m - fixOne) * fixOne / (m + fixOne)
  2 * atanhSum (fixMul z z) 300 1 z z

/-- ln of m × 2^e, m not 0, in fixed point. -/
def lnGen (m : Nat) (e : Int) : Int :=
  let l := Nat.log2 m
  (e + l) * lnMant (2 * fixOne) + lnMant (scaleNum m (fixBits - l) / (scaleDen 1 (fixBits - l) : Int))

/-- The FP32 values near a fixed-point value that lie within 2 units in the last place of it, the value's own rounding first. A margin of
2^-300 unit covers what the fixed-point value itself leaves out. -/
def nearF32 (v : Int) : List W32 :=
  let w := fixToF32 v
  let m := w.toNat % 2 ^ 31
  let at_ := fun (k : Nat) => BitVec.ofNat 32 (w.toNat / 2 ^ 31 * 2 ^ 31 + min 0x7F7FFFFF k)
  let unit := (fixOfF32 (at_ m) - fixOfF32 (at_ (m - 1))).natAbs
  w :: ([at_ (m - 2), at_ (m - 1), at_ (m + 1), at_ (m + 2)].filter (fun c =>
    (fixOfF32 c - v).natAbs + unit / 2 ^ 300 < 2 * unit))

/-- A result of exp or ln: free among the values within 2 units in the last place (log entry 2). An exact 0 stays 0. -/
def ulps (s : State) (i : Nat) (v : Int) : W32 :=
  if fixToF32 v = 0 then 0
  else let l := nearF32 v; l.getD (Config.freeNat (s.free + i) % l.length) (fixToF32 v)

/-- exp of an FP32 value; exp(0) is 1 (R287). -/
def expF32 (s : State) (i : Nat) (x : W32) : W32 := match f32 x with
  | .nan => x
  | .inf neg => if neg then 0 else f32MaxFinite
  | .fin neg m e =>
    if m = 0 then 0x3F800000
    else if fpLt (.fin neg m e) (.fin true 120 0) then 0
    else if fpLt (.fin false 120 0) (.fin neg m e) then f32MaxFinite
    else ulps s i (expGen (fixOfF32 x))

/-- ln of a positive FP32 value. -/
def lnF32 (s : State) (i : Nat) (x : W32) : W32 := match f32 x with
  | .fin false m e => if m = 0 then 0xFF800000 else ulps s i (lnGen m e)
  | _ => x

/-- The free values that an operation has used. -/
def spend (n : Nat) (s : State) : State := { s with free := s.free + n }

/-! ## Rows of the running step -/

/-- Flags of a row's step (R251). -/
def flagRow (s : State) (rid : Option Nat) (c : Cond) : State := match rid with
  | some i => modRow s i (fun w => { w with cond := condOr w.cond c })
  | none => s

/-! ## Split reductions (R125) -/

/-- The entry that a source holds. -/
def entryAt (s : State) (slot : Nat) : EntrySrc → PartialEntry
  | .wide r a => entryOf (leNat (mread (regionOf s r).wideBuf (areaAddr slot a) 8))
  | .scratch c a => entryOf (leNat (mread (coreOf s c).scratch a 8))
  | .carried p => p

/-- The entries of one output under the rules of add_total. -/
def sumEntries (es : List PartialEntry) : Lane :=
  es.foldl (fun l p => { addTotal l p.mant p.exp with sat := (addTotal l p.mant p.exp).sat || p.sat }) {}

/-- Four bytes to a word. -/
def wordsOf (bs : List Byte) : List W32 := (chunks 4 ((bs.length + 3) / 4) bs).map (fun b => BitVec.ofNat 32 (leNat b))

/-- Rounding modes of n values of a vector engine; its random bits are free values. -/
def vecModes (s : State) (stochastic : Bool) (n : Nat) : List (Option Nat) :=
  if stochastic then (List.range n).map (fun i => some (Config.freeNat (s.free + i) % 65536)) else List.replicate n none

/-! ### Overlays (R206) -/

/-- FP32 sum and product with the mark of a value beyond the range (R126, stage 2). -/
def satSum (x : W32 × Bool) (y : W32) : W32 × Bool :=
  let r := fpEncode fp32 none (fpAdd (f32 x.1) (f32 y)); (BitVec.ofNat 32 r.1, x.2 || r.2)
def satProduct (x : W32 × Bool) (y : W32) : W32 × Bool :=
  let r := fpEncode fp32 none (fpMul (f32 x.1) (f32 y)); (BitVec.ofNat 32 r.1, x.2 || r.2)

def dotF32 (a b : List W32) : W32 := (a.zip b).foldl (fun acc x => f32Add acc (f32Mul x.1 x.2)) 0

/-- A row of a matrix of BF16 words, as FP32. -/
def bf16Row (m : List Nat) (n i : Nat) : List W32 := ((m.drop (n * i)).take n).map (fun w => BitVec.ofNat 32 (w * 2 ^ 16))

/-- A x, the adapter's inner vector. -/
def adapterInner (o : Overlay) (x : List W32) : List W32 := (List.range o.rank).map (fun i => dotF32 (bf16Row o.a o.n i) x)

/-- What an overlay makes of a value of stage 2: α × B(A x) and the steering vector are added, the scales multiply. -/
def overlayValue (o : Overlay) (inner : List W32) (col : Nat) (v : W32 × Bool) : W32 × Bool :=
  let v1 := if bitAt o.kinds 0 then satSum v (f32Mul o.alpha (dotF32 (bf16Row o.b o.rank col) inner)) else v
  let v2 := if bitAt o.kinds 1 then satSum v1 (o.steer.getD col 0) else v1
  if bitAt o.kinds 2 then satProduct v2 (o.scale.getD col 0) else v2

/-- The overlay of the row's tenant on a layer. -/
def rowOverlay (s : State) (rid : Option Nat) (slot layer : Nat) : Option Overlay :=
  (rid.bind (pageReq s)).bind (fun q => (tfind s.overlays (overlayKey q.tenant slot layer)).map (·.1))

/-- Stages 1 to 3 of the engine's epilogue. -/
def vectorLane (l : LayerRec) (o : Option (Overlay × List W32)) (col : Nat) (t : Lane) : W32 × Bool :=
  let w := match o with
    | some x => overlayValue x.1 x.2 col (scaledLane l col t)
    | none => scaledLane l col t
  (actF32 l.act w.1, w.2)

/-- A block of up to 256 outputs of a split reduction: entries added, stages 1 to 3, then written under R130 to `dest` of the scratch of
core `ck`, as an input segment when a layer reads it there (stage 4). -/
def reduceOp (s : State) (rk : Nat) (rid : Option Nat) (slot layer : Nat) (cols : List (List EntrySrc)) (input : List W32)
    (ck dest first : Nat) : State :=
  match layerRec s slot layer with
  | none => s
  | some l =>
    let lanes := (cols.take 256).map (fun es => sumEntries (es.map (entryAt s slot)))
    let ov := (rowOverlay s rid slot layer).map (fun o => (o, adapterInner o input))
    let outs := (lanes.zip (List.range lanes.length)).map (fun x => (x.1.sat, vectorLane l ov (first + x.2) x.1))
    let vals := outs.map (fun x => x.2.1)
    let satLanes := (List.range outs.length).filter (fun i => (outs.map (fun x => x.1 || x.2.2)).getD i false)
    let o := writeOutputs s ck slot rid l dest (vecModes s l.stochastic outs.length) satLanes vals (coreOf s ck).scratch
    let s1 := modRegion (modCore s ck (fun c => { c with scratch := o.1 })) rk (fun g => { g with vec := vals })
    spend outs.length (flagRow s1 rid { sat := o.2.1, nanInput := o.2.2 })

/-! ## Input segments from the DMA engine (R111, R139) -/

/-- Segments that the DMA engine forms for an entry of a layer's groups, at the width of the layer's rung for the row. -/
def formSegments (w base layer : Nat) (clamp : Fp) (rows : List (Nat × Nat)) : Nat → List (List W32) → List Host.Cell → List Host.Cell
  | _, [], m => m
  | i, vs :: r, m =>
    formSegments w base layer clamp rows (i + 1) r (putSegment m w base i layer (formSegment w clamp rows [] [] (vs.map f32)))

def formOp (s : State) (rid : Option Nat) (slot group entry ck : Nat) (vals : List W32) : State :=
  match (formeOf s slot).bind (fun f => f.image.groups[group]?) with
  | none => s
  | some g => match g.entries[entry]?, layerRec s slot g.layer with
    | some e, some l =>
      let d := match physPlaneKey s (planeKey (tileKey (entryCore e) (addrDecode e.plane).tile) (addrDecode e.plane).plane) with
        | some pk => descOf s pk
        | none => descDefault s 0
      let clamp := if l.clampValid then f32 l.clamp else f32 f32MaxFinite
      let blocks := (chunks 256 ((vals.length + 255) / 256) vals).take e.run
      flagRow (modCore s ck (fun c =>
          { c with scratch := formSegments (widthFor s slot l rid) (64 * e.sheet) l.layer clamp (skimRowsOf d) e.segment blocks c.scratch })) rid
        { nanInput := vals.any f32IsNan }
    | _, _ => s

/-! ## Top-k (R131) -/

/-- A list of records, as the engine delivers it: the value, then the position. -/
def recordWords (r : List (W32 × Nat)) : List W32 := r.flatMap (fun x => [x.1, BitVec.ofNat 32 x.2])

/-- The experts of a router's top-k (R211). -/
def chooseExperts (s : State) (rid : Option Nat) (router : Option (Nat × Nat)) (r : List (W32 × Nat)) : State :=
  match rid, router with
  | some i, some q => modRow s i (fun w =>
      { w with experts := w.experts.filter (fun e => !(e.1 == q.1 && e.2.1 == q.2)) ++ r.map (fun x => (q.1, q.2, x.2)) })
  | _, _ => s

/-- The k largest of a vector, or of a part of it with its positions offset to the whole vector. -/
def topKOp (s : State) (rk : Nat) (rid : Option Nat) (router : Option (Nat × Nat)) (k offset : Nat) (xs : List W32) : State :=
  let r := topK (clampTo 1 64 k) xs
  let l := r.1.map (fun x => (x.1, x.2 + offset))
  chooseExperts (flagRow (modRegion s rk (fun g => { g with vec := recordWords l })) rid { nanInput := r.2 != 0 }) rid router l

/-- The merge of the parts' lists: the top-k of the whole vector. -/
def topMergeOp (s : State) (rk : Nat) (rid : Option Nat) (router : Option (Nat × Nat)) (k : Nat) (parts : List (List (W32 × Nat))) : State :=
  let l := mergeTop (clampTo 1 64 k) parts
  chooseExperts (modRegion s rk (fun g => { g with vec := recordWords l })) rid router l

/-! ## Sampling (R271) -/

/-- Stage 1: the count table lowers the logits of tokens already released. -/
def penalise (s : State) (p : ReqParams) (counts : List (Nat × Nat)) (xs : List W32) : List W32 :=
  let ln := lnF32 s 0 p.repPenalty
  (xs.zip (List.range xs.length)).map (fun x => match aget counts x.2 with
    | some m => f32Sub x.1 (f32Mul ln (f32OfNat m))
    | none => x.1)

/-- Shortest prefix of (token, p) whose sum reaches TOP_P, and the sum. -/
def keptPrefix (topP : W32) : W32 → List (Nat × W32) → List (Nat × W32) × W32
  | acc, [] => ([], acc)
  | acc, x :: r =>
    let a := f32Add acc x.2
    if f32Lt a topP then let y := keptPrefix topP a r; (x :: y.1, y.2) else ([x], a)

/-- Stages 3–5: the kept candidates (token, p) with their mass. NaN logits take no part (R273). -/
def keptSet (s : State) (p : ReqParams) (ls : List W32) : List (Nat × W32) × W32 :=
  let xs := ls.map (fun l => f32Div l p.temperature)
  match (topK (if p.topK = 0 then 64 else p.topK) xs).1 with
  | [] => ([], 0)
  | best :: more =>
    let n := xs.length
    let sum := (xs.zip (List.range n)).foldl (fun acc x =>
      if f32IsNan x.1 then acc else f32Add acc (expF32 s (1 + x.2) (f32Sub x.1 best.1))) 0
    let lse := f32Add best.1 (lnF32 s (n + 1) sum)
    let cand := best :: more
    keptPrefix p.topP 0 ((cand.zip (List.range cand.length)).map (fun x => (x.1.2, expF32 s (n + 2 + x.2) (f32Sub x.1.1 lse))))

/-- A draw u uniform on [0, 1) at 2^-24 resolution. -/
def drawU (s : State) (i : Nat) : W32 := toF32 (.fin false (Config.freeNat (s.free + i) % 2 ^ 24) (-24))

/-- The first candidate whose running sum exceeds a threshold, else the last one. -/
def pickAbove (th : W32) : W32 → List (Nat × W32) → Option Nat
  | _, [] => none
  | _, [x] => some x.1
  | acc, x :: r => let a := f32Add acc x.2; if f32Lt th a then some x.1 else pickAbove th a r

/-- Free values that one row of n logits takes. -/
def rowDraws (n : Nat) : Nat := n + 80

/-- Stages 1–6 on one row: the token, none when no logit is a number. -/
def sampleLogits (s : State) (p : ReqParams) (counts : List (Nat × Nat)) (xs : List W32) : Option Nat :=
  let ls := penalise s p counts xs
  if p.temperature.toNat % 2 ^ 31 = 0 then ((topK 1 ls).1.head?).map (·.2)
  else
    let k := keptSet s p ls
    pickAbove (f32Mul (drawU s (xs.length + 70)) k.2) 0 k.1

def sampleOp (s : State) (rid : Nat) (xs : List W32) : State :=
  match reqOf s rid with
  | none => s
  | some q =>
    let t := sampleLogits s q.p q.counts xs
    spend (rowDraws xs.length) (modRow s rid (fun w =>
      { w with tokens := w.tokens ++ t.toList, nan := w.nan || t.isNone, sampled := true,
               cond := condOr w.cond { nanInput := xs.any f32IsNan } }))

/-! ## Draft checks (R274) -/

/-- Probability of a token in a kept set, as a share of its mass. -/
def probOf (k : List (Nat × W32) × W32) (x : Nat) : W32 := match k.1.find? (fun e => e.1 == x) with
  | some e => f32Div e.2 k.2
  | none => 0

/-- The positive part of p − q over p's kept set, with its mass. -/
def residualSet (p q : List (Nat × W32) × W32) : List (Nat × W32) × W32 :=
  let l := p.1.map (fun e => (e.1, toF32 (match fpAdd (f32 (probOf p e.1)) (fpNeg (f32 (probOf q e.1))) with
    | .fin false m e => .fin false m e
    | _ => .fin false 0 0)))
  (l, l.foldl (fun acc e => f32Add acc e.2) 0)

/-- Proposals in order, each sampled from the draft's row by the request's own settings: the tokens released, and how many proposals were
accepted. A row without a number ends the check with no answer (R273, R274). -/
def checkDraft (p : ReqParams) (counts : List (Nat × Nat)) :
    List (List W32) → List (List W32) → State → Option (List Nat × Nat)
  | [], m :: _, s => (sampleLogits s p counts m).map (fun t => ([t], 0))
  | q :: qs, m :: ms, s =>
    match sampleLogits s p counts q with
    | none => none
    | some x =>
      let s1 := spend (rowDraws q.length) s
      let s2 := spend (rowDraws m.length) s1
      let accept := fun (_ : Unit) => (checkDraft p counts qs ms s2).map (fun r => (x :: r.1, r.2 + 1))
      if p.temperature.toNat % 2 ^ 31 = 0 then
        match sampleLogits s1 p counts m with
        | none => none
        | some t => if t = x then accept () else some ([t], 0)
      else
        let kq := keptSet s p (penalise s p counts q)
        let kp := keptSet s1 p (penalise s1 p counts m)
        if kp.1 = [] then none
        else if f32Lt (f32Mul (drawU s1 (m.length + 70)) (probOf kq x)) (probOf kp x) then accept ()
        else
          let rs := residualSet kp kq
          (pickAbove (f32Mul (drawU s1 (m.length + 71)) rs.2) 0 rs.1).map (fun t => ([t], 0))
  | _, _, _ => none

/-- One check of a row that carries d proposals: d rows of logits of the draft, 1 + d of the main model (R274). -/
def verifyOp (s : State) (rid : Nat) (main draft : List (List W32)) : State :=
  match reqOf s rid, rowOf s rid with
  | some q, some w =>
    if draft.length ≠ w.draft ∨ main.length ≠ w.draft + 1 then s
    else
      let r := checkDraft q.p q.counts draft main s
      let used := sumNat ((main ++ draft).map (fun l => rowDraws l.length))
      spend used (modRow s rid (fun w =>
        { w with tokens := (r.map (·.1)).getD [], accepted := (r.map (·.2)).getD 0, nan := r.isNone, sampled := true,
                 cond := condOr w.cond { nanInput := (main ++ draft).any (fun l => l.any f32IsNan) } }))
  | _, _ => s

/-! ## Attention (R285-R288, R298, R302) -/

/-- Accumulation of the running maximum, sum and output. -/
structure Attn where
  m : Option W32
  l : W32
  o : List W32
  nan : Bool
  seen : Nat

def maxF32 (a b : W32) : W32 := if f32Lt a b then b else a

/-- One visible position. -/
def attendStep (s : State) (scale : W32) (q : List W32) (x : Attn) (kv : Nat × Nat × List W32 × List W32) : Attn :=
  let sc := f32Mul scale (dotF32 q kv.2.2.1)
  if f32IsNan sc then { x with nan := true }
  else match x.m with
  | none => { x with m := some sc, l := 0x3F800000, o := kv.2.2.2, seen := 1 }
  | some m =>
    let mn := maxF32 m sc
    let ea := expF32 s (2 * kv.1) (f32Sub m mn)
    let eb := expF32 s (2 * kv.1 + 1) (f32Sub sc mn)
    { x with m := some mn, l := f32Add (f32Mul x.l ea) eb,
             o := (x.o.zip kv.2.2.2).map (fun v => f32Add (f32Mul v.1 ea) (f32Mul eb v.2)), seen := x.seen + 1 }

/-- The narrower of two key widths, 0 being none read. -/
def minWidth (old new : Nat) : Nat := if old = 0 then new else if new = 0 then old else min old new

/-- Convert to the query's format in the layer's rounding mode, with the mark of a value beyond its range (R126 stage 5, R286). -/
def toQuery (fmt : Nat) (mode : Option Nat) (w : W32) : W32 × Bool :=
  let r := toHostFmt 0x3F800000 fmt mode (f32 w)
  (BitVec.ofNat 32 r.1, r.2)

/-- The query head's key/value head in each visible row. -/
def headRows (a : AttnRec) (head : Nat) (rows : List PageRow) : List ((Nat × List W32 × List W32) × Bool) :=
  rows.map (fun r => let x := rowHead a r.keyFmt r.valFmt (head / a.qPerKv) r.bytes; ((r.pos, x.1.1, x.1.2), x.2))

def attendOp (s : State) (rk rid slot layer pos head : Nat) (query : List W32) (bad : List (Nat × Nat)) : State :=
  match pageReq s rid, attnOf s slot layer with
  | some q, some a =>
    let v := visible a pos
    let sets := setsOf q (draftSlot s slot)
    let rows := visibleRows s rk rid slot layer v.1 v.2 a sets
    let kv := headRows a head rows
    let x := ((List.range kv.length).zip (kv.map (·.1))).foldl (attendStep s a.scale query) ⟨none, 0, [], false, 0⟩
    let out := if x.seen = 0 then query.map (fun _ => (0 : W32)) else x.o.map (fun w => f32Div w x.l)
    let st := attnStochastic s slot layer
    let res := (out.zip (vecModes (spend (2 * kv.length) s) st out.length)).map (fun w => toQuery a.queryFmt w.2 w.1)
    let s1 := modRegion s rk (fun g => passingTransfers true (setsWalked v.1 v.2 0 sets) { g with vec := res.map (·.1) })
    let s2 := setKv s1 (fun k => { k with empty := satAdd 32 k.empty (b2n (x.seen = 0)), bad := (bad.map (·.1)).foldl addOnce k.bad,
                                          crcFails := satAdd 32 k.crcFails bad.length })
    let s3 := (bad.map (·.2)).foldl sheetFailed s2
    let c : Cond := { emptyAttention := x.seen == 0, nanInput := x.nan, failed := bad != [], sat := kv.any (·.2) || res.any (·.2) }
    spend (2 * kv.length + if st then out.length else 0) (modRow s3 rid (fun w =>
      { w with keyBits := minWidth w.keyBits (keyWidth rows), withheld := w.withheld || bad != [], cond := condOr w.cond c }))
  | _, _ => s

/-! ## Scores and staging -/

/-- The final outputs of a score forme (R258). -/
def scoresOp (s : State) (rid : Nat) (xs : List W32) : State :=
  match (reqOf s rid).bind (fun q => formeOf s q.p.slot) with
  | none => s
  | some f => modRow s rid (fun w =>
      { w with tokens := (xs.take f.image.sched.scores).map (·.toNat), sampled := true,
               cond := condOr w.cond { nanInput := (xs.take f.image.sched.scores).any f32IsNan } })

/-- The row of a new position (R283, R284, R289); formation has reserved its granules and its page slot (R338). -/
def stageOp (s : State) (rk rid slot layer pos : Nat) (keys vals : List W32) : State :=
  match pageReq s rid, attnOf s slot layer with
  | some q, some a => match coverSet pos 0 (setsOf q (draftSlot s slot)) with
    | none => s
    | some x =>
      let n := 2 * a.kvHeads * a.headDim
      let st := attnStochastic s slot layer
      let modes := vecModes s st n
      let f := setFmt x.1 layer
      let sat := (rowImage a f.1 f.2 pos (stepNow s) modes keys vals).2
      spend (if st then n else 0) (flagRow (modRegion (stageRow s rk rid slot layer pos a x.1 x.2 modes keys vals) rk
        (passingTransfers true 1)) (some rid) { sat := sat })
  | _, _ => s

def vectorOp (s : State) (rk : Nat) : VecOp → State
  | .reduce rid slot layer cols input core dest first => reduceOp s rk rid slot layer cols input core dest first
  | .topK rid router k offset xs => topKOp s rk rid router k offset xs
  | .topMerge rid router k parts => topMergeOp s rk rid router k parts
  | .form rid slot group entry core vals => formOp s rid slot group entry core vals
  | .sample rid xs => sampleOp s rid xs
  | .verify rid main draft => verifyOp s rid main draft
  | .attend rid slot layer pos head query bad => attendOp s rk rid slot layer pos head query bad
  | .scores rid xs => scoresOp s rid xs
  | .stage rid slot layer pos keys vals => stageOp s rk rid slot layer pos keys vals

/-- The core whose scratch an operation writes exists. -/
def vecCoreOk : VecOp → Bool
  | .reduce _ _ _ _ _ core _ _ => core < nCores
  | .form _ _ _ _ core _ => core < nCores
  | _ => true

def execSplitReduction (region : Nat) (op : VecOp) (t : Nat) (s : State) : Host.Outcome State Fault Refusal :=
  if region < nRegions && vecCoreOk op then .next (vectorOp (advance t s) region op) else .fault .noSuchUnit

end Sys2Proof.Machine
end

