-- ==== Sys2Proof/Machine/Calibration.lean ====
section
/-! DEFINITION. Calibration of 06_calibration: band-gap checks (R152-R154), CAL_SELF (R158-R164), temperature passes
(R165-R170), age and drift passes (R171-R175), sense converters (R176-R181). Temperatures are in 1/16 °C. -/

namespace Sys2Proof.Machine

/-! ## Passes of a region -/

/-- A pass can run on a region: it is not fenced, and its arrays are driven (R31, R170). -/
def passRegion (s : State) (rk : Nat) : Bool := !regionFenced s rk && stackDriven s (regionStack rk)

/-- A temperature pass starts; it puts off a drift pass, which then restarts (R165, R174). -/
def startTemp (s : State) (rk : Nat) : State :=
  if !passRegion s rk then s
  else modRegion s rk (fun g => match g.pass with
    | none => { g with pass := some { kind := 1 } }
    | some p => if p.kind = 2 then { g with pass := some { kind := 1 }, wantDrift := true } else g)

def startDrift (s : State) (rk : Nat) : State :=
  if !passRegion s rk then s
  else modRegion s rk (fun g => match g.pass with
    | none => { g with pass := some { kind := 2 } }
    | some p => if p.kind = 1 then { g with wantDrift := true } else g)

/-- ALLOCATED planes of a region on cores in service. -/
def regionPlanes (s : State) (rk : Nat) : List Nat :=
  (s.arr.desc.filter (fun e => e.2.state == 2 && planeRegion e.1 == rk && !coreFenced s (planeCore e.1))).map (·.1)

/-- A slice holds its tile for 20 µs (R166). -/
def sliceNs : Nat := 20000

/-- Every tile, or every ALLOCATED plane, has had its slice and the slices are over; fenced ones are skipped (R170). -/
def passOver (s : State) (rk : Nat) (p : Pass) : Bool :=
  let done := p.slices.map (·.1)
  (if p.kind = 1 then
    (List.range 160).all (fun c => coreFenced s (160 * rk + c) || (List.range 16).all (fun t => tileKey (160 * rk + c) t ∈ done))
  else (regionPlanes s rk).all (· ∈ done)) && p.slices.all (fun e => e.2 + sliceNs ≤ now s)

/-- The pass of a region that waits only for a boundary. -/
def passEnded (s : State) (rk : Nat) : Bool := (regionOf s rk).pass.any (passOver s rk)

/-- A region temperature reading enters the pass that is under way (R167). -/
def notePassTemp (s : State) (rk : Nat) (v : Int) : State :=
  if passEnded s rk then s else modRegion s rk (fun g => { g with pass := g.pass.map (fun p => { p with temps := p.temps ++ [v] }) })

/-- T_p: the mean of the readings taken during the pass, and the latest reading when there was none. -/
def meanTemp (l : List Int) (latest : Int) : Int := if l = [] then latest else rneDiv (sumInt l) l.length

/-! ## Plausibility (R162) -/

/-- A gain within ±6 % of a reference gain, both in 2^-18 above 1. -/
def gainNear (g ref : Int) : Bool := 100 * (g - ref).natAbs ≤ 6 * (2 ^ 18 + ref).toNat

/-- A column gain within ±6 % of the factory's at the temperature `T` of the new corrections. DEDUCED (log entry 95): the factory's words
hold at the value that T_CAL reads after a reset, 0 °C, and follow κ from there. -/
def columnGainNear (g T : Int) (f : Int × Int × Int) : Bool :=
  let ref := (2 ^ 18 + f.1) * (2 ^ 28 + f.2.2 * T)
  100 * ((2 ^ 18 + g) * 2 ^ 28 - ref).natAbs ≤ 6 * ref.toNat

/-- An offset within ±12 LSB of a reference offset, both in 1/64 LSB. -/
def offsetNear (o ref : Int) : Bool := (o - ref).natAbs ≤ 768

/-- A value that a signed 16-bit word can hold (R79). -/
def word16 (x : Int) : Bool := -32768 ≤ x && x ≤ 32767

/-- A gain ratio within ±6 % of 1, as γ × 2^18. -/
def gainOk (g : Int) : Bool := gainNear (g - 2 ^ 18) 0

/-! ## Corrections (R167, R168, R174) -/

def corrKey (t p col : Nat) : Nat := (11 * t + p) * 270 + col

/-- G, O and κ by the factory's record (R155). -/
def factoryWord (s : State) (ck k : Nat) : Int × Int × Int := tget (0, 0, 0) (tget [] s.nv.factoryCorr ck) k

/-- The correction word in effect. -/
def corrWord (c : Core) (k : Nat) : Int × Int × Int := tget (0, 0, 0) c.corr k

/-- A column correction for the temperature `T` that its words can hold and that R162 accepts. -/
def wordOk (s : State) (T : Int) (ck : Nat) (e : Nat × (Int × Int × Int)) : Bool :=
  let f := factoryWord s ck e.1
  word16 e.2.1 && word16 e.2.2.1 && columnGainNear e.2.1 T f && offsetNear e.2.2.1 f.2.1

/-- G and O of a column after a temperature pass: ΔT = T_p − T_cal. -/
def recalWord (gamma beta dT : Int) (w : Int × Int × Int) : Int × Int × Int :=
  let g := 2 ^ 18 + w.1
  ((rneDiv (g * (2 ^ 28 + w.2.2 * dT) * 2 ^ 18) (2 ^ 28 * gamma.toNat)) - 2 ^ 18, w.2.1 + beta, w.2.2)

/-- The correction keys of a tile: every plane class, every column index. -/
def tileKeys (t : Nat) : List (Nat × Nat) := (List.range 11).flatMap (fun p => (List.range 270).map (fun col => (p, corrKey t p col)))

/-- New words of every column of a tile after a temperature pass; none when γ is implausible. -/
def recalTile (dT : Int) (c : Core) (t : Nat) (r : Int × Int) : Option (Tbl (Int × Int × Int)) :=
  if gainOk r.1 then some ((tileKeys t).map (fun k => (k.2, recalWord r.1 r.2 dT (corrWord c k.2)))) else none

/-! ### The fits of a drift pass -/

/-- The fits of the planes of a tile and class, left-out planes excepted. -/
def classFits (p : Pass) (tk cls : Nat) : List PlaneFit :=
  (p.fits.filter (fun e => planeTile e.1 == tk && planeClass (planeNo e.1) == cls && e.1 ∉ p.left)).map (·.2)

/-- G and O of a column that fit the charges u × S at u = 3 and u = 7 of all planes of a class (R173, R174): the gain from the pooled
differences of the two drives, the offset from the pooled intercepts. A column that held no charge gives none. -/
def fitColumn (kappa : Int) (fs : List PlaneFit) (col : Nat) : Option (Int × Int) :=
  let xs := fs.map (fun f => (2 ^ 28 + kappa * f.dT, f.cols.getD col (0, 0, 0)))
  let den := 5625 * sumInt (xs.map (fun x => (x.2.2.1 - x.2.1) * x.1))
  if den ≤ 0 then none
  else some (rneDiv (6400 * sumInt (xs.map (fun x => x.2.2.2)) * 2 ^ 46) den.toNat - 2 ^ 18,
    rneDiv (sumInt (xs.map (fun x => 7 * x.2.1 - 3 * x.2.2.1))) xs.length)

/-- The mean change of a column over the classes that were fitted. DESIGN CHOICE (log entry 97): the tile's mean change is taken column by
column, of G and of O each. -/
def meanChange (c : Core) (tk t col : Nat) (p : Pass) : Int × Int :=
  let ds := (List.range 11).filterMap (fun cls =>
    let w := corrWord c (corrKey t cls col)
    (fitColumn w.2.2 (classFits p tk cls) col).map (fun f => (f.1 - w.1, f.2 - w.2.1)))
  if ds = [] then (0, 0) else (rneDiv (sumInt (ds.map (·.1))) ds.length, rneDiv (sumInt (ds.map (·.2))) ds.length)

/-- New words of every column of a tile after a drift pass (R174). A class without a fit takes the tile's mean change. DESIGN CHOICE (log
entry 97): so does a class whose ALLOCATED planes were all left out; (log entry 79): a column of a fitted class that held no charge at all keeps its words. -/
def driftTile (p : Pass) (c : Core) (tk : Nat) : Tbl (Int × Int × Int) :=
  let t := tk % 16
  (tileKeys t).map (fun k =>
    let w := corrWord c k.2
    let col := k.2 % 270
    let fs := classFits p tk k.1
    if fs = [] then
      let d := meanChange c tk t col p
      (k.2, w.1 + d.1, w.2.1 + d.2, w.2.2)
    else match fitColumn w.2.2 fs col with
      | some f => (k.2, f.1, f.2, w.2.2)
      | none => (k.2, w))

/-! ### What drift remains (R172, R175) -/

/-- A and A_r count 1/16 h in units of 2^-20. -/
def ageUnit : Nat := 2 ^ 20

/-- The drift term σ_d² in 10^-6 LSB² at age A with the last drift recalibration at A_r (R172). -/
def driftTerm (a ar : Nat) : Nat := (70000 * ar + 270000 * (a - ar)) / (43830 * 16 * ageUnit)

/-- σ_n² in 10^-6 LSB² at a temperature in 1/16 °C (R132). -/
def noiseTerm (T : Int) : Int := if T < 400 then 6670 else 6670 + 1607 * (T - 400) / 16

/-- Deviation of a measured charge from the new fit, in 1/1024 LSB. -/
def fitResidual (w : Int × Int × Int) (dT a level : Int) (u : Int) : Int :=
  64 * a - 16 * w.2.1 - rneDiv (102400 * u * level * 2 ^ 46) (5625 * (2 ^ 18 + w.1) * (2 ^ 28 + w.2.2 * dT)).toNat

/-- The drift that remains in a class: the scatter of its fits less the quantisation term and the noise term of four strikes, in
10^-6 LSB². -/
def remainingDrift (T : Int) (t cls : Nat) (fs : List PlaneFit) (m : Tbl (Int × Int × Int)) : Int :=
  let xs := fs.flatMap (fun f => (List.range 270).flatMap (fun col =>
    let w := tget (0, 0, 0) m (corrKey t cls col)
    let x := f.cols.getD col (0, 0, 0)
    [fitResidual w f.dT x.1 x.2.2 3, fitResidual w f.dT x.2.1 x.2.2 7]))
  if xs = [] then 0
  else 1000000 * sumInt (xs.map (fun x => x * x)) / ((2 ^ 20 * xs.length : Nat) : Int) - 83521 - noiseTerm T / 4

/-- Layers with a plane in a class of a tile raise PRECISION (R175). -/
def driftPrecision (s : State) (tk cls : Nat) : State :=
  let ck := tk / 16
  let ps := (s.arr.desc.filter (fun e => e.2.state == 2 && planeTile e.1 == tk && planeClass (planeNo e.1) == cls)).map (·.1)
  ps.foldl (fun x p => match logicalKeyOf x p with
    | some l => precisionOn x ck l
    | none => x) s

/-- Classes of a tile whose remaining drift exceeds the model by more than 25 % raise PRECISION (R175). DESIGN CHOICE (log entry 98): the planes
that such a fit rests on are read back for defects (R205). -/
def reportDrift (s : State) (p : Pass) (tk : Nat) (m : Tbl (Int × Int × Int)) : State :=
  let g := regionOf s (coreRegion (tk / 16))
  (List.range 11).foldl (fun x cls =>
    let fs := classFits p tk cls
    if fs != [] && decide (((125 * driftTerm g.age g.age : Nat) : Int) < 100 * remainingDrift g.tRead (tk % 16) cls fs m) then
      (p.fits.filter (fun e => planeTile e.1 == tk && planeClass (planeNo e.1) == cls && e.1 ∉ p.left)).foldl
        (fun y e => queueReadback y e.1) (driftPrecision x tk cls)
    else x) s

/-! ### Taking results over -/

/-- The field record (R157, R171): the ages, and the results of drift recalibration. -/
def fieldOf (s : State) : FieldRecord :=
  { ages := s.regions.map (fun e => (e.1, (e.2.age, e.2.ageAtDrift))), corr := ((newest s.nv.field).map (·.corr)).getD [] }

/-- The field record is written, once a load has read it. -/
def saveField (s : State) : State := if s.rst.fresh && !inService s then s else { s with nv := { s.nv with field := writeCopy s.nv.field (fieldOf s) } }

/-- Results of a drift pass join the field record. -/
def saveDrift (s : State) (ms : List (Nat × Tbl (Int × Int × Int))) : State :=
  let f := fieldOf s
  let corr := ms.foldl (fun m (e : Nat × Tbl (Int × Int × Int)) =>
    e.2.foldl (fun n (w : Nat × (Int × Int × Int)) => tput n (47520 * (e.1 / 16) + w.1) (w.2.1, w.2.2.1)) m) f.corr
  { s with nv := { s.nv with field := writeCopy s.nv.field { f with corr := corr } } }

/-- One tile takes its new words for the temperature `T`, or keeps the ones it used when a column fails its check (R163). -/
def takeTile (s : State) (T : Int) (tk : Nat) (m : Option (Tbl (Int × Int × Int))) : State :=
  let ck := tk / 16
  match m with
  | some ws =>
    if ws.all (wordOk s T ck) then
      calPass (modCore s ck (fun c => { c with corr := ws.foldl (fun x (e : Nat × (Int × Int × Int)) => tset (0, 0, 0) x e.1 e.2) c.corr })) ck
        (tileUnit (tk % 16))
    else calReject s ck (tileUnit (tk % 16))
  | none => calReject s ck (tileUnit (tk % 16))

/-- A calibration command that waits for passes of a kind on a region goes on; it is answered once the last pass takes effect. -/
def passReply (rk kind : Nat) (s : State) (e : CmdEntry) : State :=
  let mine : Bool := match e.par with
    | .calRecal _ => kind == 1
    | .calDrift _ => kind == 2
    | _ => false
  match e.wait with
  | .passes rs n =>
    if mine && rk ∈ rs then
      let left := rs.filter (· != rk)
      if left = [] then finish s e.hdr.fn e.hdr.seq .ok {} n 0 else setWait s e.hdr.fn e.hdr.seq (.passes left n)
    else s
  | _ => s

/-- The staged results of a temperature pass, tile by tile. -/
def applyTemp (s : State) (rk : Nat) (p : Pass) : State :=
  let tP := meanTemp p.temps (regionOf s rk).tRead
  let dT := tP - (regionOf s rk).tCal
  let s1 := p.staged.foldl (fun x (e : Nat × (Int × Int)) => takeTile x tP e.1 (recalTile dT (coreOf x (e.1 / 16)) (e.1 % 16) e.2)) s
  modRegion s1 rk (fun g => { g with tCal := tP, again := p.temps.any (fun v => decide (16 * recalDelta s rk < (v - tP).natAbs)) })

/-- Tiles that a drift pass has measured. -/
def driftTiles (p : Pass) : List Nat := ((p.fits.filter (fun e => e.1 ∉ p.left)).map (fun e => planeTile e.1)).eraseDups

/-- The results of a drift pass: new words, A_r = A, the field record, and what R175 reports. -/
def applyDrift (s : State) (rk : Nat) (p : Pass) : State :=
  let ms := (driftTiles p).map (fun tk => (tk, driftTile p (coreOf s (tk / 16)) tk))
  let T := (regionOf s rk).tCal
  let s1 := ms.foldl (fun x (e : Nat × Tbl (Int × Int × Int)) => reportDrift (takeTile x T e.1 (some e.2)) p e.1 e.2) s
  let good := ms.filter (fun e => e.2.all (wordOk s T (e.1 / 16)))
  saveDrift (modRegion s1 rk (fun g => { g with ageAtDrift := g.age, ageGap := false })) good

/-- The results of a pass that is over take effect at a boundary. -/
def applyPass (s : State) (rk : Nat) : State :=
  match (regionOf s rk).pass with
  | none => s
  | some p =>
    if !passOver s rk p then s
    else
      let s1 := if p.kind = 1 then applyTemp s rk p else applyDrift s rk p
      let want := p.kind == 1 && (regionOf s1 rk).wantDrift
      let s2 := modRegion s1 rk (fun g =>
        { g with pass := if want then some { kind := 2 } else none, wantDrift := if p.kind = 1 then false else g.wantDrift,
                 passes := (g.passes + 1) % 256 })
      s2.cmdq.foldl (passReply rk p.kind) s2

/-- A core takes the DNL tables of the last CAL_SELF (R80). -/
def takeDnl (c : Core) : Core := match c.newDnl with
  | some m => { c with dnl := m, newDnl := none }
  | none => c

/-- Boundary: passes that are over take effect, the temperature latches, and a region that has moved, or that moved during the pass which took
effect at an earlier boundary, starts a pass (R80, R165, R168, R170). -/
def latchRegion (s : State) (rk : Nat) : State :=
  let again := (regionOf s rk).again
  let s1 := applyPass (modRegion s rk (fun g => { g with again := false })) rk
  let s2 := modRegion s1 rk (fun g => { g with tNow := g.tRead })
  let g := regionOf s2 rk
  if tempEn s2 rk && (again || 16 * recalDelta s2 rk < (g.tNow - g.tCal).natAbs) then startTemp s2 rk else s2

def latchRegions (s : State) : State :=
  let s1 := (s.regions.map (fun (r : Nat × Region) => r.1)).foldl latchRegion s
  { s1 with cores := s1.cores.map (fun (e : Nat × Core) => (e.1, takeDnl e.2)) }

/-! ## Slices (R166, R173) -/

def calSelfRunning (s : State) : Bool := s.cmdq.any (fun e => e.wait == .calSelf)

/-- A slice may start on a core: the last one at least `gap` ago, no tile of the core in a slice of this pass or of one that it put off, and no
CAL_SELF, whose first phase keeps the array drivers idle and whose others take the converters (R158, R166, R173). -/
def sliceFree (s : State) (p : Pass) (ck gap : Nat) : Bool :=
  p.slices.all (fun e => (if p.kind = 1 then e.1 / 16 else planeCore e.1) != ck || e.2 + gap ≤ now s)
    && (coreOf s ck).tiles.all (fun e => e.2.work.all (fun w => w.1 != 4 || w.2.2 ≤ now s)) && !calSelfRunning s

/-- When the slice of a tile begins: its current strobe, burst or switch ends first. -/
def sliceStart (s : State) (ck t : Nat) : Nat := max (now s) (tileOf (coreOf s ck) t).freeAt

/-- The tile is in state 4 for 20 µs. -/
def holdTile (s : State) (ck t : Nat) : State :=
  let b := sliceStart s ck t
  modCore s ck (fun c => modTile c t (fun x => addWork (now s) x 4 b (b + sliceNs)))

/-- The slice ends: the tile strobes for the forme again, on the plane it engaged before when the slice engaged others (R69, R173). -/
def freeTile (s : State) (ck t b : Nat) (former : Option Nat) : State :=
  modCore s ck (fun c => modTile c t (fun x => { x with freeAt := max x.freeAt (b + sliceNs), former := former.orElse (fun _ => x.former) }))

/-- Lowest-numbered ALLOCATED or STANDBY plane of a tile. -/
def lowestPlane (s : State) (tk : Nat) : Option Nat :=
  (List.range 1408).find? (fun p => (descOf s (planeKey tk p)).state == 1 || (descOf s (planeKey tk p)).state == 2)

/-- Corrected codes of `n` strikes of one column at one charge, summed in quarter LSB. -/
def strikeSum (s : State) (c : Core) (ck col q first n : Nat) : Int :=
  sumInt ((List.range n).map (fun i => correctedCode c col false (convert ck col false q (s.free + first + i)).1))

/-- Launches of strobes of a slice that fall due at given moments, each moved on until no strobe of the core overlaps it (R50, R59), with
the strobes of the core when they are placed. -/
def placeDue (len : Nat) : List Nat → List (Nat × Nat) → List Nat × List (Nat × Nat)
  | [], l => ([], l)
  | due :: r, l =>
    let b := firstFit (fun b => (b, b + len)) due l
    let x := placeDue len r (l ++ [(b, b + len)])
    (b :: x.1, x.2)

/-- Strobes of a slice, driven at `us`, that fall due at given moments: placed between the core's strobes, counted, with their energy and the
converter time they take; the tile is busy until the last has ended. A nibble is driven for 16 ns (R44) and converted at 9 bits. -/
def sliceStrobes (s : State) (ck t pk : Nat) (us : List (Nat × Nat)) (dues : List Nat) : State :=
  let w := strobeWindow 4 + convDelay s
  let tc := convTime false
  modCore s ck (fun c =>
    let x := placeDue (w + tc + 4) dues (c.strobes.filter (fun e => now s < e.2))
    let c1 := addSeqs (now s) c (x.1.map (· + w)) tc
    modTile { c1 with strobeCount := satAdd 64 c1.strobeCount dues.length, fineLast := false, strobes := x.2,
                      energy := c1.energy + dues.length * strobeEnergy s pk false us } t
      (fun y => { y with freeAt := x.1.foldl (fun m b => max m (b + w + tc + 4)) y.freeAt }))

/-- Rows driven at one code. -/
def rowsAt (rows : List Nat) (u : Nat) : List (Nat × Nat) := rows.map (fun r => (r, u))

/-- γ × 2^18 and β in 1/64 LSB from the sums of 64 codes of Y0 and Y1 in quarter LSB (R166, R167). At u = 7 the charges are 5,376 and
21,504 level·ns. DESIGN CHOICE (log entry 78): Y0 and Y1 have no corrections of their own; column 269 of the engaged plane's class, on the same
converter 67, predicts them, and the measured difference is divided by the change of the reference converters' readings. -/
def gammaBeta (w : Int × Int × Int) (dT a0 a1 : Int) (refs cal : Nat) : Int × Int :=
  (rneDiv (100 * (a1 - a0) * cal * (2 ^ 18 + w.1) * (2 ^ 28 + w.2.2 * dT)) (256 * refs * 28672 * 2 ^ 28),
   rneDiv (4 * a0 - a1) 12 - w.2.1)

/-- γ × 2^18 by one reference column alone: the sum of its 64 codes less its offset, against the charge of `base` / 256 of a quarter LSB that the
correction predicts. -/
def oneReference (w : Int × Int × Int) (dT a : Int) (base refs cal : Nat) : Int :=
  rneDiv (300 * (a - 4 * w.2.1) * cal * (2 ^ 18 + w.1) * (2 ^ 28 + w.2.2 * dT)) (256 * refs * base * 2 ^ 28)

/-- What a slice stages: γ and β of both reference columns, or γ of the one that works (R20), and nothing when none works. DESIGN CHOICE (log
entry 94): one column alone gives no offset shift. -/
def sliceResult (x : Tile) (w : Int × Int × Int) (dT a0 a1 : Int) (refs cal : Nat) : Option (Int × Int) :=
  if x.badY0 then if x.badY1 then none else some (oneReference w dT a1 114688 refs cal, 0)
  else if x.badY1 then some (oneReference w dT a0 28672 refs cal, 0)
  else some (gammaBeta w dT a0 a1 refs cal)

/-- RECAL_SLICE. The plane that a burst took away is engaged anew first (R69). Over-range marks of reference strobes do not count, and their codes reach neither the skim path nor a capture (R166). -/
def recalSliceOp (s : State) (ck t refs : Nat) : State :=
  let rk := coreRegion ck
  match (regionOf s rk).pass with
  | none => s
  | some p =>
    let tk := tileKey ck t
    if p.kind ≠ 1 ∨ passOver s rk p ∨ coreFenced s ck ∨ !stackDriven s (coreStack ck) ∨ tk ∈ p.slices.map (·.1)
        ∨ (coreOf s ck).testing.isSome ∨ !sliceFree s p ck 100000 then s
    else
      let b := sliceStart s ck t
      let s0 := reengage (holdTile s ck t) ck t
      let s1 := if (tileOf (coreOf s0 ck) t).engaged.isSome then s0
        else match lowestPlane s tk with
          | some q => engageChecked s0 ck t q
          | none => s0
      let p1 := { p with slices := p.slices ++ [(tk, b)] }
      match (tileOf (coreOf s1 ck) t).engaged with
      | none => modRegion (freeTile s1 ck t b none) rk (fun g => { g with pass := some p1 })
      | some q =>
        let pk := planeKey tk q
        let us := rowsAt (List.range 256) 7
        let c := coreOf s1 ck
        let a := fun (col : Nat) => strikeSum s1 c ck col (columnCharge s1 pk us col) 0 64
        let g := regionOf s1 rk
        let r := sliceResult (tileOf c t) (corrWord c (corrKey t (planeClass q) 269)) (g.tRead - g.tCal) (a 270) (a 271) refs (Config.refReading rk)
        let s2 := freeTile (sliceStrobes s1 ck t pk us ((List.range 64).map (fun i => b + 1000 + 80 * i))) ck t b none
        modRegion { s2 with free := s2.free + 64 } rk (fun g =>
          { g with pass := some { p1 with staged := (r.map (tput p1.staged tk)).getD p1.staged } })

/-- The level sum of a column over the rows that a drift slice drives, from the sum record: Σ S_cj (R76). -/
def driftLevel (s : State) (pk : Nat) (rows : List Nat) (col : Nat) : Int := sumNat (rows.map (fun r => intendedLevel s pk r col))

/-- One plane of a drift slice (R173): 120 ns to switch, then four strikes at u = 3 and four at u = 7 of all non-skim rows, each as soon as the
core's other strobes let it (R50). -/
def driftPlane (rk ck t : Nat) (x : State × Tbl PlaneFit) (q : Nat) : State × Tbl PlaneFit :=
  let pk := planeKey (tileKey ck t) q
  let s1 := engageChecked x.1 ck t q
  if (tileOf (coreOf s1 ck) t).engaged ≠ some q then (s1, x.2)
  else
    let rows := (List.range 256).filter (fun r => !(skimRowsOf (descOf s1 pk)).any (fun k => k.2 == r))
    let c := coreOf s1 ck
    let b := (tileOf c t).freeAt
    let sums := fun (u first col : Nat) => strikeSum s1 c ck col (columnCharge s1 pk (rowsAt rows u) col) first 4
    let cols := (List.range 270).map (fun col => (sums 3 0 col, sums 7 4 col, driftLevel s1 pk rows col))
    let g := regionOf s1 rk
    let s2 := sliceStrobes (sliceStrobes s1 ck t pk (rowsAt rows 3) (List.replicate 4 b)) ck t pk (rowsAt rows 7) (List.replicate 4 b)
    ({ s2 with free := s2.free + 8 }, tput x.2 pk { dT := g.tRead - g.tCal, cols := cols })

/-- DRIFT_SLICE. -/
def driftSliceOp (s : State) (ck t : Nat) (planes : List Nat) : State :=
  let rk := coreRegion ck
  match (regionOf s rk).pass with
  | none => s
  | some p =>
    let tk := tileKey ck t
    if p.kind ≠ 2 ∨ passOver s rk p ∨ coreFenced s ck ∨ !stackDriven s (coreStack ck) ∨ (coreOf s ck).testing.isSome ∨ 40 < planes.length
        ∨ planes.any (fun n => (descOf s (planeKey tk n)).state != 2 || planeKey tk n ∈ p.slices.map (·.1)) ∨ !sliceFree s p ck 1000000 then s
    else
      let b := sliceStart s ck t
      let s0 := reengage (holdTile s ck t) ck t
      let x := planes.foldl (driftPlane rk ck t) (s0, p.fits)
      let s1 := freeTile x.1 ck t b (tileOf (coreOf s0 ck) t).engaged
      modRegion s1 rk (fun g => passingTransfers false 1 { g with
        pass := some { p with slices := p.slices ++ planes.map (fun n => (planeKey tk n, b)), fits := x.2 } })

/-! ## Age (R171) -/

/-- Acceleration factor in fixed point, at a temperature in 1/16 °C. -/
def accel (T : Int) : Int :=
  let kelvin : Int := 100 * T + 16 * 27315
  if kelvin ≤ 0 then 0
  else expGen (8123 * fixOne * 100 / 35815 - 8123 * fixOne * 1600 / kelvin)

/-- Age added by `dt` ns at a temperature. -/
def ageAdded (T : Int) (dt : Nat) : Nat := (accel T * dt * (16 * ageUnit : Nat) / (3600000000000 * fixOne)).toNat

/-- A tick ages a region and evaluates its drift term (R171, R172). -/
def ageRegion (dt : Nat) (g : Region) : Region :=
  let a := g.age + ageAdded g.tArray dt
  { g with age := a, driftVar := driftTerm a g.ageAtDrift }

/-- Time without power, credited at AF 0.04. -/
def unpoweredAge (dt : Nat) : Nat := dt * 16 * ageUnit / (25 * 3600000000000)

def driftDue (s : State) (rk : Nat) : Bool :=
  let g := regionOf s rk
  driftInterval s rk * 16 * ageUnit ≤ g.age - g.ageAtDrift || g.ageGap

def driftStartOp (s : State) (rk : Nat) : State :=
  if inService s && driftDue s rk && (regionOf s rk).pass.all (fun p => p.kind != 2) && !(regionOf s rk).wantDrift
  then startDrift s rk else s

/-! ## Band-gap checks (R152-R154) -/

/-- The band-gap deviation of a stack in µV: the reading less the difference recorded at the factory. -/
def deviation (s : State) (x : Nat × Int) : Int := x.2 - tget 0 s.nv.bandDiff x.1

/-- What firmware does about the deviation of one stack; a second one in a row beyond 18 mV fences the stack (R23). `tick`: the check is a
tick's. DESIGN CHOICE (log entry 96): the one of CAL_SELF marks and starts passes as a tick's does, fences no stack, and neither starts nor
ends a run of ticks; a single deviation beyond 18 mV marks nothing, starts no pass and leaves an older mark as it is. -/
def bandStack (tick : Bool) (s : State) (x : Nat × Int) : State :=
  let ps := x.1
  let d := x.2.natAbs
  let near : BandGap := if tick then { s.bandgap with beyond := s.bandgap.beyond.filter (· != ps) } else s.bandgap
  if d ≤ 6000 then { s with bandgap := { near with suspect := s.bandgap.suspect.filter (· != ps) } }
  else if d ≤ 18000 then
    (List.range 16).foldl (fun x g => startTemp x (regionKey ps g)) { s with bandgap := { near with suspect := addOnce s.bandgap.suspect ps } }
  else if !tick then s
  else if ps ∈ s.bandgap.beyond then fenceFor s (.stack ps) .bandGap 0
  else { s with bandgap := { s.bandgap with beyond := addOnce s.bandgap.beyond ps } }

/-- The cross-check of the band-gaps: readings by stack. While the hub's own is suspect the checks are suspended. A tick without a reading of a
stack ends its run of ticks. -/
def bandGapOp (s0 : State) (tick : Bool) (readings : List (Nat × Int)) : State :=
  let s := if tick then { s0 with bandgap := { s0.bandgap with
    beyond := if s0.bandgap.hubSuspect then [] else s0.bandgap.beyond.filter (· ∈ readings.map (·.1)) } } else s0
  let l := readings.map (fun x => (x.1, deviation s x))
  if s.bandgap.hubSuspect then s
  else if 18 < (l.filter (fun (x : Nat × Int) => 6000 < x.2)).length ∨ 18 < (l.filter (fun (x : Nat × Int) => x.2 < -6000)).length then
    addReport { s with bandgap := { s.bandgap with hubSuspect := true, beyond := [] } } { fenceReport s .module .hubRefSuspect 0 none with second := 0 }
  else (l.filter (fun (x : Nat × Int) => !stackFenced s x.1)).foldl (bandStack tick) s

/-! ## CAL_SELF (R158-R164) -/

/-- A plane is in PROGRAMMING. -/
def anyProgramming (s : State) : Bool := s.arr.desc.any (fun e => e.2.state == 5)

def calSelfOp (h : Hdr) (s : State) : State :=
  if s.sched.step.isSome || s.reqs.any (fun e => e.2.state != .held) then reply s h .dataPlaneActive
  else if anyProgramming s then reply s h .plateBusy
  else setWait s h.fn h.seq .calSelf

/-- The factory's trims of a column converter. -/
def factoryTrim (s : State) (ck k : Nat) : Nat × Int := tget (0x200, 0) (tget [] s.nv.factoryTrim ck) k

/-- The corrected codes of a DNL table rise strictly over the whole code range, in 9 bits and in fine mode (R162). -/
def dnlRises (m : Tbl Int) : Bool :=
  (List.range 511).all (fun c => decide (4 * (c : Int) + tget 0 m c < 4 * (c + 1) + tget 0 m (c + 1)))
    && (List.range 2047).all (fun c => decide ((c : Int) + tget 0 m (2048 + c) < c + 1 + tget 0 m (2049 + c)))

/-- A converter's result against the limits of R162: the gain, 1 at trim 0x200 and 0.02 % a step, within ±6 % of the factory's, the offset
within ±12 LSB of it, the DNL table strictly increasing. -/
def trimOk (s : State) (ck : Nat) (r : TrimResult) : Bool :=
  let f := factoryTrim s ck r.conv
  decide (100 * ((r.gain : Int) - f.1).natAbs ≤ 6 * (4488 + f.1)) && decide ((r.offset - f.2).natAbs ≤ 96) && dnlRises r.dnl

/-- A converter's new DNL table replaces its part of the core's tables. -/
def withDnl (m : Tbl Int) (conv : Nat) (new : Tbl Int) : Tbl Int :=
  new.foldl (fun x (e : Nat × Int) => tset 0 x (conv * 4096 + e.1) e.2) (m.filter (fun e => e.1 / 4096 != conv))

/-- One converter's result: new trims, a reject, or a failed converter (R70). A DNL table is taken at the next boundary (R80). -/
def trimOne (ck : Nat) (s : State) (r : TrimResult) : State :=
  if r.failed then converterFailed s ck r.conv
  else if trimOk s ck r then
    calPass (modCore s ck (fun c => { c with factor := tput c.factor r.conv (r.gain, r.offset, true),
                                             newDnl := some (withDnl (c.newDnl.getD c.dnl) r.conv r.dnl) })) ck r.conv
  else calReject s ck r.conv

/-- The results of one core; a core without a failed converter starts its attribution anew (R70). -/
def trimCore (s : State) (e : Nat × List TrimResult) : State :=
  let s1 := e.2.foldl (trimOne e.1) s
  if e.2.any (·.failed) then s1 else modCore s1 e.1 (fun c => { c with groupFails := [] })

def modSense (s : State) (conv : Nat) (f : Sense → Sense) : State :=
  if conv < 640 then modRegion s conv (fun g => { g with sense := f g.sense })
  else { s with hubSense := tset {} s.hubSense (conv - 640) (f (tget {} s.hubSense (conv - 640))) }

def senseOf (s : State) (conv : Nat) : Sense := if conv < 640 then (regionOf s conv).sense else tget {} s.hubSense (conv - 640)

/-- A sense or reference converter's result against the limits of R162. -/
def unitOk (s : State) (r : UnitTrim) : Bool :=
  let f := tget (0, 0) s.nv.factoryUnit r.unit
  gainNear r.gain f.1 && offsetNear r.offset f.2

/-- One sense or reference converter: new trims and a cleared mark, or a reject (R163, R164). DESIGN CHOICE (log entry 79): R164 gives no
fence for a reference converter, which belongs to no core. -/
def trimUnit (s : State) (r : UnitTrim) : State :=
  let ok := unitOk s r
  if r.unit < 644 then
    let s1 := modSense s r.unit (fun q => if ok then { q with trim := some (r.gain, r.offset), rejectRun := 0 } else { q with rejectRun := q.rejectRun + 1 })
    if !ok && r.unit < 640 then regionReject s1 r.unit else s1
  else if 1000 ≤ r.unit ∧ r.unit < 2280 then
    let rk := (r.unit - 1000) / 2
    let i := r.unit % 2
    if ok then modRegion s rk (fun g => { g with refTrim := tput g.refTrim i (r.gain, r.offset), refRuns := tdel g.refRuns i })
    else regionReject (modRegion s rk (fun g => { g with refRuns := tset 0 g.refRuns i (tget 0 g.refRuns i + 1) })) rk
  else s

/-- CAL_SELF ends: the checks of the band-gaps take up again, and the new trims become valid at once (R154, R158, R159). -/
def calSelfCompleteOp (s : State) (results : TrimSearch) (bandgap : List (Nat × Int)) : State :=
  match s.cmdq.find? (fun e => e.wait == .calSelf) with
  | none => s
  | some e =>
    let s0 := bandGapOp { s with bandgap := { s.bandgap with hubSuspect := false } } false bandgap
    let s1 := results.units.foldl trimUnit (results.columns.foldl trimCore s0)
    finish { s1 with rst := { s1.rst with calDone := true } } e.hdr.fn e.hdr.seq .ok {} 0 0

/-! ## CAL_RECAL and CAL_DRIFT -/

/-- The physical regions an address word names on which a pass can run. -/
def namedRegions (s : State) (w : Nat) : List Nat :=
  (match namedUnit s w with
    | some .module => List.range nRegions
    | some (.region p g) => [regionKey p g]
    | _ => []).filter (passRegion s)

def calPassOp (h : Hdr) (w : Nat) (start : State → Nat → State) (s : State) : State :=
  if !s.rst.calDone then reply s h .calRequired
  else if (namedUnit s w).isNone then reply s h .addressInvalid
  else
    let rs := namedRegions s w
    if rs = [] then replyOk s h 0 0
    else setWait (wantBoundary (rs.foldl start s)) h.fn h.seq (.passes rs rs.length)

/-! ## Sense converters (R176-R181) -/

def senseEn (w : Nat) : Bool := bitAt w 31
def senseOrder (w : Nat) : Nat := fld w 27 26 + 1
def senseDecim (w : Nat) : Nat := max 16 (fld w 23 8)
def senseChannel (w : Nat) : Nat := fld w 7 0

/-- N of a host entry (R178). -/
def hostDecim (w : Nat) : Nat := if 6250 < senseOrder w * senseDecim w then 6250 / senseOrder w else senseDecim w

/-- Settling time of a result in ns (R176). -/
def settleNs (w : Nat) (host : Bool) : Nat := 40 * senseOrder w * (if host then hostDecim w else senseDecim w)

/-- Channel codes of R181. -/
def channelKnown (conv ch : Nat) : Bool :=
  if conv < 640 then ch ≤ 7
  else ch ≤ 3 || ch == 6 || ch == 7 || (0x10 ≤ ch && ch ≤ 0x19) || (0x20 ≤ ch && ch ≤ 0x29)

/-- The firmware pass converts both temperature channels of a region and channels 0x00-0x03 of the hub (DESIGN CHOICE, log entry
17): sinc4 at N = 250. -/
def fwEntry (conv n : Nat) : Nat :=
  if n < (if conv < 640 then 2 else 4) then 2 ^ 31 + 3 * 2 ^ 26 + 250 * 2 ^ 8 + n else 0x1900

/-- SENSE_ENTRY as the converter uses it. -/
def entryWord (s : State) (conv n : Nat) : Nat := if n < 16 then fwEntry conv n else senseEntry s conv n

def windowAdd (w : Window) (chan : Nat) (v : Int) : Window :=
  if w.count = 0 then ⟨v, 1, v, v, chan, 0⟩ else ⟨w.sum + v, satAdd 16 w.count 1, min w.lo v, max w.hi v, chan, 0⟩

/-- One result of an entry in use. -/
def senseResult (s : State) (r : SenseResult) : State :=
  let w := entryWord s r.conv r.entry
  if 32 ≤ r.entry ∨ !senseEn w then s
  else
    let ch := senseChannel w
    let known := channelKnown r.conv ch
    let v : Int := if known then r.code else 0
    modSense s r.conv (fun q =>
      { q with run := tput q.run r.entry (windowAdd (tget {} q.run r.entry) ch v), badChannel := q.badChannel || !known,
               proof := if s.sec.proof then tput q.proof r.entry (ch, v) else q.proof })

/-- A pass of a converter is complete: after 2^WINDOW of them the entries show their windows (R180). -/
def fwEntries : List Nat := List.range 16
def hostEntries : List Nat := (List.range 16).map (16 + ·)

/-- Temperature channels of the sense converters (R181). -/
def tempChannel (conv ch : Nat) : Bool := if conv < 640 then ch ≤ 1 else ch == 2

/-- A window that a confidential tenant's presence holds back: a temperature shown less than 100 ms ago (R389). -/
def windowHeld (s : State) (conv : Nat) (old new : Window) : Bool :=
  confPresent s && tempChannel conv new.chan && 0 < old.count && now s < old.shownAt + 100000000

def showWindows (s : State) (conv : Nat) (entries : List Nat) (q : Sense) : Sense :=
  { q with shown := entries.foldl (fun m i => match tfind q.run i with
      | some w => if windowHeld s conv (tget {} m i) w then m else tput m i { w with shownAt := now s }
      | none => m) q.shown, run := q.run.filter (fun e => e.1 ∉ entries) }

def passDoneSense (s : State) (conv : Nat) (host : Bool) : State :=
  let limit := 2 ^ fld (senseTrig s conv) 23 20
  modSense s conv (fun q =>
    if host then
      if q.hostPasses + 1 < limit then { q with hostPasses := q.hostPasses + 1 } else { showWindows s conv hostEntries q with hostPasses := 0 }
    else if q.passes + 1 < limit then { q with passes := q.passes + 1 } else { showWindows s conv fwEntries q with passes := 0 })

/-- Time a pass takes. -/
def passNs (s : State) (conv : Nat) (host : Bool) : Nat :=
  sumNat (((if host then hostEntries else fwEntries).filter (fun n => senseEn (entryWord s conv n))).map (fun n =>
    settleNs (entryWord s conv n) host))

/-- When the host entry under way at `t` ends, for a pass that started at `b`; none when no entry is under way (R179). -/
def hostEntryEnd (s : State) (conv t : Nat) : Nat → List Nat → Option Nat
  | _, [] => none
  | b, n :: r =>
    let e := b + settleNs (entryWord s conv n) true
    if t < e then some e else hostEntryEnd s conv t e r

/-- The firmware pass starts at once, or as soon as the current host entry ends; the host pass then resumes, later by its length (R179). -/
def fwPassBusy (s : State) (conv : Nat) : State :=
  let q := senseOf s conv
  let len := passNs s conv false
  let mine := hostEntries.filter (fun n => senseEn (entryWord s conv n))
  if q.hostFrom ≤ now s ∧ now s < q.hostUntil then
    let b := (hostEntryEnd s conv (now s) q.hostFrom mine).getD (now s)
    modSense s conv (fun q => { q with fwUntil := b + len,
                                       hostFrom := if b < q.hostUntil then q.hostFrom + len else q.hostFrom,
                                       hostUntil := if b < q.hostUntil then q.hostUntil + len else q.hostUntil })
  else modSense s conv (fun q => { q with fwUntil := now s + len })

/-- The trigger source of a host pass is set, and its event timer is one that the host holds. -/
def triggered (s : State) (conv : Nat) : Bool :=
  let w := senseTrig s conv
  match fld w 31 30 with
  | 1 => match tfind s.share.timers (fld w 29 24) with
    | some (.inl _) => true
    | _ => false
  | 2 => true
  | _ => false

def hostPassOp (s : State) (conv edge : Nat) (rs : List SenseResult) : State :=
  let w := senseTrig s conv
  if !triggered s conv then s
  else if edge < (senseOf s conv).hostUntil then modSense s conv (fun q => { q with miss := satAdd 16 q.miss 1 })
  else if now s < edge + fld w 15 0 then s
  else
    let mine := rs.filter (fun r => r.conv == conv && 16 ≤ r.entry)
    let s1 := passDoneSense (mine.foldl senseResult s) conv true
    modSense s1 conv (fun q => { q with hostFrom := edge + fld w 15 0, hostUntil := edge + fld w 15 0 + passNs s conv true })

/-! ## Rows -/

def execCalSelf (h : Hdr) (t : Nat) (s : State) : Host.Outcome State Fault Refusal := runCmd h .calSelf t s (calSelfOp h)

def execCalRecal (h : Hdr) (addr : Nat) (t : Nat) (s : State) : Host.Outcome State Fault Refusal :=
  runCmd h (.calRecal addr) t s (calPassOp h addr startTemp)

def execCalDrift (h : Hdr) (addr : Nat) (t : Nat) (s : State) : Host.Outcome State Fault Refusal :=
  runCmd h (.calDrift addr) t s (calPassOp h addr startDrift)

/-- A tile of the module by the fields of its address (R18). -/
def onTile (stack region core tile : Nat) (s : State) : Host.Outcome State Fault Refusal :=
  if stack < 40 ∧ region < 16 ∧ core < 160 ∧ tile < 16 then .next s else .fault .noSuchUnit

def execRecalSlice (stack region core tile refs : Nat) (t : Nat) (s : State) : Host.Outcome State Fault Refusal :=
  onTile stack region core tile (recalSliceOp (advance t s) (coreKey stack region core) tile refs)

/-- A physical region of the module. -/
def onRegion (rk : Nat) (s : State) : Host.Outcome State Fault Refusal := if rk < nRegions then .next s else .fault .noSuchUnit

def execDriftPassStart (region : Nat) (t : Nat) (s : State) : Host.Outcome State Fault Refusal :=
  onRegion region (driftStartOp (advance t s) region)

def execDriftSlice (stack region core tile plane : Nat) (more : List Nat) (t : Nat) (s : State) : Host.Outcome State Fault Refusal :=
  onTile stack region core tile (driftSliceOp (advance t s) (coreKey stack region core) tile (plane :: more))

def execCalSelfComplete (results : TrimSearch) (bandgap : List (Nat × Int)) (t : Nat) (s : State) : Host.Outcome State Fault Refusal :=
  .next (calSelfCompleteOp (advance t s) results bandgap)

def execHostSensePass (conv edge : Nat) (results : List SenseResult) (t : Nat) (s : State) : Host.Outcome State Fault Refusal :=
  if conv < 644 then .next (hostPassOp (advance t s) conv edge results) else .fault .noSuchUnit

/-- The hourly commit of the ages, in service (R171). -/
def ageCommitOp (s : State) : State :=
  if inService s && s.rst.lastAge + oneHour ≤ now s then saveField { s with rst := { s.rst with lastAge := now s } } else s

def execAgeCommit (t : Nat) (s : State) : Host.Outcome State Fault Refusal := .next (ageCommitOp (advance t s))

end Sys2Proof.Machine
end

