-- ==== Sys2Proof/Machine/Galley.lean ====
section
/-! DEFINITION. The galley (R225-R230), the consume mirror (R228), packet taking (R226, R244) and the reply head (R237). -/

namespace Sys2Proof.Machine

/-- Size of a function's galley in bytes (R452). -/
def galleySize (fn : Nat) : Nat := if fn = 0 then 4194304 else 65536

/-- The host port works: power is up and no reset holds the module. -/
def hostUp (s : State) : Bool := s.rst.phase != .inReset && s.rst.phase != .latched && s.rst.phase != .noFirmware

/-- A header at F (R226, R227): the failure it makes, if any: true GALLEY_OVERRUN, false GALLEY_HEADER. -/
def headerFault (fn : Nat) (f : FnBlk) (b : List Byte) : Option Bool :=
  let len := leAt b 4 2
  if len < 1 ∨ 257 < len ∨ leAt b 8 4 ≠ f.nextSeq then some false
  else if galleySize fn - f.stored.length < 16 * len then some true
  else none

/-- Bytes accepted at F. DESIGN CHOICE (log entry 107): a write of any number of bytes is accepted, though F is shown in words of four. -/
def acceptBytes (fn : Nat) (f : FnBlk) (b : List Byte) : FnBlk :=
  { f with stored := f.stored ++ b, frontier := (f.frontier + b.length) % galleySize fn, due := f.due - b.length }

/-- One write from F on: the rest of the packet in arrival, then headers where they are due. DESIGN CHOICE (log entry 107): what comes before a
header that faults is kept, and F has moved by it. -/
def galleyBytes (fn : Nat) : Nat → FnBlk → List Byte → FnBlk
  | 0, f, _ => f
  | fuel + 1, f, b =>
    if b = [] then f
    else if f.due ≠ 0 then galleyBytes fn fuel (acceptBytes fn f (b.take f.due)) (b.drop f.due)
    else if b.length < 16 then { f with header := true, droppedSeq := f.nextSeq }
    else match headerFault fn f b with
      | some true => { f with overrun := true, droppedSeq := leAt b 8 4 }
      | some false => { f with header := true, droppedSeq := leAt b 8 4 }
      | none =>
        let n := 16 * leAt b 4 2
        galleyBytes fn fuel
          (acceptBytes fn { f with due := n, nextSeq := (f.nextSeq + 1) % 2 ^ 32 } (b.take n)) (b.drop n)

/-- A locked or running TDI takes only requests on its IDE stream (R459). -/
def barOpen (s : State) (fn : Nat) : Bool := (fnOf s fn).ide || ((fnOf s fn).tdi != 1 && (fnOf s fn).tdi != 2)

/-- A host write to a galley: accepted only at F (R225). -/
def galleyWriteOp (s : State) (fn off : Nat) (b : List Byte) : State :=
  let f := fnOf s fn
  if hostUp s && barOpen s fn && off == f.frontier then setFn s fn (galleyBytes fn (b.length + 1) f b) else s

/-! ## The consume mirror -/

/-- An entry is a command, and not an unsolicited reply that waits for room. -/
def isCommand (e : CmdEntry) : Bool := match e.wait with
  | .replyRoom r => !r.cond.unsolicited
  | _ => true

/-- Commands accepted and not completed, of a function or, for the physical function, of all (R228). -/
def queueCount (s : State) (fn : Nat) : Nat := (s.cmdq.filter (fun e => isCommand e && (fn == 0 || e.hdr.fn == fn))).length

/-- LATENCY as it is shown: in whole ms while a confidential tenant is present (R389). -/
def latencyShown (s : State) (f : FnBlk) : Nat := if s.sec.confPresent then f.latency / 1000 * 1000 else f.latency

def mirrorBytes (s : State) (fn : Nat) : List Byte :=
  let f := fnOf s fn
  leBytes 4 f.consume ++ leBytes 4 f.nextSeq ++ leBytes 4 f.frontier ++ leBytes 2 (queueCount s fn)
    ++ leBytes 2 (b2n f.overrun + 2 * b2n f.header + 4 * b2n s.aon.limp) ++ leBytes 4 f.droppedSeq ++ leBytes 4 (latencyShown s f)
    ++ leBytes 8 0

def mirrorAddr (f : FnBlk) : Nat := f.mirrorHi.toNat * 2 ^ 32 + fld f.mirrorLo.toNat 31 6 * 64

/-- Write a function's mirror when it is enabled. -/
def writeMirror (s : State) (fn : Nat) : State :=
  let f := fnOf s fn
  if bitAt f.mirrorLo.toNat 0 && !f.d3hot then hostWrite s fn (mirrorAddr f) (mirrorBytes s fn) else s

def writeMirrors (s : State) : State := (s.fns.map (·.1)).foldl writeMirror s

/-! ## Taking packets -/

/-- Length in bytes of the first untaken packet when it is complete. -/
def completePacket (f : FnBlk) : Option Nat :=
  let n := 16 * leAt f.stored 4 2
  if n ≠ 0 ∧ n ≤ f.stored.length then some n else none

/-- A function whose first packet may be taken: not in D3hot (R457), its reply store not full (R237). -/
def takeable (s : State) (fn : Nat) : Bool :=
  let f := fnOf s fn
  (completePacket f).isSome && !f.d3hot && f.store.length < storeMax

/-- Functions in round-robin order from the turn. -/
def rotation (s : State) : List Nat := (List.range Config.functions).map (fun i => (s.turn + i) % Config.functions)

/-- Firmware takes one packet (R226, R230, R244). A packet with an unassigned opcode is answered as it is taken. -/
def packetTakeOp (s : State) : State :=
  if hostUp s && s.cmdq.length < queueMaxCmds then
    match (rotation s).find? (takeable s) with
    | none => s
    | some fn =>
      let f := fnOf s fn
      let n := (completePacket f).getD 0
      let d := decodePacket fn (f.stored.take n)
      let s1 := { setFn s fn { f with stored := f.stored.drop n, consume := (f.consume + n) % galleySize fn } with
                  turn := (fn + 1) % Config.functions }
      let s2 := match d.2 with
        | some p => { s1 with cmdq := s1.cmdq ++ [{ hdr := d.1, par := p, taken := now s, wait := .queued, attempts := 0 }] }
        | none => pushReply (drawn s1) { fn := fn, seq := d.1.seq, opcode := leAt f.stored 0 2, status := .opcodeUnknown, cond := {},
                                         txn := d.1.txn, source := 1 + drawNat s1 % 3, r0 := 0, r1 := 0, irq := d.1.irq, taken := some (now s) }
      writeMirror s2 fn
  else s

/-- A galley reset (R230): packets not taken are discarded; commands taken keep running. -/
def resetGalley (f : FnBlk) : FnBlk := { f with stored := [], frontier := 0, consume := 0, nextSeq := 1, due := 0 }

/-- The packets a galley stores, complete or in arrival: their headers. -/
def storedHeaders : Nat → List Byte → List (List Byte)
  | 0, _ => []
  | fuel + 1, b => if b.length < 16 then [] else b.take 16 :: storedHeaders fuel (b.drop (16 * max 1 (leAt b 4 2)))

/-- The galley reset of a function. A command of a transaction that it discards was not idle until now (R241). -/
def dropGalley (s : State) (fn : Nat) : State :=
  let b := (fnOf s fn).stored
  (if fn = 0 then (storedHeaders b.length b).map (fun h => leAt h 12 2) else []).foldl touchTxn (modFn s fn resetGalley)

/-- A command of the transaction is stored in a galley, waits or executes, or its reply is not written yet (R241). -/
def txnActive (s : State) (id : Nat) : Bool :=
  s.cmdq.any (fun e => e.hdr.txn == id && (roomReply e).all (fun r => r.taken.isSome))
    || (fnOf s 0).store.any (fun r => r.txn == id && r.taken.isSome)
    || (storedHeaders (fnOf s 0).stored.length (fnOf s 0).stored).any (fun h => leAt h 12 2 == id)

/-! ## Rows -/

def execGalleyWrite (fn off : Nat) (bytes : List Byte) (t : Nat) (s : State) : Host.Outcome State Fault Refusal :=
  onFn fn (galleyWriteOp (advance t s) fn off bytes)

def execPacketTake (t : Nat) (s : State) : Host.Outcome State Fault Refusal := .next (packetTakeOp (advance t s))

def execGalleyReset (fn : Nat) (value : W32) (t : Nat) (s : State) : Host.Outcome State Fault Refusal :=
  let s1 := advance t s
  onFn fn (if hostUp s1 && barOpen s1 fn && bitAt value.toNat 0 then dropGalley s1 fn else s1)

def execReplyHeadWrite (fn : Nat) (value : W32) (t : Nat) (s : State) : Host.Outcome State Fault Refusal :=
  let s1 := advance t s
  onFn fn (if hostUp s1 && barOpen s1 fn then pumpReplies (modFn s1 fn (fun f => { f with head := fld value.toNat 15 0 })) fn else s1)

end Sys2Proof.Machine
end

