-- ==== Sys2Proof/Machine/Ladder.lean ====
section
/-! DEFINITION. The fallback ladder and budget of 05_precision (R140-R149): which layers a step raised, how rungs move at a seal,
and what promotion costs. -/

namespace Sys2Proof.Machine

/-! ## The ladder of a layer -/

/-- Its rungs (R140, R142): a layer with IN_BITS 8 has no rung 1. -/
def ladder (l : LayerRec) : List Nat := (if l.inBits = 8 then [0, 2, 3] else [0, 1, 2, 3]).filter (· ≤ l.maxRung)

def rungUp (l : LayerRec) (r : Nat) : Nat := ((ladder l).find? (fun x => r < x)).getD r
def rungDown (l : LayerRec) (r : Nat) : Nat := (((ladder l).filter (fun x => x < r)).getLast?).getD 0

/-! ## What a step raised (R101, R141) -/

def layerCount (k : Step) (f : CoreSummary → Tbl Nat) (slot layer : Nat) : Nat :=
  sumNat (k.summaries.map (fun c => tget 0 (f c) (layerKey slot layer)))

/-- The layer raised PRECISION in the step. -/
def raised (k : Step) (slot : Nat) (l : LayerRec) : Bool :=
  k.summaries.any (fun c => (slot, l.layer) ∈ c.precision) || nearOf l ≤ layerCount k (·.near) slot l.layer
    || satOf l ≤ layerCount k (·.sat) slot l.layer

/-- The row's pass ran a forme: its own, or the draft forme beside it. -/
def runsForme (s : State) (w : Row) (slot : Nat) : Bool :=
  w.slot == slot || (w.draft != 0 && (formeOf s w.slot).any (fun f => f.image.sched.draftSlot == slot))

/-- One layer at a seal (R142-R144). DESIGN CHOICE (log entry 100): a step in which no request ran the layer keeps its count, as one does in which
every request was denied. -/
def moveLayer (s : State) (k : Step) (slot : Nat) (l : LayerRec) (x : LayerState) : LayerState :=
  let rows := k.rows.filter (fun w => runsForme s w slot)
  if raised k slot l then
    let up := if fbEn s then rungUp l x.rung else x.rung
    if up ≠ x.rung then { rung := up, clean := 0, ladderEnd := false, reported := false, precLast := true }
    else { x with clean := 0, precLast := true, ladderEnd := x.ladderEnd || rungUp l x.rung == x.rung }
  else if rows.any (fun w => w.granted || x.rung == 0) then
    let n := x.clean + 1
    if x.rung ≠ 0 ∧ fbHold s ≤ n then { rung := rungDown l x.rung, clean := 0, ladderEnd := false, reported := false, precLast := false }
    else { x with clean := min n 65535, precLast := false }
  else { x with precLast := false }

def moveForme (s : State) (k : Step) (slot : Nat) (f : Forme) : Forme :=
  { f with layers := f.image.layers.foldl (fun m l => tset {} m l.layer (moveLayer s k slot l (tget {} m l.layer))) f.layers }

/-- The ladder moves at the boundary of a step that was not cut. -/
def moveLadders (s : State) (k : Step) : State :=
  { s with formes := s.formes.map (fun f => (f.1, moveForme s k f.1 f.2)) }

/-! ## The budget (R145-R148) -/

/-- Strobe time of a row at rung 0 and the extra time of its layers' rungs: n positions of its forme, and of the draft forme as
many as it processes. -/
def rowTimes (s : State) (slot n draft : Nat) : Nat × Nat :=
  match formeOf s slot with
  | none => (0, 0)
  | some f =>
    let d : Nat × Nat := match draftForme s f.image with
      | some g => (draft * baseTime s g, draft * extraTime s g)
      | none => (0, 0)
    (n * baseTime s f + d.1, n * extraTime s f + d.2)

/-- Highest rung among the layers a row runs. -/
def topRung (s : State) (slot draft : Nat) : Nat :=
  match formeOf s slot with
  | none => 0
  | some f =>
    let of := fun (g : Forme) => (g.image.layers.map (rungOf g)).foldl max 0
    max (of f) (if draft = 0 then 0 else ((draftForme s f.image).map of).getD 0)

/-- Grants in order, until the budget refuses one: rows with their highest rung and their ΔT; once one is refused no later row that needs a
rung is granted, and with a budget of 0 none is, though its rung cost nothing (R146). A row whose layers are all at rung 0 asks for none. -/
def grant (budget tBase : Nat) : Nat → Bool → List (Row × Nat × Nat) → List (Row × Nat)
  | _, _, [] => []
  | used, open_, (w, rung, dT) :: r =>
    if rung = 0 then ({ w with granted := true, rung := 0 }, 0) :: grant budget tBase used open_ r
    else if open_ && budget != 0 && 100 * (used + dT) ≤ budget * tBase then
      ({ w with granted := true, rung := rung }, dT) :: grant budget tBase (used + dT) open_ r
    else ({ w with granted := false, rung := 0 }, 0) :: grant budget tBase used false r

/-- The grants of a step: rows in the order of R146 in, rows with their rungs out, with T_base and ΔT. -/
def grantRows (s : State) (rows : List Row) : List Row × Nat × Nat :=
  let cost := rows.map (fun w => (w, rowTimes s w.slot w.n (w.draft + w.catchUp)))
  let tBase := sumNat (cost.map (fun x => x.2.1))
  let g := grant (fbBudget s) tBase 0 true (cost.map (fun x => (x.1, topRung s x.1.slot x.1.draft, x.2.2)))
  (g.map (·.1), tBase, sumNat (g.map (·.2)))

end Sys2Proof.Machine
end

