-- ==== Sys2Proof/Machine/Links.lean ====
section
/-! DEFINITION. Shared operations of the quoin ports: routes (R433), control messages (R441), ports going down (R435), what a discarded
flit withholds, tenant key exchanges (R436), event messages of the host port (R463). Port states: 0 down, 1 training, 2 up,
3 failed. -/

namespace Sys2Proof.Machine

/-! ## Messages to the host (R463) -/

/-- An MSI-X message on PCI_EVENT_CFG.VECTOR when the enable bit is set. -/
def eventMsg (s : State) (bit : Nat) : State :=
  if bitAt s.pci.eventCfg.toNat bit then sendMsix s 0 (fld s.pci.eventCfg.toNat 10 0) else s

/-- A PLDM event waits to be read: SMBALERT# is asserted (R460). -/
def pldmEvent (s : State) : State := drive { s with side := { s.side with event := true } } .smbAlert false

/-! ## The tree and routes (R33, R34, R433, R438) -/

/-- Rank of a port among a worker's ports other than its uplink, and the port of a rank. -/
def rankOfPort (up p : Nat) : Nat := if p < up then p else p - 1
def portOfRank (up j : Nat) : Nat := if j < up then j else j + 1

/-- The number that the module on a downlink port gets (R33). -/
def numberFor (s : State) (p : Nat) : Nat :=
  if sysRole s = 1 then p + 1 else 37 + (s.ql.module - 1) * 35 + rankOfPort (uplink s) p

/-- The port towards a module along the tree. -/
def treePort (s : State) (m : Nat) : Option Nat :=
  if m = s.ql.module then none
  else match sysRole s with
  | 1 => if m < 37 then some (m - 1) else some ((m - 37) / 35)
  | 2 =>
    let first := 37 + (s.ql.module - 1) * 35
    if first ≤ m ∧ m < first + 35 then some (portOfRank (uplink s) (m - first)) else some (uplink s)
  | 3 => some (uplink s)
  | _ => none

/-- The route table's port, or the tree's. -/
def routePort (s : State) (m : Nat) : Option Nat := (aget s.ql.routeTable m).orElse (fun _ => treePort s m)

def portUp (s : State) (p : Nat) : Bool := (portOf s p).state == 2

/-! ## Control messages (R441, log entry 24) -/

/-- Send a control message towards a module over an up port. -/
def sendControl (s : State) (typ dest : Nat) (words : List Nat) : State :=
  match routePort s dest with
  | some p => if portUp s p then emit s (.control p typ dest words) else s
  | none => s

/-- To every other module of the system. -/
def broadcast (s : State) (typ : Nat) (words : List Nat) : State :=
  (s.ql.present.filter (· != s.ql.module)).foldl (fun x m => sendControl x typ m words) s

/-! ## Ports going down (R435) -/

/-- The flushed ends of a link's queues: what is buffered is discarded and credits return to their initial counts (R421). -/
def flushPort (x : Port) : Port :=
  { x with replay := [], replays := 0, credits := [32, 1024, 256, 512], owed := [0, 0, 0, 0], nakDue := false, waiting := [] }

/-- A link without its peer: keys and identity are gone. -/
def dropLink (x : Port) (st cause : Nat) : Port :=
  { flushPort x with state := st, cause := cause, use := 0, lanes := 0, subkeys := [], kex := [], keyed := false, expect := 0, nextSeq := 0,
                     ctr := 0, peerSerial := 0 }

/-- Rows of system formes that a lost flit may have carried are withheld: the tenant's with a tenant key, else all (R435, R380, log
entry 23). -/
def loseFlit (s : State) (f : Flit) : State :=
  if f.isNull || f.cls != 1 then s
  else setSched s (fun c => { c with step := c.step.map (fun k => { k with rows := k.rows.map (fun w =>
    let ten : Option Nat := if 2 ^ 32 ≤ w.rid then none else (reqOf s w.rid).map (·.tenant)
    if (tfind s.formes w.slot).any (fun g => g.image.system) && (!f.tkey || ten.all (· == f.tenant)) then { w with withheld := true } else w) }) })

def loseFlits (s : State) (x : Port) : State := (x.replay ++ x.waiting.map (·.1)).foldl loseFlit s

/-- A port goes down: counted, its flits discarded, the host told. -/
def portDown (s : State) (p cause : Nat) : State :=
  let x := portOf s p
  let s1 := loseFlits s x
  eventMsg (setPort s1 p { dropLink x 0 cause with downs := satAdd 32 x.downs 1 }) 17

/-- A training fails; the third in a row leaves the port failed (R429). -/
def trainFails (s : State) (p cause : Nat) : State :=
  let x := portOf s p
  setPort s p { dropLink x (if 3 ≤ x.fails + 1 then 3 else 0) cause with fails := min 3 (x.fails + 1) }

/-- Take a port down to train again without a link-down. -/
def restartPort (s : State) (p st : Nat) : State :=
  let x := portOf s p
  setPort (loseFlits s x) p { dropLink x st 0 with fails := 0 }

/-! ## Tenant subkeys (R436) -/

/-- Start the exchange of a slot on a port: the module's own M value goes out. -/
def startKex (s : State) (slot p : Nat) : State :=
  let x := portOf s p
  let s1 := setPort s p { x with kex := tput x.kex slot (now s) }
  drawn (emit s1 (.control p 2 x.peer [slot, drawNat s1]))

/-- The exchange runs on every up port when a key is loaded. -/
def kexAll (s : State) (slot : Nat) : State :=
  ((List.range Config.ports).filter (portUp s)).foldl (fun x p => startKex x slot p) s

/-- A slot leaves ACTIVE: both ends zeroise its subkeys. -/
def dropSubkeys (s : State) (slot : Nat) : State :=
  (s.ql.ports.map (fun (e : Nat × Port) => e.1)).foldl (fun x p =>
    modPort x p (fun q => { q with subkeys := q.subkeys.filter (· != slot), kex := tdel q.kex slot })) s

end Sys2Proof.Machine
end

