-- ==== Sys2Proof/Machine/Images.lean ====
section
/-! DEFINITION. Byte layouts of what the module reads from a host or a peer: the parts of a plate image (R183-R188), plane records (R189),
overlay records (R207) and forme images (R208-R213, R119, R138). Everything is little-endian but the LMS signature (R186). Bytes that are
missing read as zero. -/

namespace Sys2Proof.Machine

/-- `n` bytes from an offset, as a number. -/
def numAt (b : List Byte) (off n : Nat) : Nat := leNat ((b.drop off).take n)

/-- `n` bytes from an offset, the first one most significant (R186). -/
def bigAt (b : List Byte) (off n : Nat) : Nat := leNat (((b.drop off).take n).reverse)

/-- `n` bytes from an offset are zero. -/
def zeroAt (b : List Byte) (off n : Nat) : Bool := ((b.drop off).take n).all (· == 0)

/-- 32-bit words, one after another. -/
def wordsAt (b : List Byte) (off : Nat) : Nat → List W32
  | 0 => []
  | n + 1 => BitVec.ofNat 32 (numAt b off 4) :: wordsAt b (off + 4) n

/-- 16-bit values, one after another. -/
def halvesAt (b : List Byte) (off : Nat) : Nat → List Nat
  | 0 => []
  | n + 1 => numAt b off 2 :: halvesAt b (off + 2) n

/-! ## The plate image -/

/-- The header (R184). -/
def decodeHeader (b : List Byte) : PlateImage :=
  { (default : PlateImage) with
    magic := numAt b 0 4, arch := numAt b 4 1 % 16, version := numAt b 4 1 / 16, dual := bitAt (numAt b 5 1) 0,
    resZero := numAt b 5 1 / 2 == 0 && zeroAt b 6 2 && zeroAt b 30 2 && zeroAt b 104 24,
    imageId := numAt b 8 16, plateVersion := numAt b 24 4, shardCount := numAt b 28 2, imageLen := numAt b 32 8, sigOff := numAt b 40 8,
    bindOff := numAt b 48 8, shardOff := numAt b 56 8, tableDigest := numAt b 64 32, totalPlanes := numAt b 96 8 }

/-- SIG_LEN, the typecodes of the parameter sets and the bytes after the signature (R186). An LMS signature is the leaf number, the LM-OTS
signature of 4 + 32 + 34 × 32 bytes with its typecode first, the LMS typecode and the path of 20 or 25 hashes. -/
def signatureShape (b : List Byte) : Bool :=
  let n := numAt b 32 4
  let typ := bigAt b 1164 4
  bigAt b 40 4 == 4 && ((typ == 8 && n == 1772) || (typ == 9 && n == 1932)) && zeroAt b (36 + n) (2048 - (36 + n))

/-- The signature block joins the image; `ok` is the verdict on the signature itself (R186). -/
def withSignature (img : PlateImage) (b : List Byte) (ok : Bool) : PlateImage :=
  { img with keyId := numAt b 0 32, sigOk := ok && signatureShape b }

/-- A shard descriptor (R188). -/
def decodeShard (b : List Byte) : Shard :=
  { module := numAt b 0 2, planes := numAt b 4 4, payOff := numAt b 8 8, payLen := numAt b 16 8, nonce := numAt b 24 12, digest := numAt b 64 32,
    resZero := zeroAt b 2 2 && zeroAt b 36 28 }

/-- SHA-256 of a byte string. -/
def digestOf (b : List Byte) : Nat := Config.sha256 (b.map (·.toNat))

/-- The shard table joins the image, with the comparison of its SHA-256 with SHARD_TABLE_DIGEST (R191); `ok`: all of it has arrived. -/
def withTable (img : PlateImage) (b : List Byte) (ok : Bool) : PlateImage :=
  { img with shards := (List.range img.shardCount).map (fun i => decodeShard (b.drop (96 * i))),
             tableDigestOk := ok && digestOf (b.take (96 * img.shardCount)) == img.tableDigest }

/-- Reserved bytes of the binding block. -/
def bindingZero (b : List Byte) (n : Nat) : Bool := zeroAt b 2 14 && (List.range n).all (fun i => zeroAt b (16 + 1664 * i + 1648) 16)

/-- The binding block joins the image (R187): the BIND_KEY_ID of each entry. `ok` is the verdict of the security processor, which unwraps this
module's WRAPPED_KEY with KEM_CT and WRAP_TAG; `addrs` are the planes and twins of this module's records. -/
def withBinding (img : PlateImage) (b : List Byte) (ok : Bool) (addrs : List (Nat × Nat)) : PlateImage :=
  let n := numAt b 0 2
  { img with bindings := (List.range n).map (fun i => numAt b (16 + 1664 * i) 32), unwrapOk := ok, addrs := addrs,
             resZero := img.resZero && bindingZero b n }

/-! ## Plane records (R189) -/

/-- Levels of a row: two columns a byte, the even one in the low nibble; levels of 0 are not listed. -/
def decodeLevelRow (row : Nat) : Nat → List Byte → Tbl Nat
  | _, [] => []
  | col, x :: r =>
    let v := x.toNat
    let lo := if v % 16 = 0 then [] else [(264 * row + col, v % 16)]
    let hi := if v / 16 = 0 then [] else [(264 * row + col + 1, v / 16)]
    lo ++ hi ++ decodeLevelRow row (col + 2) r

def decodeLevels : Nat → Nat → List Byte → Tbl Nat
  | 0, _, _ => []
  | n + 1, row, b => decodeLevelRow row 0 (b.take 132) ++ decodeLevels n (row + 1) (b.drop 132)

/-- The range envelope of a column, laid out as in R91. -/
def decodeEnvelope (b : List Byte) : Envelope :=
  { codeMin := numAt b 0 2 % 512, codeMax := numAt b 2 2, meanLo := toSigned 16 (numAt b 4 2), meanHi := toSigned 16 (numAt b 6 2),
    varMax := numAt b 8 2 }

/-- Envelopes one after another; a column whose 16 bytes are all zero is not listed. -/
def decodeEnvelopes : Nat → Nat → List Byte → Tbl Envelope
  | 0, _, _ => []
  | n + 1, col, b =>
    (if zeroAt b 0 16 then [] else [(col, decodeEnvelope b)]) ++ decodeEnvelopes n (col + 1) (b.drop 16)

/-- Reserved bytes of the envelopes. -/
def envelopesZero : Nat → List Byte → Bool
  | 0, _ => true
  | n + 1, b => zeroAt b 10 6 && envelopesZero n (b.drop 16)

/-- Digital weights by 256 × k + column, those of 0 left out. -/
def decodeWeights : Nat → List Byte → Tbl Int
  | _, [] => []
  | i, x :: r => (if x.toNat = 0 then [] else [(i, toSigned 8 x.toNat)]) ++ decodeWeights (i + 1) r

/-- Weights and shifts of unused skim rows are zero, and the reserved bytes. -/
def recordZero (b : List Byte) (valid : Nat) (w : Tbl Int) : Bool :=
  numAt b 16 1 / 8 == 0 && zeroAt b 36 12 && envelopesZero 256 (b.drop 33840) && w.all (fun e => bitAt valid (e.1 / 256))

/-- A plane record of 39,984 bytes. -/
def decodeRecord (b : List Byte) : PlaneRecord :=
  let valid := numAt b 19 1
  let w := decodeWeights 0 ((b.drop 37936).take 2048)
  { addr := numAt b 0 8, twin := numAt b 8 8, wmode := numAt b 16 1 % 8, width := numAt b 17 1, zeroPoint := numAt b 18 1, skimValid := valid,
    skimRow := (List.range 8).map (fun k => numAt b (20 + k) 1), skimShift := (List.range 8).map (fun k => numAt b (28 + k) 1),
    resZero := recordZero b valid w, levels := decodeLevels 256 0 ((b.drop 48).take 33792), envelope := decodeEnvelopes 256 0 (b.drop 33840),
    skimW := w }

/-- The records of a run of 39,984 bytes each. -/
def decodeRecords : Nat → List Byte → List PlaneRecord
  | 0, _ => []
  | n + 1, b => if b = [] then [] else decodeRecord b :: decodeRecords n (b.drop 39984)

/-! ## Overlay records (R207) -/

def decodeOverlay (b : List Byte) : Overlay :=
  let r := numAt b 8 2
  let n := numAt b 16 4
  let m := numAt b 20 4
  let kinds := numAt b 5 1
  { magic := numAt b 0 4, version := numAt b 4 1, kinds := kinds, rank := r, alpha := BitVec.ofNat 32 (numAt b 12 4), n := n, m := m,
    aOff := numAt b 24 8, bOff := numAt b 32 8, steerOff := numAt b 40 8, scaleOff := numAt b 48 8,
    resZero := zeroAt b 6 2 && zeroAt b 10 2 && zeroAt b 56 8,
    a := if bitAt kinds 0 && numAt b 24 8 + 2 * r * n ≤ b.length then halvesAt b (numAt b 24 8) (r * n) else [],
    b := if bitAt kinds 0 && numAt b 32 8 + 2 * m * r ≤ b.length then halvesAt b (numAt b 32 8) (m * r) else [],
    steer := if bitAt kinds 1 && numAt b 40 8 + 4 * m ≤ b.length then wordsAt b (numAt b 40 8) m else [],
    scale := if bitAt kinds 2 && numAt b 48 8 + 4 * m ≤ b.length then wordsAt b (numAt b 48 8) m else [] }

/-! ## Forme images (R208-R213) -/

/-- An accumulation descriptor word (R119). -/
def decodeAcc (w : Nat) : AccDesc :=
  { spillSlot := fld w 43 32, destAddr := fld w 31 8, park := bitAt w 7, dest := fld w 6 5, last := bitAt w 4, resume := bitAt w 3, add := bitAt w 2,
    bank := fld w 1 0, resZero := w / 2 ^ 44 == 0 }

/-- The scheduler record, and whether its reserved bits are zero (R209). -/
def decodeSched (b : List Byte) : SchedRec :=
  { rowsMax := numAt b 0 2, chunk := numAt b 2 2, prefillCost := numAt b 4 1, outputKind := numAt b 5 1, scores := numAt b 6 1, draftMax := numAt b 7 1,
    vocab := numAt b 8 4, eosValid := numAt b 12 1 % 16, draftSlot := numAt b 13 1,
    eos := (List.range 4).map (fun i => numAt b (16 + 4 * i) 4 % 2 ^ 24) }

def schedZero (b : List Byte) : Bool :=
  numAt b 12 1 / 16 == 0 && zeroAt b 14 2 && (List.range 4).all (fun i => zeroAt b (16 + 4 * i + 3) 1)

/-- ACC_GRANULES by logical region, those of 0 left out (R209). -/
def decodeGranules : Nat → Nat → List Byte → Tbl Nat
  | 0, _, _ => []
  | n + 1, i, b => (if numAt b 0 4 % 4096 = 0 then [] else [(i, numAt b 0 4 % 4096)]) ++ decodeGranules n (i + 1) (b.drop 4)

def granulesZero : Nat → List Byte → Bool
  | 0, _ => true
  | n + 1, b => numAt b 0 4 / 4096 == 0 && granulesZero n (b.drop 4)

/-- A layer record (R210, R138) with its scales and biases from the parameter area. -/
def decodeLayer (param : List Byte) (paramLen : Nat) (b : List Byte) : LayerRec :=
  let p := numAt b 4 4
  let ep := numAt b 15 1
  let cols := numAt b 20 4
  let so := numAt b 24 8
  let bo := numAt b 32 8
  { layer := numAt b 0 2, maxRung := fld p 9 8, baseRestrike := fld p 5 4, inBits := fld p 3 0, tau := numAt b 8 2, nearLimit := numAt b 10 1,
    tauA := numAt b 11 1, satLimit := numAt b 12 2, outFmt := numAt b 14 1 % 16, act := ep % 4, stochastic := bitAt ep 2, biasValid := bitAt ep 3,
    clampValid := bitAt ep 4, clamp := BitVec.ofNat 32 (numAt b 16 4), outCols := cols, scaleOff := so, biasOff := bo,
    firstGroup := numAt b 40 4, groupCount := numAt b 44 4, attn := numAt b 48 2,
    scales := if so + 4 * cols ≤ paramLen then wordsAt param so cols else [],
    biases := if bitAt ep 3 && bo + 4 * cols ≤ paramLen then wordsAt param bo cols else [] }

def layerZero (b : List Byte) : Bool :=
  let p := numAt b 4 4
  zeroAt b 2 2 && p / 2 ^ 10 == 0 && fld p 7 6 == 0 && numAt b 14 1 / 16 == 0 && numAt b 15 1 / 32 == 0 && zeroAt b 50 14

/-- A strobe entry (R211). -/
def decodeEntry (b : List Byte) : StrobeEntry :=
  { plane := numAt b 0 8, run := numAt b 8 2, sheet := numAt b 10 2, segment := numAt b 12 1, skimSlot := numAt b 14 2 }

def decodeEntries : Nat → List Byte → List StrobeEntry
  | 0, _ => []
  | n + 1, b => decodeEntry b :: decodeEntries n (b.drop 16)

def entriesZero : Nat → List Byte → Bool
  | 0, _ => true
  | n + 1, b => zeroAt b 13 1 && entriesZero n (b.drop 16)

/-- The strobe groups, one after another (R211). -/
def decodeGroups : Nat → List Byte → List Group
  | 0, _ => []
  | n + 1, b =>
    let k := numAt b 10 2
    { acc := decodeAcc (numAt b 0 8), layer := numAt b 8 2, expert := numAt b 12 2, router := numAt b 14 2, entries := decodeEntries k (b.drop 16) }
      :: decodeGroups n (b.drop (16 + 16 * k))

/-- Reserved bytes of the groups, and the bytes they take. -/
def groupsZero : Nat → List Byte → Bool
  | 0, _ => true
  | n + 1, b =>
    let k := numAt b 10 2
    entriesZero k (b.drop 16) && groupsZero n (b.drop (16 + 16 * k))

def groupsLength (gs : List Group) : Nat := sumNat (gs.map (fun g => 16 + 16 * g.entries.length))

/-- A route record (R212). -/
def decodeRoute (b : List Byte) : Route :=
  { src := numAt b 0 8, dst := numAt b 8 8, srcOff := numAt b 16 4, dstOff := numAt b 20 4, sheets := numAt b 24 2, after := numAt b 26 2 }

/-- An attention record (R213). -/
def decodeAttn (b : List Byte) : AttnRec :=
  { kvHeads := numAt b 0 1, qPerKv := numAt b 1 1, headDim := numAt b 2 2, keyFmt := numAt b 4 1 % 16, valFmt := numAt b 4 1 / 16,
    queryFmt := numAt b 5 1 % 16, mask := numAt b 5 1 / 16 % 4, scale := BitVec.ofNat 32 (numAt b 8 4), window := numAt b 12 4,
    home := numAt b 16 8, layer := numAt b 24 2 }

def attnZero (b : List Byte) : Bool := numAt b 5 1 / 64 == 0 && zeroAt b 6 2 && zeroAt b 26 6

/-- Equal records of `size` bytes, one after another. -/
def recordsAt {α : Type} (f : List Byte → α) (size : Nat) (b : List Byte) (off n : Nat) : List α :=
  (List.range n).map (fun i => f ((b.drop (off + size * i)).take size))

/-- Where the parts of a forme image stand: header, scheduler, web and resource records, layers, attention, groups, routes, parameters (R208).
A part that the forme does not have takes no bytes. -/
def formeParts (b : List Byte) (groups : List Group) : List (Nat × Nat) :=
  [(0, 96), (numAt b 24 8, 32), (numAt b 32 8, if numAt b 32 8 = 0 then 0 else 16), (numAt b 40 8, 2160), (numAt b 48 8, 64 * numAt b 6 2),
   (numAt b 56 8, 32 * numAt b 8 2), (numAt b 64 8, groupsLength groups), (numAt b 72 8, 32 * numAt b 16 4), (numAt b 80 8, numAt b 88 8)]

/-- Offsets of parts that the forme does not have are zero. -/
def absentZero (b : List Byte) : Bool := (numAt b 8 2 != 0 || numAt b 56 8 == 0) && (numAt b 16 4 != 0 || numAt b 72 8 == 0)

/-- A whole forme image. -/
def decodeForme (b : List Byte) : FormeImage :=
  let sched := b.drop (numAt b 24 8)
  let web := b.drop (numAt b 32 8)
  let res := b.drop (numAt b 40 8)
  let groups := decodeGroups (min (numAt b 12 4) b.length) (b.drop (numAt b 64 8))
  let layers := recordsAt id 64 b (numAt b 48 8) (numAt b 6 2)
  let attn := recordsAt id 32 b (numAt b 56 8) (numAt b 8 2)
  let routes := recordsAt id 32 b (numAt b 72 8) (min (numAt b 16 4) b.length)
  let webless := numAt b 32 8 == 0
  { magic := numAt b 0 4, arch := numAt b 4 1 % 16, version := numAt b 4 1 / 16, system := bitAt (numAt b 5 1) 0, draft := bitAt (numAt b 5 1) 1,
    resZero := numAt b 5 1 / 4 == 0 && zeroAt b 10 2 && zeroAt b 20 4 && absentZero b && schedZero sched && (webless || zeroAt web 1 15)
      && granulesZero 540 res && layers.all layerZero && groupsZero groups.length (b.drop (numAt b 64 8)) && routes.all (fun r => zeroAt r 28 4)
      && attn.all attnZero,
    parts := formeParts b groups, sched := decodeSched sched, web := if webless then 0 else numAt web 0 1, acc := decodeGranules 540 0 res,
    layers := layers.map (decodeLayer (b.drop (numAt b 80 8)) (numAt b 88 8)), attn := attn.map decodeAttn, groups := groups,
    routes := routes.map decodeRoute, paramLen := numAt b 88 8 }

end Sys2Proof.Machine
end

