-- ==== Sys2Proof/Machine/Plates.lean ====
section
/-! DEFINITION. Plates of 07_plates: the checks of an image (R183-R192), claims of standby planes, records (R189, R190),
programming and defects (R197-R205), refills (R358), in-place changes (R221, R222), sources (R195). -/

namespace Sys2Proof.Machine

/-! ## The image (R183-R192) -/

/-- Parts of an image: (offset, length). -/
def imageParts (img : PlateImage) : List (Nat × Nat) :=
  [(0, 128), (img.sigOff, 2048), (img.bindOff, 16 + 1664 * img.bindings.length), (img.shardOff, 96 * img.shardCount)]
    ++ img.shards.map (fun d => (d.payOff, d.payLen))

/-- Rules of the header's own fields beyond MAGIC, ARCH and VERSION. -/
def headerOk (p : LoadParams) (img : PlateImage) : Bool :=
  img.resZero && img.imageLen == p.imageLen && partsOk img.imageLen ((imageParts { img with shards := [], bindings := [] }).take 4)
    && 1 ≤ img.shardCount && img.shardCount ≤ 1297

/-- Rules that the shard table and the binding block add to the header check (R183, R187, R188). -/
def tablesOk (img : PlateImage) : Bool :=
  partsOk img.imageLen (imageParts img) && img.shards.length == img.shardCount
    && 1 ≤ img.bindings.length && img.bindings.length ≤ 1297
    && img.shards.all (fun d => d.resZero && d.payLen == d.planes * 39984 + 16)
    && decide (img.shards.Pairwise (fun a b => a.module ≠ b.module)) && img.totalPlanes == sumNat (img.shards.map (·.planes))

/-- The header check of R191. -/
def headerStatus (p : LoadParams) (img : PlateImage) : Option Status :=
  if img.magic ≠ 0x544C505A then some .plateInvalid
  else if img.arch ≠ 1 ∨ img.version ≠ 1 then some .versionUnsupported
  else if headerOk p img then none
  else some .plateInvalid

/-- The shard of this module. -/
def ownShard (s : State) (img : PlateImage) : Option Shard := img.shards.find? (fun d => d.module == s.ql.module)

/-- Registered publisher keys in registration order, and their KEY_IDs (R186, R392). -/
def publisherKeys (s : State) : List Nat := (newest s.nv.publishers).getD []

def publisherIds (s : State) : List Nat := (publisherKeys s).map (fun k => digestOf (leBytes 56 k))

/-- The checks of R191 up to the standby planes, once every part before the payload has been read. -/
def imageStatus (s : State) (p : LoadParams) (img : PlateImage) : Option Status :=
  if (headerStatus p img).isSome then headerStatus p img
  else if !tablesOk img then some .plateInvalid
  else if dualOnly s && !img.dual then some .paramInvalid
  else if img.keyId ∉ publisherIds s then some .publisherUnknown
  else if !img.sigOk then some .plateSignature
  else if s.plates.table.any (fun e => e.imageId == img.imageId && decide (img.plateVersion < e.version)) then some .plateRollback
  else if !img.tableDigestOk then some .plateSignature
  else if (ownShard s img).isNone then some .plateNotBound
  else if !(s.nv.bindKey ∈ img.bindings && img.unwrapOk) then some .plateNotBound
  else none

/-- A peer source names another module that is present (R195). -/
def peerOk (s : State) (source peer : Nat) : Bool :=
  source == 0 || (peer ∈ s.ql.present && peer != s.ql.module && peer ∉ s.ql.absent)

/-! ## Claims of standby planes (R191) -/

/-- A plane that an in-place load may take as it stands: ALLOCATED, or left PROGRAMMING by an earlier one (R221, R222). -/
def inPlaceOk (s : State) (l pk : Nat) : Bool := (descOf s pk).state == 2 || (l ∈ s.plates.incomplete && (descOf s pk).state == 5)

/-- The physical plane a load takes for a logical plane: its own when that is STANDBY and unclaimed, or, in place, its own
as it stands; else the lowest unclaimed STANDBY plane of the tile (log entry 16). -/
def claimPlane (s : State) (inPlace : Bool) (claims : Tbl Nat) (l : Nat) : Option Nat :=
  match physCoreKey s (planeCore l) with
  | none => none
  | some ck =>
    let tk := tileKey ck (tileOfPlane l)
    let taken := claims.map (·.2)
    let own := planeKey tk (physPlane s tk (planeNo l))
    let standby := fun (p : Nat) => (descOf s p).state == 1 && p ∉ taken
    if inPlace && inPlaceOk s l own && own ∉ taken then some own
    else if standby own then some own
    else ((List.range 1408).map (planeKey tk)).find? standby

def claimAll (s : State) (inPlace : Bool) : List Nat → Tbl Nat → Option (Tbl Nat)
  | [], m => some m
  | l :: ls, m => match claimPlane s inPlace m l with
    | none => none
    | some p => claimAll s inPlace ls (tput m l p)

/-- Planes return to STANDBY with undefined contents (R193, R223). -/
def freeTarget (s : State) (pk : Nat) : State :=
  let s1 := if (descOf s pk).state = 5 then
      setDescState { s with arr := { s.arr with cells := tdel s.arr.cells pk, skim := tdel s.arr.skim pk, built := tdel s.arr.built pk,
                                                undef := tput s.arr.undef pk (s.free + 1) } } pk 1
    else s
  setPlates (drawn s1) (fun b => { b with writing := tdel b.writing pk, waiting := tdel b.waiting pk })

/-- A plane that an earlier in-place change left PROGRAMMING and that a claim names as it stands: it stays so (R222, R223). -/
def leftProgramming (s : State) (c : Nat × Nat) : Bool := c.1 ∈ s.plates.incomplete && physPlaneKey s c.1 == some c.2

/-- Give up the claims of logical planes and what was written on them. -/
def dropClaims (s : State) (ls : List Nat) : State :=
  let ts := (s.plates.claims.filter (fun e => e.1 ∈ ls && !leftProgramming s e)).map (·.2)
  setPlates (ts.foldl freeTarget s) (fun b =>
    { b with claims := b.claims.filter (fun e => e.1 ∉ ls), records := b.records.filter (fun e => e.1 ∉ ls),
             movedClaims := b.movedClaims.filter (· ∉ ls) })

/-- Staged plates of the open plate change. -/
def stagedPlates (s : State) : List Plate := (stagedOf s 1).filterMap (fun c => match c with
  | .plate p => some p
  | _ => none)

/-- A new load of an image replaces what an earlier load of it staged (R215). -/
def dropStaged (s : State) (imageId : Nat) : State :=
  let old := (stagedPlates s).filter (fun p => p.imageId == imageId)
  let s1 := dropClaims s (old.flatMap (·.planes))
  setPlates (putTxn s1 1 ((txnOf s1.txns 1).map (fun x =>
    { x with staged := x.staged.filter (fun c => match c with
        | .plate p => p.imageId != imageId
        | _ => true) }))) (fun b => { b with inplace := b.inplace.filter (fun d => d.image.imageId != imageId) })

/-! ## PLATE_LOAD -/

def sourceOf (p : LoadParams) : Nat := if p.source = 0 then 0xFFFF else p.peer

/-- Where the payload of this module's shard starts (R188). -/
def payloadAddr (s : State) (p : LoadParams) (img : PlateImage) : Nat := p.addr + ((ownShard s img).map (·.payOff)).getD 0

/-- The failure of a load is kept for TXN_COMMIT (R215). -/
def noteFailed (s : State) (imageId : Nat) (st : Option Status) : State :=
  putTxn s 1 ((txnOf s.txns 1).map (fun x =>
    { x with failed := x.failed.filter (fun e => e.1 != imageId) ++ (st.map (fun v => (imageId, v))).toList }))

/-- Where the part of an image that is read next starts. -/
def partAddr (s : State) (p : LoadParams) (img : PlateImage) (part next : Nat) : Nat :=
  match part with
  | 0 => p.addr
  | 1 => p.addr + img.sigOff
  | 2 => p.addr + img.shardOff
  | 3 => p.addr + img.bindOff
  | _ => payloadAddr s p img + 39984 * next

/-- In-place loads whose second pass is not complete. -/
def runsLeft (s : State) : Option Load := s.plates.inplace.find? (fun d => d.digests != [])

/-- The next record to fetch of the load in progress, and the first of the second pass's next run. -/
def changeRecord (ld : Load) : Option Nat := if ld.part = 4 && !ld.authenticated then some ld.next else none

def runRecord (s : State) (ld : Load) : Nat :=
  64 * ((((ownShard s ld.image).map (·.planes)).getD 0 + 63) / 64 - ld.digests.length)

/-! ### The transfers that firmware needs (R340) -/

/-- The region that a record of an image goes to. -/
def recordRegion (s : State) (ld : Load) (n : Nat) : Option Nat :=
  (ld.image.addrs[n]?).bind (fun a => (tfind s.plates.claims (wordPlane a.1)).map planeRegion)

def changeRegion (s : State) : Option Nat := s.plates.load.bind (fun ld => (changeRecord ld).bind (recordRegion s ld))

def rerunRegion (s : State) : Option Nat :=
  if s.plates.rewriting then (runsLeft s).bind (fun ld => recordRegion s ld (runRecord s ld)) else none

/-- A plane whose record has arrived and is still being written. -/
def recordHere (s : State) (pk : Nat) : Bool := (tfind s.plates.writing pk).isSome || s.plates.waiting.any (fun w => w.1 == pk)

/-- Where a refill writes a logical plane; nowhere while the core of the spare that should take it is fenced itself (R15). -/
def refillPlace (s : State) (r : Refill) (l : Nat) : Option Nat := (physInSpare s r l).filter (fun p => !coreFenced s (planeCore p))

/-- A refill fetches the record of the lowest plane that it has still to fetch. -/
def refillPlane (s : State) (r : Refill) : Option Nat :=
  if r.blocked then none else ((sortAsc r.planes).filterMap (refillPlace s r)).find? (fun p => !recordHere s p)

def refillRegion (s : State) (r : Refill) : Option Nat := (refillPlane s r).map planeRegion

def auditRegion (s : State) : Option Nat := s.plates.auditPlan.head?.bind (fun l => (physPlaneKey s l).map planeRegion)

/-- Firmware transfers with their regions. -/
def wantedTransfers (s : State) : List (Nat × DmaUser) :=
  s.map.refills.filterMap (fun r => (refillRegion s r).map (fun g => (g, .refill r.unit)))
    ++ ((changeRegion s).map (fun g => (g, DmaUser.change))).toList ++ ((rerunRegion s).map (fun g => (g, DmaUser.rerun))).toList
    ++ ((auditRegion s).map (fun g => (g, DmaUser.audit))).toList

/-- The planes that a record of a load is written to. -/
def recordPlanes (s : State) (ld : Load) (n : Nat) : List Nat :=
  match ld.image.addrs[n]? with
  | some a => (a.1 :: (if a.2 = 0 then [] else [a.2])).filterMap (fun w => tfind s.plates.claims (wordPlane w))
  | none => []

/-- The planes that a firmware transfer's record is written to; none for a copy, and none in the first pass of an in-place load. DESIGN CHOICE
(log entry 104): of the 64 records of a run, which come together, those of the first. -/
def writePlanes (s : State) : DmaUser → List Nat
  | .refill u => ((s.map.refills.find? (fun r => r.unit == u)).bind (refillPlane s)).toList
  | .change => (s.plates.load.map (fun ld => if ld.par.inPlace then [] else recordPlanes s ld ld.next)).getD []
  | .rerun => ((runsLeft s).map (fun ld => recordPlanes s ld (runRecord s ld))).getD []
  | .audit => []

/-- Bytes of the hub working area that a transfer takes: a record, or a run of 64 (R221, R334). -/
def areaBytes : DmaUser → Nat
  | .rerun => 64 * 39984
  | _ => 39984

/-- Bytes of the hub working area in use: resident formes, records that wait to be written, and what is being fetched (R214, R334). -/
def areaUsed (s : State) (held : List DmaUser) : Nat :=
  residentBytes s.formes + 39984 * (s.plates.writing.filter (fun e => e.2.isSome)).length + sumNat (held.map areaBytes)

def workingArea : Nat := 4294967296

/-- A firmware transfer takes its place in the hub working area once its planes have their write slots (R329). -/
def takeArea (s : State) (held : List DmaUser) (u : DmaUser) : List DmaUser :=
  if u ∉ held && (writePlanes s u).all (· ∈ s.plates.slots) && areaUsed s held + areaBytes u ≤ workingArea then held ++ [u] else held

/-- Firmware transfers ask for write slots, then for the hub working area; what they hold of both they keep until they end (R329). -/
def settleArea (s : State) (want : List DmaUser) : State :=
  let s1 := fillSlots (setPlates s (fun b => { b with wants := (want.flatMap (writePlanes s)).eraseDups }))
  setPlates s1 (fun b => { b with area := want.foldl (takeArea s1) (b.area.filter (· ∈ want)) })

def holdsCredit (s : State) (u : DmaUser) : Bool := s.regions.any (fun e => u ∈ e.2.dmaHeld)

/-- Send the read of the record that the load, or the second pass, needs next. -/
def sendRecordRead (s : State) (ld : Load) (n : Nat) : State :=
  emit s (.sourceRead (sourceOf ld.par) (payloadAddr s ld.par ld.image + 39984 * n))

/-- Every region settles its credits among the transfers that hold what comes before them (R329); a read of a plate change is sent when its
transfer gets one. -/
def settleDma (s0 : State) : State :=
  let asked := wantedTransfers s0
  let s := settleArea s0 (asked.map (·.2))
  let want := asked.filter (fun w => w.2 ∈ s.plates.area)
  let rs := ((s.regions.map (·.1)) ++ want.map (·.1)).eraseDups
  let s1 := rs.foldl (fun x rk => modRegion x rk (settleCredits ((want.filter (fun w => w.1 == rk)).map (·.2)))) s
  let s2 := match s1.plates.load with
    | some ld => if holdsCredit s1 .change && !holdsCredit s .change then sendRecordRead s1 ld ld.next else s1
    | none => s1
  match runsLeft s2 with
  | some ld => if holdsCredit s2 .rerun && !holdsCredit s .rerun then sendRecordRead s2 ld (runRecord s2 ld) else s2
  | none => s2

/-- Send the read of a load's next part (R194): a record of the payload waits for a DMA credit of the region that it goes to. -/
def readPart (s : State) (ld : Load) : State :=
  if (changeRegion s).isSome then settleDma (endTransfer s .change)
  else emit s (.sourceRead (sourceOf ld.par) (partAddr s ld.par ld.image ld.part ld.next))

/-- PLATE_LOAD: the header is read first (R191). -/
def plateLoadOp (h : Hdr) (p : LoadParams) (s : State) : State :=
  if s.plates.draining.isSome || s.plates.rewriting then reply s h .plateBusy
  else if !peerOk s p.source p.peer then reply s h .paramInvalid
  else
    let ld : Load := { fn := h.fn, seq := h.seq, par := p, image := default, part := 0, next := 0, last := none, written := [], attempts := 0,
                       authenticated := false }
    setWait (readPart (setPlates s (fun b => { b with load := some ld, progress := 0, loadPlanes := [] })) ld) h.fn h.seq .load

/-- A load ends with a status; its planes return to STANDBY and nothing is staged (R193, R194). -/
def failLoad (s : State) (st : Status) : State :=
  match s.plates.load with
  | none => s
  | some ld =>
    let s0 := endTransfer s .change
    let s1 := setPlates (if ld.par.inPlace then setPlates s0 (fun b =>
        { b with claims := b.claims.filter (fun e => e.1 ∉ imagePlanes ld.image),
                 records := b.records.filter (fun e => e.1 ∉ imagePlanes ld.image) })
      else dropClaims s0 (imagePlanes ld.image)) (fun b => { b with load := none })
    let s2 := if ld.part = 0 then s1 else noteFailed s1 ld.image.imageId (some st)
    finish s2 ld.fn ld.seq st {} (if st = .txnNotOpen then ld.written.length else 0) 0

/-! ## The parts before the payload (R191) -/

/-- What has been read joins the image; data of another part belongs to no read of it. -/
def takePart (img : PlateImage) : Nat → ReadData → Option PlateImage
  | 0, .header b => some (decodeHeader b)
  | 1, .signature b ok => some (withSignature img b ok)
  | 2, .table b ok => some (withTable img b ok)
  | 3, .binding b ok addrs => some (withBinding img b ok addrs)
  | _, _ => none

/-- All parts before the payload have been read: the checks, the standby planes, and the first read of the payload. -/
def startPayload (s : State) (ld : Load) : State :=
  match imageStatus s ld.par ld.image with
  | some st => failLoad s st
  | none => match claimAll s ld.par.inPlace (imagePlanes ld.image) s.plates.claims with
    | none => failLoad s .noStandby
    | some m => readPart (setPlates (noteFailed s ld.image.imageId none) (fun b =>
        { b with claims := m, load := some ld, loadPlanes := imagePlanes ld.image })) ld

/-- A part of an image has been read. The header is checked at once; with it the load replaces what an earlier one of the image staged. -/
def imagePartOp (s : State) (ld : Load) (d : ReadData) : State :=
  match takePart ld.image ld.part d with
  | none => s
  | some img =>
    let ld1 : Load := { ld with image := img, part := ld.part + 1, attempts := 0 }
    let s1 := setPlates s (fun b => { b with load := some ld1 })
    if ld.part = 0 then
      let s2 := dropStaged s1 img.imageId
      match headerStatus ld.par img with
      | some st => failLoad s2 st
      | none => readPart s2 ld1
    else if ld.part = 3 then startPayload s1 ld1
    else readPart s1 ld1

/-- The plate a completed load stages. -/
def plateOf (shard : Shard) (ld : Load) : Plate :=
  { imageId := ld.image.imageId, version := ld.image.plateVersion, keyId := ld.image.keyId, dual := ld.image.dual, shard := shard,
    source := ld.par.source, peer := ld.par.peer, addr := ld.par.addr, modules := ld.image.shards.map (·.module), planes := sortAsc (imagePlanes ld.image),
    twins := ld.image.addrs.foldl (fun m a => if a.2 = 0 then m else tput m (wordPlane a.1) (wordPlane a.2)) [] }

/-- A load completes once its payload is authenticated and none of its planes is being written (R191; log entry 16). -/
def loadMaybeDone (s : State) : State :=
  match s.plates.load with
  | none => s
  | some ld =>
    let targets := (s.plates.claims.filter (fun e => e.1 ∈ imagePlanes ld.image)).map (·.2)
    if ld.authenticated && targets.all (fun p => (tfind s.plates.writing p).isNone) then
      let s1 := setPlates s (fun b => { b with load := none, inplace := if ld.par.inPlace then b.inplace ++ [ld] else b.inplace })
      finish (stage s1 1 (.plate (plateOf ((ownShard s ld.image).getD default) ld))) ld.fn ld.seq .ok {} ld.written.length 0
    else s

/-! ## Records (R189, R190) -/

def recLevel (r : PlaneRecord) (row col : Nat) : Nat := tget 0 r.levels (264 * row + col)

/-- Skim rows of a record: (k, row). -/
def recSkimRows (r : PlaneRecord) : List (Nat × Nat) :=
  ((List.range 8).filter (fun k => bitAt r.skimValid k)).map (fun k => (k, r.skimRow.getD k 0))

/-- A data level that R37 allows. -/
def levelOk (wmode v : Nat) : Bool :=
  v ≤ 15 && (match wmode with
    | 0 => v == 0 || v == 15
    | 1 => v % 5 == 0
    | 2 => v % 2 == 0
    | _ => true)

def rowOk (r : PlaneRecord) (row : Nat) : Bool :=
  let lv := (List.range 264).map (recLevel r row)
  (List.range 256).all (fun c => levelOk r.wmode (lv.getD c 0))
    && (r.wmode != 4 || (List.range 128).all (fun j => 16 * lv.getD (2 * j) 0 + lv.getD (2 * j + 1) 0 < 2 ^ r.width))
    && (List.range 8).all (fun n => lv.getD (256 + n) 0 == (rneDiv (sumNat ((List.range 32).map (fun c => lv.getD (32 * n + c) 0))) 32).toNat)
    && (!(recSkimRows r).any (fun k => k.2 == row) || lv.all (· == 0))

/-- An address of a record: logical, of level 0, of this module. -/
def recAddrOk (w : Nat) : Bool :=
  let a := addrDecode w
  addrOk [] w && !a.phys && a.level == 0 && a.module == 0x7FF

/-- The rules of R190. -/
def recordOk (dual : Bool) (last : Option Nat) (r : PlaneRecord) : Bool :=
  r.resZero && recAddrOk r.addr && last.all (· < wordPlane r.addr) && dual == (r.twin != 0)
    && (r.twin == 0 || (recAddrOk r.twin && planeStack (wordPlane r.twin) != planeStack (wordPlane r.addr)))
    && r.wmode ≤ 4 && (if r.wmode = 4 then 5 ≤ r.width && r.width ≤ 8 else r.width == r.wmode + 1) && r.zeroPoint < 2 ^ r.width
    && decide ((recSkimRows r).Pairwise (fun a b => a.2 ≠ b.2)) && r.skimShift.all (· ≤ 3) && (List.range 256).all (rowOk r)

def recPlanes (r : PlaneRecord) : List Nat := wordPlane r.addr :: (if r.twin = 0 then [] else [wordPlane r.twin])

/-- The physical plane that a refill writes for a logical plane (R358), with the refill. -/
def refillOf (s : State) (l : Nat) : Option (Refill × Nat) :=
  s.map.refills.findSome? (fun r => if l ∈ r.planes && !r.blocked then (refillPlace s r l).map (fun p => (r, p)) else none)

def refillTarget (s : State) (l : Nat) : Option Nat := (refillOf s l).map (·.2)

def digitalBytes (r : PlaneRecord) : Nat := if r.skimValid = 0 then 0 else 2056

def digitalMax : Nat := 17179869184

/-- Bytes of the plates' digital sections: those of the planes that are ALLOCATED or PROGRAMMING, and of the records that a load has brought, also
while they wait to be written; a record takes the place of what its plane held (R196, R334). -/
def digitalUsed (s : State) : Nat :=
  let taken := (s.plates.claims.filter (fun c => (tfind s.plates.records c.1).isSome)).map (·.2)
  2056 * (s.arr.skim.filter (fun e => ((descOf s e.1).state == 2 || (descOf s e.1).state == 5) && e.1 ∉ taken)).length
    + sumNat (s.plates.records.map (fun e => digitalBytes e.2))

/-- A plane enters programming (R197): PROGRAMMING, and it waits for a write slot with the record it takes (R198). -/
def beginWrite (s : State) (pk : Nat) (r : Option PlaneRecord) : State := queueWrite (setDescState s pk 5) pk r

/-- Where a load's record for a logical plane goes. -/
def loadTarget (s : State) (l : Nat) : Option Nat := tfind s.plates.claims l

def writeRecordPlane (r : PlaneRecord) (s : State) (l : Nat) : State :=
  match loadTarget s l with
  | none => s
  | some pk =>
    let s1 := setPlates s (fun b =>
      { b with records := tput b.records l r, retrained := if l ∈ b.reported then addOnce b.retrained l else b.retrained })
    beginWrite s1 pk (some r)

/-- The plane of the spare that takes over a claim: the logical plane's own there, unless a committed plate that is not rewritten in place needs
it, else the lowest unclaimed STANDBY plane of its tile (log entry 16). -/
def movedTarget (s : State) (l own : Nat) : Option Nat :=
  let taken := s.plates.claims.map (·.2)
  let free := fun (p : Nat) => (descOf s p).state == 1 && p ∉ taken && !isRefill s p
  let held := l ∈ platePlanes s && l ∉ s.plates.inplace.flatMap (fun d => imagePlanes d.image)
  if !held && own ∉ taken then some own
  else ((List.range 1408).map (planeKey (planeTile own))).find? free

/-- A claimed plane lies on a unit that has been fenced since: the claim moves to the unit's spare, and what the change wrote is written anew
there in the refill class (R28), also when that spare fails in turn (R27). Without a standby plane there, a load in progress ends with NO_STANDBY. -/
def settleClaim (s : State) (c : Nat × Nat) : State :=
  if !coreFenced s (planeCore c.2) && (descOf s c.2).state != 4 then s
  else
    match (s.map.refills.findSome? (fun r => if r.unit.holds c.2 then physInSpare s r c.1 else none)).orElse (fun _ =>
        (placesNow s c.1).find? (fun p => !coreFenced s (planeCore p) && (descOf s p).state != 4)) with
    | none => s
    | some own => match movedTarget s c.1 own with
      | none => if s.plates.load.any (fun d => c.1 ∈ imagePlanes d.image) then failLoad s .noStandby else s
      | some p =>
        let s1 := setPlates (freeTarget s c.2) (fun b => { b with claims := tput b.claims c.1 p, movedClaims := addOnce b.movedClaims c.1 })
        if (descOf s c.2).state = 5 ∨ (descOf s c.2).state = 4 then
          match tfind s.plates.records c.1 with
          | some r => if s.plates.inplace.any (fun d => c.1 ∈ imagePlanes d.image) && !s.plates.rewriting then s1 else beginWrite s1 p (some r)
          | none => s1
        else s1

def settleClaims (s : State) : State := s.plates.claims.foldl settleClaim s

/-- SHA-256 of the runs of 64 records of an in-place load as they arrive (R221). -/
def addToRun (ld : Load) (bytes : List Byte) (last : Bool) : Load :=
  if !ld.par.inPlace then ld
  else
    let run := ld.run ++ bytes
    if (ld.next + 1) % 64 = 0 || last then { ld with digests := ld.digests ++ [digestOf run], run := [] } else { ld with run := run }

/-- The payload has ended: its tag and DIGEST are checked (R193). -/
def endPayload (s : State) (ok : Bool) : State := if ok then loadMaybeDone s else failLoad s .plateSignature

/-- A record of the shard that loads; the shard's PLANES says which is the last. `tagOk` is the verdict on the GCM tag, given with it; DIGEST is
compared with the SHA-256 of all the records (R188, R193). -/
def loadRecord (s : State) (ld : Load) (bytes : List Byte) (tagOk : Bool) : State :=
  let n := ((ownShard s ld.image).map (·.planes)).getD 0
  let all := if n = 0 then [] else ld.payload ++ bytes
  let ok : Bool := tagOk && digestOf all == ((ownShard s ld.image).map (·.digest)).getD 0
  let r := decodeRecord bytes
  let last : Bool := decide (n ≤ ld.next + 1)
  if n = 0 then endPayload (setPlates s (fun b => { b with load := some { ld with authenticated := ok } })) ok
  else if ld.authenticated then s
  else if !(bytes.length == 39984 && recordOk ld.image.dual ld.last r && (recPlanes r).all (fun l => (tfind s.plates.claims l).isSome)) then
    failLoad s .plateInvalid
  else if digitalMax < digitalUsed s + (recPlanes r).length * digitalBytes r then failLoad s .noStandby
  else
    let ld1 : Load := { addToRun ld bytes last with next := ld.next + 1, last := some (wordPlane r.addr), attempts := 0, payload := all,
                                                    authenticated := last && ok }
    let s1 := if ld.par.inPlace then setPlates s (fun b => { b with records := (recPlanes r).foldl (fun m l => tput m l r) b.records })
      else (recPlanes r).foldl (writeRecordPlane r) s
    let s2 := setPlates s1 (fun b => { b with load := some ld1 })
    if last then endPayload s2 ok else readPart s2 ld1

/-! ## Refills (R195, R358), and reads that fail (R194) -/

/-- A refill cannot read its source: a report with REFILL_SOURCE, and the unit waits for a new one. -/
def blockRefill (s : State) (r : Refill) : State :=
  let s1 := { s with map := { s.map with refills := s.map.refills.map (fun q =>
    if q.unit = r.unit then { q with blocked := true, attempts := 0 } else q) } }
  addReport s1 (fenceReport s r.unit .refillSource 0 r.spare)

/-- The source of a logical plane's committed plate can be read: it is the host's memory, or a peer that is present (R195). -/
def sourceReads (s : State) (l : Nat) : Bool :=
  s.plates.table.all (fun p => l ∉ p.planes || p.source == 0 || peerOk s p.source p.peer)

/-- A record of a refill: every plane of it that waits is written (R358). A record that fails R190, the tag or DIGEST counts as a source that
cannot be read (R195). -/
def refillRecord (s : State) (bytes : List Byte) (ok : Bool) : State :=
  let r := decodeRecord bytes
  (recPlanes r).foldl (fun x l => match refillOf x l with
    | none => x
    | some (q, pk) =>
      if !holdsCredit s (.refill q.unit) then x
      else if ok && sourceReads s l && recordOk (r.twin != 0) none r then endTransfer (beginWrite x pk (some r)) (.refill q.unit) else blockRefill x q) s

/-- A transfer whose region is known has a credit. -/
def fetched (s : State) (rk : Option Nat) (u : DmaUser) : Bool := rk.isNone || holdsCredit s u

/-- PLATE_RECORD, with the verdicts on the tag, and for a refill on DIGEST and the content key: for a refill that waits for the plane, else for the load in progress. A record whose transfer still waits for a DMA credit has
not been asked for (R340). -/
def plateRecordOp (s0 : State) (bytes : List Byte) (tagOk digestOk keyOk : Bool) : State :=
  let s := settleDma (settleClaims s0)
  let l := wordPlane (decodeRecord bytes).addr
  settleDma (match s.plates.load with
  | some ld =>
    if ((refillOf s l).isSome && (tfind s.plates.claims l).isNone) || ld.part != 4 then refillRecord s bytes (tagOk && digestOk && keyOk)
    else if fetched s (changeRegion s) .change then loadRecord s ld bytes tagOk else s
  | none => refillRecord s bytes (tagOk && digestOk && keyOk))

/-- A plate change that cannot go on ends with a status; the planes that its second pass rewrites stay PROGRAMMING (R221, R222). -/
def endChange (s : State) (st : Status) : State :=
  match txnOf s.txns 1 with
  | none => s
  | some x =>
    let kept := s.plates.inplace.flatMap (fun d => imagePlanes d.image)
    let s1 := dropClaims s ((s.plates.claims.map (·.1)).filter (· ∉ kept))
    let targets := s1.plates.claims.map (·.2)
    let s2 := setPlates s1 (fun b => { b with claims := [], records := [], movedClaims := [], reported := [], retrained := [], inplace := [], rewriting := false,
                                              draining := none, systemPrep := none, flipAt := none,
                                              writing := b.writing.filter (fun e => e.1 ∉ targets),
                                              waiting := b.waiting.filter (fun e => e.1 ∉ targets),
                                              incomplete := if b.rewriting then kept.foldl addOnce b.incomplete else b.incomplete })
    let s3 := releaseHeld (putTxn { s2 with formes := s2.formes.map (fun f => (f.1, { f.2 with draining := false })) } 1 none)
    match x.reply with
    | some h => reply s3 h st
    | none => s3

/-- Send the read of the second pass's next run of 64 records, once its transfer has a DMA credit. -/
def readRun (s : State) : State := match runsLeft s with
  | some ld => if (rerunRegion s).isSome then settleDma (endTransfer s .rerun) else sendRecordRead s ld (runRecord s ld)
  | none => settleDma s

/-- Change the first load with runs left. -/
def modRuns (f : Load → Load) : List Load → List Load
  | [] => []
  | d :: ds => if d.digests = [] then d :: modRuns f ds else f d :: ds

/-- Change the in-place load whose second pass runs. -/
def modRun (s : State) (f : Load → Load) : State := setPlates s (fun b => { b with inplace := modRuns f b.inplace })

/-- One read of an image has failed; the third attempt ends what it was for (R194). -/
def imageTimeoutOp (s : State) : State :=
  match s.plates.load with
  | some ld =>
    if ld.authenticated then s
    else if 3 ≤ ld.attempts + 1 then failLoad s .sourceTimeout
    else
      let ld1 : Load := { ld with attempts := ld.attempts + 1 }
      readPart (setPlates s (fun b => { b with load := some ld1 })) ld1
  | none =>
    match s.plates.rewriting, runsLeft s with
    | true, some ld =>
      if 3 ≤ ld.attempts + 1 then endChange s .sourceTimeout
      else readRun (modRun s (fun d => { d with attempts := d.attempts + 1 }))
    | _, _ =>
      let s1 := settleDma s
      match s1.map.refills.find? (fun r => !r.blocked && r.planes != [] && holdsCredit s1 (.refill r.unit)) with
      | none => s
      | some r =>
        let s2 := endTransfer s1 (.refill r.unit)
        settleDma (if 3 ≤ r.attempts + 1 then blockRefill s2 r
          else { s2 with map := { s2.map with refills := s2.map.refills.map (fun q =>
            if q.unit = r.unit then { q with attempts := q.attempts + 1 } else q) } })

/-! ## Programming and defects (R197, R201-R205) -/

/-- Levels of the whole plane by 272 × row + column: the record's, and copies of replaced columns in their spares. -/
def planeLevels (r : PlaneRecord) (xmap : Tbl Nat) : Tbl Nat :=
  let base : Tbl Nat := r.levels.map (fun e => (272 * (e.1 / 264) + e.1 % 264, e.2))
  xmap.foldl (fun m x => (List.range 256).foldl (fun m2 row => tset 0 m2 (272 * row + 264 + x.1) (recLevel r row x.2)) m) base

/-- A column fault: 8 or more defects, or a reading that changes (R201). -/
def columnFault (ds : List Defect) (c : Nat) : Bool :=
  8 ≤ (ds.filter (fun d => d.col == c)).length || ds.any (fun d => d.col == c && d.unstable)

/-- Data and checksum columns at fault (R201 step 1). -/
def faultColumns (ds : List Defect) : List Nat := sortAsc ((ds.map (·.col)).eraseDups.filter (fun c => c < 264 && columnFault ds c))

/-- Spare columns of the plane that can replace one: those without a fault of their own. -/
def spareCols (ds : List Defect) : List Nat := (List.range 6).filter (fun x => !columnFault ds (264 + x))

/-- The column index whose levels a physical column carries: a used spare column carries those of the column it replaces. -/
def carried (xmap : Tbl Nat) (col : Nat) : Nat := if col < 264 then col else (tfind xmap (col - 264)).getD col

/-- Defects that column replacement leaves: not in a replaced column, nor in a spare column that replaces none (R82, R201). -/
def restDefects (xmap : Tbl Nat) (ds : List Defect) : List Defect :=
  ds.filter (fun d => d.col < 270 && d.col ∉ xmap.map (·.2) && (d.col < 264 || (tfind xmap (d.col - 264)).isSome))

/-- Spare columns for the column faults; none when they run out. -/
def assignSpareCols : List Nat → List Nat → Tbl Nat → Option (Tbl Nat)
  | [], _, m => some m
  | _ :: _, [], _ => none
  | c :: cs, x :: xs, m => assignSpareCols cs xs (tput m x c)

/-- A padding row: every data cell stands at level s × z (R75). -/
def paddingRow (r : PlaneRecord) (row : Nat) : Bool :=
  (List.range 256).all (fun c => recLevel r row c ==
    (if r.wmode = 4 then (if c % 2 = 0 then r.zeroPoint / 16 else r.zeroPoint % 16) else r.zeroPoint * (spacing r.wmode).toNat))

/-- Neighbour rows of a defect in order of distance, the lower row first; skim rows, padding rows and other defects of the column are skipped
(R202). -/
def neighbourRows (skim : List Nat) (padding : Nat → Bool) (ds : List Defect) (d : Defect) : List Nat :=
  let block := 32 * (d.row / 32)
  let near := fun (r : Nat) => if r < d.row then 2 * (d.row - r) else 2 * (r - d.row) + 1
  sortBy near (((List.range 32).map (block + ·)).filter (fun r =>
    r != d.row && r ∉ skim && !padding r && !ds.any (fun e => e.row == r && e.col == d.col)))

/-- Move up to `n` levels towards cancelling an error: what is left of it, and the new levels. A row that cannot move is passed over. -/
def cancelError (lv : Nat → Nat) : Nat → Int → List Nat → Int × List (Nat × Nat)
  | _, e, [] => (e, [])
  | 0, e, _ => (e, [])
  | n + 1, e, r :: rs =>
    let v := (limitTo 0 15 ((lv r : Int) - e)).toNat
    if v = lv r then cancelError lv (n + 1) e rs
    else
      let x := cancelError lv n (e + v - lv r) rs
      (x.1, (r, v) :: x.2)

/-- Set an intended level, in the spare column too when one replaces the column. -/
def setLevel (xmap : Tbl Nat) (m : Tbl Nat) (row col v : Nat) : Tbl Nat :=
  xmap.foldl (fun t e => if e.2 = col then tset 0 t (272 * row + 264 + e.1) v else t) (tset 0 m (272 * row + col) v)

/-- Recompute the checksum cell of a row and group (R76). -/
def fixChecksum (xmap : Tbl Nat) (m : Tbl Nat) (row n : Nat) : Tbl Nat :=
  setLevel xmap m row (256 + n) (rneDiv (sumNat ((List.range 32).map (fun c => tget 0 m (272 * row + 32 * n + c)))) 32).toNat

/-- Neighbour adjustment of one defect: the new levels and the moves (row, column, level), or none (R202). -/
def adjustDefect (skim : List Nat) (padding : Nat → Bool) (xmap : Tbl Nat) (ds : List Defect) (m : Tbl Nat) (d : Defect) :
    Option (Tbl Nat × List (Nat × Nat × Nat)) :=
  let c := carried xmap d.col
  let lv := fun (r : Nat) => tget 0 m (272 * r + c)
  let x := cancelError lv 3 ((d.level : Int) - lv d.row) (neighbourRows skim padding ds d)
  if c < 256 ∧ x.1.natAbs ≤ 1 then
    let moves := (d.row, d.level) :: x.2
    let m1 := moves.foldl (fun t v => setLevel xmap t v.1 c v.2) m
    some (moves.foldl (fun t v => fixChecksum xmap t v.1 (c / 32)) m1, moves.map (fun v => (v.1, c, v.2)))
  else none

/-- All defects in order: levels, moves, defects absorbed, defects left. -/
def adjustAll (skim : List Nat) (padding : Nat → Bool) (xmap : Tbl Nat) (all : List Defect) :
    List Defect → Tbl Nat × List (Nat × Nat × Nat) × Nat × List Defect → Tbl Nat × List (Nat × Nat × Nat) × Nat × List Defect
  | [], x => x
  | d :: ds, (m, mv, n, left) => match adjustDefect skim padding xmap all m d with
    | some y => adjustAll skim padding xmap all ds (y.1, mv ++ y.2, n + 1, left)
    | none => adjustAll skim padding xmap all ds (m, mv, n, left ++ [d])

/-- Free stuck-list entries of a tile (R81). -/
def stuckRoom (x : Tile) : Nat := 16 - (x.stuck.length + x.newStuck.length)

def stuckOf (p : Nat) (m : Tbl Nat) (d : Defect) : Stuck :=
  { plane := p, row := d.row, col := d.col, intended := tget 0 m (272 * d.row + d.col), stuck := d.level }

/-- Plate-defect reports (R372): a head and its continuations of 14 defects. -/
def addContinuations (head : Report) (s : State) : List (List Defect) → State
  | [] => s
  | es :: r =>
    let c : Report := { head with kind := 4, entries := es }
    let s1 := if s.faults.reports.length < 1024 then setFaults s (fun f => { f with reports := f.reports ++ [c] })
      else setFaults s (fun f => { f with lost := satAdd 16 f.lost 1 })
    addContinuations head s1 r

def defectReport (s : State) (pk : Nat) (ds : List Defect) : State :=
  let n := s.faults.nextReport
  let head : Report := { fenceReport s (unitOfPlane pk) .none 0 none with kind := 3, second := 0, count := ds.length }
  setPlates (addContinuations { head with seq := n } (addReport s head) (chunks 14 ((ds.length + 13) / 14) ds))
    (fun b => { b with nReported := satAdd 8 b.nReported 1,
                       reported := ((b.claims.filter (fun e => e.2 == pk)).map (·.1)).foldl addOnce b.reported })

/-- The notice of PLATE_DEFECTS (R204, R236): SEQ of the load in progress that writes the plane, the transaction that claims it, or 0. -/
def defectNotice (s : State) (pk : Nat) : State :=
  match s.plates.claims.find? (fun e => e.2 == pk) with
  | some e =>
    let seq := ((s.plates.load.filter (fun d => e.1 ∈ imagePlanes d.image)).map (·.seq)).getD 0
    unsolicited s 0x0040 .plateDefects (((txnOf s.txns 1).map (·.id)).getD 0) seq (logicalWord (unitOfPlane e.1)) 0
  | none => unsolicited s 0x0040 .plateDefects 0 0 (logicalWordOf s (unitOfPlane pk)) 0

/-- A waiting PLATE_DEFECT_ACCEPT follows its record to another spare plane, or ends without one. -/
def moveDefectWait (s : State) (pk : Nat) (sp : Option Nat) : State :=
  (s.cmdq.filter (fun e => e.wait == .defect pk)).foldl (fun x e => match sp with
    | some p => setWait x e.hdr.fn e.hdr.seq (.defect p)
    | none => finish x e.hdr.fn e.hdr.seq .noStandby {} 0 0) s

/-- Step 5 of R201: the plane is retired, and its record goes to the lowest SPARE plane of the tile, which takes its place
in the plane map. A tile without one is fenced with its core (R22). -/
def spareAway (s : State) (pk : Nat) (r : PlaneRecord) : State × Option Nat :=
  let tk := planeTile pk
  let s1 := setPlates (setDescState s pk 4) (fun b =>
    { b with writing := tdel b.writing pk, waiting := tdel b.waiting pk, nSpare := satAdd 8 b.nSpare 1 })
  match (planesIn s1 tk 3).head? with
  | none => (moveDefectWait (fenceCore (markFenced s1 (unitOfTile tk)) (planeCore pk) .none 0) pk none, none)
  | some n =>
    let sp := planeKey tk n
    let s2 := match logicalPlane s1 tk (planeNo pk) with
      | some l => { s1 with arr := { s1.arr with planeMap := tset l s1.arr.planeMap (1408 * tk + l) n } }
      | none => s1
    let s3 := setPlates s2 (fun b => { b with claims := b.claims.map (fun e => if e.2 = pk then (e.1, sp) else e) })
    let s4 := { s3 with map := { s3.map with refills := s3.map.refills.map (fun q =>
      if q.spare = some (unitOfPlane pk) then { q with spare := some (unitOfPlane sp) } else q) } }
    let s5 := if 64 < (planesIn s4 tk 4).length then fenceCore (markFenced s4 (unitOfTile tk)) (planeCore pk) .none 0 else s4
    (beginWrite (moveDefectWait s5 pk (some sp)) sp (some r), some sp)

/-- The logical plane that a claimed physical plane is written for has been reported and loaded again: a retrained plate is on it (R201,
R204). -/
def isRetrained (s : State) (pk : Nat) : Bool := s.plates.claims.any (fun e => e.2 == pk && e.1 ∈ s.plates.retrained)

/-- The plane's contents, descriptor, sum record and digital section as its record gives them: `m0` are the intended levels, `m` those the
cells hold. -/
def storePlane (s : State) (pk : Nat) (r : PlaneRecord) (m0 m : Tbl Nat) (xmap : Tbl Nat) (moves : List (Nat × Nat × Nat)) (st : Nat) :
    State :=
  let d : PlaneDesc := { state := st, wmode := r.wmode, width := r.width, zeroPoint := r.zeroPoint, skimValid := r.skimValid,
                         skimRow := r.skimRow, xmap := xmap }
  let s1 := { s with arr := { s.arr with cells := tput s.arr.cells pk m, undef := tdel s.arr.undef pk, built := tput s.arr.built pk m0, envelope := tput s.arr.envelope pk r.envelope,
                                         skim := if r.skimValid = 0 then tdel s.arr.skim pk else tput s.arr.skim pk (r.skimShift, r.skimW) } }
  let s2 := { s1 with nv := { s1.nv with adjust := tset [] s1.nv.adjust pk moves } }
  setDesc s2 pk d

/-- Stuck cells hold the level they read. -/
def withStuck (m : Tbl Nat) (ds : List Defect) : Tbl Nat := ds.foldl (fun t d => tset 0 t (272 * d.row + d.col) d.level) m

/-- A plane of the current or last load is programmed, not by a refill and not on a spare that took over its claim (R224). -/
def countsProgress (s : State) (pk : Nat) : Bool :=
  s.plates.claims.any (fun c => c.2 == pk && c.1 ∈ s.plates.loadPlanes && c.1 ∉ s.plates.movedClaims)

/-- The plane of a refill is written: it leaves the refill (R358). -/
def refillWritten (s : State) (pk : Nat) : State :=
  { s with map := { s.map with refills := s.map.refills.map (fun r =>
    { r with planes := r.planes.filter (fun l => physInSpare s r l != some pk) }) } }

/-- Programming of a plane with a record ends (R197, R201). -/
def programRecord (s : State) (pk : Nat) (r : PlaneRecord) (ds : List Defect) : State :=
  let ck := planeCore pk
  let t := tileOfPlane pk
  let refill := isRefill s pk
  let clear := modCore s ck (fun c => modTile c t (fun x =>
    { x with stuck := x.stuck.filter (fun e => e.plane != planeNo pk), newStuck := x.newStuck.filter (fun e => e.plane != planeNo pk) }))
  match assignSpareCols (faultColumns ds) (spareCols ds) [] with
  | none => loadMaybeDone (spareAway clear pk r).1
  | some xmap =>
    let m0 := planeLevels r xmap
    let rest := restDefects xmap ds
    let adj := if 3 ≤ r.wmode then adjustAll ((recSkimRows r).map (·.2)) (paddingRow r) xmap rest rest (m0, [], 0, []) else (m0, [], 0, rest)
    let room := stuckRoom (tileOf (coreOf clear ck) t)
    let left := adj.2.2.2
    if left.length ≤ room then
      let s1 := modCore clear ck (fun c => modTile c t (fun x => { x with newStuck := x.newStuck ++ left.map (stuckOf (planeNo pk) adj.1) }))
      let s2 := storePlane s1 pk r adj.1 (withStuck adj.1 left) xmap adj.2.1 (if refill then 2 else 5)
      let s3 := setPlates s2 (fun b =>
        { b with writing := tdel b.writing pk, waiting := tdel b.waiting pk, progress := satAdd 32 b.progress (b2n (countsProgress s pk)),
                 nStuck := satAdd 8 b.nStuck left.length, nAdjusted := satAdd 8 b.nAdjusted adj.2.2.1,
                 load := b.load.map (fun l => if refill then l else { l with written := addOnce l.written pk }) })
      loadMaybeDone (if refill then refillWritten s3 pk else s3)
    else if isRetrained clear pk then loadMaybeDone (spareAway clear pk r).1
    else if refill || autoSpare s || (txnOf s.txns 1).any (·.committing) then loadMaybeDone (spareAway (defectReport clear pk left) pk r).1
    else
      let s1 := setPlates clear (fun b => { b with writing := tdel b.writing pk, waiting := tput b.waiting pk left })
      loadMaybeDone (defectNotice (defectReport s1 pk left) pk)

/-- A readback or rewrite of a plane in service ends (R205): stuck-list entries alone, else the plane is retired, refilled
and reported. A test-pattern write leaves the pattern (R369). -/
def programPlain (s : State) (pk : Nat) (ds : List Defect) : State :=
  let s0 := setPlates s (fun b => { b with writing := tdel b.writing pk })
  let ck := planeCore pk
  let t := tileOfPlane pk
  if (descOf s pk).state = 5 then
    let m := (List.range 256).foldl (fun m row => (List.range 264).foldl (fun m2 c => tset 0 m2 (272 * row + c) (patternLevel row c)) m) []
    { s0 with arr := { s0.arr with cells := tput s0.arr.cells pk m, undef := tdel s0.arr.undef pk, built := tput s0.arr.built pk m } }
  else
    let m := tget [] s.arr.cells pk
    let x := tileOf (coreOf s ck) t
    let new := (restDefects (descOf s pk).xmap ds).filter (fun d =>
      !(x.stuck ++ x.newStuck).any (fun e => e.plane == planeNo pk && e.row == d.row && e.col == d.col))
    if new.length ≤ stuckRoom (tileOf (coreOf s ck) t) then
      let s1 := modCore s0 ck (fun c => modTile c t (fun x => { x with newStuck := x.newStuck ++ new.map (stuckOf (planeNo pk) ((tfind s.arr.built pk).getD m)) }))
      let s2 := { s1 with arr := { s1.arr with cells := tput s1.arr.cells pk (withStuck m new) } }
      closeLate (setPlates s2 (fun b => { b with nStuck := satAdd 8 b.nStuck new.length })) (unitOfPlane pk)
    else defectNotice (retirePlane (defectReport s0 pk new) pk .none) pk

/-- A waiting PLATE_DEFECT_ACCEPT whose spare plane is now written is answered (R204). -/
def replyDefects (s : State) (pk : Nat) : State :=
  match s.cmdq.find? (fun e => e.wait == .defect pk) with
  | some e => finish s e.hdr.fn e.hdr.seq .ok {} (physWord (unitOfPlane pk)) 0
  | none => s

/-- A reference column of the plane fails; with both of a tile failed the tile is fenced (R22). -/
def checkReferences (s : State) (pk : Nat) (ds : List Defect) : State :=
  let bad := fun (c : Nat) => decide (8 ≤ (ds.filter (fun d => d.col == c)).length) || ds.any (fun d => d.col == c && d.unstable)
  if bad 270 || bad 271 then
    let ck := planeCore pk
    let s1 := modCore s ck (fun c => modTile c (tileOfPlane pk) (fun x => { x with badY0 := x.badY0 || bad 270, badY1 := x.badY1 || bad 271 }))
    let x := tileOf (coreOf s1 ck) (tileOfPlane pk)
    let s2 := if x.badY0 && x.badY1 then fenceFor s1 (unitOfTile (planeTile pk)) .none 0 else s1
    attributeReferences s2 ck
  else s

/-- PLANE_PROGRAM: the plane holds a write slot (R198, R199); the 65,536 data cells of a write count in the rate, which a readback does not
program (R205, R224), and its slot goes to a waiting plane. -/
def planeProgramOp (s0 : State) (pk : Nat) (ds : List Defect) : State :=
  let s1 := fillSlots (settleClaims s0)
  if !canWrite s1 pk then s1
  else
    let written : Bool := (tget none s1.plates.writing pk).isSome || pk ∈ s1.plates.testPlanes
    let s := setPlates (checkReferences s1 pk ds) (fun b => { b with cells := b.cells + (if written then 65536 else 0) })
    settleDma (match tfind s.plates.writing pk with
      | none => s
      | some (some r) => let s2 := programRecord s pk r ds; if (tfind s2.plates.writing pk).isNone then replyDefects s2 pk else s2
      | some none => programPlain s pk ds)

/-! ## Bursts (R69, R200) -/

/-- The longest wait that write bursts may cause on a core within a step, in ns. -/
def burstLimit : Nat := 1255

/-- WRITE_BURST: whole rows of 625 ns from the moment the tile is free. The tile is in STATE 3, and the plane engaged before is engaged anew before
its next strobe. -/
def writeBurstOp (s : State) (pk row rows : Nat) : State :=
  let ck := planeCore pk
  let t := tileOfPlane pk
  let c := coreOf s ck
  if !canWrite (fillSlots s) pk || burstLimit ≤ c.burstWait || c.testing.isSome || 256 < row + rows then fillSlots s
  else
    let b := tileReady s c t
    let e := b + 625 * rows
    modCore (fillSlots s) ck (fun c => modTile c t (fun x =>
      { addWork (now s) (addChange (now s) x b b none) 3 b e with
        former := x.engaged.orElse (fun _ => x.former), proofEngaged := false, freeAt := e, burst := some (b, e) }))

/-! ## Commands -/

def committedPlate (s : State) (id : Nat) : Option Plate := s.plates.table.find? (fun p => p.imageId == id)

def plateReleaseOp (h : Hdr) (id : Nat) (s : State) : State :=
  match committedPlate s id with
  | none => reply s h .paramInvalid
  | some p => replyOk (stage s 1 (.release id)) h p.planes.length 0

/-- A new source (R195): the refills of the plate that waited for it go on. -/
def sourceSetOp (h : Hdr) (id source peer addr : Nat) (s : State) : State :=
  if (committedPlate s id).isNone || !peerOk s source peer then reply s h .paramInvalid
  else
    let s1 := setPlates s (fun b => { b with table := b.table.map (fun p =>
      if p.imageId = id then { p with source := source, peer := peer, addr := addr } else p) })
    replyOk { s1 with map := { s1.map with refills := s1.map.refills.map (fun r =>
      if (committedPlate s id).any (fun p => r.planes.any (· ∈ p.planes)) then { r with blocked := false, attempts := 0 } else r) } } h 0 0

def defectAcceptOp (h : Hdr) (w : Nat) (s : State) : State :=
  match tfind s.plates.claims (wordPlane w) with
  | none => reply s h .paramInvalid
  | some pk => match tfind s.plates.waiting pk, tfind s.plates.records (wordPlane w) with
    | some _, some r => match spareAway s pk r with
      | (s1, some sp) => setWait s1 h.fn h.seq (.defect sp)
      | (s1, none) => reply s1 h .noStandby
    | _, _ => reply s h .paramInvalid

/-- FORME_LOAD (R214). -/
def formeLoadOp (h : Hdr) (slot addr length : Nat) (s : State) : State :=
  if length = 0 then replyOk (stage s 1 (.forme slot none 0)) h 0 0
  else setWait (emit s (.hostRead h.fn addr length)) h.fn h.seq .hostRead

/-- The forme image has been read. -/
def formeRead (h : Hdr) (slot length : Nat) (bytes : List Byte) (s : State) : State :=
  match formeStatus s slot length (decodeForme bytes) with
  | some st => reply s h st
  | none => replyOk (stage s 1 (.forme slot (some (decodeForme bytes, bytes)) length)) h 0 0

/-! ## In-place changes (R221, R222) -/

/-- The last run of an in-place change has been taken: its plane writes are still to come. -/
def runsDone (s : State) : Bool := (runsLeft s).isNone

/-- A run of 64 records of the second pass: its digest is compared with the first pass's, and its planes enter programming. -/
def inplaceRunOp (s0 : State) (bytes : List Byte) : State :=
  let s := settleDma (settleClaims s0)
  match s.plates.rewriting, runsLeft s with
  | true, some ld =>
    if !fetched s (rerunRegion s) .rerun then s
    else if ld.digests.head? != some (digestOf bytes) then endChange s .plateSignature
    else
      let s1 := (decodeRecords 64 bytes).foldl (fun x r => (recPlanes r).foldl (writeRecordPlane r) x) s
      readRun (modRun s1 (fun d => { d with attempts := 0, digests := d.digests.drop 1 }))
  | _, _ => s

/-! ## The audit window (R96, R203) -/

def auditWindow : Nat := 17179869184

/-- Bytes of a plane's copy: 272 columns of 256 cells at 4 bits, and the digital data of its skim rows (DESIGN CHOICE, log entry 82). -/
def copyBytes (skimValid : Nat) : Nat := 34816 + (if skimValid = 0 then 0 else 2056)

/-- ALLOCATED logical planes of the module, in the order of the walk that goes on at a logical plane. -/
def auditWalk (s : State) (from_ : Nat) : List Nat :=
  let ls := sortAsc ((s.plates.table.flatMap (·.planes)).filter (fun l => (physPlaneKey s l).any (fun p => (descOf s p).state == 2)))
  ls.filter (fun l => from_ ≤ l) ++ ls.filter (fun l => l < from_)

/-- Planes of the walk whose copies the window holds together. -/
def takeWindow (s : State) : Nat → List Nat → List Nat
  | _, [] => []
  | room, l :: ls =>
    let n := copyBytes (((physPlaneKey s l).map (fun p => (descOf s p).skimValid)).getD 0)
    if n ≤ room then l :: takeWindow s (room - n) ls else []

/-- A new audit period: firmware plans the planes of its set (R96). -/
def startAudit (s : State) : State :=
  let plan := takeWindow s auditWindow (auditWalk s s.plates.auditAt)
  setPlates s (fun b => { b with auditStart := some (now s), auditPlan := plan, auditOld := b.auditSet.length,
                                 auditAt := (plan.getLast?.map (· + 1)).getD b.auditAt })

/-- The oldest copy's slot starts to be overwritten: its plane leaves the set, and its audits are abandoned (R99). -/
def leaveAudit (s : State) : State :=
  if s.plates.auditOld = 0 then s
  else
    let s1 := setPlates s (fun b => { b with auditSet := b.auditSet.drop 1, auditOld := b.auditOld - 1 })
    keepAudits s1 (s1.plates.auditSet.map (·.plane))

/-- Every copy of the period before leaves. -/
def leaveAll : Nat → State → State
  | 0, s => s
  | n + 1, s => leaveAll n (leaveAudit s)

/-- The copy that a record gives, with the plane's adjustment record applied (R203). -/
def copyOf (s : State) (l : Nat) (r : PlaneRecord) : AuditCopy :=
  let moves := ((physPlaneKey s l).map (fun p => tget [] s.nv.adjust p)).getD []
  { plane := l, wmode := r.wmode, zeroPoint := r.zeroPoint, skimValid := r.skimValid, skimShift := r.skimShift,
    levels := moves.foldl (fun m x => tset 0 m (264 * x.1 + x.2.1) x.2.2) r.levels, skimW := r.skimW }

/-- The next plane of the period's plan: its copy joins once it is complete, or the plane is skipped and counted (R96). A plane that is not
ALLOCATED any more is passed over. -/
def auditFetchOne (s : State) (f : Option AuditFetch) : State :=
  match s.plates.auditPlan with
  | [] => s
  | l :: plan =>
    if !fetched s (auditRegion s) .audit then s
    else
    let s1 := setPlates s (fun b => { b with auditPlan := plan })
    if !(physPlaneKey s l).any (fun p => (descOf s p).state == 2) then s1
    else
      let skip := setPlates s1 (fun b => { b with auditSkips := satAdd 32 b.auditSkips 1 })
      match f with
      | none => skip
      | some x =>
        let r := decodeRecord x.bytes
        if x.ok && sourceReads s l && recordOk (r.twin != 0) none r && l ∈ recPlanes r then
          setPlates (leaveAudit s1) (fun b => { b with auditSet := b.auditSet ++ [copyOf s l r] })
        else skip

/-- AUDIT_ROTATION: a new period starts when one is due; the fetches are those of the plan's next planes. At the end of the plan the copies of the
period before are gone. -/
def auditRotationOp (s : State) (fetches : List (Option AuditFetch)) : State :=
  let s1 := if s.plates.auditStart.all (fun t => t + auditPeriodNs s ≤ now s) then startAudit s else s
  let s2 := settleDma (fetches.foldl (fun x f => auditFetchOne (settleDma x) f) s1)
  if s2.plates.auditPlan = [] then leaveAll s2.plates.auditOld s2 else s2

/-! ## Rows -/

def execPlateLoad (h : Hdr) (p : ImageSource) (inPlace : Bool) (t : Nat) (s : State) : Host.Outcome State Fault Refusal :=
  runCmd h (.plateLoad ⟨p, inPlace⟩) t s (plateLoadOp h ⟨p, inPlace⟩)

def execPlateRelease (h : Hdr) (imageId : Nat) (t : Nat) (s : State) : Host.Outcome State Fault Refusal :=
  runCmd h (.plateRelease imageId) t s (plateReleaseOp h imageId)

def execFormeLoad (h : Hdr) (slot addr length : Nat) (t : Nat) (s : State) : Host.Outcome State Fault Refusal :=
  runCmd h (.formeLoad slot addr length) t s (formeLoadOp h slot addr length)

def execPlateSourceSet (h : Hdr) (imageId source peer addr : Nat) (t : Nat) (s : State) : Host.Outcome State Fault Refusal :=
  runCmd h (.plateSourceSet imageId source peer addr) t s (sourceSetOp h imageId source peer addr)

def execPlateDefectAccept (h : Hdr) (addr : Nat) (t : Nat) (s : State) : Host.Outcome State Fault Refusal :=
  runCmd h (.plateDefectAccept addr) t s (defectAcceptOp h addr)

def execPlateRecord (bytes : List Byte) (tagOk digestOk keyOk : Bool) (t : Nat) (s : State) : Host.Outcome State Fault Refusal :=
  .next (plateRecordOp (advance t s) bytes tagOk digestOk keyOk)

def execImageReadTimeout (t : Nat) (s : State) : Host.Outcome State Fault Refusal := .next (imageTimeoutOp (advance t s))

/-- A physical plane of the module. -/
def onPlane (pk : Nat) (s : State) : Host.Outcome State Fault Refusal := if pk < 22528 * nCores then .next s else .fault .noSuchUnit

def execPlaneProgram (plane : Nat) (defects : List Defect) (t : Nat) (s : State) : Host.Outcome State Fault Refusal :=
  onPlane plane (planeProgramOp (advance t s) plane defects)

def execWriteBurst (plane row rows : Nat) (t : Nat) (s : State) : Host.Outcome State Fault Refusal :=
  onPlane plane (writeBurstOp (advance t s) plane row rows)

def execInplaceRun (bytes : List Byte) (t : Nat) (s : State) : Host.Outcome State Fault Refusal :=
  .next (inplaceRunOp (advance t s) bytes)

/-- Each fetch with the verdict of its checks. -/
def auditFetches : List (Option (List Byte)) → List Bool → List (Option AuditFetch)
  | [], _ => []
  | f :: fs, checks => f.map (fun b => { bytes := b, ok := checks.headD false }) :: auditFetches fs checks.tail

def execAuditRotation (fetched : List (Option (List Byte))) (checks : List Bool) (t : Nat) (s : State) : Host.Outcome State Fault Refusal :=
  .next (auditRotationOp (advance t s) (auditFetches fetched checks))

end Sys2Proof.Machine
end

