-- ==== Sys2Proof/Machine/Txns.lean ====
section
/-! DEFINITION. Transactions: TXN_BEGIN, TXN_COMMIT with its checks, TXN_ROLLBACK and expiry (R238-R242), what applies at
a boundary in the order of R240, and the flip of a plate change (R215-R222, R304). -/

namespace Sys2Proof.Machine

/-! ## TXN_BEGIN (R238) -/

/-- Identifiers in ascending order, wrapping from 0xFFFF to 1, past those that a transaction holds. -/
def pickTxn (s : State) : Nat → Nat → Nat
  | 0, n => n
  | fuel + 1, n => if (txnDomain s n).isSome then pickTxn s fuel (if n = 0xFFFF then 1 else n + 1) else n

def txnBeginOp (h : Hdr) (d : Nat) (s : State) : State :=
  if (txnOf s.txns d).isSome then reply s h .txnBusy
  else
    let n := pickTxn s 4 s.txns.nextId
    let s1 := putTxn s d (some { id := n, staged := [], idleSince := now s, committing := false, acceptedAt := 0,
                                 recordWritten := false, failed := [], reply := none })
    replyOk { s1 with txns := { s1.txns with nextId := if n = 0xFFFF then 1 else n + 1 } } h n 0

/-! ## After the lock-up -/

/-- The plate table after a plate change: a new plate replaces one of its IMAGE_ID and takes its planes from others. -/
def tableAfter (tb : List Plate) : List Staged → List Plate
  | [] => tb
  | .release i :: r => tableAfter (tb.filter (fun q => q.imageId != i)) r
  | .plate p :: r =>
    tableAfter (((tb.filter (fun q => q.imageId != p.imageId)).map (fun q =>
      { q with planes := q.planes.filter (· ∉ p.planes), twins := q.twins.filter (fun e => e.1 ∉ p.planes && e.2 ∉ p.planes) }))
      ++ [p]) r
  | _ :: r => tableAfter tb r

def tablePlanes (tb : List Plate) : List Nat := tb.flatMap (·.planes)

/-- Configuration that a tenant will have after lock-up. -/
def cfgAfter (s : State) (l : List Staged) (t : Nat) : TenantCfg :=
  l.foldl (fun c x => match x with
    | .tenant u cfg => if u = t then cfg else c
    | _ => c) (tenantOf s t).cfg

def enabledAfter (s : State) (l : List Staged) (t : Nat) : Bool :=
  l.foldl (fun b x => match x with
    | .tenant u cfg => if u = t then cfg.enable else b
    | _ => b) (tenantOf s t).enabled

/-! ## The checks of TXN_COMMIT -/

/-- R375: a tenant enabled after lock-up has an ACTIVE slot. -/
def tenantCommit (s : State) (l : List Staged) : Option Status :=
  if (List.range 256).any (fun t => enabledAfter s l t && tenantSlot s t != 1) then some .tenantInvalid else none

/-- R356: DUAL_ONLY while a committed plate has no twins. -/
def optionCommit (s : State) (l : List Staged) : Option Status :=
  let v := l.foldl (fun v x => match x with
    | .option off m w => if off = Off.fault then Nat.lor (Nat.land v (2 ^ 32 - 1 - m.toNat)) (Nat.land w.toNat m.toNat) else v
    | _ => v) (opt s Off.fault)
  if bitAt v 29 && s.plates.table.any (fun p => !p.dual) then some .paramInvalid else none

/-- A plane that an in-place change left PROGRAMMING and that the open change does not write either (R222). -/
def stillIncomplete (s : State) (l : Nat) : Bool := l ∈ s.plates.incomplete && (tfind s.plates.claims l).isNone

/-- Resident formes and planes as they will be: they name planes that will be ALLOCATED (R137, R215, R214, R222, R337, R338). -/
def formesFit (s : State) (fs : Tbl Forme) (planes : List Nat) : Bool :=
  fs.all (fun f =>
    modesOk s f.2.image && (formePlanes s f.2.image).all (· ∈ planes) && (formePlanes s f.2.image).all (fun l => !stillIncomplete s l) && draftOk fs f.2.image
      && f.2.image.acc.all (fun e => accTotal fs (regionKey (e.1 / 15) (e.1 % 15)) ≤ 2048)
      && stagingOk (ownAttn s f.2.image) f.2.image.sched.rowsMax (fun r => 768 + sharedLeft fs r))
    && residentBytes fs ≤ 2147483648

/-- R215. -/
def plateCommit (s : State) (x : Txn) : Option Status :=
  if s.plates.load.isSome then some .plateBusy
  else match x.failed with
  | e :: _ => some e.2
  | [] =>
    if s.plates.waiting != [] then some .plateDefects
    else if formesFit s (formesAfter s.formes x.staged) (tablePlanes (tableAfter s.plates.table x.staged)) then none
    else some .formeInvalid

def commitStatus (s : State) (d : Nat) (x : Txn) : Option Status :=
  match d with
  | 0 => tenantCommit s x.staged
  | 1 => plateCommit s x
  | 2 => x.staged.findSome? (groupStatus s)
  | _ => optionCommit s x.staged

/-! ## Drains (R221) -/

/-- A forme uses planes that in-place loads replace. -/
def usesInplace (s : State) (img : FormeImage) : Bool :=
  let ps := s.plates.inplace.flatMap (fun d => imagePlanes d.image)
  (formePlanes s img).any (· ∈ ps)

def startDrain (s : State) : State :=
  if s.plates.inplace = [] then s
  else setPlates { s with formes := s.formes.map (fun f => (f.1, { f.2 with draining := f.2.draining || usesInplace s f.2.image })) }
    (fun b => { b with draining := some (now s) })

/-- No request of a draining forme is in flight. -/
def drained (s : State) : Bool := s.reqs.all (fun e => !(slotDraining s e.2.p.slot) || e.2.state == .held)

/-- Descriptors as a start from the generation record finds them: planes that an open change has written but not flipped, and test planes, are
STANDBY again (R223, R369), those that a second pass rewrites stay PROGRAMMING (R222). -/
def genDescs (s : State) : Tbl PlaneDesc :=
  let kept := if s.plates.rewriting then s.plates.inplace.flatMap (fun d => imagePlanes d.image) else []
  let targets := (s.plates.claims.filter (fun e => e.1 ∉ kept && !leftProgramming s e)).map (·.2) ++ s.plates.testPlanes
  s.arr.desc.map (fun (e : Nat × PlaneDesc) => if e.2.state = 5 ∧ e.1 ∈ targets then (e.1, { e.2 with state := 1 }) else e)

def genRecordOf (s : State) : GenRecord :=
  { epoch := s.plates.epoch, plates := s.plates.table, descs := genDescs s, planeMap := s.arr.planeMap,
    stuck := s.cores.flatMap (fun (c : Nat × Core) => (c.2.tiles.filter (fun (t : Nat × Tile) => t.2.stuck ++ t.2.newStuck != [])).map
      (fun (t : Nat × Tile) => (tileKey c.1 t.1, t.2.stuck ++ t.2.newStuck))),
    incomplete := if s.plates.rewriting then (s.plates.inplace.flatMap (fun d => imagePlanes d.image)).foldl addOnce s.plates.incomplete
                  else s.plates.incomplete }

/-- Write the generation record (R216). -/
def saveGen (s : State) : State := { s with nv := { s.nv with gen := writeCopy s.nv.gen (genRecordOf s) } }

/-- Start of the second pass (R221, R222): the planes are PROGRAMMING, in the generation record too. -/
def startRewrite (s : State) : State :=
  let ls := s.plates.inplace.flatMap (fun d => imagePlanes d.image)
  let ts := (s.plates.claims.filter (fun e => e.1 ∈ ls)).map (·.2)
  readRun (saveGen (setPlates (ts.foldl (fun x p => setDescState x p 5) s) (fun b => { b with draining := none, rewriting := true })))

/-! ## Changes that span modules (R220) -/

/-- Modules that a staged change lies on, without this one and those that are not there. -/
def changeModules (s : State) (x : Txn) : List Nat :=
  ((x.staged.flatMap (fun c => match c with
    | .plate p => p.modules
    | .forme _ (some f) _ => if f.1.system then formeModules f.1 else []
    | _ => [])).eraseDups).filter (fun m => m != s.ql.module && m ∈ s.ql.present && m ∉ s.ql.absent)

/-- The manager's lock-up goes to every module of the change. -/
def sendPrep (s : State) (x : Txn) : State :=
  let ms := changeModules s x
  if sysRole s = 1 ∧ ms ≠ [] then
    let s1 := { setPlates s (fun b => { b with systemPrep := some (x.id, false), flipAt := none }) with ql := { s.ql with ready := [] } }
    ms.foldl (fun y m => sendControl y 8 m [x.id, 0]) s1
  else s

/-- A module fences itself from the system (R220, R446). -/
def selfFence (s : State) : State :=
  let s1 := setPlates s (fun b => { b with flipAt := none })
  if 2 ≤ sysRole s then
    sendControl (drive { s1 with ql := { s1.ql with selfFenced := true } } (.qlFault (uplink s)) false) 11 0 [s.ql.module, 1]
  else s1

/-! ## TXN_COMMIT -/

def txnCommitOp (h : Hdr) (s : State) : State :=
  match txnDomain s h.txn with
  | none => reply s h .txnNotOpen
  | some d => match txnOf s.txns d with
    | none => reply s h .txnNotOpen
    | some x => match commitStatus s d x with
      | some st => reply s h st
      | none =>
        let s1 := putTxn s d (some { x with committing := true, acceptedAt := now s, reply := some h })
        let s2 := setWait s1 h.fn h.seq .commit
        wantBoundary (if d = 1 then sendPrep (startDrain s2) x else s2)

/-! ## Distribution (R241, R223) -/

/-- Commands of a transaction that execute when it is distributed are answered TXN_NOT_OPEN. -/
def stopCommands (s : State) (id : Nat) : State :=
  (s.cmdq.filter (fun e => e.hdr.txn == id && !entryDone e && e.wait != .queued && !isRollback e.par)).foldl
    (fun x e => finish x e.hdr.fn e.hdr.seq .txnNotOpen {} 0 0) s

/-- Every staged change of a domain is discarded. -/
def distribute (s : State) (d : Nat) : State :=
  match txnOf s.txns d with
  | none => s
  | some x =>
    let s1 := if d = 1 then failLoad s .txnNotOpen else s
    let s2 := stopCommands s1 x.id
    let s3 := if d = 1 then setPlates (dropClaims s2 (s2.plates.claims.map (·.1))) (fun b =>
        { b with inplace := [], records := [], movedClaims := [], reported := [], retrained := [] })
      else s2
    releaseHeld (putTxn s3 d none)

def txnRollbackOp (h : Hdr) (s : State) : State :=
  match txnDomain s h.txn with
  | none => reply s h .txnNotOpen
  | some d => replyOk (distribute s d) h 0 0

/-- The transaction of a domain has been idle for 10 s (R219, R241). -/
def expiredNow (s : State) (d : Nat) : Bool :=
  match txnOf s.txns d with
  | none => false
  | some x => !x.committing && !txnActive s x.id && !(d == 1 && s.plates.load.isSome) && x.idleSince + tenSeconds ≤ now s

def txnExpiredOp (s : State) (d : Nat) : State :=
  if expiredNow s d then
    let id := ((txnOf s.txns d).map (·.id)).getD 0
    unsolicited (distribute s d) 0x0022 .txnExpired id 0 0 0
  else s

/-! ## Lock-up of the tenant configuration (R375, R270, R278, R324) -/

/-- Requests of a tenant end and its channels close (R278, R324). -/
def endTenant (heads : List (Nat × Nat)) (k : Nat) (s : State) (t : Nat) : State :=
  let is := (s.reqs.filter (fun e => e.2.tenant == t)).map (·.1)
  let s1 := is.foldl (fun x i => endNow heads k x i .cancelled) s
  closeChannels (setKv s1 (fun b => { b with claims := b.claims.filter (fun c => c.1 ∉ is) })) (fun c => c.tenant == t)

/-- Before a tenant becomes confidential, proof mode and debug end (R64, R391). -/
def enterConfidential (s : State) : State :=
  let s1 := leaveProof s
  { s1 with sec := { s1.sec with debugScope := none, confPresent := true } }

def applyTenant (heads : List (Nat × Nat)) (k : Nat) (s : State) (t : Nat) (cfg : TenantCfg) : State :=
  let old := tenantOf s t
  let s1 := if old.enabled && !cfg.enable then endTenant heads k s t else s
  let s2 := if cfg.confidential && cfg.enable then enterConfidential s1 else s1
  modTenant s2 t (fun x =>
    { x with cfg := cfg, enabled := cfg.enable, confidential := cfg.confidential,
             credited := if old.enabled then x.credited else 0,
             deficit := if old.enabled && cfg.enable then min x.deficit (256 * cfg.burst : Nat) else 0 })

/-- A lock-up changes who is confidential, or disables a confidential tenant: a tenant switch (R384, R385). -/
def confChange (s : State) (l : List Staged) : Bool :=
  l.any (fun x => match x with
    | .tenant t cfg => (tenantOf s t).confidential != cfg.confidential || ((tenantOf s t).confidential && (tenantOf s t).enabled && !cfg.enable)
    | _ => false)

def applyOverlay (s : State) (t slot layer : Nat) (r : Option Overlay) (bytes : Nat) : State :=
  { s with overlays := match r with
      | some o => tput s.overlays (overlayKey t slot layer) (o, bytes)
      | none => tdel s.overlays (overlayKey t slot layer) }

/-- Sum of the page reserves of the enabled tenants. -/
def reserveSum (s : State) : Nat := sumNat ((s.tenants.filter (fun e => e.2.enabled)).map (fun e => e.2.cfg.pageReserve))

def applyTenants (heads : List (Nat × Nat)) (k : Nat) (s : State) (l : List Staged) : State :=
  let s1 := l.foldl (fun x c => match c with
    | .tenant t cfg => applyTenant heads k x t cfg
    | .overlay t sl la r n => applyOverlay x t sl la r n
    | _ => x) s
  if reserveSum s1 ≤ kvPool s1 then setKv s1 (fun b => { b with reserveShort := false }) else s1

/-! ## Lock-up of the module options (R240, R129, R149, R437) -/

def applyOption (s : State) (off : Nat) (m v : W32) : State :=
  let s1 := setOpt s off (Nat.lor (Nat.land (opt s off) (2 ^ 32 - 1 - m.toNat)) (Nat.land v.toNat m.toNat))
  if off = Off.rstCfg then { s1 with aon := { s1.aon with rstCfg := BitVec.ofNat 32 (opt s1 off) } } else s1

/-- QL_SYS_CFG and the peer keys go to the system record (R437). -/
def systemRecordOf (s : State) : SysRecord :=
  { sysCfg := BitVec.ofNat 32 (opt s Off.ql),
    peerKeys := (List.range 36).foldl (fun m p => tset 0 m p (peerKeyOf s p)) [] }

def isSystemOption (off : Nat) : Bool := off == Off.ql || 0x1000000 ≤ off

/-- A layer above rung 0 steps down to it; its count starts again and LADDER_END clears (R144, R149). -/
def layerToZero (x : LayerState) : LayerState :=
  if x.rung = 0 then x else { x with rung := 0, clean := 0, ladderEnd := false, reported := false }

/-- Layers return to rung 0 (R149). -/
def rungsToZero (s : State) : State :=
  { s with formes := s.formes.map (fun f => (f.1, { f.2 with layers := tmap {} (fun _ x => layerToZero x) f.2.layers })) }

/-- Ports go down to train again when ROLE or UPLINK changes (R437), or at EN 0 (R429). -/
def followPorts (s0 s : State) : State :=
  let all : Bool := fld (opt s0 Off.ql) 31 24 != fld (opt s Off.ql) 31 24
  (List.range 36).foldl (fun x p =>
    if (portOf x p).state = 0 then x
    else if !portEn x p || all then restartPort x p 0
    else x) s

def applyOptions (s : State) (l : List Staged) : State :=
  let s1 := l.foldl (fun x c => match c with
    | .option off m v => applyOption x off m v
    | _ => x) s
  let s2 := mapCores s1 (fun _ c => { c with sr := 0 })
  let s3 := if fbEn s && !fbEn s2 then rungsToZero s2 else s2
  let s4 := followPorts s s3
  if l.any (fun c => match c with
      | .option off _ _ => isSystemOption off
      | _ => false) then { s4 with nv := { s4.nv with system := writeCopy s4.nv.system (systemRecordOf s4) } }
  else s4

def applyGroups (s : State) (l : List Staged) : State :=
  l.foldl (fun x c => match c with
    | .group g ms => applyGroup x g ms
    | _ => x) s

/-! ## The flip (R216, R217, R304) -/

/-- A claimed plane takes the place of the logical plane's old one: plane map and descriptors. An old one that was left PROGRAMMING is STANDBY
with undefined contents again (R222, R223). -/
def swapClaim (s : State) (l new : Nat) : State :=
  match physPlaneKey s l with
  | none => s
  | some old =>
    if old = new ∨ planeTile old ≠ planeTile new then setDescState s new 2
    else
      let tk := planeTile new
      let left : Bool := leftProgramming s (l, old) && old ∉ s.plates.claims.map (·.2)
      let s1 := setDescState (if (descOf s old).state = 2 then setDescState s old 1 else if left then freeTarget s old else s) new 2
      let m := tset (planeNo l) s1.arr.planeMap (1408 * tk + planeNo l) (planeNo new)
      { s1 with arr := { s1.arr with planeMap := match logicalPlane s tk (planeNo new) with
          | some l2 => if l2 = planeNo l then m else tset l2 m (1408 * tk + l2) (planeNo old)
          | none => m } }

/-- Planes of plates that leave the table return to STANDBY. -/
def freePlane (s : State) (l : Nat) : State := match physPlaneKey s l with
  | some p => if (descOf s p).state = 2 then setDescState s p 1 else s
  | none => s

/-- Table, descriptors and plane maps as they are after the flip, with the epoch. -/
def flipPlates (s : State) (l : List Staged) : State :=
  let tb := tableAfter s.plates.table l
  let gone := (tablePlanes s.plates.table).filter (fun p => p ∉ tablePlanes tb)
  let s1 := gone.foldl freePlane s
  let s2 := s1.plates.claims.foldl (fun x (c : Nat × Nat) => swapClaim x c.1 c.2) s1
  setPlates s2 (fun b => { b with table := tb, epoch := satAdd 32 b.epoch 1, claims := [], records := [], load := none, movedClaims := [],
                                  reported := [], retrained := [], inplace := [], rewriting := false,
                                  incomplete := b.incomplete.filter (fun p => p ∉ b.claims.map (·.1)) })

/-- Every claimed plane lies on the core that its logical core has now (R28). -/
def claimsMapped (s : State) : Bool :=
  s.plates.claims.all (fun c => physCoreKey s (planeCore c.1) == some (planeCore c.2) && !coreFenced s (planeCore c.2))

/-- PINNED requests that hold a flip (R218). -/
def pinnedHolding (s : State) : Nat := (s.reqs.filter (fun e => e.2.p.pinned && e.2.state != .held)).length

/-- Every plane of the change is written. -/
def changeWritten (s : State) : Bool :=
  s.plates.draining.isNone && (s.plates.inplace = [] || s.plates.rewriting) && runsDone s && s.plates.claims.all (fun c => (tfind s.plates.writing c.2).isNone)

def flipReady (s : State) (x : Txn) : Bool :=
  x.committing && x.recordWritten && changeWritten s && claimsMapped s && pinnedHolding s == 0

/-- A flip across modules waits for its named boundary (R220). -/
def flipNow (s : State) (x : Txn) : Bool := flipReady s x && s.plates.systemPrep.isNone && s.plates.flipAt.all (· ≤ now s)

/-- Attention shapes differ, so sets are lost (R304). -/
def shapeDiffers (a b : List AttnRec) : Bool :=
  a.length != b.length || (a.zip b).any (fun x => x.1.kvHeads != x.2.kvHeads || x.1.headDim != x.2.headDim || x.1.mask != x.2.mask
    || x.1.window != x.2.window)

/-- Groups of a layer. -/
def layerGroups (img : FormeImage) (layer : Nat) : List Group := img.groups.filter (fun g => g.layer == layer)

/-- A layer's record as the forme holds it; its scales and biases stand in the parameter area (R210). -/
def bareRecord (img : FormeImage) (layer : Nat) : Option LayerRec :=
  (img.layers.find? (fun l => l.layer == layer)).map (fun l => { l with scales := [], biases := [] })

/-- The planes of this module that a layer names, in ascending order. -/
def layerPlanes (s : State) (img : FormeImage) (layer : Nat) : List Nat :=
  sortAsc (((layerGroups img layer).flatMap (fun g => (g.entries.filter (ownEntry s)).flatMap entryPlanes)).eraseDups)

/-- A layer keeps its state at a flip when its record and its planes are unchanged (R149). -/
def layerKept (s : State) (changed : List Nat) (old new : FormeImage) (layer : Nat) : Bool :=
  bareRecord old layer == bareRecord new layer && layerPlanes s old layer == layerPlanes s new layer
    && (layerPlanes s new layer).all (· ∉ changed)

def carryLayers (s : State) (changed : List Nat) (old : Tbl Forme) (f : Nat × Forme) : Nat × Forme :=
  match tfind old f.1 with
  | none => f
  | some o => (f.1, { f.2 with draining := false, layers := o.layers.filter (fun l => layerKept s changed o.image f.2.image l.1) })

/-- A request loses its draft sets and their set table. -/
def dropDraft (s : State) (i : Nat) : State :=
  match reqOf s i with
  | none => s
  | some q =>
    let kv := (setsOf q true).foldl freeSet s.kv
    let kv1 := match tfind q.tables 1 with
      | some x => freeRun kv x
      | none => kv
    setReq { s with kv := kv1 } i { q with sets := setsOf q false, tables := tdel q.tables 1 }

/-- A request loses its sets from the draft's first on, under R301 (R304). -/
def loseDraft (s : State) (i : Nat) : State := match (reqOf s i).bind (fun q => q.sets.findIdx? (·.draft)) with
  | some n => dropFrom s i n
  | none => s

/-- A request loses all its sets and starts again on the new forme, also when it held none (R304). -/
def startAgain (s : State) (i : Nat) : State :=
  modReq (dropFrom s i 0) i (fun q =>
    let q1 := { q with redo := if 0 < q.done then max q.redo q.done else q.redo, done := 0 }
    match q.state with
    | .prefill => { q1 with state := .queued }
    | .decode => { q1 with state := .queued }
    | .stalled => { q1 with saved := .queued }
    | .held => { q1 with saved := .queued }
    | _ => q1)

/-- What a flip does to one request: the end of a removed forme's, under the epoch of the step that ends (R279), sets of another shape lost,
drafting stopped. -/
def flipRequest (heads : List (Nat × Nat)) (k epoch : Nat) (old : Tbl Forme) (s : State) (i : Nat) : State :=
  match reqOf s i with
  | none => s
  | some q => match tfind old q.p.slot, formeOf s q.p.slot with
    | o, none => endReq heads s i { endRec s k q i .plateChanged
        { q.cond with draftOff := q.cond.draftOff || o.any (fun f => draftOff f.image q) } with epoch := epoch }
    | none, some _ => s
    | some o, some f =>
      let s1 := if shapeDiffers o.image.attn f.image.attn then startAgain s i else s
      let od := (tfind old o.image.sched.draftSlot).bind (fun d => if d.image.draft && o.image.sched.draftSlot != 0xFF then some d else none)
      match od, draftForme s1 f.image with
      | some _, none => modReq (dropDraft s1 i) i (fun r => { r with d := 0, zeroSteps := 0, rejectRun := 0 })
      | some a, some b => if shapeDiffers a.image.attn b.image.attn then loseDraft s1 i else s1
      | none, _ => s1

/-- The sets held here for a request of another module's table, whose forme slot the flip has given another shape (R304). -/
def flipRemote (old : Tbl Forme) (s : State) (rid : Nat) : State :=
  match tfind s.ql.remote rid with
  | none => s
  | some q => match tfind old q.p.slot, formeOf s q.p.slot with
    | some o, some f => if shapeDiffers o.image.attn f.image.attn then dropRemoteFrom s rid 0 else s
    | _, _ => s

def flipRemotes (old : Tbl Forme) (s : State) : State := (s.ql.remote.map (fun (e : Nat × Req) => e.1)).foldl (flipRemote old) s

/-- A running drift pass leaves planes out of their classes' fits when their plate changes (R174). -/
def leaveFits (s : State) (ps : List Nat) : State :=
  { s with regions := s.regions.map (fun e => (e.1, { e.2 with pass := e.2.pass.map (fun p =>
    if p.kind = 2 then { p with left := p.left ++ ps.filter (fun x => planeRegion x == e.1) } else p) })) }

/-- Audits, monitor windows, drift fits and dual windows of changed planes are given up (R93, R99, R174); cores without ALLOCATED planes
monitor nothing. -/
def planesChanged (s0 : State) (ps : List Nat) : State :=
  let s := leaveFits s0 ps
  let s1 := mapCores s (fun _ c => if c.auditSlots = [] then c else abandonAudits (fun x => x.plane ∈ ps) c)
  let cks := (ps.map planeCore).eraseDups
  cks.foldl (fun x ck =>
    let c := coreOf x ck
    match c.monPlane with
    | some (t, lp) =>
      if planeKey (tileKey ck t) (physPlane x (tileKey ck t) lp) ∈ ps || (allocatedPlanes x ck).length = 0 then abandonWindow x ck else x
    | none => nameNext x ck) s1

/-- A flip has changed a layer of a forme slot: its record, its planes, or the forme itself. -/
def layerChanged (changed : List Nat) (old : Tbl Forme) (s : State) (slot layer : Nat) : Bool :=
  match tfind old slot, formeOf s slot with
  | some o, some f => !layerKept s changed o.image f.image layer
  | _, _ => true

/-- Precision events that a core still holds of layers that a flip has reset no longer count (R149). -/
def forgetReset (changed : Nat → Nat → Bool) (s : State) : State :=
  let kept := fun (k : Nat) => !changed (k / 65536) (k % 65536)
  mapCores s (fun _ c =>
    { c with summary := { c.summary with precision := c.summary.precision.filter (fun x => !changed x.1 x.2),
                                         near := c.summary.near.filter (fun e => kept e.1), sat := c.summary.sat.filter (fun e => kept e.1) } })

/-- The flip of a plate change at the boundary of step k. `fresh` lists overlays set at the same boundary. -/
def applyFlip (heads : List (Nat × Nat)) (k : Nat) (fresh : List Nat) (s : State) (x : Txn) : State :=
  let changed := s.plates.claims.map (·.1)
  let old := s.formes
  let slots := x.staged.filterMap (fun c => match c with
    | .forme sl _ _ => some sl
    | _ => none)
  let tb := tableAfter s.plates.table x.staged
  let before := (changed ++ (tablePlanes s.plates.table).filter (· ∉ tablePlanes tb)).filterMap (physPlaneKey s)
  let s1 := flipPlates s x.staged
  let s2 := { s1 with formes := (formesAfter old x.staged).map (carryLayers s1 changed old),
                      overlays := s1.overlays.filter (fun e => overlaySlot e.1 ∉ slots || e.1 ∈ fresh) }
  let s3 := flipRemotes old ((s2.reqs.map (·.1)).foldl (flipRequest heads k s.plates.epoch old) s2)
  let s4 := planesChanged s3 (before ++ s.plates.claims.map (·.2))
  saveGen (forgetReset (layerChanged changed old s4) s4)

/-! ## The transactions of a boundary (R240) -/

def stagedIf (s : State) (d : Nat) : Option Txn := (txnOf s.txns d).bind (fun x => if x.committing then some x else none)

/-- The manager orders the flip once every module has its record: at the boundary of the running system step, or at one named now. -/
def orderFlip (s : State) : State :=
  match stagedIf s 1, s.plates.systemPrep with
  | some x, some (id, false) =>
    if sysRole s = 1 ∧ flipReady s x ∧ (changeModules s x).all (· ∈ s.ql.ready) then
      let s1 := (changeModules s x).foldl (fun y m => sendControl y 8 m [id, 1]) s
      let system : Bool := s.sched.step.any (·.system)
      let tB := if system then now s else now s + boundaryLead s
      let n := (s.sched.step.map (·.number)).getD s.sched.nextStep
      let s2 := if system then s1 else broadcast s1 5 [n, tB, s.sched.owner]
      wantBoundary (setPlates s2 (fun b => { b with systemPrep := none, flipAt := some tB }))
    else s
  | _, _ => s

/-- Overlay keys of staged changes. -/
def freshOverlays (l : List Staged) : List Nat := l.filterMap (fun c => match c with
  | .overlay t sl la _ _ => some (overlayKey t sl la)
  | _ => none)

/-- The transaction of a domain has applied: it ends, and its commit is answered with B(k) and the epoch. -/
def answerCommit (B : Nat) (s : State) (x : Txn) : State :=
  match x.reply with
  | some h => finish s h.fn h.seq .ok {} B s.plates.epoch
  | none => s

/-- Action 3 of R261 at the boundary of step k. Whether a tenant switch results is the second answer. -/
def applyTransactions (heads : List (Nat × Nat)) (k B : Nat) (s : State) : State × Bool :=
  let x0 := stagedIf s 0
  let x3 := stagedIf s 3
  let x2 := stagedIf s 2
  let sw := x0.any (fun x => confChange s x.staged)
  let s1 := match x0 with
    | some x => putTxn (applyTenants heads k s x.staged) 0 none
    | none => s
  let s2 := match x3 with
    | some x => putTxn (applyOptions s1 x.staged) 3 none
    | none => s1
  let s3 := match x2 with
    | some x => putTxn (applyGroups s2 x.staged) 2 none
    | none => s2
  let s4 := if s3.plates.draining.isSome && drained s3 then startRewrite s3 else s3
  let x1 := (stagedIf s4 1).bind (fun x => if flipNow s4 x then some x else none)
  let fresh := freshOverlays ((x0.map (·.staged)).getD [])
  let s5 := match x1 with
    | some x => releaseHeld (putTxn (setPlates (applyFlip heads k fresh s4 x) (fun b => { b with flipAt := none })) 1 none)
    | none => if s4.plates.flipAt.any (· ≤ now s4) then selfFence s4 else orderFlip s4
  ([x0, x3, x2, x1].foldl (fun y o => match o with
    | some x => answerCommit B y x
    | none => y) s5, sw)

/-- The generation record with maps, descriptors and stuck lists as they are now. Once the record of an accepted commit is in flash, it
stays the one of the coming flip (R216). -/
def saveMaps (s : State) : State :=
  match stagedIf s 1 with
  | some x => if x.recordWritten then
      { s with nv := { s.nv with gen := writeCopy s.nv.gen (genRecordOf (flipPlates s x.staged)) } } else saveGen s
  | none => saveGen s

/-! ## Events of a plate change -/

/-- The generation record is in flash (R216). -/
def genWrittenOp (s : State) : State :=
  match stagedIf s 1 with
  | some x =>
    if !x.recordWritten && changeWritten s then
      let s1 := { s with nv := { s.nv with gen := writeCopy s.nv.gen (genRecordOf (flipPlates s x.staged)) } }
      let s2 := wantBoundary (putTxn s1 1 (some { x with recordWritten := true }))
      if sysRole s = 1 then orderFlip s2
      else if s.plates.systemPrep.isSome then sendControl s2 9 0 [s.ql.module, (s.plates.epoch + 1) % 2 ^ 32]
      else s2
    else s
  | none => s

/-- PIN_MAX after the commit, every PINNED request still running ends at the next boundary (R218). -/
def pinLimitOp (s : State) : State :=
  match stagedIf s 1 with
  | some x =>
    if x.acceptedAt + pinMax s ≤ now s then
      ((s.reqs.filter (fun e => e.2.p.pinned && e.2.state != .held)).map (·.1)).foldl (fun y i => markEnd y i .plateChanged) s
    else s
  | none => s

/-- DRAIN_MAX after lock-up, requests of draining formes end (R221). -/
def drainTimeoutOp (s : State) : State :=
  match s.plates.draining with
  | some t0 =>
    if t0 + drainMax s ≤ now s then
      ((s.reqs.filter (fun e => slotDraining s e.2.p.slot && e.2.state != .held)).map (·.1)).foldl
        (fun y i => markEnd y i .plateChanged) s
    else s
  | none => s

/-! ## Rows -/

def execTxnBegin (h : Hdr) (domain : Nat) (t : Nat) (s : State) : Host.Outcome State Fault Refusal :=
  runCmd h (.txnBegin domain) t s (txnBeginOp h domain)

def execTxnCommit (h : Hdr) (t : Nat) (s : State) : Host.Outcome State Fault Refusal :=
  runCmd h .txnCommit t s (txnCommitOp h)

def execTxnRollback (h : Hdr) (t : Nat) (s : State) : Host.Outcome State Fault Refusal :=
  runCmd h .txnRollback t s (txnRollbackOp h)

def execTxnExpired (domain : Nat) (t : Nat) (s : State) : Host.Outcome State Fault Refusal :=
  if domain < 4 then .next (txnExpiredOp (advance t s) domain) else .fault .noSuchUnit

def execGenRecordWritten (t : Nat) (s : State) : Host.Outcome State Fault Refusal := .next (genWrittenOp (advance t s))

def execPinLimit (t : Nat) (s : State) : Host.Outcome State Fault Refusal := .next (pinLimitOp (advance t s))

def execDrainTimeout (t : Nat) (s : State) : Host.Outcome State Fault Refusal := .next (drainTimeoutOp (advance t s))

end Sys2Proof.Machine
end

