-- ==== Sys2Proof/Machine/Tenants.lean ====
section
/-! DEFINITION. Tenants, keys and confidential mode of 14_security: TENANT_SET and its limits (R330, R331, R375), keys (R377,
R378), removal (R387, R388), TDIs (R381), debug (R390, R391), publisher keys (R392), attestation (R394, R395), overlays (R206, R207),
overwriting (R386). -/

namespace Sys2Proof.Machine

/-! ## TENANT_SET (R331, R375) -/

def capOk (cap reserve : Nat) : Bool := cap == 0 || reserve ≤ cap

/-- Sums of R331 over the tenants enabled after lock-up. -/
def sumAfter (s : State) (l : List Staged) (f : TenantCfg → Nat) : Nat :=
  sumNat (((List.range 256).filter (enabledAfter s l)).map (fun t => f (cfgAfter s l t)))

def tenantSetStatus (s : State) (t : Nat) (cfg : TenantCfg) : Option Status :=
  let l := stagedOf s 0 ++ [Staged.tenant t cfg]
  if 256 ≤ t ∨ tenantSlot s t = 2 then some .tenantInvalid
  else if t = 0 ∧ cfg.confidential then some .paramInvalid
  else if capOk cfg.pageCap cfg.pageReserve && capOk cfg.reqCap cfg.reqReserve
      && sumAfter s l (·.reqReserve) ≤ 65536 && sumAfter s l (·.pageReserve) ≤ kvPool s then none
  else some .paramInvalid

def tenantSetOp (h : Hdr) (t : Nat) (cfg : TenantCfg) (s : State) : State :=
  match tenantSetStatus s t cfg with
  | some st => reply s h st
  | none => replyOk (stage s 0 (.tenant t cfg)) h 0 0

/-! ## KEY_LOAD (R377, R378) -/

def keyLoadOp (h : Hdr) (t : Nat) (unwrapped : Option Nat) (s : State) : State :=
  if 256 ≤ t then reply s h .tenantInvalid
  else if tenantSlot s t ≠ 0 then reply s h .keySlotBusy
  else match unwrapped with
  | none => reply s h .keyInvalid
  | some e => replyOk (kexAll (modTenant s t (fun x => { x with slot := triOf 1, epoch := e % 256 })) t) h 0 0

/-! ## Removing a tenant (R387, R388) -/

/-- The running step is cut: its passes stop, every row is void, and a boundary forms. -/
def cutStep (s : State) : State :=
  match s.sched.step with
  | some k =>
    if k.sealing || k.cut then wantBoundary s
    else
      let s1 := setSched s (fun c => { c with step := some { k with cut := true, waiting := [], sealing := true } })
      let s2 := if k.system && sysRole s == 1 then broadcast s1 7 [k.number] else s1
      { s2 with sec := { s2.sec with cuts := satAdd 32 s2.sec.cuts 1 } }
  | none => wantBoundary s

/-- Staged changes of a tenant are struck (R242). DESIGN CHOICE (log entry 100): also those of a transaction whose commit has been accepted and has
not applied. -/
def strikeTenant (s : State) (t : Nat) : State :=
  putTxn s 0 ((txnOf s.txns 0).map (fun x => { x with staged := x.staged.filter (fun c => match c with
    | .tenant u _ => u != t
    | .overlay u _ _ _ _ => u != t
    | _ => true) }))

/-- Orders 1 and 2 of R387. -/
def beginRemove (s : State) (t : Nat) : State :=
  let s1 := modTenant (strikeTenant s t) t (fun x =>
    { x with slot := triOf 2, enabled := false, removing := some (now s), removeBoundary := true })
  dropSubkeys (cutStep s1) t

def tenantRemoveOp (h : Hdr) (t : Nat) (s : State) : State :=
  if 256 ≤ t then reply s h .tenantInvalid
  else if tenantSlot s t ≠ 1 then reply s h .tenantInvalid
  else setWait (modTenant (beginRemove s t) t (fun x => { x with removeFns := x.removeFns ++ [(h.fn, h.seq)] })) h.fn h.seq .removal

/-- Order 3: at the cut boundary the tenant's requests and channels end. -/
def removeAtBoundary (heads : List (Nat × Nat)) (k : Nat) (s : State) (t : Nat) : State :=
  modTenant (endTenant heads k s t) t (fun x => { x with removeBoundary := false })

/-- Tenants whose cut boundary is to come. -/
def removals (s : State) : List Nat := (s.tenants.filter (fun e => e.2.removeBoundary)).map (·.1)

/-- Commands of a tenant that wait for a host access. -/
def tenantReads (s : State) (t : Nat) : List CmdEntry :=
  s.cmdq.filter (fun e => (e.wait == .hostRead || e.wait == .hostWrite) && tenantOfCmd e.hdr e.par == some t)

/-- Orders 5 to 7: the key is zeroised, the hub's tenant state washed, the removal answered. -/
def zeroise (s : State) (t : Nat) : State :=
  let x := tenantOf s t
  let s1 := (tenantReads s t).foldl (fun y e => finish y e.hdr.fn e.hdr.seq .tenantInvalid {} 0 0) s
  let s2 := setSched s1 (fun c => { c with ended := c.ended.filter (fun e => e.2.tenant != t) })
  let s3 := if t = 0 then s2 else modFn s2 t (fun f => { f with store := [] })
  let s4 := { s3 with overlays := s3.overlays.filter (fun e => overlayTenant e.1 != t),
                      sec := { s3.sec with washdowns := satAdd 32 s3.sec.washdowns 1 } }
  let s5 := settlePresence (setTenant s4 t {})
  let s6 := x.removeFns.foldl (fun y (r : Nat × Nat) => finish y r.1 r.2 .ok {} 0 0) s5
  if x.notice then unsolicited s6 0x0052 .ok 0 0 0 0 else s6

/-- TENANT_KEY_ZEROISE: the cut boundary has passed, and no host access of the tenant is left or 2 ms have passed. -/
def keyZeroiseOp (s : State) (t : Nat) : State :=
  let x := tenantOf s t
  match x.removing with
  | none => s
  | some t0 => if !x.removeBoundary && (tenantReads s t = [] || t0 + 2000000 ≤ now s) then zeroise s t else s

/-- A TDI leaves RUN (R381). -/
def tdiLeave (s : State) (fn : Nat) : State :=
  if (fnOf s fn).tdi ≠ 2 then s
  else
    let s1 := modFn s fn (fun f => { f with tdi := 0 })
    if (tenantOf s1 fn).confidential && tenantSlot s1 fn == 1 then
      modTenant (beginRemove s1 fn) fn (fun x => { x with notice := true })
    else s1

/-! ## Overwriting (R386) -/

/-- Remove one sheet from runs that wait. -/
def splitRun (x : Nat) (r : Nat × Nat) : List (Nat × Nat) :=
  if r.1 ≤ x ∧ x < r.1 + r.2 then
    (if r.1 < x then [(r.1, x - r.1)] else []) ++ (if x + 1 < r.1 + r.2 then [(x + 1, r.1 + r.2 - (x + 1))] else [])
  else [r]

def sheetTaken (s : State) (x : Nat) : Bool :=
  (runsOf s.kv (x / Config.halfSheets)).any (fun r => r.1 ≤ x % Config.halfSheets && x % Config.halfSheets < r.1 + r.2.1)

/-- Free sheets that still wait. -/
def overwritePending (s : State) : Bool :=
  s.kv.overwrite.any (fun r => (List.range r.2).any (fun i => !sheetTaken s (r.1 + i)))

/-- Zero into a sheet. -/
def zeroSheet (m : List Host.Cell) (x : Nat) : List Host.Cell := m.filter (fun c => c.1 / 4096 != x)

/-- Zero into a sheet that waits; one that has a new owner is left to it. -/
def sheetOverwriteOp (s : State) (x : Nat) : State :=
  let waits := s.kv.overwrite.any (fun r => decide (r.1 ≤ x ∧ x < r.1 + r.2)) && !sheetTaken s x
  setKv s (fun k => { k with overwrite := k.overwrite.flatMap (splitRun x), hbm := if waits then zeroSheet k.hbm x else k.hbm })

/-! ## KEY_REGISTER and DEBUG_UNLOCK (R390, R392) -/

def keyRegisterOp (h : Hdr) (key : Nat) (s : State) : State :=
  let ks := publisherKeys s
  if confPresent s || !(ks == [] || s.sec.debugScope.any (bitAt · 2)) || 16 ≤ ks.length then reply s h .debugDenied
  else replyOk { s with nv := { s.nv with publishers := writeCopy s.nv.publishers (ks ++ [key]) } } h 0 0

/-- A fresh challenge from the random source. -/
def newChallenge (s : State) : State :=
  drawn { s with sec := { s.sec with challenge := drawNat s % 2 ^ 256 } }

def tokenOk (s : State) (k : DebugToken) : Bool :=
  k.magic == 0x4742445A && k.version == 1 && k.scope < 8 && k.serial == s.nv.serial && k.challenge == s.sec.challenge
    && k.sigLen == 3124 && k.resZero && k.sigOk

def debugUnlockOp (h : Hdr) (k : DebugToken) (s : State) : State :=
  let s1 := newChallenge s
  if confPresent s then reply s1 h .confidentialActive
  else if tokenOk s k then replyOk { s1 with sec := { s1.sec with debugScope := some k.scope } } h 0 0
  else reply s1 h .debugDenied

/-! ## Attestation (R394, R395) -/

/-- Blocks of leaves used so far: the monotonic counter. -/
def leafCounter (s : State) : Nat := 4096 - s.nv.leafBlocks

/-- Advance the counter to a new block, when one is left. -/
def nextBlock (s : State) : State :=
  if s.nv.leafBlocks = 0 then s
  else { s with nv := { s.nv with nextLeaf := 1024 * leafCounter s, leafBlocks := s.nv.leafBlocks - 1 } }

/-- Take the next leaf; none when the counter is exhausted. -/
def takeLeaf (s : State) : State × Option Nat :=
  let s1 := if s.nv.nextLeaf < 1024 * leafCounter s then s else nextBlock s
  if s1.nv.nextLeaf < 1024 * leafCounter s1 then
    ({ s1 with nv := { s1.nv with nextLeaf := s1.nv.nextLeaf + 1 } }, some s1.nv.nextLeaf)
  else (s1, none)

/-- Offsets of the module options domain that differ from reset, with their words, in offset order. -/
def optionWords (s : State) : List Nat := (s.opts.a.map (·.1)).flatMap (fun o => [o, opt s o])

/-- A bit per tenant; a virtual function sees its own. -/
def tenantBits (fn : Nat) (p : Nat → Bool) : Nat :=
  sumNat ((List.range 256).map (fun t => if p t && (fn == 0 || t == fn) then 2 ^ t else 0))

def reportFlags (s : State) (signed : Bool) : Nat :=
  b2n s.aon.limp + 2 * b2n s.sec.debugScope.isSome + 4 * b2n (p2Mode s) + 8 * b2n s.sec.proof + 16 * b2n (!signed)
    + 32 * b2n (dualOnly s)

/-- The report; FW_DIGEST, PUBLIC_KEY and SIGNATURE are words a standard fixes (log entry 7). -/
def attestBytes (s : State) (fn nonce : Nat) (leaf : Option Nat) : List Byte :=
  let sig := if leaf.isSome then 3124 else 0
  let word := fun (r i n : Nat) => leBytes n (Config.recordWord r i)
  leBytes 4 0x5454415A ++ leBytes 1 0x11 ++ leBytes 1 (reportFlags s leaf.isSome) ++ leBytes 2 fn ++ leBytes 4 (576 + sig)
    ++ leBytes 4 sig ++ leBytes 32 nonce ++ leBytes 16 s.nv.serial ++ leBytes 32 s.nv.bindKey ++ word 0 s.nv.fwActive.version 32
    ++ leBytes 4 s.nv.fwActive.version ++ leBytes 4 s.nv.fwActive.svn ++ leBytes 8 (leaf.getD 0) ++ leBytes 8 (now s)
    ++ leBytes 8 s.plates.epoch ++ leBytes 32 (Config.sha256 (optionWords s))
    ++ leBytes 32 (Config.sha256 ((sortBy (·.imageId) s.plates.table).flatMap (fun p =>
        (leBytes 16 p.imageId ++ leBytes 4 p.version ++ leBytes 32 p.keyId ++ leBytes 32 p.shard.digest).map (·.toNat))))
    ++ leBytes 32 (digestOf (s.formes.flatMap (fun f => f.2.bytes)))
    ++ leBytes 32 (digestOf ((publisherKeys s).flatMap (leBytes 56)))
    ++ leBytes 32 (tenantBits fn (fun t => (tenantOf s t).confidential))
    ++ leBytes 32 (tenantBits fn (tenantEnabled s)) ++ leBytes 2 (if fn = 0 then 0xFFFF else fn) ++ leBytes 158 0
    ++ word 1 0 60 ++ leBytes 4 0 ++ word 2 (leaf.getD 0) sig

def attestOp (h : Hdr) (nonce addr : Nat) (s : State) : State :=
  let x := takeLeaf s
  let sig := if x.2.isSome then 3124 else 0
  replyOk (hostWrite x.1 h.fn addr (attestBytes x.1 h.fn nonce x.2)) h (576 + sig) 0

/-! ## Overlays (R206, R207) -/

/-- Bytes of the overlay store, and of the adapter store, that an overlay takes. -/
def overlayBytes (o : Overlay) : Nat := 4 * o.m * (b2n (bitAt o.kinds 1) + b2n (bitAt o.kinds 2))
def adapterBytes (o : Overlay) : Nat := if bitAt o.kinds 0 then 2 * o.rank * (o.n + o.m) else 0

def partOk (length : Nat) (on : Bool) (off bytes : Nat) : Bool :=
  if on then aligned 64 off && 64 ≤ off && off + bytes ≤ length else off == 0

/-- The widest input that a layer's strobe entries can take: 256 elements for each input segment they name. A forme gives a layer no input width
of its own, so N of an overlay may be anything up to it (DESIGN CHOICE, log entry 85). -/
def inputMax (img : FormeImage) (layer : Nat) : Nat :=
  256 * (((img.groups.filter (fun g => g.layer == layer)).flatMap (fun g =>
    g.entries.map (fun e => (entryCore e, e.sheet, e.segment)))).eraseDups).length

/-- The rules of R207. -/
def overlayOk (width : Nat) (l : LayerRec) (length : Nat) (o : Overlay) : Bool :=
  o.magic == 0x4C564F5A && o.version == 1 && 1 ≤ o.kinds && o.kinds < 8 && o.resZero
    && (if bitAt o.kinds 0 then 1 ≤ o.rank && o.rank ≤ 64 && f32Finite o.alpha else o.rank == 0 && o.alpha == 0)
    && 1 ≤ o.n && o.n ≤ width && o.m == l.outCols && overlayBytes o ≤ 8192
    && partOk length (bitAt o.kinds 0) o.aOff (2 * o.rank * o.n) && partOk length (bitAt o.kinds 0) o.bOff (2 * o.m * o.rank)
    && partOk length (bitAt o.kinds 1) o.steerOff (4 * o.m) && partOk length (bitAt o.kinds 2) o.scaleOff (4 * o.m)

/-- Overlays as they will be after the open tenant configuration transaction. -/
def overlaysAfter (s : State) : Tbl (Overlay × Nat) :=
  ((stagedOf s 0).foldl (fun x c => match c with
    | .overlay t sl la r n => applyOverlay x t sl la r n
    | _ => x) s).overlays

/-- Bytes that one owner's overlays take in a region's store. -/
def overlayLoad (s : State) (owner rk : Nat) : Nat := sumNat ((overlayStore s owner rk).map (·.2))

/-- The status of an overlay that has been read. -/
def overlayStatus (s : State) (t slot layer length : Nat) (o : Overlay) : Option Status :=
  match formeOf s slot, layerRec s slot layer with
  | some f, some l =>
    match finalGroup f.image layer with
    | none => some .formeInvalid
    | some g =>
      if g.acc.dest = 0 then some .formeInvalid
      else if !overlayOk (inputMax f.image layer) l length o then some .paramInvalid
      else
        let after := { s with overlays := tput (overlaysAfter s) (overlayKey t slot layer) (o, overlayBytes o) }
        if 17179869184 < sumNat (after.overlays.map (fun e => adapterBytes e.2.1)) then some .paramInvalid
        else if (overlayRegion s slot layer).any (fun r => decide (262144 < overlayLoad after (ownerOfTenant s t) r)) then some .overlayFull
        else none
  | _, _ => some .formeInvalid

/-- Overlay bytes in the region once the staged change applies. -/
def overlayResult (s : State) (t slot layer : Nat) : Nat :=
  match overlayRegion s slot layer with
  | some r => overlayLoad { s with overlays := overlaysAfter s } (ownerOfTenant s t) r
  | none => 0

def stageOverlay (h : Hdr) (t slot layer : Nat) (o : Option Overlay) (s : State) : State :=
  let s1 := stage s 0 (.overlay t slot layer o ((o.map overlayBytes).getD 0))
  replyOk s1 h (overlayResult s1 t slot layer) 0

def overlaySetOp (h : Hdr) (t slot layer addr length : Nat) (s : State) : State :=
  if 256 ≤ t ∨ tenantSlot s t = 2 then reply s h .tenantInvalid
  else if length = 0 then stageOverlay h t slot layer none s
  else setWait (emit s (.hostRead h.fn addr length)) h.fn h.seq .hostRead

/-- The overlay record has been read. -/
def overlayRead (h : Hdr) (t slot layer length : Nat) (o : Overlay) (s : State) : State :=
  if tenantSlot s t = 2 then reply s h .tenantInvalid
  else match overlayStatus s t slot layer length o with
  | some st => reply s h st
  | none => stageOverlay h t slot layer (some o) s

/-! ## Rows -/

def execTenantSet (h : Hdr) (tenant : Nat) (cfg : TenantCfg) (t : Nat) (s : State) : Host.Outcome State Fault Refusal :=
  runCmd h (.tenantSet tenant cfg) t s (tenantSetOp h tenant cfg)

def execKeyLoad (h : Hdr) (tenant : Nat) (unwrapped : Option Nat) (t : Nat) (s : State) : Host.Outcome State Fault Refusal :=
  runCmd h (.keyLoad tenant) t s (keyLoadOp h tenant unwrapped)

def execTenantRemove (h : Hdr) (tenant : Nat) (t : Nat) (s : State) : Host.Outcome State Fault Refusal :=
  runCmd h (.tenantRemove tenant) t s (tenantRemoveOp h tenant)

def execKeyRegister (h : Hdr) (key : Nat) (t : Nat) (s : State) : Host.Outcome State Fault Refusal :=
  runCmd h (.keyRegister key) t s (keyRegisterOp h key)

def execAttest (h : Hdr) (nonce resultAddr : Nat) (t : Nat) (s : State) : Host.Outcome State Fault Refusal :=
  runCmd h (.attest nonce resultAddr) t s (attestOp h nonce resultAddr)

def execDebugUnlock (h : Hdr) (token : DebugToken) (t : Nat) (s : State) : Host.Outcome State Fault Refusal :=
  runCmd h (.debugUnlock token.scope) t s (debugUnlockOp h token)

def execOverlaySet (h : Hdr) (tenant slot layer addr length : Nat) (t : Nat) (s : State) : Host.Outcome State Fault Refusal :=
  runCmd h (.overlaySet tenant slot layer addr length) t s (overlaySetOp h tenant slot layer addr length)

/-- A tenant number, or a function number, of the module. -/
def execTenantKeyZeroise (tenant : Nat) (t : Nat) (s : State) : Host.Outcome State Fault Refusal :=
  onFn tenant (keyZeroiseOp (advance t s) tenant)

def execTdiLeaveRun (fn : Nat) (t : Nat) (s : State) : Host.Outcome State Fault Refusal := onFn fn (tdiLeave (advance t s) fn)

def execSheetOverwrite (sheet : Nat) (t : Nat) (s : State) : Host.Outcome State Fault Refusal :=
  if sheet < 40 * Config.halfSheets then .next (sheetOverwriteOp (advance t s) sheet) else .fault .noSuchUnit

end Sys2Proof.Machine
end

