-- ==== Sys2Proof/Machine/Seal.lean ====
section
/-! DEFINITION. The end of a step up to its boundary (09_requests_and_steps): check summaries (R101), dual windows cut at the end of a
pass (R353), orphans (R123), the seal (R263), late faults (R352), what a row releases (R264, R266, R279). -/

namespace Sys2Proof.Machine

/-! ## Check summaries (R101, R260) -/

def modStep (s : State) (f : Step → Step) : State := setSched s (fun c => { c with step := c.step.map f })

/-- The open window of a tile is cut short (R353): its sums wait for the other twin's. -/
def cutWindow (ck t : Nat) (s : State) : State :=
  let x := tileOf (coreOf s ck) t
  if x.winCount = 0 then s
  else
    let s1 := modCore s ck (fun c => modTile c t (fun y => { y with winCount := 0, winSum := [] }))
    let other := ((x.engaged.map (fun p => planeKey (tileKey ck t) p)).bind (logicalKeyOf s)).bind (twinOf s)
    match other.bind (physPlaneKey s) with
    | none => s1
    | some pk =>
      let w : DualWait := { primary := ck, secondary := planeCore pk, tile := t, time := now s, own := ⟨[], [], x.winSum⟩ }
      setFaults s1 (fun f => { f with dual := f.dual ++ [w] })

/-- One core's summary enters the step: alarms name their unit, the core's own count starts over. -/
def takeSummary (s : State) (ck : Nat) : State :=
  let c := coreOf s ck
  let own : Bool := c.summary.alarm || c.summary.failed.any (fun x => x.2.isNone)
  let s1 := if own then alarm s (unitOfCore ck) else s
  let s2 := c.summary.mismatch.foldl (fun x p => alarm x (unitOfPlane p)) s1
  let s3 := (c.tiles.map (fun (e : Nat × Tile) => e.1)).foldl (fun x t => cutWindow ck t x) s2
  modStep (modCore s3 ck (fun d => { d with summary := {} })) (fun k => { k with summaries := k.summaries ++ [c.summary] })

/-- The parked slots of a region are discarded; of a cut step there is no layer whose outputs they could spoil (R123, R388). -/
def dropOrphans (g : Region) : Region := g.parks.foldl (fun x (e : Nat × Park) => spillClear x e.1) g

/-- Spill slots that still carry a parked reduction are orphans; the region discards them (R123). -/
def takeOrphans (s : State) (rk : Nat) : State :=
  let g := regionOf s rk
  if g.parks = [] then s
  else
    let found := (g.parks.map (fun (e : Nat × Park) => (e.2.slot, e.2.layer))).eraseDups
    let g1 := dropOrphans g
    let s1 := g.parks.foldl (fun x (e : Nat × Park) => unpark x g e.1) s
    modStep (setRegion s1 rk g1) (fun k => { k with summaries := k.summaries ++ [{ orphan := found }] })

/-- A gap in the sequence numbers of the region's step messages (R420): every product of its passes in the step counts as failed, and
the tests of its cores become overdue. -/
def messageGap (s : State) (rk : Nat) : State :=
  ((List.range 160).map (160 * rk + ·)).foldl testOverdueNow (alarm s (unitOfRegion rk))

/-- CHECK_SUMMARY: the last pass of a region has ended. -/
def checkSummaryOp (s : State) (rk : Nat) (gap : Bool) : State :=
  match s.sched.step with
  | none => s
  | some k =>
    if rk ∉ k.waiting ∨ k.cut then s
    else
      let cores := (s.cores.map (fun (e : Nat × Core) => e.1)).filter (fun c => coreRegion c == rk)
      let s0 := takeOrphans (cores.foldl takeSummary s) rk
      let s1 := if gap then messageGap s0 rk else s0
      let last := k.waiting.all (· == rk)
      modStep s1 (fun x => { x with waiting := x.waiting.filter (· != rk), sealing := x.sealing || last,
                                    sealBegan := if x.sealing then x.sealBegan else if last then now s else x.sealBegan })

/-! ## The seal (R263) -/

/-- Formes a row ran. -/
def rowFormes (s : State) (w : Row) : List FormeImage :=
  match formeOf s w.slot with
  | none => []
  | some f => f.image :: (if w.draft = 0 then [] else ((draftForme s f.image).map (·.image)).toList)

/-- A layer that one of the row's formes has. -/
def rowRan (s : State) (w : Row) (slot layer : Nat) : Bool :=
  runsForme s w slot && (formeOf s slot).any (fun f => f.image.layers.any (fun l => l.layer == layer))

/-- The flag that an alarmed unit's late fault gives the rows of its passes (R251). -/
def alarmCond (s : State) (u : UnitId) : Cond :=
  let has := fun (c : Cause) => s.faults.lateNow.any (fun x => x.1 == u && x.2.1 == c)
  if has .monitorAlarm then { monitorAlarm := true }
  else if has .auditMismatch then { auditMismatch := true }
  else { failed := true }

/-- Layers that raised PRECISION in the step and are run by the row, with whether the layer is at the end of its ladder. -/
def rowRaised (s : State) (k : Step) (w : Row) : List Bool :=
  s.formes.flatMap (fun f => if runsForme s w f.1 then
      (f.2.image.layers.filter (raised k f.1)).map (fun l => rungUp l (rungOf f.2 l) == rungOf f.2 l) else [])

/-- Free tokens of a row whose sampling the commands did not give (log entry 18): whole positions. -/
def freeTokens (s : State) (g vocab : Nat) (have_ : List Nat) : List Nat :=
  have_ ++ (List.range (g - have_.length)).map (fun i => Config.freeNat (s.free + i) % vocab)

/-- A row that another module's table holds (R442); the identifier of a row's request. -/
def isRemote (w : Row) : Bool := 2 ^ 32 ≤ w.rid
def rowId (s : State) (w : Row) : Nat := if isRemote w then w.rid - 2 ^ 32 else ridOf s w.rid

/-- The tokens of a final row. -/
def fillRow (s : State) (w : Row) : State × Row :=
  match formeOf s w.slot with
  | none => (s, w)
  | some f =>
    if !w.final || w.nan || isRemote w then (s, w)
    else if f.image.sched.outputKind = 1 then
      if w.sampled then (s, w)
      else (spend 16 s, { w with tokens := (List.range f.image.sched.scores).map (fun i => Config.freeNat (s.free + i) % 2 ^ 32) })
    else
      let g := formeG f.image
      if w.sampled && g ≤ w.tokens.length then (s, w)
      else (spend 80 s, { w with tokens := freeTokens s g f.image.sched.vocab w.tokens })

/-- The outcome of one row (R263). -/
def sealRow (s : State) (k : Step) (w : Row) : Row :=
  let units := k.alarmed.filter (fun u => (rowFormes s w).any (fun i => formeNames s i u))
  let failed := k.summaries.any (fun c => c.failed.any (fun x => x.2 == some w.rid))
  let orphan := k.summaries.any (fun c => c.orphan.any (fun o => rowRan s w o.1 o.2))
  let up := rowRaised s k w
  let cond : Cond := { failed := failed, accOrphan := orphan, precision := up != [] || !w.granted, ladderEnd := up.any id,
                       fallbackDenied := !w.granted, sat := k.summaries.any (fun c => w.rid ∈ c.satRids),
                       nearMiss := k.summaries.any (fun c => w.rid ∈ c.nearRids),
                       nanInput := w.nan || k.summaries.any (fun c => w.rid ∈ c.nanRids) }
  { w with withheld := w.withheld || failed || orphan || w.nan || units != [],
           cond := units.foldl (fun c u => condOr c (alarmCond s u)) (condOr w.cond cond) }

def sealRows (k : Step) : State → List Row → State × List Row
  | s, [] => (s, [])
  | s, w :: r =>
    let x := fillRow s w
    let y := sealRows k x.1 r
    (y.1, sealRow s k x.2 :: y.2)

/-! ## Naming the boundary of a system step (R443) -/

/-- Modules that must report before the manager names the boundary: those of the system formes with rows, but itself and the absent. -/
def stepModules (s : State) (k : Step) : List Nat :=
  ((k.rows.flatMap (fun w => ((rowFormes s w).filter (·.system)).flatMap formeModules)).eraseDups).filter
    (fun m => m != s.ql.module && m != 0x7FF && m ∉ s.ql.absent)

def stepReports (s : State) (k : Step) : List SealReport := s.ql.reports.filter (fun r => r.step == k.number)

/-- Withhold the rows of the named requests: a row withheld on any module is withheld on all. -/
def withholdIds (bad : List Nat) (s : State) : State :=
  modStep s (fun k => { k with rows := k.rows.map (fun w => if rowId s w ∈ bad then { w with withheld := true } else w) })

def withheldIds (s : State) (k : Step) : List Nat := (k.rows.filter (·.withheld)).map (rowId s)

/-- The manager names the boundary once every report of the step is in. -/
def tryName (s : State) : State :=
  match s.sched.step with
  | none => s
  | some k =>
    if k.system && k.settled && s.ql.named.isNone && sysRole s == 1
        && (stepModules s k).all (fun m => (stepReports s k).any (fun r => r.module == m)) then
      let s1 := withholdIds ((stepReports s k).flatMap (·.withheld)) s
      let tB := now s + boundaryLead s
      let bad := ((s1.sched.step.map (withheldIds s1)).getD [])
      broadcast { s1 with ql := { s1.ql with named := some (k.number, tB) } } 5 ([k.number, tB, k.owner] ++ bad)
    else s

/-- Free sheets of the module, as SEAL_REPORT shows them. -/
def systemFree (s : State) : Nat := kvFree s

/-- A worker sends its report to the manager (R443). -/
def sendReport (s : State) (k : Step) : State :=
  if k.system && 2 ≤ sysRole s then sendControl s 6 0 ([s.ql.module, k.number, systemFree s] ++ withheldIds s k) else s

/-- STEP_SEAL: the last summary is in and every dual comparison is complete. -/
def stepSealOp (s : State) : State :=
  match s.sched.step with
  | none => s
  | some k =>
    if !k.sealing || k.settled || !(k.cut || s.faults.dual == []) then s
    else
      let x := if k.cut then (s, k.rows) else sealRows k s k.rows
      let k1 := { k with rows := x.2, settled := true }
      let s1 := modStep x.1 (fun _ => k1)
      let s2 := { s1 with ql := { s1.ql with sealAt := if k.system then some (now s) else s1.ql.sealAt } }
      tryName (sendReport s2 k1)

/-! ## Late faults at a boundary (R352) -/

/-- Suspect steps of a boundary: the last 64, of at most 2 s ago. -/
def suspects (s : State) (k B : Nat) : List (Nat × Nat × List (Nat × Nat)) :=
  s.sched.history.filter (fun h => k ≤ h.1 + 64 && h.1 < k && B ≤ h.2.1 + 2000000000)

/-- Table indices of the requests of rows whose forme names a unit and which have not ended. -/
def touched (s : State) (u : UnitId) (rows : List (Nat × Nat)) : List Nat :=
  (rows.filter (fun r => ridOf s (ridIndex r.1) == r.1 && (reqOf s (ridIndex r.1)).isSome
    && (formeOf s r.2).any (fun f => formeNames s f.image u))).map (fun r => ridIndex r.1)

/-- One late fault settles: its report, still without a count, and the requests that it restarts with their horizon. -/
def settleLate (k B : Nat) (rows : List (Nat × Nat)) (s : State) (x : UnitId × Cause × Nat) : Report × List (Nat × Nat) :=
  let sus := suspects s k B
  let first := (sus.map (·.1)).foldl min k
  let hit := (touched s x.1 (sus.flatMap (fun h => h.2.2) ++ rows)).eraseDups
  ({ fenceReport s x.1 x.2.1 0 none with kind := 1, step := k, second := first, data := x.2.2 }, hit.map (fun i => (i, first)))

/-- A request has restarted since a state. -/
def restartedSince (old s : State) (i : Nat) : Bool :=
  match reqOf old i, reqOf s i with
  | some q, some r => q.order == r.order && q.restarts < r.restarts
  | _, _ => false

/-- The late-fault reports, with the requests that restarted (R352, R372). -/
def reportLate (old : State) (l : List (Report × List (Nat × Nat))) (s : State) : State :=
  l.foldl (fun x e => addReport x { e.1 with count := (e.2.filter (fun i => restartedSince old s i.1)).length }) s

/-- The horizon of a request: the earliest of its late faults, or the step itself. -/
def horizonOf (late : List (Nat × Nat)) (k i : Nat) : Nat := ((late.filter (fun x => x.1 == i)).map (·.2)).foldl min k

/-! ## Release (R264, R266, R272, R279) -/

def isEos (r : SchedRec) (t : Nat) : Bool := (List.range 4).any (fun i => bitAt r.eosValid i && r.eos.getD i 0 == t)

/-- What a clean row releases, and whether it ends its request: up to the end token or the MAX_TOKENS-th token. -/
def releaseOf (img : FormeImage) (q : Req) (w : Row) : List Nat × Bool :=
  if !w.final then ([], false)
  else if img.sched.outputKind = 1 then (w.tokens, true)
  else
    let g := formeG img
    let room := q.p.maxTokens - q.emitted
    let l := w.tokens.take room
    if g = 1 then
      match l.findIdx? (isEos img.sched) with
      | some i => (l.take (i + 1), true)
      | none => (l, room ≤ l.length)
    else (l.take g, (l.head?).any (isEos img.sched) || room ≤ g)

/-- The charge of a row in 1/256 token (R266, R307): n positions, e of them released. -/
def rowCharge (img : FormeImage) (n e : Nat) : Nat := 256 * formeG img * e + (n - e) * img.sched.prefillCost

/-- Positions a release covers. -/
def releasedPositions (img : FormeImage) (toks : List Nat) : Nat :=
  if img.sched.outputKind = 1 then 1 else toks.length / formeG img

/-- What a clean row changes in its request: positions, history, counts, fill marks, draft length, state.
DESIGN CHOICE (log entry 100): a decode row whose draft forme was held, and so ran no pass, counts for R275 as a step with a = 0. -/
def advanceReq (img : FormeImage) (drafts : Bool) (k : Nat) (q : Req) (w : Row) (toks : List Nat) : Req :=
  let decode := q.state == .decode
  let score := img.sched.outputKind == 1
  let e := releasedPositions img toks
  let done := if decode then q.done + e else q.done + w.n
  let p := promptPositions img q
  let here := min done p - min q.done p
  let q1 := { q with
    done := done, history := if score then q.history else q.history ++ toks,
    emitted := if score then q.emitted else q.emitted + toks.length,
    counts := if score then q.counts else toks.foldl countToken q.counts,
    sealed := (q.sealed.filter (fun x => k < x.1 + 64)) ++ (if here = 0 then [] else [(k, here)]),
    state := if w.final then .decode else q.state, last := k + 1, cond := {} }
  let q2 := setFill q1 false done
  let q3 := if w.draft = 0 then q2 else setFill q2 true (if decode then q.done + min w.draft (w.accepted + 1) else done)
  if decode && q.p.speculate && formeG img == 1 && drafts then nextDraft q3 img.sched.draftMax w.accepted else q3

def rowCond (img : FormeImage) (q : Req) (w : Row) : Cond := condOr (condOr w.cond q.cond) { draftOff := draftOff img q }

/-- The step record of a row: q as it was before the step, q' after it. -/
def stepRec (s : State) (k : Nat) (img : FormeImage) (q q' : Req) (w : Row) (kind : Nat) (st : Status) (toks : List Nat) : Rec :=
  { rid := ridOf s w.rid, step := k, epoch := s.plates.epoch, cond := rowCond img q w, status := st, kind := kind, emitted := q.emitted,
    keyBits := w.keyBits, draftLen := q'.d, rung := w.rung, payload := if q.p.web then [] else toks.take 9 }

def chargeTenant (s : State) (t : Nat) (c : Nat) : State := modTenant s t (fun x => { x with deficit := x.deficit - (c : Int) })

/-- A clean row is released (outcomes 4 to 6 of R264). -/
def releaseRow (heads : List (Nat × Nat)) (k : Nat) (s : State) (q : Req) (f : Forme) (w : Row) (pinned : Bool) : State :=
  let img := f.image
  let r := releaseOf img q w
  let e := if w.final then releasedPositions img r.1 else 0
  let q1 := advanceReq img (draftForme s img).isSome k q w r.1
  let s1 := if w.charged then chargeTenant s q.tenant (rowCharge img w.n e) else s
  let s2 := if q.p.web && w.final then queueFrames s1 q.p.channel (formeG img) (chunks (formeG img) e r.1) else s1
  let s3 := setKv (setReq s2 w.rid q1) (fun b => { b with recomputed := satAdd 32 b.recomputed (min q1.done q.redo - min q.done q.redo) })
  let kind := if pinned || r.2 then 1 else 0
  let st := if pinned then Status.plateChanged else .ok
  let rc := stepRec s k img q q1 w kind st r.1
  if kind = 1 then endReq heads s3 w.rid rc
  else if (r.1 != [] || condWord rc.cond != 0) && !q.p.web then setReq s3 w.rid { q1 with record := some rc }
  else s3

/-- An end that was asked for and takes effect at the boundary of step k: of several the first in the order of R264. -/
def endDue (k : Nat) (q : Req) : Option Status :=
  [Status.cancelled, .deadlineExpired, .plateChanged].find? (fun st => q.endAs.any (fun e => e.1 == st && decide (e.2 ≤ k)))

def pastDeadline (B : Nat) (q : Req) : Bool := q.p.deadline != 0 && q.p.deadline < B

def countDeadline (s : State) : State := setSched s (fun c => { c with deadlines := satAdd 32 c.deadlines 1 })

/-- The row of a request of another module's table advances the fill marks of the sets held here (R290, R442): by its positions, in a
decode row by the accepted proposals and one; the manager's next row says where the request stands. -/
def settleRemote (s : State) (cut : Bool) (w : Row) : State :=
  match tfind s.ql.remote (w.rid - 2 ^ 32) with
  | none => s
  | some q =>
    if cut || w.withheld then s
    else
      let decode : Bool := w.final && w.n == w.draft + 1
      let done := q.done + (if decode then w.accepted + 1 else w.n)
      let q1 := setFill { q with done := done } false done
      let q2 := if w.draft = 0 then q1 else setFill q1 true (if decode then q.done + min w.draft (w.accepted + 1) else done)
      { s with ql := { s.ql with remote := tput s.ql.remote (w.rid - 2 ^ 32) q2 } }

/-- The outcome of a row in the order of R264; void rows of a cut step change nothing (R388). DESIGN CHOICE (log entry 100): a row whose
tokens an end withholds is not charged. -/
def settleRow (heads : List (Nat × Nat)) (k B : Nat) (cut : Bool) (late : List (Nat × Nat)) (s : State) (w : Row) : State :=
  if isRemote w then settleRemote s cut w
  else match reqOf s w.rid, formeOf s w.slot with
  | some q, some f =>
    let q0 := if cut then q else { q with last := k + 1 }
    let endWith := fun (st : Status) =>
      endReq heads s w.rid { stepRec s k f.image q q w 1 st [] with cond := if cut then idleCond s q q.cond else rowCond f.image q w }
    match endDue k q with
    | some .cancelled => endWith .cancelled
    | some .deadlineExpired => endWith .deadlineExpired
    | other =>
      if pastDeadline B q then countDeadline (endWith .deadlineExpired)
      else if cut then setReq s w.rid { q with age := w.age }
      else if w.withheld then restartReq heads k (setReq s w.rid q0) w.rid (horizonOf late k w.rid) (some w) (rowCond f.image q w)
      else releaseRow heads k s q f w other.isSome
  | _, _ => s

end Sys2Proof.Machine
end

