-- ==== Sys2Proof/Machine/Formation.lean ====
section
/-! DEFINITION. Formation of a step (R265-R268, the scheduler's procedure of 09_requests_and_steps): who owns it (R382), credits, page
claims (R333), wide-buffer granules (R338), rows in the four phases, ages, grants. -/

namespace Sys2Proof.Machine

/-! ## Rows of a request (R259) -/

/-- Positions of a request's token history. -/
def totalPositions (img : FormeImage) (q : Req) : Nat := q.history.length / formeG img

/-- The draft length of a row: none without a draft forme, or while that forme is held and so runs no pass (R17), or for G > 1. -/
def rowDraft (s : State) (img : FormeImage) (q : Req) : Nat :=
  if formeG img = 1 ∧ (draftForme s img).any (fun f => !formeHeld s f.image) then q.d else 0

/-- Positions, draft positions and finality of a request's next row. -/
def rowShape (s : State) (img : FormeImage) (q : Req) : Nat × Nat × Bool :=
  let d := rowDraft s img q
  if q.state = .decode then (1 + d, d, true)
  else
    let left := totalPositions img q - q.done
    let n := min img.sched.chunk left
    (n, if d = 0 then 0 else n, n == left)

/-- Frames that a row would release (R314). -/
def rowFrames (s : State) (img : FormeImage) (q : Req) : Nat :=
  let r := rowShape s img q
  if !r.2.2 then 0 else if q.state = .decode then 1 + r.2.1 else 1

/-- LOCKED (R424): a module without a manager stands alone. -/
def timeLocked (s : State) : Bool := sysRole s ≤ 1 || s.time.locked

/-- A request that has not run ends at the coming boundary without running (R276, R277). -/
def endsUnrun (s : State) (q : Req) : Bool :=
  q.state == .queued && ((endDue s.sched.nextStep q).isSome || pastDeadline (now s) q)

/-- The request has work for a formation (R267, R280, R314, R17, R276, R303, R444). -/
def hasWork (s : State) (q : Req) : Bool :=
  !endsUnrun s q && !needsHalf s q && (q.state == .queued || q.state == .prefill || q.state == .decode || q.state == .restarting)
    && (match formeOf s q.p.slot with
      | none => false
      | some f => !formeHeld s f.image && !formeAbsent s f.image && !formeIncomplete s f.image && (!f.image.system || timeLocked s)
          && (rowShape s f.image q).1 != 0
          && (!q.p.web || (match chanOf s q.p.channel with
            | some c => webRoom s c (rowFrames s f.image q)
            | none => false)))

/-- Requests with work of an owner, by table index. -/
def workOf (s : State) (owner : Nat) : List (Nat × Req) :=
  s.reqs.filter (fun e => ownerOfTenant s e.2.tenant == owner && tenantEnabled s e.2.tenant && hasWork s e.2)

def ownerHasWork (s : State) (o : Nat) : Bool := workOf s o != []

/-- Confidential tenants with work, ascending. -/
def confWork (s : State) : List Nat :=
  (List.range 256).filter (fun t => (tenantOf s t).confidential && ownerHasWork s t)

/-- The owner of the next step (R382); none when no request has work. -/
def chooseOwner (s : State) : Option Nat :=
  let cur := s.sched.owner
  let conf := confWork s
  let shared := ownerHasWork s sharedOwner
  let keeps := (cur == sharedOwner && shared || cur ∈ conf) && now s < s.sched.ownerSince + 1000000 * confRunMs s && (cur != sharedOwner || conf != [])
  let nextConf := (conf.find? (fun t => s.sched.lastConf < t)).orElse (fun _ => conf.head?)
  if keeps then some cur
  else if cur = sharedOwner then nextConf.orElse (fun _ => if shared then some sharedOwner else none)
  else if shared then some sharedOwner else nextConf

/-- The owner takes over at this boundary. -/
def setOwner (s : State) (o : Nat) : State :=
  if s.sched.owner = o then s
  else setSched s (fun c => { c with owner := o, ownerSince := now s, lastConf := if o = sharedOwner then c.lastConf else o })

/-! ## Credit (R265, R383) -/

/-- One tenant's credit. DESIGN CHOICE (log entry 101): the time that other owners' steps kept from it is scaled by the λ of the last step, as the
rest of its Δ is. -/
def creditTenant (owner delta num den : Nat) (s : State) (t : Nat) : State :=
  let x := tenantOf s t
  if !x.enabled then s
  else if ownerOfTenant s t ≠ owner then setTenant s t { x with credited := x.credited + delta }
  else
    let add := 256 * x.cfg.tokenRate * (delta + x.credited) * den / (1000000000 * num)
    setTenant s t { x with deficit := min (x.deficit + (add : Nat)) (256 * x.cfg.burst : Nat), credited := 0 }

/-- The credit of a formation: none at the first after a reset, and none at a further try of the same step's formation. -/
def creditAll (s : State) (owner : Nat) : State :=
  let delta := if s.sched.formed && s.sched.credited != some s.sched.nextStep then s.sched.lastB - s.sched.prevB else 0
  let s1 := (s.tenants.map (fun (e : Nat × Tenant) => e.1)).foldl (creditTenant owner delta s.sched.lambdaNum s.sched.lambdaDen) s
  if s.sched.formed then s1
  else setSched s1 (fun c => { c with formed := true, lastB := now s, prevB := now s })

/-! ## The wide buffer (R338) -/

/-- Granules a region would hold with staging bytes and adapter granules, within its floors and the shared partition. -/
def granulesFit (s : State) (rk bytes adapt : Nat) : Bool :=
  let shared := match logicalRegionKey s rk with
    | some l => sharedLeft s.formes l
    | none => 1024
  (stageGranules bytes - 768) + (adapt - 256) ≤ shared

/-- Physical regions and bytes that n positions stage. -/
def stageOf (s : State) (img : FormeImage) (n : Nat) : List (Nat × Nat) :=
  (ownAttn s img).filterMap (fun a => (physRegionKey s (homeRegion a)).map (fun r => (r, n * rowBytes a)))

/-- What a row stages: its positions, and those that its draft forme processes. -/
def rowStage (s : State) (img : FormeImage) (n draft : Nat) : List (Nat × Nat) :=
  stageOf s img n ++ (match draftForme s img with
    | some d => if draft = 0 then [] else stageOf s d.image draft
    | none => [])

/-- Adapter layers of a tenant in a forme slot: layer keys with the physical region that finalises them. -/
def slotAdapters (s : State) (tenant slot : Nat) : List (Nat × Nat) :=
  (s.overlays.filter (fun e => overlayTenant e.1 == tenant && overlaySlot e.1 == slot && bitAt e.2.1.kinds 0)).filterMap
    (fun e => (overlayRegion s slot (overlayLayer e.1)).map (fun r => (e.1, r)))

/-- Adapter layers of a tenant's row, those of its draft forme too while it drafts. -/
def rowAdapters (s : State) (tenant slot draft : Nat) : List (Nat × Nat) :=
  slotAdapters s tenant slot ++ (match (formeOf s slot).map (·.image) with
    | some img => if draft = 0 ∨ (draftForme s img).isNone then [] else slotAdapters s tenant img.sched.draftSlot
    | none => [])

def addStage (s : State) (x : Nat × Nat) : State := modRegion s x.1 (fun g => { g with stage := g.stage + x.2 })
def addAdapt (s : State) (x : Nat × Nat) : State := modRegion s x.2 (fun g => { g with adapt := g.adapt + 64 })

/-! ## DMA and link credits (R326, R327) -/

/-- Up ports towards the other modules of a system forme. -/
def formePorts (s : State) (img : FormeImage) : List Nat :=
  if img.system then (((formeModules img).filterMap (routePort s)).eraseDups).filter (portUp s) else []

/-- The last two resources of the global order can be had: a step credit of the DMA engine of every region that the row stages in, then an
activation credit of every link that the forme uses. The transfers give them back one by one (R340, R432). DESIGN CHOICE (log entry 102): a row
tries for one of each. -/
def creditsFit (s : State) (img : FormeImage) (regions : List Nat) : Bool :=
  regions.all (fun r => 1 ≤ stepRoom 0 (regionOf s r).dmaHeld.length) && (formePorts s img).all (fun p => 1 ≤ (portOf s p).credits.getD 1 0)

/-! ## Forming -/

/-- A formation in progress: positions left by forme slot, for web rows too, credit reserved by tenant, adapter layers that
hold their granules, rows in the order taken. -/
structure Form where
  s : State
  left : Tbl Nat
  webLeft : Tbl Nat
  reserved : Tbl Nat
  adapters : List Nat
  taken : List Row

def roomOf (f : FormeImage) : Nat := f.sched.rowsMax

def leftOf (s : State) (m : Tbl Nat) (slot : Nat) : Nat :=
  (tfind m slot).getD (((formeOf s slot).map (fun f => roomOf f.image)).getD 0)

def webLeftOf (s : State) (m : Tbl Nat) (slot : Nat) : Nat :=
  (tfind m slot).getD ((((formeOf s slot).map (fun f => roomOf f.image)).getD 0) * (if s.sched.slotNext then 100 else webShare s) / 100)

def hasRow (x : Form) (i : Nat) : Bool := x.taken.any (fun w => w.rid == i)

/-- The group of the channel that a request is bound to. -/
def groupOfReq (s : State) (q : Req) : Option Nat :=
  if q.p.web then (chanOf s q.p.channel).bind (fun c => if c.p.group = 0xFFFF then none else some c.p.group) else none

/-- What formation takes as a unit with a request: the requests of its channel's group that have work and no row yet (R321). -/
def unitOfReq (work : List (Nat × Req)) (x : Form) (e : Nat × Req) : List (Nat × Req) := match groupOfReq x.s e.2 with
  | none => [e]
  | some g => work.filter (fun w => groupOfReq x.s w.2 == some g && !hasRow x w.1)

/-- A page claim is lodged for a request below its tenant's effective reserve (R333). -/
def lodgeClaim (s : State) (i : Nat) (q : Req) (n : Nat) : State :=
  if tenantSheets s.kv q.tenant < effReserve s q.tenant ∧ !(s.kv.claims.any (fun c => c.1 == i)) then
    setKv s (fun k => { k with claims := k.claims ++ [(i, n)] })
  else s

/-- `fits` and `take` of the procedure: the row, or none with what the attempt leaves (a page claim, a counted shortage). -/
def tryRow (x : Form) (i : Nat) (charged web : Bool) : Form × Bool :=
  match reqOf x.s i, (reqOf x.s i).bind (fun q => formeOf x.s q.p.slot) with
  | some q, some f =>
    let r := rowShape x.s f.image q
    let n := r.1
    let slot := q.p.slot
    if leftOf x.s x.left slot < n ∨ (web ∧ webLeftOf x.s x.webLeft slot < n) then (x, false)
    else match takePages x.s i n (r.2.1 != 0) (x.taken.map (·.rid)) with
    | none => ({ x with s := lodgeClaim x.s i q n }, false)
    | some s1 =>
      let gap := if r.2.1 = 0 then 0 else ((draftForme x.s f.image).map (fun d => draftGap d.image q)).getD 0
      let stages := rowStage x.s f.image n (r.2.1 + gap)
      let adapters := (rowAdapters x.s q.tenant slot r.2.1).filter (fun a => a.1 ∉ x.adapters)
      let s2 := adapters.foldl addAdapt (stages.foldl addStage s1)
      let regions := (stages.map (·.1) ++ adapters.map (·.2)).eraseDups
      let short := regions.filter (fun g => !granulesFit s2 g (regionOf s2 g).stage (regionOf s2 g).adapt)
      if short ≠ [] then
        ({ x with s := short.foldl (fun y g => modRegion y g (fun z => { z with wbShort := satAdd 32 z.wbShort 1 })) x.s }, false)
      else if !creditsFit s2 f.image (stages.map (·.1)) then (x, false)
      else
        let w : Row := { rid := i, slot := slot, n := n, draft := r.2.1, final := r.2.2, charged := charged, web := q.p.web, tokens := [],
                         accepted := 0, nan := false, cond := {}, keyBits := 0, rung := 0, granted := true, withheld := false,
                         sampled := false, age := q.age, catchUp := gap }
        let s3 := setKv (modReq s2 i (fun y => { y with state := if y.state = .queued then .prefill else y.state }))
          (fun k => { k with claimed := k.claimed.filter (· != i) })
        ({ s := s3, left := tput x.left slot (leftOf x.s x.left slot - n),
           webLeft := if web then tput x.webLeft slot (webLeftOf x.s x.webLeft slot - n) else x.webLeft,
           reserved := x.reserved, adapters := x.adapters ++ adapters.map (·.1), taken := x.taken ++ [w] }, true)
  | _, _ => (x, false)

/-- What a failed attempt leaves: the page claims it lodged and the shortages it counted. -/
def keepMarks (s t : State) : State :=
  (t.regions.filter (fun e => (regionOf s e.1).wbShort != e.2.wbShort)).foldl
    (fun x e => modRegion x e.1 (fun g => { g with wbShort := e.2.wbShort })) (setKv s (fun k => { k with claims := t.kv.claims }))

def tryAll (charged web : Bool) (x : Form) : List (Nat × Req) → Form × Bool
  | [] => (x, true)
  | e :: r => match tryRow x e.1 charged web with
    | (y, true) => tryAll charged web y r
    | (y, false) => (y, false)

/-- Rows for every request of a unit, or for none of them (R321). -/
def tryUnit (x : Form) (l : List (Nat × Req)) (charged web : Bool) : Form × Bool := match tryAll charged web x l with
  | (y, true) => (y, true)
  | (y, false) => ({ x with s := keepMarks x.s y.s }, false)

/-- Expected cost in 1/256 token (R266, R307). -/
def expectedCost (s : State) (q : Req) : Nat :=
  match formeOf s q.p.slot with
  | none => 0
  | some f =>
    let r := rowShape s f.image q
    rowCharge f.image r.1 (b2n r.2.2)

/-- A tenant's rotation: requests with work, least recently served first (R267). -/
def rotationOf (work : List (Nat × Req)) (t : Nat) : List (Nat × Req) :=
  sortBy (fun e => e.2.last * 2 ^ 64 + e.2.order) (work.filter (fun e => e.2.tenant == t))

/-- Credit reserved with the costs of a unit added; none when a tenant's credit does not cover its members.
DEDUCED (log entry 92): in the later rounds too a group's requests are taken as a unit, each charged to its own tenant. -/
def reserveUnit (s : State) (reserved : Tbl Nat) : List (Nat × Req) → Option (Tbl Nat)
  | [] => some reserved
  | e :: r =>
    let c := expectedCost s e.2
    if (tenantOf s e.2.tenant).deficit - (tget 0 reserved e.2.tenant : Nat) < (c : Int) then none
    else reserveUnit s (tmod 0 reserved e.2.tenant (· + c)) r

/-! ### Phase 1: web rows by class, then earliest frame slot -/

def webKey (s : State) (q : Req) : Nat :=
  q.p.dclass * 2 ^ 96 + ((chanOf s q.p.channel).map (earliestSlot s)).getD 0

/-- Order of a unit: by the earliest of its members (R321). -/
def unitKey (work : List (Nat × Req)) (x : Form) (e : Nat × Req) : Nat :=
  (unitOfReq work x e).foldl (fun m w => min m (webKey x.s w.2)) (webKey x.s e.2)

/-- One request of every unit of web requests. -/
def webUnits (work : List (Nat × Req)) (x : Form) : List (Nat × Req) :=
  work.filter (fun e => e.2.p.web && ((unitOfReq work x e).head?.map (·.1)) == some e.1)

def webPhase (work : List (Nat × Req)) (x : Form) : Form :=
  (sortBy (unitKey work x) (webUnits work x)).foldl (fun y e => (tryUnit y (unitOfReq work y e) true true).1) x

/-! ### Phase 2: aged requests, largest W first, then earliest submission -/

def agedOne (work : List (Nat × Req)) (x : Form) (e : Nat × Req) : Form :=
  let r := tryUnit x (unitOfReq work x e) true false
  if hasRow x e.1 then x
  else if r.2 then r.1
  else { r.1 with s := setSched r.1.s (fun c => { c with overcommit := true, overcommits := satAdd 32 c.overcommits 1 }) }

def agedPhase (work : List (Nat × Req)) (x : Form) : Form :=
  (sortBy (fun e => (2 ^ 64 - e.2.age) * 2 ^ 64 + e.2.order) (work.filter (fun e => 8 ≤ e.2.age && !hasRow x e.1))).foldl
    (agedOne work) x

/-! ### Phases 3 and 4: credited and excess rounds -/

/-- Tenants with work in the order of a round that starts after a tenant. -/
def tenantRound (work : List (Nat × Req)) (last : Nat) : List Nat :=
  let l := sortAsc ((work.map (fun e => e.2.tenant)).eraseDups)
  l.filter (fun t => last < t) ++ l.filter (fun t => t ≤ last)

def creditedVisit (work : List (Nat × Req)) (x : Form × Bool) (t : Nat) : Form × Bool :=
  match (rotationOf work t).find? (fun e => !hasRow x.1 e.1) with
  | none => x
  | some e =>
    let l := unitOfReq work x.1 e
    match reserveUnit x.1.s x.1.reserved l with
    | none => x
    | some reserved =>
      let r := tryUnit x.1 l true false
      if r.2 then ({ r.1 with reserved := reserved, s := setSched r.1.s (fun d => { d with lastCredited := t }) }, true)
      else (r.1, x.2)

def excessVisit (work : List (Nat × Req)) (x : Form × Bool) (t : Nat) : Form × Bool :=
  match (rotationOf work t).find? (fun e => !hasRow x.1 e.1) with
  | none => x
  | some e =>
    let r := tryUnit x.1 (unitOfReq work x.1 e) false false
    if r.2 then ({ r.1 with s := setSched r.1.s (fun d => { d with lastExcess := t }) }, true) else (r.1, x.2)

/-- Rounds until a full one takes nothing. -/
def rounds (visit : Form × Bool → Nat → Form × Bool) (order : State → List Nat) : Nat → Form → Form
  | 0, x => x
  | fuel + 1, x =>
    let y := (order x.s).foldl visit (x, false)
    if y.2 then rounds visit order fuel y.1 else y.1

/-- Ages after formation (R267): due requests without a row grow older. `deficits` are those at formation. -/
def ageTenant (work : List (Nat × Req)) (x : Form) (s : State) (t : Nat) : State :=
  let rot := rotationOf work t
  ((rot.foldl (fun (acc : State × Nat) e =>
    let sum := acc.2 + expectedCost s e.2
    let due : Bool := (sum : Int) ≤ (tenantOf s t).deficit
    (modReq acc.1 e.1 (fun q => { q with age := if due && !hasRow x e.1 then q.age + 1 else 0 }), sum)) (s, 0))).1

/-- Requests of the owner's tenants without work build no age. -/
def resetAges (s : State) (owner : Nat) (work : List (Nat × Req)) : State :=
  { s with reqs := s.reqs.map (fun e =>
      if ownerOfTenant s e.2.tenant == owner && !(work.any (fun w => w.1 == e.1)) then (e.1, { e.2 with age := 0 }) else e) }

/-! ### Page claims (R333) -/

/-- The claims are met before any row is taken. -/
def meetClaims (s : State) : List (Nat × Nat) → State
  | [] => s
  | c :: r =>
    match reqOf s c.1 with
    | none => meetClaims s r
    | some q =>
      if effReserve s q.tenant ≤ tenantSheets s.kv q.tenant ∨ !tenantEnabled s q.tenant then meetClaims s r
      else match takePages s c.1 c.2 (((formeOf s q.p.slot).map (fun f => rowDraft s f.image q)).getD 0 != 0) [] with
      | some s1 => meetClaims (setKv s1 (fun k =>
          { k with claimsMet := satAdd 32 k.claimsMet 1, claimed := addOnce k.claimed c.1 })) r
      | none => meetClaims (setKv s (fun k => { k with claims := k.claims ++ [c], claimMiss := satAdd 32 k.claimMiss 1 })) r

/-! ### The step -/

/-- Regions that take part: strobes and attention homes of the formes of the rows. -/
def launchRegions (s : State) (rows : List Row) : List Nat :=
  ((rows.flatMap (fun w => (rowFormes s w).flatMap (fun i => (formeRegions s i).filterMap (physRegionKey s))))).eraseDups

/-- Order of R146: web rows by class and earliest slot, then the others as taken. -/
def grantOrder (s : State) (rows : List Row) : List Row :=
  sortBy (fun w => ((reqOf s w.rid).map (webKey s)).getD 0) (rows.filter (·.web)) ++ rows.filter (fun w => !w.web)

/-- Rows given to aged requests, in whichever phase (R282). -/
def countAged (s : State) (rows : List Row) : State :=
  setSched s (fun c => { c with aged := satAdd 32 c.aged (rows.filter (fun w => 8 ≤ w.age)).length })

/-- Refused rows, and rows granted a rung above 0 (R151). -/
def countGrants (s : State) (rows : List Row) : State :=
  setSched s (fun c => { c with denied := satAdd 32 c.denied (rows.filter (fun w => !w.granted)).length,
                                granted := satAdd 32 c.granted (rows.filter (fun w => w.granted && w.rung != 0)).length })

/-- Form the next step for an owner. A formation that can take no row forms no step: its credit counts once, and no request ages. -/
def formStep (s : State) (owner : Nat) : State :=
  let s0 := creditAll (setOwner s owner) owner
  let s1 := meetClaims (setKv s0 (fun k => { k with claims := [] })) s0.kv.claims
  let work := workOf s1 owner
  let x0 : Form := { s := s1, left := [], webLeft := [], reserved := [], adapters := [], taken := [] }
  let x2 := agedPhase work (webPhase work x0)
  let x3 := rounds (creditedVisit work) (fun y => tenantRound work y.sched.lastCredited) (work.length + 1) x2
  let x4 := rounds (excessVisit work) (fun y => tenantRound work y.sched.lastExcess) (work.length + 1) x3
  let s4 := ((work.map (fun e => e.2.tenant)).eraseDups).foldl (ageTenant work x4) (resetAges x4.s owner work)
  if x4.taken = [] then setSched x4.s (fun c => { c with credited := some c.nextStep })
  else
    let g := grantRows s4 (grantOrder s4 x4.taken)
    let s5 := countAged (countGrants s4 g.1) g.1
    let sys := g.1.any (fun w => (rowFormes s5 w).any (·.system))
    let rs := launchRegions s5 g.1
    let k : Step := { number := s5.sched.nextStep, began := now s5, rows := g.1, owner := owner, waiting := rs, summaries := [], alarmed := [],
                      cut := false, sealing := rs == [], settled := false, tBase := g.2.1, dT := g.2.2, system := sys,
                      sealBegan := now s5 }
    let s6 := setSched s5 (fun c => { c with step := some k, nextStep := c.nextStep + 1 })
    rs.foldl (fun y r => emit y (.launch r k.number)) s6

/-- Formation may take place (R160, R403, R410). -/
def mayForm (s : State) : Bool := inService s && s.sched.step.isNone && !s.sched.stopped && s.rst.calDone && !calSelfRunning s && s.sched.slotCores == []

end Sys2Proof.Machine
end

