-- ==== Sys2Proof/Machine/Steps.lean ====
section
/-! DEFINITION. The boundary of a step (R260-R262): its actions in the order of R261, map changes and what they drop (R17, R25, R303,
R332), washdowns (R384), test slots and core tests (R370, R371), the MSI-X message of R281. -/

namespace Sys2Proof.Machine

/-! ## Action 1: the seal outcome -/

/-- A sheet lies in a page set: its record or one of its pages. -/
def setHolds (p : PageSet) (x : Nat) : Bool := p.record == x || p.pages.any (fun q => q.2.2 < 1000 && q.1 ≤ x && x < q.1 + q.2.1)

/-- The first set of a request that holds a bad sheet. -/
def badSet (s : State) (q : Req) : Option Nat := q.sets.findIdx? (fun p => s.kv.bad.any (setHolds p))

/-- The owner of a bad sheet loses the set that holds it and every later one (R302). -/
def dropBadOf (s : State) (i : Nat) : State := match (reqOf s i).bind (badSet s) with
  | some n => dropFrom s i n
  | none => s

def dropBadRemote (s : State) (rid : Nat) : State := match (tfind s.ql.remote rid).bind (badSet s) with
  | some n => dropRemoteFrom s rid n
  | none => s

def dropBad (s : State) : State :=
  if s.kv.bad = [] then s
  else
    let s1 := (s.reqs.map (fun (e : Nat × Req) => e.1)).foldl dropBadOf s
    setKv ((s1.ql.remote.map (fun (e : Nat × Req) => e.1)).foldl dropBadRemote s1) (fun k => { k with bad := [] })

/-- A late fault's restart of a request that the rows of the step have not restarted (R352). -/
def restartLate (heads : List (Nat × Nat)) (k B : Nat) (rows : List Row) (s : State) (x : Nat × Nat) : State :=
  match reqOf s x.1 with
  | none => s
  | some q =>
    if rows.any (fun w => w.rid == x.1 && w.withheld) || (endDue k q).isSome || pastDeadline B q then s
    else restartReq heads k s x.1 x.2 none q.cond

/-- Requests of late faults with their earliest horizon, once each. -/
def mergeLate (late : List (Nat × Nat)) (k : Nat) : List (Nat × Nat) := ((late.map (·.1)).eraseDups).map (fun i => (i, horizonOf late k i))

/-- What the registers of the schedule show of a sealed step (R147, R282). Power limiting scales the token rates as the stretch does
(R415).
DEDUCED (log entry 65): a cut step is sealed too, with every row withheld, so it shows its stretch, its refusals and its use; PREC_LAST, which the
ladder's move writes, keeps the step before, since a cut step moves no layer. -/
def noteSealed (s : State) (k : Step) (ids : List (Nat × Nat)) (B limited : Nat) : State :=
  setSched s (fun c => { c with
    step := none, sealed := k.number, stepTime := B - c.lastB, history := ((k.number, B, ids) :: c.history).take 64,
    prevB := c.lastB, lastB := B,
    lambdaNum := (if k.tBase = 0 then 1 else k.tBase + k.dT) * (65536 + limited), lambdaDen := (if k.tBase = 0 then 1 else k.tBase) * 65536,
    stretch := if k.tBase = 0 then 0 else 256 * k.dT / k.tBase, used := if k.tBase = 0 then 0 else 100 * k.dT / k.tBase,
    short := k.rows.any (fun w => !w.granted) })

/-- Core events that end with the step: SKIM_STATUS, alarms already settled, waits of R200; of a cut step its precision events and the
reductions and products that its passes have left behind (R123, R388). -/
def endCore (cut : Bool) (c : Core) : Core :=
  { c with stPrecision := false, stSat := false, stNear := false, stFailed := false, burstWait := 0,
           held := if cut then [] else c.held, banks := if cut then [] else c.banks, parked := if cut then 0 else c.parked,
           summary := if cut then {} else { c.summary with alarm := false, mismatch := [], failed := [] } }

/-- Granules of the step return at once (R339); the slots that a cut step leaves are discarded (R123). -/
def endRegion (cut : Bool) (g : Region) : Region := { (if cut then dropOrphans g else g) with stage := 0, adapt := 0, staged := [] }

/-- D as HUB_TENANT_DEFICIT shows it, after a seal (R282). -/
def sealDeficits (s : State) : State := { s with tenants := tmap {} (fun _ x => { x with sealedD := x.deficit }) s.tenants }

/-- What each core has issued, and the sheets that came from other modules, belong to the step (R211, R212). -/
def endIssue (s : State) : State :=
  setSched { s with ql := { s.ql with arrived := [] } } (fun c => { c with issued := [] })

def mapRegions (s : State) (f : Region → Region) : State :=
  { s with regions := tmap {} (fun _ g => f g) s.regions }

def settleStep (inp : TickInput) (k : Step) (B : Nat) (s : State) : State :=
  let heads := inp.ringHeads
  let ids := (k.rows.filter (fun w => !isRemote w)).map (fun w => (ridOf s w.rid, w.slot))
  let faults := s.faults.lateNow.map (settleLate k.number B (if k.cut then [] else ids) s)
  let late := mergeLate (faults.flatMap (·.2)) k.number
  let s1 := if k.cut then s else dropBad s
  let s2 := k.rows.foldl (settleRow heads k.number B k.cut late) s1
  let s3 := late.foldl (restartLate heads k.number B (if k.cut then [] else k.rows)) s2
  let s3' := reportLate s faults s3
  let s4 := if k.cut then s3' else moveLadders s3' k
  let s5 := endIssue (sealDeficits (mapRegions (mapCores s4 (fun _ c => endCore k.cut c)) (endRegion k.cut)))
  noteSealed (setKv (setFaults s5 (fun f => { f with lateNow := [], dual := [] })) (fun v => { v with bad := [] })) k ids B inp.limited

/-- Tenants that the lock-up of this boundary disables, and tenants in removal: their requests end as under R276 (R278), those with a row
under precedence 1 of R264. -/
def leaving (s : State) : List Nat :=
  removals s ++ (match stagedIf s 0 with
    | some x => x.staged.filterMap (fun c => match c with
      | .tenant t _ => if (tenantOf s t).enabled && !enabledAfter s x.staged t then some t else none
      | _ => none)
    | none => [])

def markLeaving (k : Nat) (s : State) : State :=
  let ts := leaving s
  if ts = [] then s
  else { s with reqs := tmap default (fun _ q => if q.tenant ∈ ts then { q with endAs := addOnce q.endAs (.cancelled, k) } else q) s.reqs }

/-! ## Action 2: ends (R276, R277, R278) -/

/-- An end takes effect. A request that the seal has restarted goes on to the next boundary with the limit of R218: precedence 3 of R264 decides
before 4, and it has one record in the step (R279). -/
def endAtBoundary (heads : List (Nat × Nat)) (k B : Nat) (restarted : List Nat) (s : State) (i : Nat) : State :=
  match reqOf s i with
  | none => s
  | some q => match endDue k q with
    | some st => if st = .plateChanged ∧ i ∈ restarted then s else endNow heads k s i st
    | none => if pastDeadline B q then countDeadline (endNow heads k s i .deadlineExpired) else s

def endRequests (heads : List (Nat × Nat)) (k B : Nat) (restarted : List Nat) (s : State) : State :=
  let s1 := (s.reqs.map (fun (e : Nat × Req) => e.1)).foldl (endAtBoundary heads k B restarted) s
  (removals s1).foldl (removeAtBoundary heads k) s1

/-! ## Action 3: the power budget of R462, then the transactions -/

def applyPower (s : State) : State :=
  match s.power.staged with
  | none => s
  | some b =>
    let s1 := { s with power := { s.power with staged := none }, aon := { s.aon with powerBudget := b } }
    (s1.cmdq.filter (fun e => e.wait == .boundary)).foldl (fun x e => finish x e.hdr.fn e.hdr.seq .ok {} b 0) s1

/-! ## Action 4: maps, corrections, stuck lists, temperatures -/

def mergeTile (x : Tile) : Tile := if x.newStuck = [] then x else { x with stuck := x.stuck ++ x.newStuck, newStuck := [] }

def mergeStuck (s : State) : State :=
  mapCores s (fun _ c => { c with tiles := tmap {} (fun _ x => mergeTile x) c.tiles })

def anyNewStuck (s : State) : Bool := s.cores.any (fun c => c.2.tiles.any (fun t => t.2.newStuck != []))

/-- Stuck lists take their new entries and go into the generation record (R81, R202, R403). -/
def settleStuck (s : State) : State := if anyNewStuck s then saveMaps (mergeStuck s) else s

/-- The first set that a request loses with withdrawn halves: a set table there takes every set (R303). -/
def halfSet (halves : List Nat) (q : Req) : Option Nat :=
  if q.tables.any (fun e => e.2 / Config.halfSheets ∈ halves) then some 0 else q.sets.findIdx? (touchesHalf halves)

/-- The set tables of a request that do not lie in withdrawn halves, and the pool with the others free. -/
def freeTables (halves : List Nat) (k : KvBlk) (q : Req) : KvBlk × Req :=
  let lost := q.tables.filter (fun e => e.2 / Config.halfSheets ∈ halves)
  (lost.foldl (fun y (e : Nat × Nat) => freeRun y e.2) k, { q with tables := q.tables.filter (fun e => e.2 / Config.halfSheets ∉ halves) })

/-- A request loses the first set that touches a withdrawn half and all after it (R303). -/
def dropHalf (halves : List Nat) (s : State) (i : Nat) : State :=
  match (reqOf s i).bind (halfSet halves) with
  | none => s
  | some n =>
    let s1 := dropFrom s i n
    match reqOf s1 i with
    | none => s1
    | some q => let x := freeTables halves s1.kv q; setReq { s1 with kv := x.1 } i x.2

def dropHalfRemote (halves : List Nat) (s : State) (rid : Nat) : State :=
  match (tfind s.ql.remote rid).bind (halfSet halves) with
  | none => s
  | some n =>
    let s1 := dropRemoteFrom s rid n
    match tfind s1.ql.remote rid with
    | none => s1
    | some q => let x := freeTables halves s1.kv q; { s1 with kv := x.1, ql := { s1.ql with remote := tput s1.ql.remote rid x.2 } }

/-- Every request, and every request of another module's table, loses what lay in withdrawn halves. -/
def dropHalves (halves : List Nat) (s : State) : State :=
  let s1 := (s.reqs.map (fun (e : Nat × Req) => e.1)).foldl (dropHalf halves) s
  (s1.ql.remote.map (fun (e : Nat × Req) => e.1)).foldl (dropHalfRemote halves) s1

/-- Monitoring starts after option load: every core with an ALLOCATED plane monitors one (R91, SKIM_MON_CFG.EN). -/
def monitorAll (s : State) : State :=
  (((s.arr.desc.filter (fun e => e.2.state == 2)).map (fun e => planeCore e.1)).eraseDups).foldl nameNext s

/-- Cores of a spare that hold plates now begin to monitor (R92). -/
def startMonitors (s : State) (r : Refill) : State :=
  match r.spare with
  | none => s
  | some u =>
    (((s.arr.desc.filter (fun e => e.2.state == 2 && u.holds e.1)).map (fun e => planeCore e.1)).eraseDups).foldl (fun x ck =>
      if (coreOf x ck).monPlane.isNone then nameNext x ck else x) s

def mapBoundary (s0 : State) : State :=
  let s := settleClaims s0
  let done := s.map.refills.filter refillDone
  let s1 := applyMapChanges s
  if done = [] && !halvesMove s then settleDma s1
  else
    let s2 := done.foldl (fun x r => startMonitors (closeLate x r.unit) r) s1
    let gone := (goneHalves s2).filter (· ∉ goneHalves s)
    let s3 := if gone = [] then s2 else dropHalves gone s2
    let s4 := if kvPool s3 < reserveSum s3 then setKv s3 (fun k => { k with reserveShort := true }) else s3
    settleDma (saveMaps s4)

/-- Units that broken sensors fence (R414, R23). -/
def sensorUnits : Sensor → List UnitId
  | .region k _ => [unitOfRegion k]
  | .hbm h => [.stack (2 * h), .stack (2 * h + 1)]
  | .hub _ => []

def brokenUnits (s : State) : List UnitId := (s.therm.broken.flatMap sensorUnits).filter (fun u => u ∉ fencedUnits s)

/-- Broken temperature channels fence their zone at the boundary. -/
def fenceBroken (s : State) : State := (brokenUnits s).foldl (fun x u => fenceFor x u .sensor 0) s

/-! ## Action 5: washdowns (R384) -/

/-- Every region the model lists anything of. -/
def listedRegions (s : State) : List Nat :=
  ((s.regions.map (fun (e : Nat × Region) => e.1)) ++ s.cores.map (fun (e : Nat × Core) => coreRegion e.1)).eraseDups

/-- A tenant switch or a removal washes the regions of the ending step, or, when no step is ending, every region. -/
def washBoundary (s : State) (ran : Option (List Nat)) (forced : Bool) (next : Option Nat) : State :=
  let o := next.getD s.sched.owner
  if forced || o != s.sched.owner then settlePresence (washdown s (ran.getD (listedRegions s)) o) else s

/-! ## Action 6: test slots (R371) -/

/-- A core that can be tested: not fenced, its arrays driven (R31). -/
def testable (s : State) (ck : Nat) : Bool := !coreFenced s ck && stackDriven s (coreStack ck)

def overdueCores (s : State) : List Nat := (s.cores.filter (fun e => e.2.testOverdue && testable s e.1)).map (fun (e : Nat × Core) => e.1)

/-- A recalibration slice holds a tile of the core (R370). -/
def inSlice (s : State) (ck : Nat) : Bool := (coreOf s ck).tiles.any (fun e => workAt e.2 (now s) == 4)

/-- Cores of a slot: the overdue ones, then those that fall due within MAX_DEFER. -/
def slotList (s : State) : List Nat :=
  let overdue := overdueCores s
  let soon := (List.range nCores).filter (fun ck => testable s ck && ck ∉ overdue
    && ((coreOf s ck).testDue || (testEn s && (coreOf s ck).testSince + testInterval s ≤ now s + testDefer s)))
  ((overdue ++ soon).filter (fun ck => !inSlice s ck)).take (slotCores s)

/-- A tile without a SPARE plane takes its lowest unclaimed STANDBY plane as test plane and writes the pattern into it (R369). DESIGN CHOICE (log
entry 86): a tile with neither takes no part in the test. -/
def prepareTile (ck : Nat) (s : State) (t : Nat) : State :=
  let tk := tileKey ck t
  if planesIn s tk 3 != [] || s.plates.testPlanes.any (fun p => planeTile p == tk) then s
  else
    let taken := s.plates.claims.map (·.2)
    match ((List.range 1408).map (planeKey tk)).find? (fun p => (descOf s p).state == 1 && p ∉ taken) with
    | none => s
    | some p => queueWrite (setDescState (setPlates s (fun b => { b with testPlanes := addOnce b.testPlanes p })) p 5) p none

/-- A core's test is prepared: every test plane of its tiles holds its pattern. -/
def prepareTest (s : State) (ck : Nat) : State := (List.range 16).foldl (prepareTile ck) s

def patternReady (s : State) (ck : Nat) : Bool :=
  s.plates.testPlanes.all (fun p => planeCore p != ck || (tfind s.plates.writing p).isNone)

/-- A test starts, once every tile of the core holds its pattern. -/
def startTest (s0 : State) (ck : Nat) : State :=
  let s := prepareTest s0 ck
  if patternReady s ck then modCore s ck (fun c => { c with testing := some (now s) }) else s

/-- After a test the STANDBY planes it took are STANDBY again, with undefined contents (R369). -/
def freeTestPlanes (s : State) (ck : Nat) : State :=
  let mine := s.plates.testPlanes.filter (fun p => planeCore p == ck)
  setPlates (mine.foldl freeTarget s) (fun b => { b with testPlanes := b.testPlanes.filter (· ∉ mine) })

def testSlot (s : State) : State :=
  if s.sched.slotNext then
    let l := slotList s
    let s1 := l.foldl startTest s
    let s2 := setFaults s1 (fun f => { f with testSlots := satAdd 32 f.testSlots 1 })
    setSched s2 (fun c => { c with slotNext := false, slotCores := l.filter (fun ck => (coreOf s2 ck).testing.isSome) })
  else if overdueCores s != [] then (overdueCores s).foldl prepareTest (setSched s (fun c => { c with slotNext := true }))
  else s

/-! ## The boundary -/

/-- One MSI-X message per function with new records (R281). -/
def announceRings (s : State) : State :=
  let l := s.sched.ringFns
  l.foldl (fun x f => sendMsix x f (replyVector (fnOf x f))) (setSched s (fun c => { c with ringFns := [] }))

/-! ### Rows of system formes on a module below the manager (R441, R442) -/

/-- Sets for the positions of a remote request; the manager has made sure that they fit. -/
def remoteSets (img : FormeImage) (draft : Bool) (need : Nat) : Nat → State → Req → State × Req
  | 0, s, r => (s, r)
  | fuel + 1, s, r =>
    let l := setsOf r draft
    if ownAttn s img = [] ∨ need ≤ covered l then (s, r)
    else match placeLargest s s.kv r img draft (permittedK s l) with
      | none => (s, r)
      | some x => remoteSets img draft need fuel { s with kv := x.1 } x.2

def newRemote (x : SysRow) : Req := { (default : Req) with p := { (default : ReqParams) with slot := x.slot }, tenant := x.tenant, silent := true }

/-- A request as the manager's row shows it: `done` positions stand. Sets beyond them are freed, and the fill marks are the manager's (R290,
R301, R305). -/
def alignRemote (s : State) (r : Req) (done : Nat) : State × Req :=
  let beyond := fun (d : Bool) => (setsOf r d).drop (keepSets done 0 (setsOf r d)).length
  let gone := if done < r.done then beyond false ++ beyond true else []
  let r1 := setFill { r with done := done, sets := r.sets.filter (· ∉ gone) } false done
  ({ s with kv := gone.foldl freeSet s.kv }, setFill r1 true (min done (keptPositions (setsOf r1 true))))

/-- The sets that one row of the list implies. -/
def holdRemote (s0 : State) (x : SysRow) : State :=
  match formeOf s0 x.slot with
  | none => s0
  | some f =>
    let al := alignRemote s0 ((tfind s0.ql.remote x.rid).getD (newRemote x)) x.done
    let s := al.1
    let r0 := al.2
    let a := remoteSets f.image false (x.done + x.n) 1025 s r0
    let b := match draftForme s f.image with
      | some d => if x.draft = 0 then a else remoteSets d.image true (x.done + x.n) 1025 a.1 a.2
      | none => a
    { b.1 with ql := { b.1.ql with remote := tput b.1.ql.remote x.rid b.2 } }

/-- Sets of requests that are gone are freed: the manager's list names a request that has ended with no position (log entry 25). -/
def pruneRemote (s : State) (rows : List SysRow) : State :=
  let gone := s.ql.remote.filter (fun e => (formeOf s e.2.p.slot).isNone || tenantSlot s e.2.tenant != 1
    || rows.any (fun x => ridIndex x.rid == ridIndex e.1 && (x.rid != e.1 || x.n == 0)))
  { s with kv := gone.foldl (fun k (e : Nat × Req) => freePages k e.2) s.kv,
           ql := { s.ql with remote := s.ql.remote.filter (fun e => !(gone.any (fun g => g.1 == e.1))) } }

/-- A row of a system forme as a module below the manager runs it: granted or refused as the manager's list says, each module moving its own
ladder from its own summaries (DESIGN CHOICE, log entry 77: R441 lists the rows without saying what of a grant they carry). A forme that is held
here runs no pass, so its row is withheld (R17; log entry 77). -/
def remoteRow (s : State) (x : SysRow) : Row :=
  let q := tfind s.ql.remote x.rid
  let gap := if x.draft = 0 then 0 else (((formeOf s x.slot).bind (fun f => draftForme s f.image)).bind (fun d => q.map (draftGap d.image))).getD 0
  { rid := 2 ^ 32 + x.rid, slot := x.slot, n := x.n, draft := x.draft, final := x.final, charged := false, web := false, tokens := [],
    accepted := 0, nan := false, cond := {}, keyBits := 0, rung := 0, granted := x.granted,
    withheld := (formeOf s x.slot).any (fun f => formeHeld s f.image), sampled := false, catchUp := gap }

/-- The grants of listed rows within the module's own budget, of which the step's other rows have used some (R146): rows, T_base and ΔT. -/
def grantRemote (s : State) (base used : Nat) (rows : List Row) : List Row × Nat × Nat :=
  let cost := rows.map (fun w => (w, if w.withheld then (0, 0) else rowTimes s w.slot w.n (w.draft + w.catchUp)))
  let tb := sumNat (cost.map (fun x => x.2.1))
  let g := grant (fbBudget s) (base + tb) used true (cost.map (fun x =>
    (x.1, if x.1.granted && !x.1.withheld then topRung s x.1.slot x.1.draft else 0, x.2.2)))
  ((rows.zip g).map (fun x => { x.2.1 with granted := x.1.granted && x.2.1.granted }), tb, sumNat (g.map (·.2)))

/-- The rows that the manager listed join the module's step, which takes the system's number. Their strobe times count in the module's own
T_base and ΔT (R145), their grants and refusals in its counts (R151). -/
def formSystem (s : State) : State :=
  if s.ql.nextRows = [] ∨ !inService s ∨ s.sched.stopped ∨ !s.rst.calDone ∨ s.sched.slotCores ≠ [] then s
  else
    let xs := s.ql.nextRows.filter (fun x => x.n != 0)
    let s0 := pruneRemote { s with ql := { s.ql with nextRows := [] } } s.ql.nextRows
    if xs = [] then s0
    else
    let s1 := xs.foldl holdRemote (if s0.sched.step.isNone then creditAll s0 s0.sched.owner else s0)
    let g := grantRemote s1 ((s1.sched.step.map (·.tBase)).getD 0) ((s1.sched.step.map (·.dT)).getD 0) (xs.map (remoteRow s1))
    let rows := g.1
    let rs := launchRegions s1 (rows.filter (fun w => !w.withheld))
    let n := s.ql.nextNumber
    let k : Step := match s1.sched.step with
      | some k => { k with rows := k.rows ++ rows, waiting := (k.waiting ++ rs).eraseDups, sealing := k.sealing && rs == [], system := true,
                           number := n, tBase := k.tBase + g.2.1, dT := k.dT + g.2.2 }
      | none => { number := n, began := now s1, rows := rows, owner := s1.sched.owner, waiting := rs, summaries := [], alarmed := [],
                  cut := false, sealing := rs == [], settled := false, tBase := g.2.1, dT := g.2.2, system := true, sealBegan := now s1 }
    let s2 := setSched (countGrants s1 rows) (fun c => { c with step := some k, nextStep := n + 1 })
    rs.foldl (fun y r => emit y (.launch r n)) s2

/-- The owner of the next step: the one that the manager named, when it has named one (R384). -/
def nextOwner (s : State) : Option Nat :=
  if 2 ≤ sysRole s then
    match s.ql.nextOwner with
    | some o => if ownerHasWork s o || s.ql.nextRows != [] then some o else none
    | none => chooseOwner s
  else chooseOwner s

/-- Listed requests that have ended since: the other modules free what they hold for them (R305, R442). -/
def goneTold (s : State) : List Nat :=
  s.ql.told.filter (fun r => !(s.reqs.any (fun (e : Nat × Req) => ridOf s e.1 == r)))

/-- The manager sends the rows of its system formes to the modules that run them, and names listed requests that have ended to every module. -/
def sendRows (s : State) : State :=
  match s.sched.step with
  | none => s
  | some k =>
    if k.system && sysRole s == 1 then
      let rows := k.rows.filter (fun w => (rowFormes s w).any (·.system))
      let gone := goneTold s
      let words := [k.number - 1, k.began, k.owner] ++ rows.flatMap (fun w =>
        [rowId s w, w.slot, w.n, w.draft, b2n w.final, b2n w.granted] ++ ((reqOf s w.rid).map (fun q => [q.tenant, q.done])).getD [])
        ++ gone.flatMap (fun r => [r, 0, 0, 0, 0, 0, 0, 0])
      let s1 := (stepModules s k).foldl (fun x m => sendControl x 5 m words) s
      { s1 with ql := { s1.ql with told := (rows.map (rowId s)).foldl addOnce (s1.ql.told.filter (· ∉ gone)) } }
    else s

/-- Actions 5 to 7: `ran` lists the regions of the ending step. -/
def goOn (s : State) (ran : Option (List Nat)) (forced : Bool) : State :=
  let next := if mayForm s then nextOwner s else none
  let s1 := testSlot (washBoundary s ran forced next)
  let s2 := match next with
    | some o => if mayForm s1 then sendRows (formStep (reloadOverlays s1 o) o) else setOwner s1 o
    | none => s1
  formSystem { s2 with ql := { s2.ql with nextOwner := none } }

/-- Action 4: maps, stuck lists, corrections and temperatures. -/
def takeUp (s : State) : State := fenceBroken (settleStuck (latchRegions (refreshMonitors (mapBoundary s))))

/-- A TEST_RUN that waits for the core is answered: RESULT0 0 pass, 1 fail. -/
def answerTests (s : State) (ck r : Nat) : State :=
  (s.cmdq.filter (fun e => e.wait == .test ck)).foldl (fun x e => finish x e.hdr.fn e.hdr.seq .ok {} r 0) s

/-- A TEST_RUN of a core that is fenced, whose strobes have stopped (R358), or whose stack is not driven (R31), runs no test. DESIGN CHOICE (log
entry 105): it is answered at the next boundary, as not passed. -/
def answerUntested (s : State) : State :=
  (s.cmdq.filterMap (fun e => match e.wait with
    | .test ck => if testable s ck then none else some ck
    | _ => none)).foldl (fun x ck => answerTests x ck 1) s

/-- The end of a boundary: the message of R281, and MOD_KV_FREE as it then stands (R306). -/
def endBoundary (s : State) : State := setKv (announceRings (answerUntested s)) (fun k => { k with freeShown := kvFree s })

/-- Requests whose rows the seal of a step has withheld. -/
def withheldRows (k : Step) : List Nat := if k.cut then [] else (k.rows.filter (fun w => w.withheld && !isRemote w)).map (·.rid)

/-- The boundary of step k: actions 1 to 4 with their records (R279), then the rest. -/
def takeBoundary (inp : TickInput) (k : Step) (s : State) : State :=
  let B := now s
  let ran := if k.rows = [] then none else some (stepRegions s k)
  let removed := removals s != []
  let s1 := endRequests inp.ringHeads k.number B (withheldRows k) (settleStep inp k B (markLeaving k.number s))
  let x := applyTransactions inp.ringHeads k.number B (applyPower (setSched s1 (fun c => { c with wantBoundary := false })))
  endBoundary (goOn (takeUp (flushRecs inp.ringHeads x.1)) ran (x.2 || removed))

/-- A boundary is needed although no request has work (R260). -/
def boundaryNeeded (s : State) : Bool :=
  s.sched.wantBoundary || s.sched.slotNext || overdueCores s != [] || s.map.refills.any refillDone || halvesMove s || s.faults.lateNow != []
    || s.regions.any (fun e => passEnded s e.1) || s.reqs.any (fun e => pastDeadline (now s) e.2 || e.2.endAs != []) || removals s != []
    || brokenUnits s != []

/-- An empty step (R260). -/
def emptyStep (s : State) : Step :=
  { number := s.sched.nextStep, began := now s, rows := [], owner := s.sched.owner, waiting := [], summaries := [], alarmed := [],
    cut := false, sealing := true, settled := true, tBase := 0, dT := 0, system := false, sealBegan := now s }

/-- A system step waits for its named boundary (R443). -/
def boundaryReady (s : State) (k : Step) : Bool := k.settled && (!k.system || k.cut || s.ql.named.any (fun x => x.1 == k.number && x.2 ≤ now s))

/-- The name and the reports of a boundary that has been taken are done with. -/
def dropNamed (s : State) (k : Step) : State :=
  if k.system then
    { s with ql := { s.ql with named := none, sealAt := none, received := [], reports := s.ql.reports.filter (fun r => k.number < r.step) } }
  else s

/-- STEP_BOUNDARY. DESIGN CHOICE (log entry 70): a step that is formed from idle, with no step ending, takes actions 4 to 7, so it runs with
the temperatures, corrections, stuck lists and maps of its formation. When that formation gives no row, a boundary that is needed forms on an
empty step, whose formation gives credit like any other (R239, R260, R265). -/
def stepBoundaryOp (inp : TickInput) (s : State) : State :=
  if !inService s then s
  else match s.sched.step with
  | some k => if boundaryReady s k then takeBoundary inp k (dropNamed s k) else s
  | none =>
    if s.sched.slotCores != [] then s
    else
      let tries : Bool := mayForm s && ((nextOwner s).isSome || s.ql.nextRows != [])
      let u := if tries then endBoundary (goOn (takeUp s) none false) else s
      if u.sched.step.isNone && u.sched.slotCores == [] && boundaryNeeded u then
        takeBoundary inp (emptyStep u) (setSched (creditAll u u.sched.owner) (fun c => { c with nextStep := c.nextStep + 1 }))
      else u

/-! ## Core tests (R370, R371) -/

/-- TEST_DUE: INTERVAL after the last completed test. -/
def testDueOp (s : State) (ck : Nat) : State :=
  if testEn s && (coreOf s ck).testSince + testInterval s ≤ now s && !coreFenced s ck then testDueNow s ck else s

/-- TEST_OVERDUE: MAX_DEFER after the test fell due. -/
def testOverdueOp (s : State) (ck : Nat) : State :=
  if (coreOf s ck).testDue && (coreOf s ck).testSince + testInterval s + testDefer s ≤ now s && !coreFenced s ck then testOverdueNow s ck else s

/-- A pass of the running step names the core. -/
def stepNames (s : State) (ck : Nat) : Bool :=
  match s.sched.step with
  | none => false
  | some k => k.rows.any (fun w => (rowFormes s w).any (fun i => formeNames s i (unitOfCore ck)))

/-- An opportunity for a due test (R370). -/
def testChance (s : State) (ck : Nat) : Bool :=
  !coreNamed s ck || (s.sched.step.isSome && !stepNames s ck && 2000000 ≤ s.sched.stepTime)
    || (s.sched.step.isNone && s.reqs.all (fun e => !hasWork s e.2))

/-- CORE_TEST: a due test starts at an opportunity. -/
def coreTestOp (s : State) (ck : Nat) : State :=
  let c := coreOf s ck
  if c.testDue && c.testing.isNone && testable s ck && !inSlice s ck && testChance s ck then startTest s ck else s

/-- The end of a test: its result, the fence of a failed core (R357), converter faults it found (R70). -/
def coreTestDoneOp (s : State) (ck : Nat) (pass : Bool) (conv : Option Nat) : State :=
  if (coreOf s ck).testing.isNone then s
  else
    let s1 := modCore s ck (fun c => { c with testing := none, testDue := false, testOverdue := false, testSince := now s,
                                              testResult := if pass then 1 else 2,
                                              convFault := c.convFault || conv.isSome, failedConv := min c.failedConv (conv.getD 0xFF),
                                              groupFails := if conv.isSome then c.groupFails else [] })
    let s2 := freeTestPlanes (setSched s1 (fun c => { c with slotCores := c.slotCores.filter (· != ck) })) ck
    let s3 := if pass then closeLate s2 (unitOfCore ck)
      else fenceFor (setFaults s2 (fun f => { f with testFails := satAdd 32 f.testFails 1 })) (unitOfCore ck)
        (if conv.isSome then .converter else .selfTest) 0
    answerTests s3 ck (b2n (!pass))

/-! ## Rows -/

def execCheckSummary (region : Nat) (gap : Bool) (t : Nat) (s : State) : Host.Outcome State Fault Refusal :=
  onRegion region (checkSummaryOp (advance t s) region gap)

def execStepSeal (t : Nat) (s : State) : Host.Outcome State Fault Refusal := .next (stepSealOp (advance t s))

def execStepBoundary (inp : TickInput) (t : Nat) (s : State) : Host.Outcome State Fault Refusal := .next (stepBoundaryOp inp (advance t s))

def execTestDue (core : Nat) (t : Nat) (s : State) : Host.Outcome State Fault Refusal := onCore core 0 (testDueOp (advance t s) core)

def execTestOverdue (core : Nat) (t : Nat) (s : State) : Host.Outcome State Fault Refusal := onCore core 0 (testOverdueOp (advance t s) core)

def execCoreTest (core : Nat) (t : Nat) (s : State) : Host.Outcome State Fault Refusal := onCore core 0 (coreTestOp (advance t s) core)

def execCoreTestDone (core : Nat) (pass : Bool) (convFault : Option Nat) (t : Nat) (s : State) : Host.Outcome State Fault Refusal :=
  onCore core 0 (coreTestDoneOp (advance t s) core pass convFault)

end Sys2Proof.Machine
end

