-- ==== Sys2Proof/Machine/Time.lean ====
section
/-! DEFINITION. The time base and clock domains of 16_time: reads (R425), event timers (R426), crossings whose sides reset (R421), the
external sync pulse (R469). -/

namespace Sys2Proof.Machine

/-- HUB_TIME_LO latches the high word for the reading function (R425). -/
def timeLoReadOp (s : State) (fn : Nat) : State :=
  let hi := BitVec.ofNat 32 (now s / 2 ^ 32)
  emit { s with time := { s.time with latch := tset 0 s.time.latch fn hi } } (.readValue fn (BitVec.ofNat 32 (now s)))

/-! ## Event timers (R426) -/

def timerPeriod (x : Timer) : Nat := max 100 x.period.toNat

/-- The first edge after arming at time t: moved when it would fall less than 200 ns ahead. -/
def firstEdge (x : Timer) (cmp t : Nat) : Nat × Bool :=
  if t + 200 ≤ cmp then (cmp, false)
  else if x.periodic then (cmp + (t + 200 - cmp + timerPeriod x - 1) / timerPeriod x * timerPeriod x, true)
  else (t + 200, true)

/-- ET_ARM: a write of HUB_ET_CMP_HI, which takes the staged low word with it while EN is 1 and the physical function holds the timer. -/
def etArmOp (s : State) (n : Nat) (hi : W32) : State :=
  if !heldByHost s 0 n then s
  else
    let x := { timerOf s n with cmpHi := hi }
    if x.en then
      let e := firstEdge x (hi.toNat * 2 ^ 32 + x.cmpLo.toNat) (now s)
      setTimer s n { x with next := some e.1, late := x.late || e.2 }
    else setTimer s n x

/-- An edge is given. -/
def etEdgeOp (s : State) (n : Nat) : State :=
  let x := timerOf s n
  match x.next with
  | none => s
  | some e =>
    if x.en && e ≤ now s then
      let y := { x with edges := min (x.edges + 1) (2 ^ 30 - 1) }
      setTimer s n (if x.periodic then { y with next := some (e + timerPeriod x) } else { y with en := false, next := none })
    else s

/-! ## Crossings (R421) -/

def flushCrossing (s : State) : Crossing → State
  | .link p => modPort s p flushPort
  | .pci fn => modFn s fn (fun f => { f with due := 0 })
  | .always => s
  | .stack _ => s
  | .hbmHalf _ => s

/-- One side resets: it leaves reset once the other side has flushed and answered; without an answer it stays and STUCK is set. -/
def crossingResetOp (s : State) (c : Crossing) (answered : Bool) : State :=
  let s1 := if answered then flushCrossing s c else s
  let l := if answered then s.time.resetting.filter (· ≠ c) else addOnce s.time.resetting c
  { s1 with time := { s1.time with resetting := l, stuck := l != [] } }

def crossingOk : Crossing → Bool
  | .always => true
  | .pci fn => fn < 256
  | .link p => p < 36
  | .stack s => s < 40
  | .hbmHalf s => s < 40

/-! ## EXT_SYNC (R469) -/

/-- A high pulse of 1 µs at each whole millisecond while the time base is valid. -/
def extSyncOp (s : State) : State :=
  if s.time.valid && s.rst.lastSync < now s / 1000000 * 1000000 then
    let s1 := emit (emit s (.pin .extSync true)) (.pin .extSync false)
    { s1 with rst := { s1.rst with lastSync := now s } }
  else s

/-! ## Rows -/

def execTimeLoRead (fn : Nat) (t : Nat) (s : State) : Host.Outcome State Fault Refusal := onFn fn (timeLoReadOp (advance t s) fn)

def execEtArm (timer : Nat) (hi : W32) (t : Nat) (s : State) : Host.Outcome State Fault Refusal :=
  if timer < 64 then .next (etArmOp (advance t s) timer hi) else .fault .noSuchUnit

def execEtEdge (timer : Nat) (t : Nat) (s : State) : Host.Outcome State Fault Refusal :=
  if timer < 64 then .next (etEdgeOp (advance t s) timer) else .fault .noSuchUnit

def execCrossingReset (c : Crossing) (answered : Bool) (t : Nat) (s : State) : Host.Outcome State Fault Refusal :=
  if crossingOk c then .next (crossingResetOp (advance t s) c answered) else .fault .noSuchUnit

def execExtSyncPulse (t : Nat) (s : State) : Host.Outcome State Fault Refusal := .next (extSyncOp (advance t s))

end Sys2Proof.Machine
end

