-- ==== Sys2Proof/Machine/Resets.lean ====
section
/-! DEFINITION. Resets and the option load of 15_reset: sources and their reach (R397-R399), counters and the always-on domain (R402),
pins (R401), the load with its aborts and the limp start (R403-R405), the watchdog (R400). -/

namespace Sys2Proof.Machine

/-! ## Sources -/

def srcCode : Src → Nat
  | .por => 0
  | .perst => 1
  | .warm => 2
  | .wdt => 3
  | .fatal => 4
  | .link => 5
  | .therm => 6

/-- The warm sources: WARM, WDT, FATAL, LINK. -/
def isWarm : Src → Bool
  | .por => false
  | .perst => false
  | .warm => true
  | .wdt => true
  | .fatal => true
  | .link => true
  | .therm => false

/-- Add 1 to a 16-bit saturating element of a list. -/
def bumpAt (l : List Nat) (i : Nat) : List Nat := (List.range l.length).map (fun j => if j = i then satAdd 16 (l.getD j 0) 1 else l.getD j 0)

/-- The counter of a source in all three copies (R402). -/
def countReset (s : State) (x : Src) : State :=
  let c := s.aon.counts
  { s with aon := { s.aon with counts := ⟨bumpAt c.a (srcCode x), bumpAt c.b (srcCode x), bumpAt c.c (srcCode x)⟩ } }

/-- A load is aborted (R404). -/
def countAbort (s : State) : State :=
  { s with aon := { s.aon with totalAborts := satAdd 16 s.aon.totalAborts 1, consec := min 4 (s.aon.consec + 1) } }

/-! ## What a reset reaches (R398) -/

/-- Command registers, galley and reply store read their reset values after any reset; a warm reset keeps the host side (R253, R398). -/
def resetFn (cold : Bool) (f : FnBlk) : FnBlk :=
  if cold then {}
  else { d3hot := f.d3hot, tdi := f.tdi, ide := f.ide, funcMask := f.funcMask, unmasked := f.unmasked, pendingMsg := f.pendingMsg,
         msixTable := f.msixTable }

/-- A warm reset keeps CONV_FACTOR with its marks and reject runs, DONE and the time of the last test (R161, R164, R370); the stores come back
with the option load. -/
def resetCore (cold : Bool) (c : Core) : Core :=
  if cold then {} else { factor := c.factor, dnl := c.newDnl.getD c.dnl, runs := c.runs, testSince := c.testSince, lastCause := 0 }

/-- A warm reset keeps the trims of a sense converter and its reject run (R159, R164). -/
def resetSense (q : Sense) : Sense := { trim := q.trim, rejectRun := q.rejectRun }

def resetRegion (cold : Bool) (g : Region) : Region :=
  if cold then {} else { tNow := g.tNow, tCal := g.tCal, tRead := g.tRead, tArray := g.tArray, age := g.age, ageAtDrift := g.ageAtDrift,
                         ageGap := g.ageGap, refTrim := g.refTrim, refRuns := g.refRuns, sense := resetSense g.sense }

/-- Key slots and configurations (R376): a warm reset removes RETIRING slots and keeps the others; D starts over (R265). -/
def resetTenants (cold : Bool) (s : State) : Tbl Tenant :=
  if cold then []
  else ((s.tenants.filter (fun e => tenantSlot s e.1 != 2)).map (fun (e : Nat × Tenant) =>
    (e.1, { slot := e.2.slot, cfg := e.2.cfg, enabled := e.2.enabled, confidential := e.2.confidential, epoch := e.2.epoch }))).filter
      (fun e => decide (e.2 ≠ ({} : Tenant)))

/-- The module options after a cold reset: reset values, but for the system record (R437) and RST_CFG (R416). -/
def coldOptions (s : State) : State :=
  let s0 := { s with opts := ⟨[], [], []⟩ }
  let s1 := match newest s.nv.system with
    | none => s0
    | some r => r.peerKeys.foldl (fun x (e : Nat × Nat) =>
      (List.range 8).foldl (fun y i => setOpt y (Off.peerKey e.1 i) (e.2 / 2 ^ (32 * i) % 2 ^ 32)) x) (setOpt s0 Off.ql r.sysCfg.toNat)
  setOpt s1 Off.rstCfg s.aon.rstCfg.toNat

/-- A plate change that is open is distributed; one whose generation record is in flash applies at start-up (R216, R223, R241). The formes
it stages are in HBM, which a warm reset keeps. -/
def resetPlates (cold : Bool) (s : State) : State :=
  let s0 := { s with cmdq := [] }
  let s1 : State := match s0.txns.plate with
    | none => s0
    | some x =>
      if x.committing && x.recordWritten then { s0 with formes := formesAfter s0.formes x.staged }
      else if s0.plates.rewriting then endChange s0 .txnNotOpen
      else distribute s0 1
  let s2 := (s1.plates.writing.map (fun (e : Nat × Option PlaneRecord) => e.1) ++ s1.plates.testPlanes).foldl freeTarget s1
  { s2 with plates := {}, formes := if cold then [] else s2.formes.map (fun (f : Nat × Forme) => (f.1, { f.2 with draining := false, layers := [] })) }

/-- The reach of one source: everything but the always-on domain, flash, fuses and the arrays. The time base restarts when a cold reset
ends (log entry 19). -/
def reach (cold : Bool) (s : State) : State :=
  let s1 := resetPlates cold s
  let s2 := if cold then coldOptions s1 else s1
  let tn := resetTenants cold s2
  { s2 with
    time := if cold then { base := s2.time.base } else { base := s2.time.base, valid := s2.time.valid, offset := s2.time.offset },
    fns := (s2.fns.map (fun (e : Nat × FnBlk) => (e.1, resetFn cold e.2))).filter (fun e => decide (e.2 ≠ ({} : FnBlk))),
    cmdq := [], turn := 0, txns := {},
    map := { s2.map with snap := none },
    cores := (s2.cores.map (fun (e : Nat × Core) => (e.1, resetCore cold e.2))).filter (fun e => decide (e.2 ≠ ({} : Core))),
    regions := (s2.regions.map (fun (e : Nat × Region) => (e.1, resetRegion cold e.2))).filter (fun e => decide (e.2 ≠ ({} : Region))),
    hubSense := if cold then [] else
      (s2.hubSense.map (fun (e : Nat × Sense) => (e.1, resetSense e.2))).filter (fun e => decide (e.2 ≠ ({} : Sense))),
    bandgap := if cold then {} else { s2.bandgap with beyond := [] },
    sched := {}, reqs := [], gens := [], tenants := tn,
    overlays := if cold then [] else s2.overlays.filter (fun e => (tn.map (fun (x : Nat × Tenant) => x.1)).contains (overlayTenant e.1)),
    kv := if cold then {} else { overwrite := s2.kv.overwrite, hbm := s2.kv.hbm },
    web := {}, share := { timers := [], pins := s2.share.pins.filter (fun e => e.2 == .inr 3) },
    faults := { retired := s2.faults.retired }, sec := { challenge := s2.sec.challenge }, therm := {}, ql := {},
    pci := if cold then {} else { width := s2.pci.width, rate := s2.pci.rate },
    side := if cold then {} else { eid := s2.side.eid }, power := {}, seen := {},
    rst := { s2.rst with calDone := !cold && s2.rst.calDone, loadDone := false, missed := [] } }

/-- Pins from the first cycle of a reset (R401, R446): MOD_RST_N and FAULT_N low, drivers off, the fan at full demand once the fuse map is
sensed. While the latch holds, every regulator, FEED_EN and the pin of the regulator-off request are low. -/
def resetPinList (s : State) (cold : Bool) (up : Option Nat) : List (Pin × Bool) :=
  [(.modRst, false), (.arrayDrivers, false)] ++ (if cold then [] else [(.fanPwm, true)])
    ++ ((up.map (fun p => (Pin.qlFault p, false))).toList)
    ++ (if s.aon.thermLatch then
        [(.regulators, false), (.feedEn, false), (.ledFault, false)] ++ ((s.aon.latchPin.map (fun n => (Pin.gpio n, false))).toList)
      else [])

def setPins (s : State) (l : List (Pin × Bool)) : State :=
  { s with pins := { driven := l }, out := s.out ++ l.map (fun (e : Pin × Bool) => Out.pin e.1 e.2) }

/-- The uplink of a module with an upper one. -/
def uplinkOf (s : State) : Option Nat := if 2 ≤ sysRole s then some (uplink s) else none

/-- A source asserts (R399): during the stretch it joins the reset, else it starts one. A reset that falls in a load aborts it (R404). -/
def beginReset (s : State) (x : Src) : State :=
  let running := s.rst.phase = .inReset ∨ s.rst.phase = .latched
  if running ∧ x ∈ s.rst.sources then s
  else
    let srcs := if running ∨ s.therm.stopping.isSome then addOnce s.rst.sources x else [x]
    let cold := !isWarm x
    let up := uplinkOf s
    let s1 := if s.rst.phase = .loading then countAbort s else s
    let s2 := if x ∈ s.rst.sources ∧ s.therm.stopping.isSome then s1 else countReset s1 x
    let s3 := reach cold s2
    let s4 := { s3 with
      rst := { s3.rst with phase := if s.rst.phase = .latched then .latched else .inReset, sources := srcs,
                           started := if running then s.rst.started else now s, warmAt := none, cold := cold || (decide running && s.rst.cold),
                           fresh := cold || s.rst.fresh },
      aon := { s3.aon with sources := srcs, limp := s.rst.phase = .limp, vbkLost := decide running && s3.aon.vbkLost } }
    setPins s4 (resetPinList s4 cold up)

/-- A warm source during an orderly thermal stop joins the reset that ends the stop (R399). -/
def requestReset (s : State) (x : Src) : State :=
  if s.therm.stopping.isSome && isWarm x then
    if x ∈ s.rst.sources then s
    else
      let s1 := countReset s x
      { s1 with rst := { s1.rst with sources := s1.rst.sources ++ [x] } }
  else beginReset s x

/-- RESET_WARM's delay has ended (R249). -/
def warmDelayOp (s : State) : State :=
  match s.rst.warmAt with
  | some a => if a ≤ now s then requestReset s .warm else s
  | none => s

/-! ## After the stretch (R393, R405-R407) -/

/-- The firmware image the security processor finds: the first slot that verifies. -/
def goodFirmware (s : State) : Option FwSlot := s.nv.fw.find? (fun f => f.good && s.nv.svnMin ≤ f.svn)

def hubFactoryOk (s : State) : Bool := let r := tget (true, true) s.nv.factory 40; r.1 || r.2

/-- A limp start (R405). -/
def limpStart (s : State) : State :=
  let s1 := { s with rst := { s.rst with phase := .limp }, aon := { s.aon with limp := true } }
  pldmEvent (drive s1 .ledFault false)

/-- RESET_RELEASE: the stretch is over. A cold reset restarts the time base from 0; the security processor takes a firmware slot, leaves a
new block of leaves and draws a challenge; the load starts, or the limp start after the fourth abort. -/
def releaseOp (s : State) (width rate : Nat) : State :=
  if s.rst.phase ≠ .inReset ∨ now s < s.rst.started + 1000000 then s
  else
    let cold := s.rst.cold
    let off := now s - s.rst.started
    let s1 := release (release s .modRst) .arrayDrivers
    let s2 := if cold then { drive s1 .fanPwm true with pci := { s1.pci with width := width, rate := rate } } else drive s1 .fanPwm true
    let s3 := { s2 with
      time := if cold then { s2.time with base := 0 } else s2.time,
      aon := { s2.aon with unpowered := s2.aon.unpowered.map (fun n => if Src.por ∈ s2.rst.sources then n + off else n) } }
    let s4 := newChallenge (nextBlock s3)
    let s5 := { s4 with rst := { s4.rst with started := now s4, mpStart := now s4, lastService := now s4, lastTick := now s4, lastSync := now s4 } }
    match if cold then goodFirmware s5 else some s5.nv.fwActive with
    | none => { s5 with rst := { s5.rst with phase := .noFirmware } }
    | some f =>
      let s6 := { s5 with nv := { s5.nv with fwActive := f } }
      if s6.aon.consec = 4 ∧ !s6.aon.limp then limpStart s6
      else { s6 with rst := { s6.rst with phase := .loading }, aon := { s6.aon with limp := false } }

/-! ## The option load (R403, R155-R157, R171, R216) -/

/-- A logical plane that a retired plane held has moved to a spare plane since the record was written: the map keeps the move, and the spare
plane is STANDBY, as R223 leaves a plane that was being written (R201). -/
def keepMoves (now_ : Tbl Nat) (s : State) : State :=
  now_.foldl (fun x (e : Nat × Nat) =>
    let tk := e.1 / 1408
    let old := tget (e.1 % 1408) x.arr.planeMap e.1
    if old ≠ e.2 ∧ (descOf x (planeKey tk old)).state = 4 then
      let y := { x with arr := { x.arr with planeMap := tset (e.1 % 1408) x.arr.planeMap e.1 e.2 } }
      if (descOf y (planeKey tk e.2)).state = 3 then setDescState y (planeKey tk e.2) 1 else y
    else x) s

/-- Refills start over: their planes are written anew, and a plane that one of them takes stays reserved for it. -/
def restartRefills (s : State) : State :=
  let s1 := s.map.refills.foldl (fun x r => match r.unit, r.spare with
    | .plane _ _ _ _ _, some (.plane st g c t p) => setDescState x (planeKey (tileKey (coreKey st g c) t) p) 5
    | _, _ => x) s
  { s1 with map := { s1.map with refills := s1.map.refills.map (fun r =>
      { r with planes := planesOn s1 r.unit, blocked := false, attempts := 0 }) } }

/-- Descriptors, plane maps, plates and stuck lists of the newest generation record; retired planes stay retired. -/
def loadGen (s : State) (g : GenRecord) : State :=
  let retired := s.arr.desc.filter (fun e => e.2.state == 4)
  let descs := retired.foldl (fun m (e : Nat × PlaneDesc) => tput m e.1 e.2) g.descs
  let s1 := keepMoves s.arr.planeMap { s with arr := { s.arr with desc := descs, planeMap := g.planeMap } }
  let s2 := restartRefills (setPlates s1 (fun b => { b with table := g.plates, epoch := g.epoch, incomplete := g.incomplete }))
  g.stuck.foldl (fun x (e : Nat × List Stuck) => modCore x (e.1 / 16) (fun c => modTile c (e.1 % 16) (fun t => { t with stuck := e.2 }))) s2

/-- Every region ages, and may need a drift pass. -/
def ageAll (s : State) (dt : Nat) : State :=
  if dt = 0 then s else (List.range nRegions).foldl (fun x r => modRegion x r (fun g => { g with age := g.age + unpoweredAge dt })) s

def gapAll (s : State) : State :=
  (List.range nRegions).foldl (fun x r => startDrift (modRegion x r (fun g => { g with ageGap := true })) r) s

/-- The factory's records: the column corrections at every load, trims and DNL tables at the first after a cold reset (R155, R160, R161). -/
def loadFactory (s : State) : State :=
  let s1 := s.nv.factoryCorr.foldl (fun x (e : Nat × Tbl (Int × Int × Int)) => modCore x e.1 (fun c => { c with corr := e.2 })) s
  if s.rst.fresh then
    let s2 := s1.nv.factoryTrim.foldl (fun x (e : Nat × Tbl (Nat × Int)) =>
      modCore x e.1 (fun c => { c with factor := e.2.map (fun k => (k.1, (k.2.1, k.2.2, false))) })) s1
    s2.nv.factoryDnl.foldl (fun x (e : Nat × Tbl Int) => modCore x e.1 (fun c => { c with dnl := e.2 })) s2
  else s1

/-- Ages and drift results over the factory's corrections; without a good copy those stand alone and AGE_GAP is set (R157). DESIGN CHOICE (log
entry 80): the first load after a cold reset adds the record's ages to what the region has aged since, in a limp start; a warm reset keeps the
ages, which are then newer than the record's. -/
def loadField (s : State) : State :=
  match newest s.nv.field with
  | none => gapAll (loadFactory s)
  | some f =>
    let s0 := loadFactory s
    let s1 := if s.rst.fresh then
        f.ages.foldl (fun x (e : Nat × (Nat × Nat)) => modRegion x e.1 (fun g => { g with age := e.2.1 + g.age, ageAtDrift := e.2.2 })) s0
      else s0
    f.corr.foldl (fun x (e : Nat × (Int × Int)) => modCore x (e.1 / 47520) (fun c =>
      { c with corr := tset (0, 0, 0) c.corr (e.1 % 47520) (e.2.1, e.2.2, (tget (0, 0, 0) c.corr (e.1 % 47520)).2.2) })) s1

/-- Credit for the unpowered time that no load has credited yet; nothing, and a drift pass, when its count was lost (R171). -/
def creditUnpowered (s : State) : State :=
  let s1 := match s.aon.unpowered with
    | some dt => ageAll s dt
    | none => gapAll s
  { s1 with aon := { s1.aon with unpowered := some 0 } }

/-- A stack without a good factory record is fenced (R156). -/
def checkTrims (s : State) : State :=
  (s.nv.factory.filter (fun e => e.1 < 40 && !e.2.1 && !e.2.2)).foldl (fun x (e : Nat × (Bool × Bool)) => fenceFor x (.stack e.1) .trimLost 0) s

/-- The locations of the backup-domain error log are retired and reported (R364, R372). -/
def retireLogged (s : State) : State :=
  let s1 := s.aon.errorLog.foldl (fun x e => retireLocation x e 16) s
  { s1 with aon := { s1.aon with errorLog := [] } }

/-- Service after a completed load: a warm start washes every region and the hub first (R376). -/
def enterService (s : State) : State :=
  let s1 := checkTrims (creditUnpowered (loadField s))
  let s2 := snapMaps (retireLogged s1)
  let s3 := if s2.rst.cold then s2 else washdown s2 (listedRegions s2) sharedOwner
  let s4 := settlePresence { s3 with
    rst := { s3.rst with phase := .service, loadDone := true, fresh := false, lastAge := now s3 }, aon := { s3.aon with consec := 0, limp := false },
    time := { s3.time with valid := true },
    nv := if s3.rst.cold then { s3.nv with svnMin := max s3.nv.svnMin s3.nv.fwActive.svn } else s3.nv }
  let s5 := setKv (drive (drive (monitorAll s4) .ledPwr false) .feedEn true)
    (fun k => { k with freeShown := kvFree s4, reserveShort := decide (kvPool s4 < reserveSum s4) })
  match uplinkOf s5 with
  | some p => release s5 (.qlFault p)
  | none => s5

/-- The load cannot complete: it is aborted and starts again at once, or the limp start follows. -/
def loadFails (s : State) : State :=
  let s1 := countAbort s
  if s1.aon.consec = 4 then limpStart s1 else s1

/-- OPTION_LOAD_COMPLETE: the fuse map, the hub factory record and a generation record are good, or the load is aborted (R404). -/
def loadCompleteOp (s : State) (fuseOk : Bool) : State :=
  if s.rst.phase ≠ .loading then s
  else match newest s.nv.gen with
  | none => loadFails s
  | some g =>
    if fuseOk && s.nv.fuseMapOk && hubFactoryOk s then
      enterService (loadGen { s with rst := { s.rst with loadDone := true } } g)
    else loadFails s

/-! ## The THERM latch clears (R412, R346, R401) -/

/-- A safety user gives its pin back. -/
def releaseSafety (s : State) (user : Nat) : State :=
  dropSafety ((safetyHolds s 1 user).foldl (fun x n => release x (.gpio n)) s) 1 user

/-- The latch is gone: the pins it held return to their reset state, and a cold start follows. -/
def dropLatch (s : State) : State :=
  let s1 := releaseSafety s 3
  let s2 := { s1 with aon := { s1.aon with thermLatch := false, latchPin := none },
                      rst := { s1.rst with phase := .inReset, started := now s, cold := true } }
  release (release (release s2 .regulators) .feedEn) .ledFault

/-! ## VBK (R402, R467) -/

/-- The always-on contents are lost while VBK falls below retention without the 50 V input, which a POR in progress stands for. -/
def vbkLossOp (s : State) : State :=
  if (s.rst.phase = .inReset ∨ s.rst.phase = .latched) ∧ Src.por ∈ s.rst.sources then
    let s1 := setOpt (if s.rst.phase = .latched then dropLatch s else s) Off.rstCfg 2
    { s1 with
      aon := { counts := triOf [0, 0, 0, 0, 0, 0, 0], wdtMp := 0, limp := false, vbkLost := true, sources := [], rstCfg := 2, totalAborts := 0,
               consec := 0, errorLog := [], thermLatch := false, latchAt := 0, latchPin := none, thermCause := 0, thermHard := false,
               thermReading := 0, thermAddr := 0, unpowered := none, powerBudget := 0 } }
  else s

/-! ## The watchdog (R400) -/

/-- MP0 or another management processor is silent. -/
def silentMp (s : State) : Nat := ((s.rst.missed.find? (fun e => 3 ≤ e.2)).map (·.1)).getD 0

def firmwareRuns (s : State) : Bool := s.rst.phase == .loading || s.rst.phase == .service || s.rst.phase == .limp

/-- WATCHDOG_EXPIRY: 500 ms after the last service. -/
def watchdogOp (s : State) : State :=
  if firmwareRuns s && s.rst.lastService + 500000000 ≤ now s then
    let mp := silentMp s
    let s1 := requestReset s .wdt
    { s1 with aon := { s1.aon with wdtMp := mp } }
  else s

/-- MOD_WARM_N low for at least 10 µs (R397). -/
def warmPinOp (s : State) (low : Nat) : State := if 10000 ≤ low ∧ warmPinEn s then requestReset s .warm else s

/-! ## Rows -/

def execPor (t : Nat) (s : State) : Host.Outcome State Fault Refusal := .next (beginReset (advance t s) .por)

def execPerst (t : Nat) (s : State) : Host.Outcome State Fault Refusal := .next (beginReset (advance t s) .perst)

def execModWarmN (lowNs : Nat) (t : Nat) (s : State) : Host.Outcome State Fault Refusal := .next (warmPinOp (advance t s) lowNs)

def execWarmResetDelayEnd (t : Nat) (s : State) : Host.Outcome State Fault Refusal := .next (warmDelayOp (advance t s))

def execResetRelease (width rate : Nat) (t : Nat) (s : State) : Host.Outcome State Fault Refusal :=
  .next (releaseOp (advance t s) width rate)

def execOptionLoadComplete (fuseOk : Bool) (t : Nat) (s : State) : Host.Outcome State Fault Refusal :=
  .next (loadCompleteOp (advance t s) fuseOk)

def execVbkLoss (t : Nat) (s : State) : Host.Outcome State Fault Refusal := .next (vbkLossOp (advance t s))

def execWatchdogExpiry (t : Nat) (s : State) : Host.Outcome State Fault Refusal := .next (watchdogOp (advance t s))

end Sys2Proof.Machine
end

