-- ==== Sys2Proof/Machine/Thermal.lean ====
section
/-! DEFINITION. The thermal monitor of 15_reset: temperature passes (R177, R408), broken channels (R414), the alert (R413), the orderly
stop and the hard cut (R409-R411), the THERM latch (R412), pins that show them (R401, R469, R470). -/

namespace Sys2Proof.Machine

/-! ## Readings -/

/-- Levels in 1/16 °C. -/
def shutLevel : Int := 1760
def cutLevel : Int := 1840

def hbmLevel (s : State) : Int := 16 * (s.nv.hbmLimit : Nat)

def isHbm : Sensor → Bool
  | .hbm _ => true
  | .region _ _ => false
  | .hub _ => false

/-- The level a reading is cut at (R408, R409). -/
def cutFor (s : State) (x : Sensor) : Int := if isHbm x then hbmLevel s + 80 else cutLevel

/-- A reading trips (R408). -/
def trips (s : State) (r : TempReading) : Bool :=
  if isHbm r.sensor then r.cata || hbmLevel s < r.value else shutLevel ≤ r.value

/-- The reading of 8 ms ago, or the oldest one kept. -/
def oldReading (s : State) (x : Sensor) (v : Int) : Int :=
  let l := (aget s.therm.past x).getD []
  match l.find? (fun e => e.1 + 8000000 ≤ now s) with
  | some e => e.2
  | none => (l.getLast?.map (fun e => e.2)).getD v

/-- The reading plus 10 ms of its slope reaches the cut level (R409). -/
def predicted (s : State) (x : Sensor) (v : Int) : Bool := 8 * cutFor s x ≤ 8 * v + 10 * (v - oldReading s x v)

/-- Keep readings of the last 8 ms and the one before them, newest first. -/
def keepPast (t : Nat) (l : List (Nat × Int)) : List (Nat × Int) :=
  let recent := l.takeWhile (fun e => t < e.1 + 8000000)
  recent ++ (l.drop recent.length).take 1

/-- A raw code or a linearised reading outside its range (R414). -/
def badReading (r : TempReading) : Bool := 950 < r.raw || r.raw < 50 || r.value < -640 || 2400 < r.value

/-- The sense converter of a channel; HBM4 stacks have their own sensor. -/
def sensorConv : Sensor → Option Nat
  | .region k _ => some k
  | .hub j => some (640 + j)
  | .hbm _ => none

def isBroken (s : State) (x : Sensor) : Bool :=
  3 ≤ (aget s.therm.badRun x).getD 0 || 4 ≤ ((aget s.therm.sameTicks x).map (fun e => e.2)).getD 0
    || (sensorConv x).any (fun c => 3 ≤ (senseOf s c).rejectRun)

def setTherm (s : State) (f : ThermBlk → ThermBlk) : State := { s with therm := f s.therm }

/-- Channels now broken follow the readings; newly broken ones are counted (R414, R416). -/
def followBroken (s : State) (x : Sensor) : State :=
  if isBroken s x then
    if x ∈ s.therm.broken then s
    else setTherm s (fun b => { b with broken := b.broken ++ [x], brokenCount := satAdd 32 b.brokenCount 1 })
  else setTherm s (fun b => { b with broken := b.broken.filter (· ≠ x) })

/-- A temperature result enters the monitor; a region's results also show as T of the base die and of the array. -/
def takeReading (s : State) (r : TempReading) : State :=
  let run := if badReading r then (aget s.therm.badRun r.sensor).getD 0 + 1 else 0
  let old := (aget s.therm.past r.sensor).getD []
  let s1 := setTherm s (fun b => { b with
    temps := aset b.temps r.sensor r.value, past := aset b.past r.sensor (keepPast (now s) ((now s, r.value) :: old)),
    badRun := aset b.badRun r.sensor run })
  let s2 := match r.sensor with
    | .region k 1 => notePassTemp (modRegion s1 k (fun g => { g with tRead := r.value, tArray := r.value })) k r.value
    | _ => s1
  followBroken s2 r.sensor

/-! ## The alert (R413, R345) -/

def hottest (s : State) : Option Int := s.therm.temps.foldl (fun m e => match m with
  | none => some e.2
  | some x => some (max x e.2)) none

/-- Readings as registers and sensors show them: while a confidential tenant is present they change at most once per 100 ms (R389). -/
def showTemps (s : State) : State :=
  if confPresent s && now s < s.therm.shownAt + 100000000 then s
  else
    let s1 := setTherm s (fun b => { b with shown := b.temps, shownAt := now s })
    { s1 with regions := tmap {} (fun _ g => { g with tShown := (g.tNow, g.tCal) }) s1.regions }

/-- The hottest shown reading of logic or arrays (THERM_STATUS.MAX), and of the HBM4 stacks. -/
def shownMax (s : State) (hbm : Bool) : Option Int := (s.therm.shown.filter (fun e => isHbm e.1 == hbm)).foldl (fun m e => match m with
  | none => some e.2
  | some x => some (max x e.2)) none

/-- Drive the GPIO pin that a safety user has taken. -/
def driveSafety (x : State × Option Nat) (level : Bool) : State := match x.2 with
  | some n => drive x.1 (.gpio n) level
  | none => x.1

def followAlert (s : State) : State :=
  let level : Int := 16 * (alertLevel s : Nat)
  match hottest s with
  | none => s
  | some m =>
    if level ≤ m ∧ !s.therm.alert then eventMsg (pldmEvent (setTherm (driveSafety (takeSafety s 1 1) Config.alertLevel) (fun b => { b with alert := true }))) 16
    else if m ≤ level - 48 ∧ s.therm.alert then setTherm (releaseSafety s 1) (fun b => { b with alert := false })
    else s

/-! ## Ending a stop -/

/-- The end of every stop: the regulator-off request (R470) and the THERM reset with its latch (R410-R412). -/
def thermReset (s : State) (hard : Bool) : State :=
  let s1 := drive (drive s .arrayDrivers false) .planeSelects true
  let x := takeSafety (dropSafety s1 0 2) 1 3
  let s2 := { x.1 with aon := { x.1.aon with thermLatch := true, latchAt := now s, latchPin := x.2, thermHard := hard } }
  let s3 := beginReset s2 .therm
  { s3 with rst := { s3.rst with phase := .latched } }

/-- A hard cut: nothing is sealed, closed or committed. -/
def hardCutNow (s : State) : State := thermReset s true

/-! ## The orderly stop (R410) -/

/-- The trip: galleys and formation stop, every channel ends, the upper module is told (R446), the record keeps what tripped. -/
def startStop (s : State) (cause : Nat) (v : Int) (addr : Nat) : State :=
  let s1 := { s with aon := { s.aon with thermCause := cause, thermHard := false, thermReading := v, thermAddr := addr } }
  let s2 := pldmEvent (setTherm s1 (fun b => { b with stopping := some (now s) }))
  let s3 := setSched s2 (fun c => { c with stopped := true })
  let s4 := closeChannels s3 (fun _ => true)
  let s5 := (takeSafety (takeSafety s4 0 2).1 0 2).1
  match uplinkOf s5 with
  | some p => sendControl (drive s5 (.qlFault p) false) 11 0 [s5.ql.module, 3]
  | none => s5

def sensorAddr : Sensor → Nat
  | .region k _ => physWord (unitOfRegion k)
  | .hbm h => physWord (.stack (2 * h))
  | .hub _ => physWord .module

/-- A reading that trips starts a stop, or cuts at once when its slope predicts the cut level (R409). -/
def tripOn (s : State) (r : TempReading) : State :=
  if s.therm.stopping.isSome ∨ !(firmwareRuns s || s.rst.phase = .noFirmware) then s
  else
    let hubBroken := (match r.sensor with
      | .hub _ => true
      | _ => false) && isBroken s r.sensor
    if !trips s r && !hubBroken then s
    else
      let cause := if hubBroken then 3 else if isHbm r.sensor then 2 else 1
      let s1 := startStop s cause r.value (sensorAddr r.sensor)
      if !hubBroken && predicted s r.sensor r.value then hardCutNow s1 else s1

/-- During a stop: a reading at the cut level, or a prediction that crosses it (R411). -/
def mustCut (s : State) : Bool :=
  match s.therm.stopping with
  | none => false
  | some t0 => t0 + 10000000 ≤ now s || s.therm.temps.any (fun e => cutFor s e.1 ≤ e.2 || predicted s e.1 e.2)

/-- The stop goes on: once the step has sealed, or at 6 ms with its rows void, firmware commits ages and field record, and the THERM reset
follows. Past 8 ms it follows without the commit; before service there is nothing to commit. -/
def stopProgress (s : State) (t0 : Nat) : State :=
  if s.sched.step.isSome ∧ now s < t0 + 6000000 then s
  else
    let s1 := setSched s (fun c => { c with step := none })
    thermReset (if now s ≤ t0 + 8000000 && inService s then saveField s1 else s1) false

/-- THERMAL_STOP: the trip of a reading, and the later stages of the stop it started. -/
def thermalStopOp (s : State) (r : TempReading) : State :=
  match s.therm.stopping with
  | some t0 => stopProgress s t0
  | none => tripOn (takeReading s r) r

/-- HARD_CUT. -/
def hardCutOp (s : State) : State := if mustCut s then hardCutNow s else s

/-! ## Passes -/

/-- The monitor sees the results of a pass. -/
def monitorTemps (s : State) (temps : List TempReading) : State :=
  let s1 := showTemps (followAlert (temps.foldl takeReading s))
  let s2 := temps.foldl tripOn s1
  if mustCut s2 then hardCutNow s2 else s2

/-- Entries 0–15 of the converters that have results. -/
def takeSense (s : State) (rs : List SenseResult) : State :=
  let mine := rs.filter (fun r => r.entry < 16)
  ((mine.map (·.conv)).eraseDups).foldl (fun x c =>
    fwPassBusy (passDoneSense x c false) c) (mine.foldl senseResult s)

/-- FW_SENSE_PASS (R177). -/
def fwPassOp (s : State) (temps : List TempReading) (rs : List SenseResult) : State :=
  if !firmwareRuns s then s
  else monitorTemps (setTherm (takeSense s rs) (fun b => { b with lastFwPass := now s })) temps

/-- THERM_MONITOR_PASS: the monitor starts the pass itself when firmware has not for 2 ms (R408); it works without firmware. -/
def monitorPassOp (s : State) (temps : List TempReading) (rs : List SenseResult) : State :=
  if s.rst.phase = .inReset ∨ s.rst.phase = .latched ∨ now s < s.therm.lastFwPass + 2000000 then s
  else monitorTemps (setTherm (takeSense s rs) (fun b => { b with lastFwPass := now s })) temps

/-- A reading unchanged since the last tick, and for how many ticks (R414). -/
def sameSince (old : List (Sensor × Int × Nat)) (x : Sensor) (v : Int) : Nat :=
  match aget old x with
  | some (w, n) => if w = v then n + 1 else 1
  | none => 1

/-- Housekeeping: readings identical throughout 4 consecutive ticks mark their channel broken (R414). -/
def tickTemps (s : State) : State :=
  let s1 := setTherm s (fun b => { b with
    sameTicks := b.temps.map (fun e => (e.1, e.2, sameSince b.sameTicks e.1 e.2)) })
  let s2 := (s1.therm.temps.map (fun e => e.1)).foldl followBroken s1
  match s2.therm.broken.find? (fun x => match x with
    | .hub _ => true
    | _ => false) with
  | some x => if s2.therm.stopping.isSome then s2 else startStop s2 3 ((aget s2.therm.temps x).getD 0) (sensorAddr x)
  | none => s2

/-! ## The latch (R412) -/

/-- THERM_LATCH_CLEAR: 1 s without input power, or THERM_CLR_N low for 10 ms no earlier than 10 s after the latch was set; a cold start
follows. -/
def latchClearOp (s : State) (byPin : Bool) (low : Nat) : State :=
  let ok : Bool := if byPin then 10000000 ≤ low && s.aon.latchAt + 10000000000 ≤ now s else 1000000000 ≤ low
  if s.rst.phase = .latched ∧ ok = true then
    dropLatch s
  else s

/-- FAN_PWM's duty in percent: 30 below 70 °C of THERM_STATUS.MAX, rising linearly to 100 at 95 °C; full while the module is in reset
(R469). -/
def fanDuty (s : State) : Nat :=
  if s.rst.phase = .inReset ∨ s.rst.phase = .latched then 100
  else match shownMax s false with
  | none => 30
  | some m => if m < 1120 then 30 else if 1520 ≤ m then 100 else 30 + (70 * (m - 1120) / 400).toNat

/-! ## Rows -/

def execFwSensePass (temps : List TempReading) (results : List SenseResult) (t : Nat) (s : State) : Host.Outcome State Fault Refusal :=
  .next (fwPassOp (advance t s) temps results)

def execThermMonitorPass (temps : List TempReading) (results : List SenseResult) (t : Nat) (s : State) : Host.Outcome State Fault Refusal :=
  .next (monitorPassOp (advance t s) temps results)

def execThermalStop (r : TempReading) (t : Nat) (s : State) : Host.Outcome State Fault Refusal := .next (thermalStopOp (advance t s) r)

def execHardCut (t : Nat) (s : State) : Host.Outcome State Fault Refusal := .next (hardCutOp (advance t s))

def execThermLatchClear (byPin : Bool) (lowNs : Nat) (t : Nat) (s : State) : Host.Outcome State Fault Refusal :=
  .next (latchClearOp (advance t s) byPin lowNs)

end Sys2Proof.Machine
end

