-- ==== Sys2Proof/Machine/Memory.lean ====
section
/-! DEFINITION. Stored data of 13_faults: uncorrectable errors (R364, R365), patrol reads (R363), check-bit test mode (R368). -/

namespace Sys2Proof.Machine

/-! ## Uncorrectable errors (R364) -/

/-- The rows and the request of a table index that consumed poisoned data: withheld, and ended with CANCELLED and FAILED. -/
def poisonRow (s : State) (i : Nat) : State :=
  let s1 := setSched s (fun c => { c with step := c.step.map (fun k =>
    { k with rows := k.rows.map (fun w => if w.rid = i then { w with withheld := true } else w) }) })
  markEnd (modReq s1 i (fun r => { r with cond := { r.cond with failed := true } })) i .cancelled

/-- P2 containment: the data goes on poisoned, each consuming request ends, and the location retires at once. -/
def poison (s : State) (e : MemError) : State := retireLocation (e.rids.foldl poisonRow s) e (16 + 64)

/-- Native containment: the location is latched in the backup-domain error log and a FATAL reset follows. -/
def fatalError (s : State) (e : MemError) : State :=
  requestReset { s with aon := { s.aon with errorLog := s.aon.errorLog ++ [e] } } .fatal

/-- UE_CONSUMED. A word nobody owns only retires its location; management processor memory resets in both modes. -/
def ueConsumedOp (s : State) (e : MemError) : State :=
  if !firmwareRuns s then s
  else if !e.inUse then retireLocation s e 16
  else
    let s1 := setFaults s (fun f => { f with ue := satAdd 32 f.ue 1 })
    if p2Mode s && e.mem != .mpMemory then poison s1 e else fatalError s1 e

/-! ## Patrol reads (R363) -/

/-- PATROL_READ finds errors in what is not in use: counted or retired, never a reset. -/
def patrolReadOp (s : State) (ce ue : List MemError) : State :=
  if !inService s then s
  else
    let s1 := (ce.filter (fun e => !e.inUse)).foldl countCe s
    (ue.filter (fun e => !e.inUse)).foldl (fun x e => retireLocation x e 16) s1

/-! ## Check-bit test mode (R368) -/

/-- Bytes of the targets of MEM 0, 1, 2 and 5 (R9, R368). -/
def eccSize : Nat → Nat
  | 0 => 163840
  | 1 => 6291456
  | 2 => 4096
  | 5 => 4096
  | _ => 0

def eccUnit (s : State) : Nat := s.faults.eccUnitHi.toNat * 2 ^ 32 + s.faults.eccUnitLo.toNat

/-- The target is one that test mode may name, and the offset a multiple of 8 inside it (log entry 20). -/
def eccTarget (s : State) (mem : Nat) : Bool :=
  let a := addrDecode (eccUnit s)
  let off := s.faults.eccOffset.toNat
  let named := addrOk s.ql.present (eccUnit s) && a.phys
  off % 8 == 0 && off < eccSize mem && (match mem with
    | 0 => named && a.level == 2 && (logicalCoreKey s (coreKey a.stack a.region a.core)).isNone
    | 1 => named && a.level == 3 && ((logicalRegion s (regionKey a.stack a.region)).isNone || (logicalStack s a.stack).isNone)
    | 2 => true
    | 5 => named && a.level == 4
    | _ => false)

/-- The key of a test word. The hub test area has no unit. -/
def eccKey (s : State) (mem : Nat) : Nat × Nat × Nat := (mem, if mem = 2 then 0 else eccUnit s, s.faults.eccOffset.toNat)

/-- A test word; one not written holds a free value. -/
def eccWord (s : State) (k : Nat × Nat × Nat) : (Nat × Nat) × State :=
  match aget s.faults.eccMem k with
  | some w => (w, s)
  | none => ((drawNat s % 2 ^ 64, Config.freeNat (s.free + 1) % 256), drawn (drawn s))

def flipBit (w i : Nat) : Nat := Nat.xor w (2 ^ i)

/-- The decoder: data, corrected one bit, uncorrectable. An uncorrectable word reads as a free value. -/
def eccDecode (d c free : Nat) : Nat × Bool × Bool :=
  if Config.checkBits d % 256 = c then (d, false, false)
  else match (List.range 64).find? (fun i => Config.checkBits (flipBit d i) % 256 == c) with
    | some i => (flipBit d i, true, false)
    | none => if (List.range 8).any (fun i => flipBit (Config.checkBits d % 256) i == c) then (d, true, false)
        else (free % 2 ^ 64, false, true)

def setEccData (f : FaultBlk) (d : Nat) : FaultBlk :=
  { f with eccDataLo := BitVec.ofNat 32 d, eccDataHi := BitVec.ofNat 32 (d / 2 ^ 32), eccDone := true }

def eccRawWriteOp (s : State) (w : Nat) : State :=
  let d := s.faults.eccDataHi.toNat * 2 ^ 32 + s.faults.eccDataLo.toNat
  setFaults s (fun f => { f with eccMem := aset f.eccMem (eccKey s (fld w 3 0)) (d, fld w 23 16), eccDone := true })

def eccRawReadOp (s : State) (w : Nat) : State :=
  let x := eccWord s (eccKey s (fld w 3 0))
  setFaults x.2 (fun f => { setEccData f x.1.1 with eccCheck := x.1.2 })

def eccDecodedReadOp (s : State) (w : Nat) : State :=
  let x := eccWord s (eccKey s (fld w 3 0))
  let r := eccDecode x.1.1 x.1.2 (drawNat x.2)
  setFaults (drawn x.2) (fun f => { setEccData f r.1 with
    eccCe := r.2.1, eccUe := r.2.2, eccSyndrome := Nat.xor x.1.2 (Config.checkBits x.1.1 % 256) })

/-- A write of MOD_ECC_TEST_CTRL with GO: OP, CHECK and MEM take effect, and the operation runs or is refused. -/
def eccGo (s : State) (w : Nat) (run : State → Nat → State) : State :=
  let s1 := setFaults s (fun f => { f with eccCtrl := BitVec.ofNat 32 (Nat.land w 0x70FF000F) })
  if confPresent s || !eccTarget s1 (fld w 3 0) then setFaults s1 (fun f => { f with eccRefused := true }) else run s1 w

/-- A write of MOD_ECC_TEST_CTRL: without GO its RW fields take effect alone; a reserved OP runs nothing. -/
def eccCtrlWrite (s : State) (w : Nat) : State :=
  if !bitAt w 31 then setFaults s (fun f => { f with eccCtrl := BitVec.ofNat 32 (Nat.land w 0x70FF000F) })
  else eccGo s w (fun x v => match fld v 30 28 with
    | 1 => eccRawWriteOp x v
    | 2 => eccRawReadOp x v
    | 3 => eccDecodedReadOp x v
    | _ => x)

/-- The three rows: GO with their OP, while the hub's registers work. -/
def eccRow (s : State) (w op : Nat) (run : State → Nat → State) : State :=
  if inService s && bitAt w 31 && fld w 30 28 == op then eccGo s w run else s

/-! ## Rows -/

def execUeConsumed (e : MemError) (t : Nat) (s : State) : Host.Outcome State Fault Refusal := .next (ueConsumedOp (advance t s) e)

def execPatrolRead (correctable uncorrectable : List MemError) (t : Nat) (s : State) : Host.Outcome State Fault Refusal :=
  .next (patrolReadOp (advance t s) correctable uncorrectable)

def execEccRawWrite (value : W32) (t : Nat) (s : State) : Host.Outcome State Fault Refusal :=
  .next (eccRow (advance t s) value.toNat 1 eccRawWriteOp)

def execEccRawRead (value : W32) (t : Nat) (s : State) : Host.Outcome State Fault Refusal :=
  .next (eccRow (advance t s) value.toNat 2 eccRawReadOp)

def execEccDecodedRead (value : W32) (t : Nat) (s : State) : Host.Outcome State Fault Refusal :=
  .next (eccRow (advance t s) value.toNat 3 eccDecodedReadOp)

end Sys2Proof.Machine
end

