-- ==== Sys2Proof/Machine/Housekeeping.lean ====
section
/-! DEFINITION. The housekeeping tick of R243 and what other rules give it: heartbeats and the watchdog (R400), band-gap checks (R152),
ages (R171), broken sensors (R414), result rings (R280), refills (R195), LADDER_END (R144), factory records (R155), voted words (R366),
fence report notices (R372), latencies and consume mirrors (R228, R246), programming rate (R224), queue overruns (R420). -/

namespace Sys2Proof.Machine

/-! ## The watchdog (R400) -/

/-- Heartbeats of MP1–MP3: ticks missed in a row. -/
def heartbeats (s : State) (alive : List Nat) : State :=
  { s with rst := { s.rst with missed := [1, 2, 3].foldl (fun m i =>
    tset 0 m i (if i ∈ alive then 0 else tget 0 m i + 1)) s.rst.missed } }

/-- MP0 services the watchdog unless a processor has missed three ticks or its own work has not completed. -/
def serviceWatchdog (s : State) (done : Bool) : State :=
  if done && silentMp s == 0 then { s with rst := { s.rst with lastService := now s } } else s

/-! ## Voted words (R366) -/

/-- Copies of a voted word that differ from what the vote gives. -/
def disagree {α : Type} [DecidableEq α] (x : Tri α) (v : α) : Nat :=
  b2n (decide (x.a ≠ v)) + b2n (decide (x.b ≠ v)) + b2n (decide (x.c ≠ v))

def noMajority {α : Type} [DecidableEq α] (x : Tri α) : Bool := decide (x.a ≠ x.b ∧ x.a ≠ x.c ∧ x.b ≠ x.c)

def countRepairs (s : State) (n : Nat) : State := setFaults s (fun f => { f with voteRepair := satAdd 32 f.voteRepair n })

/-- Rewrite the copies of the fence map. Every entry is one bit, which always has a majority. -/
def repairFences (s : State) : State :=
  let n := disagree s.map.fenced (fencedUnits s)
  if n = 0 then s
  else countRepairs { s with map := { s.map with fenced := triOf (fencedUnits s) } } n

/-- Rewrite a key slot's copies; without a majority the slot is removed. -/
def repairSlot (s : State) (e : Nat × Tenant) : State :=
  let x := e.2.slot
  let v := vote3 2 x.a x.b x.c
  if noMajority x then beginRemove s e.1
  else if disagree x v = 0 then s
  else countRepairs (modTenant s e.1 (fun y => { y with slot := triOf v })) (disagree x v)

/-- Rewrite an option word's copies; without a majority it takes its reset value. -/
def repairOption (s : State) (off : Nat) : State :=
  let x : Tri Nat := ⟨optCopy s.opts.a off, optCopy s.opts.b off, optCopy s.opts.c off⟩
  let v := opt s off
  if noMajority x then setFaults (setOpt s off (optReset off)) (fun f => { f with optionVote := true })
  else if disagree x v = 0 then s
  else countRepairs (setOpt s off v) (disagree x v)

/-- Rewrite the reset counters; without a majority a counter saturates. -/
def repairCounts (s : State) : State :=
  let v := (List.range 7).map (rstCount s)
  let n := disagree s.aon.counts v
  if n = 0 then s else countRepairs { s with aon := { s.aon with counts := triOf v } } n

def repairVotes (s : State) : State :=
  let s1 := s.tenants.foldl repairSlot (repairCounts (repairFences s))
  ((s1.opts.a ++ s1.opts.b ++ s1.opts.c).map (fun e => e.1)).eraseDups.foldl repairOption s1

/-! ## Commands and functions (R228, R246, R372) -/

/-- Latencies of the commands of a tick: the mean in µs, of a function or, for the physical function, of all. -/
def meanLatency (s : State) (fn : Nat) : Nat :=
  let l := if fn = 0 then s.fns.map (fun e => (e.2.latSum, e.2.latNum)) else [((fnOf s fn).latSum, (fnOf s fn).latNum)]
  let n := sumNat (l.map (·.2))
  if n = 0 then 0 else sumNat (l.map (·.1)) / n / 1000

def tickLatency (s : State) : State :=
  let fns := (s.fns.map (fun e => (e.1, { e.2 with latency := meanLatency s e.1, latSum := 0, latNum := 0 }))).filter
    (fun (e : Nat × FnBlk) => decide (e.2 ≠ {}))
  let zero : FnBlk := { fnOf s 0 with latency := meanLatency s 0, latSum := 0, latNum := 0 }
  { s with fns := tset {} fns 0 zero }

/-- The notice of new fence reports. -/
def noticeReports (s : State) : State :=
  if s.faults.added then
    unsolicited (setFaults s (fun f => { f with added := false })) 0x0003 .ok 0 0 s.faults.reports.length 0
  else s

/-! ## Data plane (R144, R155, R171, R195, R224) -/

/-- Every region ages by the time since the last tick. -/
def tickAges (s : State) (dt : Nat) : State := (List.range nRegions).foldl (fun x r => modRegion x r (ageRegion dt)) s

/-- Layers at the end of their ladder that have not been reported: (forme slot, layer). -/
def unreportedLayers (s : State) : List (Nat × Nat) :=
  s.formes.flatMap (fun f => (f.2.layers.filter (fun l => l.2.ladderEnd && !l.2.reported)).map (fun l => (f.1, l.1)))

/-- Firmware reports layers at the end of their ladder to the host, once each (R144; log entry 21). -/
def reportLayers (s : State) : State :=
  let l := unreportedLayers s
  l.foldl (fun x e => emit x (.layerReport e.1 e.2))
    { s with formes := s.formes.map (fun f => (f.1, { f.2 with layers := f.2.layers.map (fun l =>
      (l.1, if l.2.ladderEnd then { l.2 with reported := true } else l.2)) })) }

/-- Copy A of a factory record is rewritten from copy B in an idle tick. -/
def rewriteFactory (s : State) : State :=
  if s.sched.step.isSome then s
  else { s with nv := { s.nv with factory := s.nv.factory.map (fun e => if e.2.2 then (e.1, (true, true)) else e) } }

/-- MOD_PLATE_RATE in 10^9 cells per second, from the cells of the planes written since the last tick (R224). -/
def tickRate (s : State) (dt : Nat) : State := setPlates s (fun b => { b with rate := min 2047 (b.cells / max 1 dt), cells := 0 })

/-- What a tick does once the options are loaded. -/
def serviceTick (s : State) (inp : TickInput) (dt : Nat) : State :=
  let s1 := tickAges (bandGapOp s true inp.bandgap) dt
  let s2 := tickRate (rewriteFactory (reportLayers s1)) dt
  rereadRings inp.ringHeads (settleDma s2)

/-! ## Overruns of dual-clock queues (R420) -/

def setTime (s : State) (f : TimeBlk → TimeBlk) : State := { s with time := f s.time }

/-- A queue that discarded n words sets its flag and counts them. -/
def noteOverrun (s : State) (e : CdcQueue × Nat) : State :=
  let n := e.2
  let hub := fun (f : TimeBlk → TimeBlk) => setTime s (fun b => { f b with ovrCount := satAdd 32 b.ovrCount n })
  let reg := fun (rk : Nat) (f : Region → Region) =>
    if rk < nRegions then modRegion s rk (fun g => { f g with cdcCount := satAdd 16 g.cdcCount n }) else s
  if n = 0 then s
  else match e.1 with
    | .aon => hub (fun b => { b with ovrAon := true })
    | .quoin => hub (fun b => { b with ovrQl := true })
    | .pcie => hub (fun b => { b with ovrPci := true })
    | .hbm => hub (fun b => { b with ovrHbm := true })
    | .hubRegion => hub (fun b => { b with ovrRgn := true })
    | .regionHub rk => reg rk (fun g => { g with ovrHub := true })
    | .coreFabric rk => reg rk (fun g => { g with ovrCore := true })
    | .converter rk => reg rk (fun g => { g with ovrConv := true })

/-- A tick starts 40 ms after the last one at the earliest. -/
def tickNs : Nat := 40000000

/-- HOUSEKEEPING_TICK. -/
def housekeepingOp (s : State) (inp : TickInput) : State :=
  if !firmwareRuns s || now s < s.rst.lastTick + tickNs then s
  else
    let dt := now s - s.rst.lastTick
    let s1 := serviceWatchdog (heartbeats { s with rst := { s.rst with lastTick := now s }, sec := { s.sec with power := inp.power, power100 := inp.power100 } } inp.alive) inp.done
    let s2 := tickTemps s1
    let s3 := if inService s2 then serviceTick s2 inp dt else s2
    let s4 := inp.overruns.foldl noteOverrun s3
    writeMirrors (noticeReports (tickLatency (repairVotes s4)))

/-! ## Rows -/

def execHousekeepingTick (inp : TickInput) (t : Nat) (s : State) : Host.Outcome State Fault Refusal :=
  .next (housekeepingOp (advance t s) inp)

end Sys2Proof.Machine
end

