-- ==== Sys2Proof/Machine/Quoin.lean ====
section
/-! DEFINITION. Quoin links of 17_quoin_links: training (R429, R439), flits with credits, retry and forwarding (R430-R436), link-down
(R435), the time base lock (R440), route transfers (R212). -/

namespace Sys2Proof.Machine

/-! ## Training (R429, log entry 22) -/

/-- What takes part in training: service, an enabled port, a role, a peer key. -/
def mayTrain (s : State) (p : Nat) : Bool :=
  inService s && portEn s p && sysRole s != 0 && peerKeyOf s p != 0

/-- Lanes that can lock: all four, or lanes 0–1 or 2–3. -/
def lanesOk (l : Nat) : Bool := l == 15 || l == 3 || l == 12

/-- Words of the module's own IDENT with a fresh nonce. -/
def identWords (s : State) (p : Nat) : List Nat :=
  [s.nv.serial, s.nv.bindKey, 1, sysRole s, p, s.ql.module, uplink s, drawNat s, numberFor s p]

/-- R439: how the port is used with a peer, none for a ROLE_MISMATCH. -/
def pairing (s : State) (p : Nat) (m : Ident) : Option Nat :=
  let up := decide (p = uplink s)
  let peer : Option Nat := if m.peerLink && m.module ∈ s.ql.present then some 3 else none
  let down : Option Nat := if m.uplink = m.port ∧ !m.peerLink then some 2 else none
  match sysRole s with
  | 1 => if m.role = 2 ∧ down.isSome then down else peer
  | 2 => if up then (if m.role = 1 then some 1 else none) else if m.role = 3 ∧ down.isSome then down else peer
  | 3 => if up then (if m.role = 2 then some 1 else none) else peer
  | _ => none

/-- IDENT: the peer's key, then the roles; a good peer's number is kept, and an uplink gives the module its own. -/
def identOp (s : State) (p : Nat) (m : Ident) : State :=
  let x := portOf s p
  if x.state ≠ 1 ∨ x.use ≠ 0 then s
  else if m.bindKey ≠ peerKeyOf s p then trainFails s p 4
  else match pairing s p m with
  | none => trainFails s p 5
  | some u =>
    let peer := if u = 2 then numberFor s p else m.module
    let s1 := setPort s p { x with use := u, peer := peer, peerSerial := m.serial }
    let own := if u = 1 then m.assigned else s1.ql.module
    { s1 with ql := { s1.ql with module := own, present := addOnce (addOnce (s1.ql.present.filter (fun n => n != s.ql.module || n == own)) own) peer } }

/-- The port is up: counters and credits start over, subkey exchanges begin, a FENCE of the module itself is over (R446). -/
def comeUp (s : State) (p : Nat) : State :=
  let x := portOf s p
  let s1 := setPort s p { flushPort x with state := 2, cause := x.cause, fails := 0, expect := 0, nextSeq := 0, ctr := 0, keyed := true,
                                           lastRx := now s, lastTx := now s, subkeys := [], kex := [] }
  let active := (s.tenants.filter (fun e => tenantSlot s e.1 == 1)).map (fun (e : Nat × Tenant) => e.1)
  active.foldl (fun y t => startKex y t p) s1

/-- PORT_TRAIN. The first one locks the lanes and sends IDENT; after the peer's IDENT, the next derives the port keys. -/
def portTrainOp (s : State) (p lanes : Nat) (ok : Bool) : State :=
  let x := portOf s p
  if !mayTrain s p ∨ x.state = 2 ∨ x.state = 3 then s
  else if x.use = 0 then
    if ok && lanesOk lanes then
      let s1 := setPort s p { x with state := 1, lanes := lanes }
      drawn (emit s1 (.control p 1 (numberFor s1 p) (identWords s1 p)))
    else trainFails s p 2
  else if ok then comeUp s p
  else trainFails s p 7

/-- QL_PORT_CTRL.RETRAIN. -/
def retrainOp (s : State) (p w : Nat) : State :=
  if inService s && bitAt w 1 then restartPort s p 0 else s

/-! ## Sending (R431-R434) -/

def creditOf (x : Port) (c : Nat) : Nat := x.credits.getD c 0

def setAt (l : List Nat) (i v : Nat) : List Nat := (List.range l.length).map (fun j => if j = i then v else l.getD j 0)

/-- A flit can leave: its class has a credit, the replay buffer room, and its tenant a key on the port. -/
def canSend (x : Port) (f : Flit) : Bool :=
  1 ≤ creditOf x f.cls && x.replay.length < 1024 && (!f.tkey || f.tenant ∈ x.subkeys)

/-- Put a flit on the line: sequence, acknowledgement, credits owed and the counter of the direction (R430). -/
def transmit (s : State) (p : Nat) (f : Flit) : State :=
  let x := portOf s p
  let seq := if f.isNull then (x.nextSeq + 65535) % 65536 else x.nextSeq
  let g : Flit := { f with seq := seq, ack := if x.nakDue then x.expect else (x.expect + 65535) % 65536, nak := x.nakDue,
                           credits := x.owed.map (min 255), ctr := x.ctr, crcOk := true, tagOk := true }
  let y := { x with nakDue := false, owed := x.owed.map (fun n => n - min 255 n), ctr := x.ctr + 1, lastTx := now s }
  let z := if f.isNull then y
    else { y with nextSeq := (x.nextSeq + 1) % 65536, replay := y.replay ++ [g], credits := setAt y.credits f.cls (creditOf y f.cls - 1) }
  emit (setPort s p z) (.flit p g)

/-- A null flit: payload zero, carrying ACK, NAK and credits. -/
def nullFlit (s : State) (dest : Nat) : Flit :=
  { cls := 0, typ := 0, tkey := false, last := false, isNull := true, nak := false, src := s.ql.module, dest := dest, tenant := 0xFFFF,
    epoch := 0, seq := 0, ack := 0, credits := [], ctr := 0, payload := List.replicate 204 0, crcOk := true, tagOk := true }

/-- A credit of a class goes back on the port a flit arrived on. -/
def returnCredit (s : State) (port : Option Nat) (c : Nat) : State :=
  match port with
  | some q => modPort s q (fun x => { x with owed := setAt x.owed c (x.owed.getD c 0 + 1) })
  | none => s

/-- The first waiting flit of a class that can leave. -/
def nextOf (x : Port) (c : Nat) : Option (Flit × Option Nat) := x.waiting.find? (fun e => e.1.cls == c && canSend x e.1)

/-- The shares of a round: activation 8, key/value migration 4, plate/shard 2 (R342). -/
def roundQuota : List Nat := [0, 8, 2, 4]

/-- Data classes with flits and credits, in the order of their shares. -/
def dataReady (x : Port) : List Nat := [1, 3, 2].filter (fun c => (nextOf x c).isSome)

/-- The class of the next flit slot (R342): one that has waited for 13 slots, so that each of the four gets one slot in every 16; else control; else
the data classes in the ratio of their shares. -/
def pickClass (x : Port) : Option Nat :=
  let late := (List.range 4).filter (fun c => (nextOf x c).isSome && 13 ≤ x.starved.getD c 0)
  (sortBy (fun c => 2 ^ 20 - x.starved.getD c 0) late).head?.orElse (fun _ =>
    if (nextOf x 0).isSome then some 0
    else ((dataReady x).find? (fun c => 0 < x.quota.getD c 0)).orElse (fun _ => (dataReady x).head?))

/-- A flit slot goes to a class: its share, and the slots for which the others have waited. -/
def notePick (x : Port) (c : Nat) : Port :=
  let q := if (dataReady x).all (fun d => x.quota.getD d 0 = 0) then roundQuota else x.quota
  { x with quota := setAt q c (q.getD c 0 - 1),
           starved := (List.range 4).map (fun d => if d = c ∨ (nextOf x d).isNone then 0 else x.starved.getD d 0 + 1) }

/-- Send what waits and can leave, at most n flits. -/
def drainPort (p : Nat) : Nat → State → State
  | 0, s => s
  | n + 1, s =>
    let x := portOf s p
    match (pickClass x).bind (nextOf x) with
    | none => s
    | some e =>
      let s1 := setPort s p { notePick x e.1.cls with waiting := x.waiting.erase e }
      drainPort p n (returnCredit (transmit s1 p e.1) e.2 e.1.cls)

def pumpPort (s : State) (p : Nat) : State := drainPort p (portOf s p).waiting.length s

/-- Queue a flit for a port, in order behind those of its class. -/
def sendFlit (s : State) (p : Nat) (f : Flit) (arrived : Option Nat) : State :=
  pumpPort (modPort s p (fun x => { x with waiting := x.waiting ++ [(f, arrived)] })) p

/-! ## Receiving -/

/-- ACK, NAK and returned credits (R432, R434). -/
def seqBefore (a b : Nat) : Bool := (b + 65536 - a) % 65536 < 32768

/-- Retransmit the replay buffer bit for bit. -/
def replayAll (s : State) (p : Nat) : State :=
  let x := portOf s p
  if x.replay = [] then s
  else if 8 ≤ x.replays + 1 then portDown (setPort s p { x with retry := satAdd 32 x.retry 1 }) p 1
  else
    let s1 := setPort s p { x with retry := satAdd 32 x.retry 1, replays := x.replays + 1, lastTx := now s }
    x.replay.foldl (fun y f => emit y (.flit p f)) s1

def takeAck (s : State) (p : Nat) (f : Flit) : State :=
  let x := portOf s p
  let last := if f.nak then (f.ack + 65535) % 65536 else f.ack
  let left := x.replay.filter (fun g => !seqBefore g.seq last)
  let y := { x with replay := left, replays := if left.length < x.replay.length then 0 else x.replays,
                    credits := (List.range 4).map (fun c => creditOf x c + f.credits.getD c 0) }
  let s1 := setPort s p y
  if f.nak then replayAll s1 p else s1

/-- A tenant's flit that is dropped: its slot, its epoch or its tag (R380). -/
def tenantDrop (s : State) (f : Flit) : Bool :=
  f.tkey && (tenantSlot s f.tenant != 1 || (tenantOf s f.tenant).epoch != f.epoch || !f.tagOk)

/-! ### Sheets from other modules (R212) -/

/-- A forme of the slot runs in the step. -/
def slotRuns (s : State) (slot : Nat) : Bool :=
  match s.sched.step with
  | none => false
  | some k => !k.cut && k.rows.any (fun w => runsForme s w slot)

/-- A logical core of this module. -/
def ownCore (s : State) (w : Nat) : Option Nat :=
  let a := addrDecode w
  if a.module = 0x7FF ∨ a.module = s.ql.module then physCoreKey s (coreKey a.stack a.region a.core) else none

/-- The sheets that the running step's formes bring from a module: forme slot, core and scratch offset. DESIGN CHOICE (log entry 99): they come in
the order of the formes' route records, again and again. -/
def routeSlots (s : State) (m : Nat) : List (Nat × Nat × Nat) :=
  s.formes.flatMap (fun f => if !f.2.image.system || !slotRuns s f.1 then [] else f.2.image.routes.flatMap (fun r =>
    match ownCore s r.dst with
    | some ck => if (addrDecode r.src).module = m then (List.range r.sheets).map (fun i => (f.1, ck, r.dstOff + 4096 * i)) else []
    | none => []))

/-- The rows that run a forme have consumed a sheet that fails its CRC-32C (R263). -/
def withholdSlot (s : State) (slot : Nat) : State :=
  setSched s (fun c => { c with step := c.step.map (fun k => { k with rows := k.rows.map (fun w =>
    if runsForme s w slot then { w with withheld := true, cond := { w.cond with failed := true } } else w) }) })

/-- A sheet with its CRC-32C has come from a module: it goes to the scratch of the route's destination. -/
def takeSheet (s : State) (m : Nat) (bytes : List Byte) : State :=
  let l := routeSlots s m
  let n := tget 0 s.ql.arrived m
  let s1 := { s with ql := { s.ql with arrived := tput s.ql.arrived m (n + 1) } }
  match l[n % l.length]? with
  | none => s1
  | some (slot, ck, off) =>
    let sheet := bytes.take 4096
    if leNat ((bytes.drop 4096).take 4) = crc32c sheet then modCore s1 ck (fun c => { c with scratch := mwrite c.scratch off sheet })
    else withholdSlot s1 slot

/-- Flits of one message: one sender, class and tenant. -/
def sameMessage (f g : Flit) : Bool := g.src == f.src && g.cls == f.cls && g.tenant == f.tenant

/-- A flit for this module. The activation class brings sheets, one message each; the formation of the step has reserved where they go (R328). -/
def deliver (s : State) (f : Flit) : State :=
  if f.cls ≠ 1 then s
  else
    let before := if f.typ = 1 then [] else s.ql.received.filter (sameMessage f)
    let others := s.ql.received.filter (fun g => !sameMessage f g)
    if f.last then takeSheet { s with ql := { s.ql with received := others } } f.src ((before ++ [f]).flatMap (·.payload))
    else { s with ql := { s.ql with received := others ++ before ++ [f] } }

/-- An accepted flit is dropped, delivered or forwarded (R380, R433). -/
def acceptFlit (s : State) (p : Nat) (f : Flit) : State :=
  if tenantDrop s f then
    let s1 := loseFlit { s with sec := { s.sec with epochDrops := satAdd 32 s.sec.epochDrops 1 } } f
    returnCredit s1 (some p) f.cls
  else if !f.tagOk then returnCredit (loseFlit s f) (some p) f.cls
  else if f.dest = s.ql.module then returnCredit (deliver s f) (some p) f.cls
  else match routePort s f.dest with
  | some q => if q != p && portUp s q then sendFlit s q f (some p) else returnCredit (loseFlit s f) (some p) f.cls
  | none => returnCredit (loseFlit s f) (some p) f.cls

/-- The next outgoing flit answers at once: a null flit when nothing else leaves (R431). -/
def answer (s : State) (p : Nat) : State :=
  let x := portOf s p
  if x.state = 2 ∧ (x.nakDue ∨ x.owed ≠ [0, 0, 0, 0]) then transmit s p (nullFlit s x.peer) else s

/-- FLIT_RECEIVE. A bad CRC, or a flit out of order after it, is discarded and asked for again. -/
def flitReceiveOp (s : State) (p : Nat) (f : Flit) : State :=
  let x := portOf s p
  if x.state ≠ 2 then s
  else if !f.crcOk then
    answer (setPort s p { x with crc := satAdd 32 x.crc 1, nakDue := true, lastRx := now s }) p
  else
    let s1 := takeAck (setPort s p { x with lastRx := now s }) p f
    if (portOf s1 p).state ≠ 2 then s1
    else if f.isNull then pumpPort s1 p
    else if f.seq ≠ x.expect then answer (modPort s1 p (fun y => { y with nakDue := true })) p
    else answer (pumpPort (acceptFlit (modPort s1 p (fun y => { y with expect := (x.expect + 1) % 65536 })) p f) p) p

/-- FLIT_ACK_TIMEOUT: 4 µs without an acknowledgement. -/
def ackTimeoutOp (s : State) (p : Nat) : State :=
  let x := portOf s p
  if x.state = 2 ∧ x.replay ≠ [] ∧ x.lastTx + 4000 ≤ now s then replayAll s p else s

/-- PORT_SILENCE: 10 µs without a flit. -/
def silenceOp (s : State) (p : Nat) : State :=
  let x := portOf s p
  if x.state = 2 ∧ x.lastRx + 10000 ≤ now s then portDown s p 3 else s

/-- LANE_LOCK_LOSS: a lane in use. -/
def lanesLostOp (s : State) (p lane : Nat) : State :=
  let x := portOf s p
  if !bitAt x.lanes lane then s
  else if x.state = 2 then portDown s p 2
  else if x.state = 1 then trainFails s p 2 else s

/-! ## Tenant subkeys (R436) -/

/-- KEYX: the peer's M value, or NOT_ACTIVE. A slot of the module that is not ACTIVE is answered so. -/
def keyxOp (s : State) (p slot : Nat) (v : Option Nat) : State :=
  let x := portOf s p
  if x.state ≠ 2 then s
  else match v with
  | none => modPort s p (fun y => { y with kex := tdel y.kex slot })
  | some _ =>
    if tenantSlot s slot ≠ 1 then emit s (.control p 2 x.peer [slot])
    else
      let s1 := if (tfind x.kex slot).isSome then s else startKex s slot p
      pumpPort (modPort s1 p (fun y => { y with kex := tdel y.kex slot, subkeys := addOnce y.subkeys slot })) p

/-- KEYX_TIMEOUT: after 100 µs the tenant's flits wait no longer: they are discarded (log entry 23). -/
def keyxTimeoutOp (s : State) (p slot : Nat) : State :=
  let x := portOf s p
  match tfind x.kex slot with
  | none => s
  | some t0 =>
    if t0 + 100000 ≤ now s then
      let mine := x.waiting.filter (fun e => e.1.tkey && e.1.tenant == slot)
      let s1 := mine.foldl (fun y e => returnCredit (loseFlit y e.1) e.2 e.1.cls) s
      modPort s1 p (fun y => { y with kex := tdel y.kex slot, waiting := y.waiting.filter (fun e => !(e.1.tkey && e.1.tenant == slot)) })
    else s

/-! ## Time base lock (R440, R423) -/

/-- TIME_SYNC_SEND: every 100 µs on an up port to a lower module. -/
def syncSendOp (s : State) (p : Nat) : State :=
  let x := portOf s p
  if x.state = 2 ∧ x.use = 2 ∧ x.syncAt + 100000 ≤ now s then
    emit (setPort s p { x with syncAt := now s }) (.control p 3 x.peer [now s])
  else s

/-- TIME_SYNC arrives on the uplink: stamped and answered. -/
def syncOp (s : State) (p t1 : Nat) : State :=
  let x := portOf s p
  if x.state = 2 ∧ x.use = 1 then emit s (.control p 4 x.peer [t1, now s, now s]) else s

/-- θ in 1/16 ns. -/
def thetaOf (t1 t2 t3 t4 : Int) : Int := 8 * ((t2 - t1) - (t4 - t3))

/-- The present slew in 1/256 ppm: against the offset, at most 100 ppm, otherwise free (log entry 26). -/
def slewFor (theta : Int) (free : Nat) : Int :=
  if theta = 0 then 0 else if 0 < theta then -((free % 25601 : Nat) : Int) else ((free % 25601 : Nat) : Int)

/-- A report that the module is back in the system, once its uplink is up again and it is locked (R444, R446). -/
def rejoin (s : State) : State :=
  let s1 := if s.ql.selfFenced then release { s with ql := { s.ql with selfFenced := false } } (.qlFault (uplink s)) else s
  sendControl s1 9 0 [s.ql.module, s.plates.epoch]

/-- A step of the time base moves the marks from which elapsed time is measured. -/
def shiftNat (d : Int) (n : Nat) : Nat := ((n : Int) + d).toNat

def shiftPort (d : Int) (x : Port) : Port :=
  { x with lastRx := shiftNat d x.lastRx, lastTx := shiftNat d x.lastTx, syncAt := shiftNat d x.syncAt, kex := x.kex.map (fun e => (e.1, shiftNat d e.2)) }

def stepBase (s : State) (d : Int) : State :=
  let r := s.rst
  { s with
    time := { s.time with base := shiftNat d s.time.base, stepped := true },
    rst := { r with mpStart := shiftNat d r.mpStart, lastService := shiftNat d r.lastService, lastTick := shiftNat d r.lastTick,
                    lastSync := shiftNat d r.lastSync },
    therm := { s.therm with lastFwPass := shiftNat d s.therm.lastFwPass },
    ql := { s.ql with ports := tmap {} (fun _ x => shiftPort d x) s.ql.ports } }

/-- TIME_REPLY: the lower module steers by its offset. In a start it is stepped to the manager: always after a cold reset, beyond 1 µs
after a warm one. -/
def timeReplyOp (s : State) (p : Nat) (t1 t2 t3 t4 workerOffset : Int) : State :=
  let x := portOf s p
  if x.state ≠ 2 ∨ x.use ≠ 1 then s
  else
    let th := thetaOf t1 t2 t3 t4
    let step : Bool := s.time.lastReply == 0 && th != 0 && (s.rst.cold || 16000 < th.natAbs)
    let own : Int := if step then 0 else th
    let locked : Bool := own.natAbs ≤ 64
    let s0 := if step then stepBase s (-(rneDiv th 16)) else s
    let s1 := drawn { s0 with time := { s0.time with
      offset := own + (if sysRole s = 3 then workerOffset else 0), locked := locked, slew := slewFor own (drawNat s), lastReply := max 1 (now s0) } }
    if locked && !s.time.locked then rejoin s1 else s1

/-- LOCK_LOSS: 10 ms without a TIME_REPLY. -/
def lockLossOp (s : State) : State :=
  if 2 ≤ sysRole s ∧ s.time.lastReply + 10000000 ≤ now s then { s with time := { s.time with locked := false } } else s

/-! ## Route transfers (R212) -/

/-- Copy a range of a memory to another memory. -/
def copyRange (src dst : List Host.Cell) (a b len : Nat) : List Host.Cell :=
  let kept := dst.filter (fun c => !(b ≤ c.1 && c.1 < b + len))
  (src.filter (fun c => a ≤ c.1 && c.1 < a + len)).foldl (fun m c => mput m (c.1 - a + b) c.2) kept

/-- The source's groups of the layer have finalised: no bank of the core holds one open. -/
def layerFinal (s : State) (ck slot layer : Nat) : Bool :=
  (coreOf s ck).banks.all (fun b => b.2.desc.isNone || b.2.slot != slot || b.2.layer != layer)

/-- The tenant of the forme's rows when they all have the same one; their flits use its key. -/
def routeTenant (s : State) (slot : Nat) : Option Nat :=
  match s.sched.step with
  | none => none
  | some k =>
    let ts := ((k.rows.filter (fun w => runsForme s w slot)).map (fun w =>
      if isRemote w then (tfind s.ql.remote (w.rid - 2 ^ 32)).map (·.tenant) else (reqOf s w.rid).map (·.tenant))).eraseDups
    match ts with
    | [some t] => some t
    | _ => none

/-- The flits of one sheet with its CRC-32C: 204 bytes each. -/
def sheetFlits (s : State) (dest : Nat) (tenant : Option Nat) (bytes : List Byte) : List Flit :=
  let all := bytes ++ leBytes 4 (crc32c bytes)
  (List.range 21).map (fun i =>
    let part := (all.drop (204 * i)).take 204
    { cls := 1, typ := if i = 0 then 1 else 0, tkey := tenant.isSome, last := i == 20, isNull := false, nak := false, src := s.ql.module,
      dest := dest, tenant := tenant.getD 0xFFFF, epoch := ((tenant.map (fun t => (tenantOf s t).epoch)).getD 0), seq := 0, ack := 0,
      credits := [0, 0, 0, 0], ctr := 0, payload := part ++ List.replicate (204 - part.length) 0, crcOk := true, tagOk := true })

/-- The sheets that a region's DMA engine carries take step credits (R340); between stacks the hub carries them (R212). -/
def sheetTransfers (s : State) (a b n : Nat) : State :=
  if coreStack a = coreStack b then modRegion s (coreRegion a) (passingTransfers true n) else s

/-- ROUTE_TRANSFER: the sheets move to the destination core's scratch, or leave as activation flits: the source region's DMA credits come before
the link's (R326). -/
def routeTransferOp (s : State) (slot index : Nat) : State :=
  match (formeOf s slot).bind (fun f => f.image.routes[index]?) with
  | none => s
  | some r => match ownCore s r.src with
    | none => s
    | some a =>
      if !slotRuns s slot ∨ !layerFinal s a slot r.after then s
      else match ownCore s r.dst with
      | some b => modCore (sheetTransfers s a b r.sheets) b (fun c => { c with scratch := copyRange (coreOf s a).scratch c.scratch r.srcOff r.dstOff (4096 * r.sheets) })
      | none =>
        let m := (addrDecode r.dst).module
        match routePort s m with
        | none => s
        | some p =>
          if !portUp s p ∨ m = 0x7FF ∨ m = s.ql.module then s
          else (List.range r.sheets).foldl (fun x i =>
            (sheetFlits x m (routeTenant x slot) (mread (coreOf x a).scratch (r.srcOff + 4096 * i) 4096)).foldl (fun y f => sendFlit y p f none) x)
            (modRegion s (coreRegion a) (passingTransfers true r.sheets))

/-! ## Rows -/

/-- A quoin port of the module. -/
def onPort (p : Nat) (s : State) : Host.Outcome State Fault Refusal := if p < 36 then .next s else .fault .noSuchUnit

def execRouteTransfer (slot index : Nat) (t : Nat) (s : State) : Host.Outcome State Fault Refusal :=
  if slot < 256 then .next (routeTransferOp (advance t s) slot index) else .fault .noSuchUnit

def execFlitReceive (port : Nat) (f : Flit) (t : Nat) (s : State) : Host.Outcome State Fault Refusal :=
  onPort port (flitReceiveOp (advance t s) port f)

def execFlitAckTimeout (port : Nat) (t : Nat) (s : State) : Host.Outcome State Fault Refusal := onPort port (ackTimeoutOp (advance t s) port)

def execPortSilence (port : Nat) (t : Nat) (s : State) : Host.Outcome State Fault Refusal := onPort port (silenceOp (advance t s) port)

def execLaneLockLoss (port lane : Nat) (t : Nat) (s : State) : Host.Outcome State Fault Refusal :=
  onPort port (lanesLostOp (advance t s) port lane)

def execPortTrain (port lanes : Nat) (ok : Bool) (t : Nat) (s : State) : Host.Outcome State Fault Refusal :=
  onPort port (portTrainOp (advance t s) port lanes ok)

def execRetrain (port : Nat) (value : W32) (t : Nat) (s : State) : Host.Outcome State Fault Refusal :=
  onPort port (retrainOp (advance t s) port value.toNat)

def execIdent (port : Nat) (m : Ident) (t : Nat) (s : State) : Host.Outcome State Fault Refusal := onPort port (identOp (advance t s) port m)

def execKeyx (port slot : Nat) (value : Option Nat) (t : Nat) (s : State) : Host.Outcome State Fault Refusal :=
  if slot < 256 then onPort port (keyxOp (advance t s) port slot value) else .fault .noSuchUnit

def execKeyxTimeout (port slot : Nat) (t : Nat) (s : State) : Host.Outcome State Fault Refusal :=
  if slot < 256 then onPort port (keyxTimeoutOp (advance t s) port slot) else .fault .noSuchUnit

def execTimeSyncSend (port : Nat) (t : Nat) (s : State) : Host.Outcome State Fault Refusal := onPort port (syncSendOp (advance t s) port)

def execTimeSync (port t1 : Nat) (t : Nat) (s : State) : Host.Outcome State Fault Refusal := onPort port (syncOp (advance t s) port t1)

def execTimeReply (port : Nat) (t1 t2 t3 t4 workerOffset : Int) (t : Nat) (s : State) : Host.Outcome State Fault Refusal :=
  onPort port (timeReplyOp (advance t s) port t1 t2 t3 t4 workerOffset)

def execLockLoss (t : Nat) (s : State) : Host.Outcome State Fault Refusal := .next (lockLossOp (advance t s))

end Sys2Proof.Machine
end

