-- ==== Sys2Proof/Machine/System.lean ====
section
/-! DEFINITION. Systems of modules, 17_quoin_links: named boundaries and seal reports (R441-R443), absent modules and cuts (R444), plate
changes across modules (R220), sideband signalling and LINK resets (R445, R446), the route table (R433). -/

namespace Sys2Proof.Machine

def isManager (s : State) : Bool := sysRole s == 1
def isBelow (s : State) : Bool := 2 ≤ sysRole s

/-! ## Named boundaries (R443, R384) -/

/-- BOUNDARY_NAME on a module below the manager. It withholds the named rows, keeps the name, the next owner and the next rows, and gives
an ordered flip its boundary. -/
def boundaryNameOp (s : State) (step tB owner : Nat) (bad : List Nat) (rows : List SysRow) : State :=
  if !inService s || !isBelow s then s
  else
    let s1 := withholdIds bad s
    let s2 := { s1 with ql := { s1.ql with
      named := some (step, tB), late := s1.ql.late || decide (tB < now s), nextOwner := some owner,
      nextRows := if rows = [] then s1.ql.nextRows else rows, nextNumber := if rows = [] then s1.ql.nextNumber else step + 1 } }
    match s2.plates.systemPrep with
    | some (_, true) => wantBoundary (setPlates s2 (fun b => { b with systemPrep := none, flipAt := some tB }))
    | _ => wantBoundary s2

/-- SEAL_REPORT at the manager: kept for its step, with the module's free pages; the boundary is named once all are in. -/
def sealReportOp (s : State) (r : SealReport) : State :=
  if !inService s || !isManager s || r.module ∈ s.ql.absent then s
  else
    let l := s.ql.reports.filter (fun x => !(x.module == r.module && x.step == r.step)) ++ [r]
    let s1 := setKv { s with ql := { s.ql with reports := l } } (fun k => { k with others := tput k.others r.module r.freeSheets })
    tryName s1

/-! ## Absent modules and cuts (R444, R388) -/

/-- The running step's rows are void, whether or not it has sealed. -/
def cutHere (s : State) : State :=
  match s.sched.step with
  | none => s
  | some k =>
    if k.cut then s
    else
      let s1 := setSched s (fun c => { c with step := some { k with cut := true, waiting := [], sealing := true } })
      wantBoundary { s1 with sec := { s1.sec with cuts := satAdd 32 s1.sec.cuts 1 } }

/-- The manager marks a module absent; a running step that names it is cut on every module. -/
def markAbsent (s : State) (m : Nat) : State :=
  if m = s.ql.module ∨ m ∈ s.ql.absent then s
  else
    let hit := match s.sched.step with
      | some k => k.system && m ∈ stepModules s k
      | none => false
    let s1 := { s with ql := { s.ql with absent := s.ql.absent ++ [m], ready := s.ql.ready.filter (· != m) } }
    if hit then
      match s.sched.step with
      | some k => cutHere (broadcast s1 7 [k.number])
      | none => s1
    else s1

/-- SEAL_TIMEOUT: reports of the sealed system step are missing. -/
def sealTimeoutOp (s : State) : State :=
  match s.sched.step, s.ql.sealAt with
  | some k, some t0 =>
    if isManager s && k.system && k.settled && s.ql.named.isNone && t0 + sealTimeoutNs s ≤ now s then
      let missing := (stepModules s k).filter (fun m => !(stepReports s k).any (fun r => r.module == m))
      missing.foldl markAbsent s
    else s
  | _, _ => s

/-- CUT names the running step. -/
def cutOp (s : State) (step : Nat) : State :=
  if isBelow s && s.sched.step.any (fun k => k.number == step && k.system) then cutHere s else s

/-- FENCE reaches the manager. -/
def fenceMsgOp (s : State) (m : Nat) : State := if inService s && isManager s then markAbsent s m else s

/-! ## Plate changes across modules (R220) -/

/-- COMMIT_PREP. The first one of a transaction locks the module's plate change up; the second orders its flip at the boundary that is named
next (log entry 27). -/
def commitPrepOp (s : State) (txn : Nat) : State :=
  if !inService s || !isBelow s then s
  else match s.plates.systemPrep with
  | some (id, _) => if id = txn then setPlates s (fun b => { b with systemPrep := some (id, true) }) else s
  | none => match txnOf s.txns 1 with
    | none => s
    | some x =>
      if x.committing ∨ (commitStatus s 1 x).isSome then s
      else
        let s1 := putTxn s 1 (some { x with committing := true, acceptedAt := now s, reply := none })
        wantBoundary (startDrain (setPlates s1 (fun b => { b with systemPrep := some (txn, false), flipAt := none })))

/-- COMMIT_READY at the manager: a module's record is written, or an absent module is back with the generation in effect. -/
def commitReadyOp (s : State) (m epoch : Nat) : State :=
  if !inService s || !isManager s then s
  else if m ∈ s.ql.absent then
    if epoch = s.plates.epoch then { s with ql := { s.ql with absent := s.ql.absent.filter (· != m) } } else s
  else orderFlip { s with ql := { s.ql with ready := addOnce s.ql.ready m } }

/-! ## Sideband and LINK resets (R445, R446) -/

/-- RESET_REQ on the uplink: for this module a LINK reset, for a sub-worker of a worker it is passed on. -/
def resetReqOp (s : State) (p dest : Nat) : State :=
  if !isBelow s || p != uplink s || !firmwareRuns s then s
  else if dest = s.ql.module then requestReset s .link
  else if sysRole s = 2 then
    match treePort s dest with
    | some q => if q != p && portUp s q then emit s (.control q 10 dest []) else s
    | none => s
  else s

/-- RSTREQ_N low for 10 µs on the uplink. -/
def rstreqOp (s : State) (p low : Nat) : State :=
  if isBelow s && p == uplink s && 10000 ≤ low && firmwareRuns s then requestReset s .link else s

/-- FAULT_N low: the port goes down; from a lower module it counts as FENCE. -/
def qlFaultOp (s : State) (p : Nat) : State :=
  let x := portOf s p
  let s1 := if x.state = 2 then portDown s p 6 else if x.state = 1 then trainFails s p 6 else s
  if x.use = 2 then
    if isManager s then markAbsent s1 x.peer else sendControl s1 11 0 [x.peer, 6]
  else s1

/-! ## Routes (R433) -/

/-- ROUTES: the table of the manager module. The manager itself distributes what it takes. -/
def routesOp (s : State) (table : List (Nat × Nat)) : State :=
  if !inService s || sysRole s == 0 then s
  else
    let s1 := { s with ql := { s.ql with routeTable := table, present := sortAsc ((s.ql.module :: table.map (fun e => e.1)).eraseDups) } }
    if isManager s then broadcast s1 12 (table.flatMap (fun e => [e.1, e.2])) else s1

/-! ## Rows -/

def execBoundaryName (step tB owner : Nat) (withheld : List Nat) (rows : List SysRow) (t : Nat) (s : State) :
    Host.Outcome State Fault Refusal := .next (boundaryNameOp (advance t s) step tB owner withheld rows)

def execSealReport (r : SealReport) (t : Nat) (s : State) : Host.Outcome State Fault Refusal := .next (sealReportOp (advance t s) r)

def execSealTimeout (t : Nat) (s : State) : Host.Outcome State Fault Refusal := .next (sealTimeoutOp (advance t s))

def execCut (step : Nat) (t : Nat) (s : State) : Host.Outcome State Fault Refusal := .next (cutOp (advance t s) step)

def execCommitPrep (txn : Nat) (t : Nat) (s : State) : Host.Outcome State Fault Refusal := .next (commitPrepOp (advance t s) txn)

def execCommitReady (module epoch : Nat) (t : Nat) (s : State) : Host.Outcome State Fault Refusal :=
  .next (commitReadyOp (advance t s) module epoch)

def execResetReq (port dest : Nat) (t : Nat) (s : State) : Host.Outcome State Fault Refusal := onPort port (resetReqOp (advance t s) port dest)

def execFence (module _cause : Nat) (t : Nat) (s : State) : Host.Outcome State Fault Refusal := .next (fenceMsgOp (advance t s) module)

def execRoutes (table : List (Nat × Nat)) (t : Nat) (s : State) : Host.Outcome State Fault Refusal := .next (routesOp (advance t s) table)

def execQlRstreq (port lowNs : Nat) (t : Nat) (s : State) : Host.Outcome State Fault Refusal := onPort port (rstreqOp (advance t s) port lowNs)

def execQlFault (port : Nat) (t : Nat) (s : State) : Host.Outcome State Fault Refusal := onPort port (qlFaultOp (advance t s) port)

end Sys2Proof.Machine
end

