-- ==== Sys2Proof/Machine/HostPort.lean ====
section
/-! DEFINITION. The host port of 18_host_interface: function-level resets, hot reset and power states (R457), MSI-X masks (R456), and the
host memory accesses that commands wait for (R247). -/

namespace Sys2Proof.Machine

/-! ## Function-level resets (R457, R230, R234) -/

/-- What a function-level reset leaves of a function: its TDI, its IDE stream and the replies that wait. -/
def flrFn (f : FnBlk) : FnBlk := { tdi := f.tdi, ide := f.ide, store := f.store }

/-- A request ends at the next boundary with nothing written to host memory. -/
def endSilently (s : State) (i : Nat) : State := markEnd (modReq s i (fun q => { q with silent := true, waiting := [] })) i .cancelled

/-- Requests that satisfy a test end silently; records of ended ones that still wait are dropped. -/
def silenceRequests (s : State) (p : Req → Bool) : State :=
  let s1 := setSched s (fun c => { c with ended := c.ended.filter (fun e => !p e.2) })
  ((s1.reqs.filter (fun e => p e.2)).map (fun (e : Nat × Req) => e.1)).foldl endSilently s1

/-- A channel closes without an end frame; WEB_CLOSE commands that wait for it are answered. -/
def closeSilently (s : State) (e : Nat × Channel) : State :=
  let s1 := closeChan s e.1
  (s1.cmdq.filter (fun x => x.wait == .webClose e.1)).foldl (fun y x => finish y x.hdr.fn x.hdr.seq .ok {} e.2.data e.2.fills) s1

/-- A commit that has been accepted applies without a reply: its command leaves the queue. -/
def dropCommitReply (s : State) (d : Nat) : State :=
  match txnOf s.txns d with
  | none => s
  | some x =>
    if x.committing then
      putTxn { s with cmdq := s.cmdq.filter (fun e => !(e.wait == .commit && e.hdr.txn == x.id)) } d (some { x with reply := none })
    else distribute s d

/-- A function-level reset of the physical function. -/
def flrPfOp (s : State) : State :=
  let s1 := freeAllocations (modFn s 0 flrFn)
  let s2 := (List.range 4).foldl dropCommitReply s1
  let s3 := silenceRequests s2 (fun q => q.fn == 0)
  { s3 with pci := { width := s3.pci.width, rate := s3.pci.rate, spdm := s3.pci.spdm } }

/-- A function-level reset of virtual function n. -/
def flrVfOp (s : State) (n : Nat) : State :=
  let s1 := silenceRequests (modFn s n flrFn) (fun q => q.tenant == n)
  (s1.web.channels.filter (fun e => e.2.tenant == n)).foldl closeSilently s1

/-- The function is a virtual one. -/
def onVf (fn : Nat) (t : State) : Host.Outcome State Fault Refusal := if 1 ≤ fn ∧ fn < 256 then .next t else .fault .noSuchUnit

/-- Functions with state of their own, and virtual functions whose tenants have requests or channels. -/
def touchedFns (s : State) : List Nat :=
  (List.range Config.functions).filter (fun n => n != 0 && ((tfind s.fns n).isSome || s.reqs.any (fun e => e.2.tenant == n)
    || s.web.channels.any (fun e => e.2.tenant == n) || s.sched.ended.any (fun e => e.2.tenant == n)))

/-- A hot reset, link disable or link down: every function acts as after a function-level reset, the host side of the crossings flushes,
and the link trains again to a width and rate. -/
def hotResetOp (s : State) (width rate : Nat) : State :=
  if hostUp s then
    let s1 := (touchedFns s).foldl flrVfOp (flrPfOp s)
    { s1 with fns := s1.fns.map (fun (e : Nat × FnBlk) => (e.1, { e.2 with due := 0 })),
              pci := { s1.pci with width := width, rate := rate, retrains := satAdd 16 s1.pci.retrains 1 } }
  else s

/-! ## MSI-X (R456) -/

/-- Messages that wait go out, as far as masks let them. -/
def sendPending (s : State) (fn : Nat) : State :=
  let f := fnOf s fn
  if f.d3hot || f.funcMask then s
  else
    let go := f.pendingMsg.filter (· ∈ f.unmasked)
    go.foldl (fun x v => emit x (.msix fn v)) (setFn s fn { f with pendingMsg := f.pendingMsg.filter (· ∉ f.unmasked) })

/-- An entry is unmasked, or Function Mask is cleared. -/
def msixUnmaskOp (s : State) (fn : Nat) (entry : Option Nat) : State :=
  sendPending (modFn s fn (fun f => match entry with
    | some v => if v < vectorsOf fn then { f with unmasked := addOnce f.unmasked v } else f
    | none => { f with funcMask := false })) fn

/-! ## Power states (R457) -/

def d3hotOp (s : State) (fn : Nat) : State := if hostUp s then modFn s fn (fun f => { f with d3hot := true }) else s

/-- Return to D0: held replies and records move, and messages that waited go out. -/
def d0Op (s : State) (fn : Nat) : State :=
  if (fnOf s fn).d3hot then sendPending (rereadRings [] (pumpReplies (modFn s fn (fun f => { f with d3hot := false })) fn)) fn else s

/-! ## Host memory accesses of commands (R247) -/

/-- Address and length of the read that a command waits for. -/
def readOf : CmdParams → Option (Nat × Nat)
  | .reqSubmit p => some (p.promptAddr, 4 * p.promptTokens)
  | .formeLoad _ a n => some (a, n)
  | .overlaySet _ _ _ a n => some (a, n)
  | .webOpen p => some (p.silenceAddr, 4 * webG p)
  | _ => none

/-- The command goes on with what the read brought; data of another kind belongs to no read of it. -/
def continueRead (s : State) (e : CmdEntry) (d : ReadData) : State :=
  match e.par, d with
  | .reqSubmit p, .prompt ws => submitRead e.hdr p ws s
  | .formeLoad slot _ n, .forme b => formeRead e.hdr slot n b s
  | .overlaySet t slot layer _ n, .overlay b => overlayRead e.hdr t slot layer n (decodeOverlay b) s
  | .webOpen p, .silence ws => webOpenRead e.hdr p ws s
  | _, _ => s

def readCompleteOp (s : State) (fn seq : Nat) (d : ReadData) : State :=
  match findCmd s fn seq with
  | none => s
  | some e =>
    if s.therm.stopping.isSome then s
    else if e.wait == .hostRead then continueRead s e d
    else match s.plates.load with
      | some ld => if e.wait == .load && ld.fn == fn && ld.seq == seq then imagePartOp s ld d else s
      | none => s

/-- Commands that write their results to host memory before they reply. -/
def writesResult : CmdParams → Bool
  | .identify _ => true
  | .fenceReportGet _ _ => true
  | .attest _ _ => true
  | _ => false

/-- The command has a host access under way: a read it waits for, or the write of its result. -/
def accessing (s : State) (e : CmdEntry) : Bool :=
  s.therm.stopping.isNone && (e.wait == .hostRead
    || (writesResult e.par && mayStart s e.hdr e.par && (checkStatus s e.hdr e.par).isNone))

/-- An access has not completed: it is tried again, and the third failure ends the command with nothing done. -/
def accessTimeoutOp (s : State) (fn seq : Nat) : State :=
  match findCmd s fn seq with
  | none => s
  | some e =>
    if !accessing s e then s
    else if 3 ≤ e.attempts + 1 then reply s e.hdr .hostTimeout
    else
      let s1 := { s with cmdq := modFirst (sameCmd fn seq) (fun x => { x with attempts := x.attempts + 1 }) s.cmdq }
      match readOf e.par with
      | some r => emit s1 (.hostRead fn r.1 r.2)
      | none => s1

/-! ## Rows -/

def execHotReset (width rate : Nat) (t : Nat) (s : State) : Host.Outcome State Fault Refusal :=
  .next (hotResetOp (advance t s) width rate)

def execFlrPf (t : Nat) (s : State) : Host.Outcome State Fault Refusal :=
  let s1 := advance t s
  .next (if hostUp s1 then flrPfOp s1 else s1)

def execFlrVf (fn : Nat) (t : Nat) (s : State) : Host.Outcome State Fault Refusal :=
  let s1 := advance t s
  onVf fn (if hostUp s1 then flrVfOp s1 fn else s1)

def execD3hotEntry (fn : Nat) (t : Nat) (s : State) : Host.Outcome State Fault Refusal := onFn fn (d3hotOp (advance t s) fn)

def execD0Return (fn : Nat) (t : Nat) (s : State) : Host.Outcome State Fault Refusal := onFn fn (d0Op (advance t s) fn)

def execMsixUnmask (fn : Nat) (entry : Option Nat) (t : Nat) (s : State) : Host.Outcome State Fault Refusal :=
  onFn fn (msixUnmaskOp (advance t s) fn entry)

def execHostReadComplete (fn seq : Nat) (d : ReadData) (t : Nat) (s : State) : Host.Outcome State Fault Refusal :=
  onFn fn (readCompleteOp (advance t s) fn seq d)

def execHostAccessTimeout (fn seq : Nat) (t : Nat) (s : State) : Host.Outcome State Fault Refusal :=
  onFn fn (accessTimeoutOp (advance t s) fn seq)

end Sys2Proof.Machine
end

