-- ==== Sys2Proof/Machine/Sideband.lean ====
section
/-! DEFINITION. The sideband and the DOE mailbox of 18_host_interface: SPDM, IDE_KM and TDISP (R458, R459), MCTP (R460), PLDM sensors and the
power budget effecter (R461, R462), firmware updates (R393). -/

namespace Sys2Proof.Machine

/-- The sideband answers while MP0-MP3 run, and for firmware updates also when no firmware slot verifies (R460, R393). -/
def sidebandUp (s : State) : Bool := firmwareRuns s || s.rst.phase == .noFirmware

/-! ## SPDM, IDE_KM, TDISP (R458, R459) -/

/-- A virtual function whose TDI an SPDM session may move. -/
def tdiMove (s : State) (fn old new : Nat) : State :=
  if s.pci.spdm && 1 ≤ fn && fn < 256 && (fnOf s fn).tdi == old then
    emit (modFn s fn (fun f => { f with tdi := new })) (.sideband [new])
  else s

/-- Keys of a selective stream of a function come into use or go; a refresh carries the stream on. -/
def setStream (s : State) (fn : Nat) (on : Bool) : State :=
  if s.pci.spdm && fn < 256 then emit (modFn s fn (fun f => { f with ide := on })) (.sideband [b2n on]) else s

def spdmOp (s : State) (m : SpdmMsg) : State :=
  if !hostUp s then s
  else match m with
    | .session => emit { s with pci := { s.pci with spdm := true } } (.sideband [1])
    | .ideKeys fn => setStream s fn true
    | .ideRefresh fn => if (fnOf s fn).ide then setStream s fn true else s
    | .ideStop fn => setStream s fn false
    | .tdiLock fn => tdiMove s fn 0 1
    | .tdiRun fn => tdiMove s fn 1 2

/-! ## MCTP (R460) -/

def setEidOp (s : State) (eid : Nat) : State :=
  if sidebandUp s && eid < 256 then emit { s with side := { s.side with eid := eid } } (.sideband [eid]) else s

/-! ## PLDM sensors (R461) -/

/-- Module power in W: the mean of the last 1 ms, or, while a confidential tenant is present, that of the last 100 ms window rounded to the
nearest 25 W (R389). -/
def powerShown (s : State) : Nat :=
  if confPresent s then (min 65535 s.sec.power100 + 12) / 25 * 25 else min 65535 s.sec.power

/-- The mean code of a hub sense entry's last window; zero for the entries that R389 hides. -/
def hubSense (s : State) (entry : Nat) (hidden : Bool) : Int :=
  let w := tget {} (senseOf s 640).shown entry
  if hidden && confPresent s then 0 else if w.count = 0 then 0 else w.sum / (w.count : Nat)

/-- Readings in the order of the table of R461 (log entry 28): input power, voltage and current, hottest logic or array, hub temperature and
hottest HBM4 stack, VBK, then the states thermal alert, orderly stop, limp start, time base locked, and the power budget. -/
def sensorReading (s : State) : Nat → Int
  | 0 => powerShown s
  | 1 => hubSense s 0 true
  | 2 => hubSense s 1 true
  | 3 => (shownMax s false).getD 0
  | 4 => (aget s.therm.shown (.hub 0)).getD 0
  | 5 => (shownMax s true).getD 0
  | 6 => hubSense s 3 true
  | 7 => b2n s.therm.alert
  | 8 => b2n s.therm.stopping.isSome
  | 9 => b2n s.aon.limp
  | 10 => b2n s.time.locked
  | 11 => s.aon.powerBudget
  | _ => 0

/-- Words of an answer; FRU data and PDRs hold what their standards fix (log entry 7). -/
def pldmAnswer (s : State) : PldmReq → List Nat
  | .sensor id => [id, ofSigned 32 (sensorReading s id)]
  | .fru => [s.nv.serial, Config.recordWord 3 0]
  | .getPdr => [12, Config.recordWord 4 0]

/-- A request is answered, and an event that waited has been read. -/
def pldmOp (s : State) (r : PldmReq) : State :=
  if firmwareRuns s then
    let s1 := emit s (.sideband (pldmAnswer s r))
    if s1.side.event then release { s1 with side := { s1.side with event := false } } .smbAlert else s1
  else s

/-- The power budget effecter: 0 or 500 to 3,300 W, in effect at the next boundary; the later of two arrivals decides (R462). -/
def pldmBudgetOp (s : State) (b : Nat) : State :=
  if firmwareRuns s && (b == 0 || (500 ≤ b && b ≤ 3300)) then wantBoundary { s with power := { s.power with staged := some b } } else s

/-! ## Firmware update (R393) -/

/-- A new image lands in the slot that the running one does not use, and takes effect at the next start. -/
def fwUpdateOp (s : State) (u : FwUpdate) : State :=
  if !sidebandUp s then s
  else match u with
    | .request => { s with side := { s.side with fwState := 1, fwBytes := 0 } }
    | .data n => if s.side.fwState = 1 then { s with side := { s.side with fwBytes := s.side.fwBytes + n } } else s
    | .finish v svn ok =>
      if s.side.fwState = 1 then
        { s with side := { s.side with fwState := 0, fwBytes := 0 }, nv := { s.nv with fw := [⟨v, svn, ok⟩, s.nv.fwActive] } }
      else s
    | .cancel => { s with side := { s.side with fwState := 0, fwBytes := 0 } }

/-! ## Rows -/

def execSpdmMessage (m : SpdmMsg) (t : Nat) (s : State) : Host.Outcome State Fault Refusal := .next (spdmOp (advance t s) m)

def execMctpSetEndpointId (eid : Nat) (t : Nat) (s : State) : Host.Outcome State Fault Refusal := .next (setEidOp (advance t s) eid)

def execPldmRequest (r : PldmReq) (t : Nat) (s : State) : Host.Outcome State Fault Refusal := .next (pldmOp (advance t s) r)

def execPldmSetPowerBudget (budget : Nat) (t : Nat) (s : State) : Host.Outcome State Fault Refusal :=
  .next (pldmBudgetOp (advance t s) budget)

def execPldmFirmwareUpdate (u : FwUpdate) (t : Nat) (s : State) : Host.Outcome State Fault Refusal :=
  .next (fwUpdateOp (advance t s) u)

end Sys2Proof.Machine
end

