-- ==== Sys2Proof/Machine/Registers.lean ====
section
/-! DEFINITION. BAR0 of 18_host_interface: sizes and alignment (R453), the map (R454), core windows (R455), what every register reads as
(the register tables of each chapter, R389 while a confidential tenant is present), and what a write does by access code (R4, R7, R8). -/

namespace Sys2Proof.Machine

/-! ## Views (R389) -/

/-- Fields at their bit offsets. -/
def pack (l : List (Nat × Nat)) : Nat := sumNat (l.map (fun (e : Nat × Nat) => e.2 * 2 ^ e.1))

/-- A counter or status field that reads zero while a confidential tenant is present. -/
def hid (s : State) (v : Nat) : Nat := if confPresent s then 0 else v

/-- Rounded toward zero to 8 significant bits. -/
def sig8 (v : Nat) : Nat := let k := Nat.log2 v; if k < 8 then v else v / 2 ^ (k - 7) * 2 ^ (k - 7)

/-- A per-tenant reading, and a signed one. -/
def coarse (s : State) (v : Nat) : Nat := if confPresent s then sig8 v else v
def coarseInt (s : State) (v : Int) : Int := if confPresent s then (if v < 0 then -(sig8 v.natAbs : Int) else (sig8 v.toNat : Int)) else v

/-- What the per-tenant registers show: the module as it is, or as the last tick saw it. -/
def shownView (s : State) : TickView := if confPresent s then s.seen else viewOf s

/-! ## PCI and command blocks (R463, R253) -/

def degraded (s : State) : Bool := s.pci.width != 0 && (s.pci.width < 16 || s.pci.rate < 3)
def tdiRunning (s : State) : Nat := (s.fns.filter (fun e => e.2.tdi == 2)).length
def ideStreams (s : State) : Nat := (s.fns.filter (fun e => e.2.ide)).length

def readPci (s : State) (o : Nat) : Nat :=
  match o with
  | 0x0 => pack [(31, b2n (degraded s)), (24, s.pci.rate % 8), (16, s.pci.width % 32), (0, s.pci.retrains % 65536)]
  | 0x4 => s.pci.accessErr
  | 0x8 => s.pci.eventCfg.toNat
  | 0xC => pack [(8, min 255 (tdiRunning s)), (0, ideStreams s - 1)]
  | 0x10 => (tget 0 s.pci.winSel 0).toNat + b2n (0 < ideStreams s) * 2 ^ 30
  | 0x14 => (tget 0 s.pci.winSel 1).toNat
  | 0x18 => (tget 0 s.pci.winSel 2).toNat
  | 0x1C => (tget 0 s.pci.winSel 3).toNat
  | _ => 0

def readCmd (s : State) (fn o : Nat) : Nat :=
  let f := fnOf s fn
  match o with
  | 0x04 => pack [(2, f.frontier / 4), (1, b2n f.header), (0, b2n f.overrun)]
  | 0x08 => f.droppedSeq
  | 0x10 => f.mirrorLo.toNat
  | 0x14 => f.mirrorHi.toNat
  | 0x18 => f.replyLo.toNat
  | 0x1C => f.replyHi.toNat
  | 0x20 => f.replyCfg.toNat
  | 0x24 => f.head
  | 0x28 => f.tail
  | 0x2C => pack [(16, min 65535 (latencyShown s f)), (0, queueCount s fn)]
  | 0x30 => f.cmdCfg.toNat
  | _ => 0

/-- MSI-X table and pending bits (R456): the vector control word carries the mask bit. -/
def readMsix (s : State) (fn o : Nat) : Nat :=
  let f := fnOf s fn
  if o % 16 = 12 then b2n (o / 16 ∉ f.unmasked) else (tget 0 f.msixTable (o / 4)).toNat

def readPba (s : State) (fn o : Nat) : Nat :=
  sumNat ((List.range 32).map (fun i => if 8 * o + i ∈ (fnOf s fn).pendingMsg then 2 ^ i else 0))

/-! ## Hub blocks -/

def hubTenant (s : State) : Nat := s.sched.tenantSel.toNat % 256

def reqCount (s : State) (t : Nat) (waiting : Bool) : Nat :=
  min 65535 (((shownView s).reqs.filter (fun e => e.1 == t && (e.2 == .queued || e.2 == .held) == waiting)).length)

def readSched (s : State) (o : Nat) : Nat :=
  let t := hubTenant s
  match o with
  | 0x00 => opt s Off.sched
  | 0x04 => pack [(31, b2n s.sched.overcommit), (0, s.reqs.length)]
  | 0x08 => hid s (s.sched.sealed % 2 ^ 32)
  | 0x0C => hid s (s.sched.sealed / 2 ^ 32)
  | 0x10 => let v := min (2 ^ 32 - 1) s.sched.stepTime; if confPresent s then v / 1000000 * 1000000 else v
  | 0x14 => hid s s.sched.aged
  | 0x18 => hid s s.sched.overcommits
  | 0x1C => hid s s.sched.deadlines
  | 0x20 => s.sched.tenantSel.toNat
  | 0x24 => ofSigned 32 (coarseInt s (tget {} (shownView s).tenants t).sealedD)
  | 0x28 => pack [(16, coarse s (reqCount s t false)), (0, coarse s (reqCount s t true))]
  | _ => 0

def readFallback (s : State) (o : Nat) : Nat :=
  match o with
  | 0x00 => opt s Off.fallback
  | 0x04 => hid s (pack [(16, min 511 s.sched.stretch), (15, b2n s.sched.short), (0, min 127 s.sched.used)])
  | 0x08 => hid s s.sched.denied
  | 0x0C => hid s s.sched.granted
  | 0x10 => s.sched.precSel.toNat
  | 0x14 =>
    let slot := fld s.sched.precSel.toNat 23 16
    let layer := fld s.sched.precSel.toNat 15 0
    (match formeOf s slot, layerRec s slot layer with
    | some f, some _ =>
      let x := tget {} f.layers layer
      pack [(27, b2n x.ladderEnd), (26, b2n x.precLast), (24, x.rung % 4), (0, min 65535 x.clean)]
    | _, _ => 0)
  | _ => 0

/-- MOD_PLATE_STATUS.PHASE (R224). -/
def platePhase (s : State) : Nat :=
  match s.plates.load with
  | some d => if s.plates.waiting != [] then 8 else if d.part < 4 then 1 else 2
  | none => match s.txns.plate with
    | none => 0
    | some x =>
      if s.plates.waiting != [] then 8
      else if !x.committing then (if s.plates.claims != [] then 3 else 0)
      else if s.plates.draining.isSome then 6
      else if s.plates.rewriting && !changeWritten s then 7
      else if x.recordWritten && pinnedHolding s != 0 then 5
      else 4

def readPlate (s : State) (o : Nat) : Nat :=
  match o with
  | 0x00 => opt s Off.plate
  | 0x04 => pack [(28, platePhase s), (0, if s.txns.plate.any (·.committing) then min 65535 (pinnedHolding s) else 0)]
  | 0x08 => hid s s.plates.progress
  | 0x0C => hid s s.plates.epoch
  | 0x10 => hid s s.plates.rate
  | 0x14 => hid s (pack [(24, min 255 s.plates.nSpare), (16, min 255 s.plates.nReported), (8, min 255 s.plates.nStuck),
      (0, min 255 s.plates.nAdjusted)])
  | _ => 0

def readKv (s : State) (o : Nat) : Nat :=
  match o with
  | 0x00 => opt s Off.kv
  | 0x04 => if inService s then kvPool s else 0
  | 0x08 => if inService s then s.kv.freeShown else 0
  | 0x0C => hid s s.kv.drops
  | 0x10 => hid s s.kv.recomputed
  | 0x14 => hid s s.kv.crcFails
  | 0x18 => hid s s.kv.remote
  | 0x1C => hid s s.kv.empty
  | 0x20 => coarse s (tenantSheets { s.kv with alloc := (shownView s).alloc } (hubTenant s))
  | _ => 0

/-- The group that a channel number belongs to, open or closed (R318). -/
def groupOf (v : TickView) (w : Nat) : Option Nat := (v.groups.find? (fun e => w ∈ e.2)).map (·.1)

/-- WEB_CHAN_STATE. DESIGN CHOICE (log entry 106): the rounding of R389 is taken field by field. -/
def chanState (s : State) (w : Nat) : Nat :=
  let v := shownView s
  let g := groupOf v w
  pack [(22, b2n g.isSome), (11, coarse s (g.getD 0))] + (match tfind v.channels w with
    | some c => pack [(30, if chanLive c then 2 else 1), (27, c.p.dclass), (23, c.queue.length), (21, b2n c.filling),
        (0, coarse s (c.p.cadence % 1024))]
    | none => 0)

def readWeb (s : State) (o : Nat) : Nat :=
  let w := s.web.chanSel.toNat % 4096
  let c := tfind (shownView s).channels w
  let of := fun (f : Channel → Nat) => (c.map f).getD 0
  match o with
  | 0x00 => opt s Off.web
  | 0x04 => s.web.channels.length
  | 0x08 => hid s s.web.fillCount
  | 0x10 => s.web.chanSel.toNat
  | 0x14 => chanState s w
  | 0x18 => coarse s (of (fun x => x.slot % 2 ^ 32))
  | 0x1C => coarse s (min (2 ^ 32 - 1) (of (·.data)))
  | 0x20 => coarse s (of (·.fills))
  | 0x24 => coarse s (of (·.t0)) % 2 ^ 32
  | 0x28 => coarse s (of (·.t0)) / 2 ^ 32
  | _ => 0

def readShare (s : State) (o : Nat) : Nat :=
  match o with
  | 0x00 => pack [(31, b2n s.kv.reserveShort), (0, min 65535 s.kv.claims.length)]
  | 0x04 => hid s s.kv.claimsMet
  | 0x08 => hid s s.kv.claimMiss
  | 0x0C => hid s s.share.lost
  | 0x10 => s.share.resSel.toNat
  | 0x14 =>
    let kind := fld s.share.resSel.toNat 8 8
    let i := fld s.share.resSel.toNat 5 0
    if resCount kind ≤ i then 0
    else
      let inSet := b2n (decide (i ∈ safetySet kind)) * 2 ^ 29
      (match resHolder s kind i with
      | none => inSet
      | some (.inl tag) => 2 ^ 31 + inSet + tag % 65536
      | some (.inr _) => 2 ^ 31 + 2 ^ 30 + inSet)
  | _ => 0

def readFault (s : State) (o : Nat) : Nat :=
  let f := s.faults
  match o with
  | 0x00 => opt s Off.fault + b2n s.nv.p2Fuse * 2 ^ 30
  | 0x04 => pack [(16, hid s (min 65535 f.lost)), (15, b2n f.optionVote), (0, f.reports.length)]
  | 0x08 => opt s Off.dualCfg
  | 0x0C => opt s Off.testCfg
  | 0x10 => pack [(31, b2n s.sched.slotNext), (0, (overdueCores s).length)]
  | 0x14 => hid s f.late
  | 0x18 => hid s f.restarts
  | 0x1C => hid s f.dualMismatch
  | 0x20 => hid s f.ce
  | 0x24 => hid s f.ue
  | 0x28 => hid s f.voteRepair
  | 0x2C => hid s f.testSlots
  | 0x30 => hid s f.testFails
  | 0x34 => opt s Off.auditPeriod
  | 0x38 => hid s s.plates.auditSkips
  | 0x40 => f.eccCtrl.toNat
  | 0x44 => f.eccOffset.toNat
  | 0x48 => f.eccUnitLo.toNat
  | 0x4C => f.eccUnitHi.toNat
  | 0x50 => f.eccDataLo.toNat
  | 0x54 => f.eccDataHi.toNat
  | 0x58 => pack [(31, b2n f.eccDone), (30, b2n f.eccRefused), (29, b2n f.eccUe), (28, b2n f.eccCe), (16, f.eccSyndrome % 256), (8, f.eccCheck % 256)]
  | _ => 0

/-- SEC_TENANT_STATE.STATE (R374). -/
def tenantState (s : State) (t : Nat) : Nat :=
  match tenantSlot s t with
  | 0 => 0
  | 1 => if (tenantOf s t).enabled then 2 else 1
  | _ => 3

def readSec (s : State) (o : Nat) : Nat :=
  let t := s.sec.tenantSel.toNat % 256
  match o with
  | 0x00 => pack [(31, b2n (confPresent s)), (30, b2n s.sec.debugScope.isSome), (27, s.sec.debugScope.getD 0 % 8),
      (26, b2n (overwritePending s)), (0, s.nv.leafBlocks)]
  | 0x04 => opt s Off.confCfg
  | 0x08 => s.sec.tenantSel.toNat
  | 0x0C => pack [(30, tenantState s t), (28, tenantSlot s t), (27, b2n (tenantOf s t).confidential),
      (26, b2n (s.sched.step.any (fun k => k.owner == t))), (0, if tenantSlot s t = 1 then (tenantOf s t).epoch % 256 else 0)]
  | 0x10 => powerShown s
  | 0x14 => coarse s (shownView s).washdowns
  | 0x18 => coarse s (shownView s).cuts
  | 0x1C => coarse s (shownView s).epochDrops
  | _ => if 0x20 ≤ o ∧ o < 0x40 ∧ o % 4 = 0 then s.sec.challenge / 2 ^ (8 * (o - 0x20)) % 2 ^ 32 else 0

def readRst (s : State) (o : Nat) : Nat :=
  let srcs := sumNat ((s.aon.sources.eraseDups).map (fun x => 2 ^ srcCode x))
  match o with
  | 0x00 => pack [(10, s.aon.wdtMp % 4), (9, b2n s.aon.limp), (8, b2n s.aon.vbkLost), (0, srcs)]
  | 0x04 => s.aon.rstCfg.toNat
  | 0x08 => pack [(16, s.aon.totalAborts), (1, s.aon.consec), (0, b2n s.rst.loadDone)]
  | _ => if 0x10 ≤ o ∧ o < 0x2C ∧ o % 4 = 0 then hid s (rstCount s ((o - 0x10) / 4)) else 0

def readTherm (s : State) (o : Nat) : Nat :=
  match o with
  | 0x00 => pack [(8, s.nv.hbmLimit % 256), (0, opt s Off.therm)]
  | 0x04 => pack [(31, b2n s.therm.alert), (30, b2n s.therm.stopping.isSome), (16, min 255 s.therm.broken.length),
      (0, ofSigned 16 ((shownMax s false).getD 0))]
  | 0x08 => pack [(29, s.aon.thermCause % 8), (28, b2n s.aon.thermHard), (0, ofSigned 16 s.aon.thermReading)]
  | 0x0C => s.aon.thermAddr % 2 ^ 32
  | 0x10 => s.aon.thermAddr / 2 ^ 32
  | 0x14 => hid s s.therm.brokenCount
  | _ => 0

def readTimer (x : Timer) (o : Nat) : Nat :=
  match o with
  | 0x00 => pack [(31, b2n x.en), (30, b2n x.periodic)]
  | 0x04 => x.period.toNat
  | 0x08 => x.cmpLo.toNat
  | 0x0C => x.cmpHi.toNat
  | 0x10 => pack [(31, b2n x.late), (0, x.edges % 2 ^ 30)]
  | _ => 0

/-- A standalone module and a manager follow no one: their time base counts as locked, at offset zero (R424). -/
def shownLock (s : State) : Bool := s.time.locked || (sysRole s ≤ 1 && s.time.valid)

def readTime (s : State) (fn o : Nat) : Nat :=
  let m := s.time
  match o with
  | 0x00 => now s % 2 ^ 32
  | 0x04 => (tget 0 m.latch fn).toNat
  | 0x08 => pack [(31, b2n m.valid), (30, b2n (shownLock s)), (28, sysRole s), (27, b2n m.stepped), (0, ofSigned 16 m.slew)]
  | 0x0C => ofSigned 32 (max (-(2 ^ 31)) (min (2 ^ 31 - 1) m.offset))
  | 0x10 => pack [(7, b2n m.stuck), (6, b2n m.ovrAon), (5, b2n m.ovrQl), (4, b2n m.ovrPci), (3, b2n m.ovrHbm), (2, b2n m.ovrRgn)]
  | 0x14 => hid s m.ovrCount
  | _ => if 0x100 ≤ o ∧ o < 0x900 then readTimer (timerOf s ((o - 0x100) / 0x20)) ((o - 0x100) % 0x20) else 0

def portsUp (s : State) : Nat := ((List.range 36).filter (portUp s)).length

def readPort (s : State) (p o : Nat) : Nat :=
  let x := portOf s p
  match o with
  | 0x00 => opt s (Off.portCtrl p)
  | 0x04 => pack [(29, x.state), (26, x.cause), (24, x.use), (5, x.peer), (0, x.lanes)]
  | 0x08 => hid s x.crc
  | 0x0C => hid s x.retry
  | 0x10 => hid s x.downs
  | _ => 0

def readQl (s : State) (o : Nat) : Nat :=
  if o = 0 then opt s Off.ql
  else if o = 4 then pack [(21, s.ql.module), (20, b2n (2 ≤ sysRole s && portUp s (uplink s))),
    (8, if sysRole s = 1 then s.ql.absent.length else 0), (7, b2n s.ql.late), (0, portsUp s)]
  else if o = 8 then s.ql.peerSel.toNat
  else if 0x10 ≤ o ∧ o < 0x30 ∧ o % 4 = 0 then opt s (Off.peerKey (fld s.ql.peerSel.toNat 5 0) ((o - 0x10) / 4))
  else if 0x1000 ≤ o ∧ o < 0x1900 then readPort s ((o - 0x1000) / 0x40) ((o - 0x1000) % 0x40)
  else 0

/-! ## Sense blocks, regions, cores (R182, R71, R102, R136, R347, R373, R427) -/

/-- Channels whose sums read zero while a confidential tenant is present. -/
def senseHidden (conv ch : Nat) : Bool :=
  if conv < 640 then 2 ≤ ch && ch ≤ 5 else ch == 0 || ch == 1 || ch == 3 || (0x20 ≤ ch && ch ≤ 0x29)

/-- The SENSE_ registers of a converter, from offset 0x100 of its block. -/
def readSense (s : State) (conv o : Nat) : Nat :=
  let q := senseOf s conv
  if 0x100 ≤ o ∧ o < 0x180 ∧ o % 4 = 0 then (if inService s then entryWord s conv ((o - 0x100) / 4) else senseEntry s conv ((o - 0x100) / 4))
  else if o = 0x180 then senseTrig s conv
  else if o = 0x184 then pack [(16, hid s q.miss), (2, b2n q.badChannel), (1, b2n (decide (now s < q.hostUntil))), (0, b2n (decide (now s < q.fwUntil)))]
  else if 0x200 ≤ o ∧ o < 0x400 then
    let n := (o - 0x200) / 16
    let w := tget {} q.shown n
    let ch := w.chan
    let off := confPresent s && senseHidden conv ch
    let sum := ofSigned 48 (if off then 0 else w.sum)
    (match o % 16 with
    | 0 => sum % 2 ^ 32
    | 4 => pack [(16, min 65535 w.count), (0, sum / 2 ^ 32)]
    | 8 => if w.count = 0 then 0 else pack [(24, ch), (0, ofSigned 24 (if off then 0 else w.lo))]
    | 12 => if w.count = 0 then 0 else pack [(24, ch), (0, ofSigned 24 (if off then 0 else w.hi))]
    | _ => 0)
  else if 0x400 ≤ o ∧ o < 0x480 ∧ o % 4 = 0 then
    let n := (o - 0x400) / 4
    (match tfind q.proof n with
    | some v => pack [(24, v.1), (0, ofSigned 24 v.2)]
    | none => 0)
  else 0

/-- Calibration phase of a region, and whether one of its units is suspect. -/
def regionPhase (s : State) (rk : Nat) : Nat :=
  if s.cmdq.any (fun e => e.wait == .calSelf) then 3 else ((regionOf s rk).pass.map (·.kind)).getD 0

def regionSuspect (s : State) (rk : Nat) : Bool :=
  (regionOf s rk).refRuns != [] || (regionOf s rk).sense.rejectRun != 0 || regionStack rk ∈ s.bandgap.suspect
    || s.cores.any (fun c => coreRegion c.1 == rk && c.2.runs != [])

def readRegion (s : State) (rk o : Nat) : Nat :=
  let g := regionOf s rk
  match o with
  | 0x040 => opt s (Off.region rk + 0x40)
  | 0x044 => pack [(16, hid s (g.edges % 65536)), (1, b2n g.lastSimul), (0, b2n (regionLocked s rk))]
  | 0x080 => opt s (Off.region rk + 0x80)
  | 0x084 => pack [(24, hid s (g.passes % 256)), (16, regionPhase s rk), (15, b2n (regionSuspect s rk)), (14, b2n g.ageGap)]
  | 0x088 => hid s g.rejects
  | 0x08C => g.age / 2 ^ 20 % 2 ^ 32
  | 0x090 => g.ageAtDrift / 2 ^ 20 % 2 ^ 32
  | 0x094 => hid s g.twinOnly
  | 0x500 => pack [(12, stageGranules g.stage), (0, match logicalRegionKey s rk with
      | some l => min 4095 (accTotal s.formes l)
      | none => 0)]
  | 0x504 => pack [(12, match logicalRegionKey s rk with
      | some l => sharedLeft s.formes l - (stageGranules g.stage - 768) - (g.adapt - 256)
      | none => 0), (0, g.adapt)]
  | 0x508 => hid s g.wbShort
  | 0x50C => pack [(16, hid s (min 65535 g.dmaWaits)), (0, g.dmaHeld.length)]
  | 0x600 => pack [(16, hid s (min 65535 g.cdcCount)), (2, b2n g.ovrHub), (1, b2n g.ovrCore), (0, b2n g.ovrConv)]
  | _ => readSense s rk o

/-- A plane descriptor as 192 bits (R72). -/
def descBits (d : PlaneDesc) : Nat :=
  pack [(0, d.state), (4, d.wmode), (8, d.zeroPoint % 256), (16, d.skimValid % 256)]
    + sumNat ((List.range 8).map (fun n => d.skimRow.getD n 0 % 256 * 2 ^ (64 + 8 * n)))
    + sumNat (d.xmap.map (fun (e : Nat × Nat) => (512 + e.2 % 512) * 2 ^ (128 + 10 * e.1)))

/-- TILE_STATUS.STATE: a fenced core's tiles read 5, others what they do at the instant. -/
def tileState (s : State) (ck : Nat) (x : Tile) : Nat := if coreFenced s ck then 5 else workAt x (now s)

/-- The TILE_ registers of a tile (R71, R72).
DESIGN CHOICE (log entry 90): TILE_PDESC_SEL at a plane number from 1,408 on shows a descriptor of zeros. -/
def readTile (s : State) (ck t o : Nat) : Nat :=
  let x := tileOf (coreOf s ck) t
  let tk := tileKey ck t
  match o with
  | 0x00 => pack [(24, tileState s ck x), (17, b2n (s.rst.loadDone && !x.badY1)), (16, b2n (s.rst.loadDone && !x.badY0)),
      (11, b2n (engagedShown x (now s)).isSome), (0, (engagedShown x (now s)).getD 0)]
  | 0x04 => pack [(16, ((planesIn s tk 1).filter (fun p => (logicalPlane s tk (planeNo p)).isSome)).length), (8, min 64 (planesIn s tk 3).length),
      (0, min 127 (planesIn s tk 4).length)]
  | 0x0C => x.pdescSel.toNat
  | _ => if 0x10 ≤ o ∧ o < 0x28 ∧ o % 4 = 0 then
      let p := x.pdescSel.toNat % 2048
      if p < 1408 then descBits (descOf s (planeKey tk p)) / 2 ^ (8 * (o - 0x10)) % 2 ^ 32 else 0
    else 0

def stuckLo (e : Stuck) : Nat := pack [(31, 1), (16, e.plane % 2048), (8, e.row % 256)]
def stuckHi (e : Stuck) : Nat := pack [(8, e.col % 512), (4, e.intended % 16), (0, e.stuck % 16)]

def readStuck (s : State) (ck o : Nat) : Nat :=
  let l := (tileOf (coreOf s ck) (o / 0x80)).stuck
  match l[o % 0x80 / 8]? with
  | some e => if o % 8 = 0 then stuckLo e else if o % 8 = 4 then stuckHi e else 0
  | none => 0

def readFactor (c : Core) (k : Nat) : Nat :=
  let x := tget (0x200, 0, false) c.factor k
  pack [(16, x.1 % 1024), (8, ofSigned 8 x.2.1), (1, b2n ((tfind c.runs k).isSome)), (0, b2n x.2.2)]

/-- SUSPECT_CONV: the lowest-numbered suspect converter. -/
def suspectConv (c : Core) : Nat := ((List.range 68).find? (fun k => (tfind c.runs k).isSome)).getD 0xFF

def readProof (c : Core) (o : Nat) : Nat :=
  let i := o / 4
  match c.proofResult[i]? with
  | some v => pack [(16, entryOfColumn i), (11, b2n v.2), (0, v.1 % 2048)]
  | none => 0

def finalisingMask (c : Core) (p : Bank → Bool) : Nat := sumNat ((List.range 4).map (fun b => b2n (p (bankOf c b)) * 2 ^ b))

def readCore (s : State) (ck o : Nat) : Nat :=
  let c := coreOf s ck
  let g := regionOf s (coreRegion ck)
  if 0x100 ≤ o ∧ o < 0x500 then readTile s ck ((o - 0x100) / 0x40) ((o - 0x100) % 0x40)
  else if 0x800 ≤ o ∧ o < 0xC40 ∧ o % 4 = 0 then readProof c (o - 0x800)
  else if 0x2000 ≤ o ∧ o < 0x2800 then readStuck s ck (o - 0x2000)
  else if 0x4000 ≤ o ∧ o < 0x4110 ∧ o % 4 = 0 then readFactor c ((o - 0x4000) / 4)
  else match o with
  | 0x0000 => opt s Off.strobeCfg
  | 0x0004 => opt s Off.convCfg + 2 * b2n c.fineLast
  | 0x0008 => pack [(8, c.failedConv), (0, b2n c.convFault)]
  | 0x000C => hid s c.ovrCount
  | 0x0010 => hid s (c.strobeCount % 2 ^ 32)
  | 0x0014 => hid s (c.strobeCount / 2 ^ 32)
  | 0x0018 => hid s c.suppressCount
  | 0x001C => hid s c.lateCount
  | 0x0020 => c.proofCtrl.toNat
  | 0x0024 => pack [(8, c.proofPlane), (4, c.proofTile), (3, b2n c.proofRefused), (2, b2n c.proofFine), (1, b2n c.proofOverrun), (0, b2n c.proofValid)]
  | 0x0028 => c.proofTime % 2 ^ 32
  | 0x002C => c.proofTime / 2 ^ 32
  | 0x1000 => c.layerReg.toNat
  | 0x1004 => c.layer1.toNat
  | 0x1008 => c.layer2.toNat
  | 0x100C => hid s (pack [(5, c.lastCause), (3, b2n c.stPrecision), (2, b2n c.stSat), (1, b2n c.stNear), (0, b2n c.stFailed)])
  | 0x1010 => let v := if confPresent s then g.tShown else (g.tNow, g.tCal)
              pack [(16, ofSigned 16 v.2), (0, ofSigned 16 v.1)]
  | 0x1014 => hid s c.failCount
  | 0x1018 => hid s c.nearCount
  | 0x101C => hid s c.clampCount
  | 0x1020 => hid s c.satCount
  | 0x1030 => pack [(16, c.envArea), (0, b2n c.monEn)]
  | 0x1034 => (match c.monPlane with
    | some (t, p) => pack [(16, 1), (12, t), (0, p)]
    | none => 0)
  | 0x1038 => hid s (pack [(18, b2n c.monPrec), (17, b2n c.monAlarm), (16, b2n c.monDone), (0, c.monCount % 4096)])
  | 0x103C => hid s c.monSkip
  | 0x1040 => opt s Off.auditCfg
  | 0x1044 => hid s c.auditCount
  | 0x1048 => hid s c.auditFail
  | 0x104C => hid s c.auditSkip
  | 0x3000 => pack [(8, c.parked), (4, finalisingMask c (·.finalising)), (0, finalisingMask c (fun b => b.desc.isSome))]
  | 0x3004 => hid s c.spills
  | 0x3008 => hid s c.accSat
  | 0x300C => hid s (opt s Off.srSeed)
  | 0x4110 => pack [(16, hid s (min 65535 c.rejects)), (8, suspectConv c), (0, b2n s.rst.calDone)]
  | 0x5000 => pack [(30, c.testResult), (29, b2n c.testDue), (28, b2n c.testOverdue),
      (0, hid s (min (2 ^ 24 - 1) ((now s - c.testSince) / 60000000000)))]
  | _ => 0

/-! ## Windows and the map (R452-R455) -/

/-- The physical core that a window selects. -/
def winCore (s : State) (w : Nat) : Option Nat :=
  let v := (tget 0 s.pci.winSel w).toNat
  if bitAt v 31 ∧ fld v 29 24 < 40 ∧ fld v 19 16 < 16 ∧ fld v 7 0 < 160 then some (coreKey (fld v 29 24) (fld v 19 16) (fld v 7 0)) else none

/-- Registers of the physical function that no rule returns to their reset values after a limp start: the PCI, command, reset, thermal and
time blocks, MSI-X, the strobe registers of R71, those of R136, and RGN_CDC_STATUS. -/
def limpKeeps (off : Nat) : Bool :=
  let o := off % 0x1000
  off < 0x2000 || (0xA000 ≤ off && off < 0xE000) || 0x800000 ≤ off
    || (Off.region 0 ≤ off && off < Off.core && (o < 0x80 || 0x600 ≤ o))
    || (Off.core ≤ off && ((off - Off.core) % 0x8000 < 0x1000 || (off - Off.core) % 0x8000 / 0x1000 == 3))

/-- The module as it was before anything was loaded: what every other register reads after a limp start (R103, R151, R182, R224, R282, R306,
R325, R347, R373, R396, R447). -/
def blankView (s : State) : State :=
  { s with
    time := { s.time with base := 0 }, rst := { s.rst with calDone := false }, opts := ⟨[], [], []⟩, nv := { s.nv with p2Fuse := false, leafBlocks := 0 }, cmdq := [],
    txns := {}, cores := [], regions := [], hubSense := [], bandgap := {}, formes := [], plates := {}, sched := {}, reqs := [],
    tenants := [], overlays := [], kv := {}, web := {}, share := {}, faults := {}, sec := {}, ql := {}, seen := {} }

/-- The state that a register of the physical function is read from. -/
def limpView (s : State) (off : Nat) : State := if s.rst.phase = .limp ∧ limpKeeps off = false then blankView s else s

def readPf (s0 : State) (off : Nat) : Nat :=
  let s := limpView s0 off
  let o := off % 0x1000
  match off / 0x1000 with
  | 0x0 => readPci s o
  | 0x1 => readCmd s 0 o
  | 0x2 => readSched s o
  | 0x3 => readFallback s o
  | 0x4 => readPlate s o
  | 0x5 => readKv s o
  | 0x6 => readWeb s o
  | 0x7 => readShare s o
  | 0x8 => readFault s o
  | 0x9 => readSec s o
  | 0xA => readRst s o
  | 0xB => readTherm s o
  | 0xC => readTime s 0 o
  | 0xE => readQl s o
  | 0xF => readQl s (0x1000 + o)
  | b =>
    if 0x10 ≤ b ∧ b < 0x14 then (if 0x100 ≤ o then readSense s (640 + (b - 0x10)) o else 0)
    else if 0x100 ≤ b ∧ b < 0x380 then readRegion s (b - 0x100) o
    else if Off.core ≤ off ∧ off < Off.core + 0x20000 then (match winCore s ((off - Off.core) / 0x8000) with
      | some ck => readCore s ck ((off - Off.core) % 0x8000)
      | none => 0)
    else if 0x800000 ≤ off ∧ off < 0x808000 then readMsix s 0 (off - 0x800000)
    else if 0x808000 ≤ off ∧ off < 0x808100 then readPba s 0 (off - 0x808000)
    else 0

/-- What an aligned 4-byte read of a function's BAR0 returns; unmapped offsets read zero. -/
def bar0Read (s : State) (fn off : Nat) : Nat :=
  if fn = 0 then readPf s off
  else if off < 0x800 then readCmd s fn off
  else if off < 0x900 then readMsix s fn (off - 0x800)
  else if 0xC00 ≤ off ∧ off < 0xC04 then readPba s fn (off - 0xC00)
  else 0

/-! ## Writes by access code (R4) -/

/-- The RW bits of a word. -/
def rw (mask v : Nat) : W32 := BitVec.ofNat 32 (Nat.land v mask)

def writePci (s : State) (o v : Nat) : State :=
  if o = 0x8 then { s with pci := { s.pci with eventCfg := rw 0x307FF v } }
  else if 0x10 ≤ o ∧ o < 0x20 ∧ o % 4 = 0 then
    { s with pci := { s.pci with winSel := tset 0 s.pci.winSel ((o - 0x10) / 4) (rw 0xBF0F00FF v) } }
  else s

def writeCmd (s : State) (fn o v : Nat) : State :=
  match o with
  | 0x00 => if bitAt v 0 then dropGalley s fn else s
  | 0x04 => modFn s fn (fun f => { f with header := f.header && !bitAt v 1, overrun := f.overrun && !bitAt v 0 })
  | 0x10 => modFn s fn (fun f => { f with mirrorLo := rw 0xFFFFFFC1 v })
  | 0x14 => modFn s fn (fun f => { f with mirrorHi := rw 0xFFFFFFFF v })
  | 0x18 => modFn s fn (fun f => { f with replyLo := rw 0xFFFFF000 v })
  | 0x1C => modFn s fn (fun f => { f with replyHi := rw 0xFFFFFFFF v })
  | 0x20 => pumpReplies (modFn s fn (fun f => { f with replyCfg := rw 0xFFFF003F v })) fn
  | 0x24 => pumpReplies (modFn s fn (fun f => { f with head := fld v 15 0 })) fn
  | 0x30 => modFn s fn (fun f => { f with cmdCfg := rw 0xFFFF v })
  | _ => s

/-- A write to the MSI-X table: the mask bit, with the message that an unmask lets go, or an address or data word. -/
def writeMsix (s : State) (fn o v : Nat) : State :=
  let e := o / 16
  if o % 16 = 12 then
    (if bitAt v 0 then modFn s fn (fun f => { f with unmasked := f.unmasked.filter (· != e) }) else msixUnmaskOp s fn (some e))
  else modFn s fn (fun f => { f with msixTable := tset 0 f.msixTable (o / 4) (rw 0xFFFFFFFF v) })

/-- RST_COUNT_CLR (R402): the counters of the named sources, in all three copies. -/
def clearCounts (s : State) (v : Nat) : State :=
  let z := fun (l : List Nat) => (List.range l.length).map (fun i => if bitAt v i then 0 else l.getD i 0)
  { s with aon := { s.aon with counts := ⟨z s.aon.counts.a, z s.aon.counts.b, z s.aon.counts.c⟩ } }

/-- HUB_ET_ registers take effect only while the physical function holds the timer (R426). -/
def writeTimer (s : State) (n o v : Nat) : State :=
  if !heldByHost s 0 n then s
  else
    let x := timerOf s n
    match o with
    | 0x00 => setTimer s n { x with en := bitAt v 31, periodic := bitAt v 30, next := if bitAt v 31 then x.next else none }
    | 0x04 => setTimer s n { x with period := rw 0xFFFFFFFF v }
    | 0x08 => setTimer s n { x with cmpLo := rw 0xFFFFFFFF v }
    | 0x0C => etArmOp s n (rw 0xFFFFFFFF v)
    | 0x10 => setTimer s n { x with late := x.late && !bitAt v 31 }
    | _ => s

def writeTime (s : State) (o v : Nat) : State :=
  if o = 0x08 then { s with time := { s.time with stepped := s.time.stepped && !bitAt v 27 } }
  else if o = 0x10 then { s with time := { s.time with
    ovrAon := s.time.ovrAon && !bitAt v 6, ovrQl := s.time.ovrQl && !bitAt v 5, ovrPci := s.time.ovrPci && !bitAt v 4,
    ovrHbm := s.time.ovrHbm && !bitAt v 3, ovrRgn := s.time.ovrRgn && !bitAt v 2 } }
  else if 0x100 ≤ o ∧ o < 0x900 then writeTimer s ((o - 0x100) / 0x20) ((o - 0x100) % 0x20) v
  else s

def writeFault (s : State) (o v : Nat) : State :=
  match o with
  | 0x04 => setFaults s (fun f => { f with optionVote := f.optionVote && !bitAt v 15 })
  | 0x40 => eccCtrlWrite s v
  | 0x44 => setFaults s (fun f => { f with eccOffset := rw 0xFFFFFFFF v })
  | 0x48 => setFaults s (fun f => { f with eccUnitLo := rw 0xFFFFFFFF v })
  | 0x4C => setFaults s (fun f => { f with eccUnitHi := rw 0xFFFFFFFF v })
  | 0x50 => setFaults s (fun f => { f with eccDataLo := rw 0xFFFFFFFF v })
  | 0x54 => setFaults s (fun f => { f with eccDataHi := rw 0xFFFFFFFF v })
  | 0x58 => setFaults s (fun f => { f with eccDone := f.eccDone && !bitAt v 31, eccRefused := f.eccRefused && !bitAt v 30 })
  | _ => s

def writeQl (s : State) (o v : Nat) : State :=
  if o = 4 then { s with ql := { s.ql with late := s.ql.late && !bitAt v 7 } }
  else if o = 8 then { s with ql := { s.ql with peerSel := rw 0x3F v } }
  else if 0x1000 ≤ o ∧ o < 0x1900 ∧ (o - 0x1000) % 0x40 = 0 then retrainOp s ((o - 0x1000) / 0x40) v
  else s

def writeSense (s : State) (conv o v : Nat) : State :=
  if o = 0x184 then modSense s conv (fun q => { q with badChannel := q.badChannel && !bitAt v 2 }) else s

def writeRegion (s : State) (rk o v : Nat) : State :=
  if o = 0x600 then modRegion s rk (fun g => { g with
    ovrHub := g.ovrHub && !bitAt v 2, ovrCore := g.ovrCore && !bitAt v 1, ovrConv := g.ovrConv && !bitAt v 0 })
  else writeSense s rk o v

/-- Debug scope bit 1 opens the fields that firmware sets (R390). -/
def debugWrites (s : State) : Bool := s.sec.debugScope.any (bitAt · 1)

def writeCore (s : State) (ck o v : Nat) : State :=
  if 0x100 ≤ o ∧ o < 0x500 then
    let t := (o - 0x100) / 0x40
    if o % 0x40 = 0x08 then tileEngageOp s ck t v
    else if o % 0x40 = 0x0C then modCore s ck (fun c => modTile c t (fun x => { x with pdescSel := rw 0x7FF v }))
    else s
  else if o = 0x20 then (if s.sec.proof then modCore s ck (fun c => { c with proofCtrl := rw 0xF7 v }) else s)
  else if o = 0x24 then modCore s ck (fun c => { c with
    proofRefused := c.proofRefused && !bitAt v 3, proofOverrun := c.proofOverrun && !bitAt v 1, proofValid := c.proofValid && !bitAt v 0 })
  else if o = 0x1030 ∧ debugWrites s then modCore s ck (fun c => { c with envArea := fld v 21 16, monEn := bitAt v 0 })
  else s

def writeHub (s : State) (off v : Nat) : State :=
  let o := off % 0x1000
  match off / 0x1000 with
  | 0x2 =>
    if o = 0x04 then setSched s (fun c => { c with overcommit := c.overcommit && !bitAt v 31 })
    else if o = 0x20 then setSched s (fun c => { c with tenantSel := rw 0xFF v })
    else s
  | 0x3 => if o = 0x10 then setSched s (fun c => { c with precSel := rw 0xFFFFFF v }) else s
  | 0x6 => if o = 0x10 then { s with web := { s.web with chanSel := rw 0xFFF v } } else s
  | 0x7 => if o = 0x10 then { s with share := { s.share with resSel := rw 0x13F v } } else s
  | 0x8 => writeFault s o v
  | 0x9 => if o = 0x08 then { s with sec := { s.sec with tenantSel := rw 0xFF v } } else s
  | 0xE => writeQl s o v
  | 0xF => writeQl s (0x1000 + o) v
  | b =>
    if 0x10 ≤ b ∧ b < 0x14 then writeSense s (640 + (b - 0x10)) o v
    else if 0x100 ≤ b ∧ b < 0x380 then writeRegion s (b - 0x100) o v
    else if Off.core ≤ off ∧ off < Off.core + 0x20000 then (match winCore s ((off - Off.core) / 0x8000) with
      | some ck => writeCore s ck ((off - Off.core) % 0x8000) v
      | none => s)
    else s

/-- An aligned 4-byte write to the physical function's BAR0. RO fields, RW-T fields and reserved bits take no effect. Registers that read
their reset values after a limp start take no writes then. -/
def writePf (s : State) (off v : Nat) : State :=
  let o := off % 0x1000
  match off / 0x1000 with
  | 0x0 => writePci s o v
  | 0x1 => writeCmd s 0 o v
  | 0xA => if o = 0x0C then clearCounts s v else s
  | 0xC => writeTime s o v
  | _ =>
    if 0x800000 ≤ off ∧ off < 0x808000 then writeMsix s 0 (off - 0x800000) v
    else if s.rst.phase = .limp ∧ limpKeeps off = false then s
    else writeHub s off v

def bar0Write4 (s : State) (fn off v : Nat) : State :=
  if fn = 0 then writePf s off v
  else if off < 0x800 then writeCmd s fn off v
  else if off < 0x900 then writeMsix s fn (off - 0x800) v
  else s

/-- R453: naturally aligned accesses of 4 or 8 bytes; 8 bytes act as two accesses, low address first. Others are discarded and counted. A
locked or running TDI takes only what comes on its stream (R459).
DESIGN CHOICE (log entry 91): commands of one time value stand in the order in which they come, so a set before the write belongs to an earlier
cycle and is cleared, and a set after it is the one of the same cycle that stays (R5). -/
def registerWriteOp (s : State) (fn off size v : Nat) : State :=
  if !hostUp s || !barOpen s fn then s
  else if size = 4 ∧ off % 4 = 0 then bar0Write4 s fn off (v % 2 ^ 32)
  else if size = 8 ∧ off % 8 = 0 then bar0Write4 (bar0Write4 s fn off (v % 2 ^ 32)) fn (off + 4) (v / 2 ^ 32 % 2 ^ 32)
  else { s with pci := { s.pci with accessErr := satAdd 32 s.pci.accessErr 1 } }

/-! ## Rows -/

def execRegisterWrite (fn off size value : Nat) (t : Nat) (s : State) : Host.Outcome State Fault Refusal :=
  onFn fn (registerWriteOp (advance t s) fn off size value)

def execRstCountClear (value : W32) (t : Nat) (s : State) : Host.Outcome State Fault Refusal :=
  let s1 := advance t s
  .next (if hostUp s1 then clearCounts s1 value.toNat else s1)

end Sys2Proof.Machine
end

