-- ==== Sys2Proof/Machine/Dispatch.lean ====
section
/-! DEFINITION. One arm per command: a direct call of its meaning. -/

namespace Sys2Proof.Machine

def exec (i : Instr) (s : State) : Host.Outcome State Fault Refusal :=
  match i with
  | .identify h resultAddr t => Sys2Proof.Machine.execIdentify h resultAddr t s
  | .negotiate h level t => Sys2Proof.Machine.execNegotiate h level t s
  | .fenceReportGet h resultAddr maxBytes t => Sys2Proof.Machine.execFenceReportGet h resultAddr maxBytes t s
  | .optionSet h entries t => Sys2Proof.Machine.execOptionSet h entries t s
  | .powerSet h budget t => Sys2Proof.Machine.execPowerSet h budget t s
  | .resourceAlloc h kind index holder t => Sys2Proof.Machine.execResourceAlloc h kind index holder t s
  | .resourceFree h kind index t => Sys2Proof.Machine.execResourceFree h kind index t s
  | .resetWarm h key t => Sys2Proof.Machine.execResetWarm h key t s
  | .txnBegin h domain t => Sys2Proof.Machine.execTxnBegin h domain t s
  | .txnCommit h t => Sys2Proof.Machine.execTxnCommit h t s
  | .txnRollback h t => Sys2Proof.Machine.execTxnRollback h t s
  | .calSelf h t => Sys2Proof.Machine.execCalSelf h t s
  | .calRecal h addr t => Sys2Proof.Machine.execCalRecal h addr t s
  | .calDrift h addr t => Sys2Proof.Machine.execCalDrift h addr t s
  | .testRun h addr t => Sys2Proof.Machine.execTestRun h addr t s
  | .fenceUnit h addr t => Sys2Proof.Machine.execFenceUnit h addr t s
  | .proofEnter h t => Sys2Proof.Machine.execProofEnter h t s
  | .proofLeave h t => Sys2Proof.Machine.execProofLeave h t s
  | .plateLoad h p inPlace t => Sys2Proof.Machine.execPlateLoad h p inPlace t s
  | .plateRelease h imageId t => Sys2Proof.Machine.execPlateRelease h imageId t s
  | .formeLoad h slot addr length t => Sys2Proof.Machine.execFormeLoad h slot addr length t s
  | .plateSourceSet h imageId source peer addr t => Sys2Proof.Machine.execPlateSourceSet h imageId source peer addr t s
  | .plateDefectAccept h addr t => Sys2Proof.Machine.execPlateDefectAccept h addr t s
  | .overlaySet h tenant slot layer addr length t => Sys2Proof.Machine.execOverlaySet h tenant slot layer addr length t s
  | .tenantSet h tenant cfg t => Sys2Proof.Machine.execTenantSet h tenant cfg t s
  | .keyLoad h tenant unwrapped t => Sys2Proof.Machine.execKeyLoad h tenant unwrapped t s
  | .tenantRemove h tenant t => Sys2Proof.Machine.execTenantRemove h tenant t s
  | .keyRegister h key t => Sys2Proof.Machine.execKeyRegister h key t s
  | .attest h nonce resultAddr t => Sys2Proof.Machine.execAttest h nonce resultAddr t s
  | .debugUnlock h token t => Sys2Proof.Machine.execDebugUnlock h token t s
  | .reqSubmit h p t => Sys2Proof.Machine.execReqSubmit h p t s
  | .reqCancel h rid t => Sys2Proof.Machine.execReqCancel h rid t s
  | .webOpen h p t => Sys2Proof.Machine.execWebOpen h p t s
  | .webClose h channel mode t => Sys2Proof.Machine.execWebClose h channel mode t s
  | .webGroup h group members t => Sys2Proof.Machine.execWebGroup h group members t s
  | .galleyWrite fn off bytes t => Sys2Proof.Machine.execGalleyWrite fn off bytes t s
  | .packetTake t => Sys2Proof.Machine.execPacketTake t s
  | .galleyReset fn value t => Sys2Proof.Machine.execGalleyReset fn value t s
  | .replyHeadWrite fn value t => Sys2Proof.Machine.execReplyHeadWrite fn value t s
  | .registerWrite fn off size value t => Sys2Proof.Machine.execRegisterWrite fn off size value t s
  | .timeLoRead fn t => Sys2Proof.Machine.execTimeLoRead fn t s
  | .etArm timer hi t => Sys2Proof.Machine.execEtArm timer hi t s
  | .tileEngage core tile value t => Sys2Proof.Machine.execTileEngage core tile value t s
  | .eccRawWrite value t => Sys2Proof.Machine.execEccRawWrite value t s
  | .eccRawRead value t => Sys2Proof.Machine.execEccRawRead value t s
  | .eccDecodedRead value t => Sys2Proof.Machine.execEccDecodedRead value t s
  | .retrain port value t => Sys2Proof.Machine.execRetrain port value t s
  | .rstCountClear value t => Sys2Proof.Machine.execRstCountClear value t s
  | .housekeepingTick inp t => Sys2Proof.Machine.execHousekeepingTick inp t s
  | .watchdogExpiry t => Sys2Proof.Machine.execWatchdogExpiry t s
  | .ageCommit t => Sys2Proof.Machine.execAgeCommit t s
  | .txnExpired domain t => Sys2Proof.Machine.execTxnExpired domain t s
  | .fwSensePass temps results t => Sys2Proof.Machine.execFwSensePass temps results t s
  | .thermMonitorPass temps results t => Sys2Proof.Machine.execThermMonitorPass temps results t s
  | .hostSensePass conv edge results t => Sys2Proof.Machine.execHostSensePass conv edge results t s
  | .etEdge timer t => Sys2Proof.Machine.execEtEdge timer t s
  | .strobe r t => Sys2Proof.Machine.execStrobe r t s
  | .planeSwitch core tile plane t => Sys2Proof.Machine.execPlaneSwitch core tile plane t s
  | .skimProduct core slotFilling t => Sys2Proof.Machine.execSkimProduct core slotFilling t s
  | .bankFinalise core bank t => Sys2Proof.Machine.execBankFinalise core bank t s
  | .splitReduction region op t => Sys2Proof.Machine.execSplitReduction region op t s
  | .routeTransfer slot index t => Sys2Proof.Machine.execRouteTransfer slot index t s
  | .dualCompare primary secondary tile words t => Sys2Proof.Machine.execDualCompare primary secondary tile words t s
  | .dualWordsTimeout primary secondary t => Sys2Proof.Machine.execDualWordsTimeout primary secondary t s
  | .monitorCompare core t => Sys2Proof.Machine.execMonitorCompare core t s
  | .monitorAbandon core t => Sys2Proof.Machine.execMonitorAbandon core t s
  | .auditCompare core slot t => Sys2Proof.Machine.execAuditCompare core slot t s
  | .auditTimeout core slot t => Sys2Proof.Machine.execAuditTimeout core slot t s
  | .auditRotation fetched checks t => Sys2Proof.Machine.execAuditRotation fetched checks t s
  | .checkSummary region gap t => Sys2Proof.Machine.execCheckSummary region gap t s
  | .stepSeal t => Sys2Proof.Machine.execStepSeal t s
  | .stepBoundary inp t => Sys2Proof.Machine.execStepBoundary inp t s
  | .pinLimit t => Sys2Proof.Machine.execPinLimit t s
  | .testDue core t => Sys2Proof.Machine.execTestDue core t s
  | .testOverdue core t => Sys2Proof.Machine.execTestOverdue core t s
  | .coreTest core t => Sys2Proof.Machine.execCoreTest core t s
  | .recalSlice stack region core tile refs t => Sys2Proof.Machine.execRecalSlice stack region core tile refs t s
  | .driftPassStart region t => Sys2Proof.Machine.execDriftPassStart region t s
  | .driftSlice stack region core tile plane more t => Sys2Proof.Machine.execDriftSlice stack region core tile plane more t s
  | .calSelfComplete results bandgap t => Sys2Proof.Machine.execCalSelfComplete results bandgap t s
  | .plateRecord bytes tagOk digestOk keyOk t => Sys2Proof.Machine.execPlateRecord bytes tagOk digestOk keyOk t s
  | .imageReadTimeout t => Sys2Proof.Machine.execImageReadTimeout t s
  | .planeProgram plane defects t => Sys2Proof.Machine.execPlaneProgram plane defects t s
  | .writeBurst plane row rows t => Sys2Proof.Machine.execWriteBurst plane row rows t s
  | .genRecordWritten t => Sys2Proof.Machine.execGenRecordWritten t s
  | .drainTimeout t => Sys2Proof.Machine.execDrainTimeout t s
  | .inplaceRun bytes t => Sys2Proof.Machine.execInplaceRun bytes t s
  | .ueConsumed e t => Sys2Proof.Machine.execUeConsumed e t s
  | .patrolRead correctable uncorrectable t => Sys2Proof.Machine.execPatrolRead correctable uncorrectable t s
  | .sheetOverwrite sheet t => Sys2Proof.Machine.execSheetOverwrite sheet t s
  | .tenantKeyZeroise tenant t => Sys2Proof.Machine.execTenantKeyZeroise tenant t s
  | .tdiLeaveRun fn t => Sys2Proof.Machine.execTdiLeaveRun fn t s
  | .webSlot channel t => Sys2Proof.Machine.execWebSlot channel t s
  | .flitReceive port f t => Sys2Proof.Machine.execFlitReceive port f t s
  | .flitAckTimeout port t => Sys2Proof.Machine.execFlitAckTimeout port t s
  | .portSilence port t => Sys2Proof.Machine.execPortSilence port t s
  | .laneLockLoss port lane t => Sys2Proof.Machine.execLaneLockLoss port lane t s
  | .portTrain port lanes ok t => Sys2Proof.Machine.execPortTrain port lanes ok t s
  | .ident port m t => Sys2Proof.Machine.execIdent port m t s
  | .keyx port slot value t => Sys2Proof.Machine.execKeyx port slot value t s
  | .timeSyncSend port t => Sys2Proof.Machine.execTimeSyncSend port t s
  | .timeSync port t1 t => Sys2Proof.Machine.execTimeSync port t1 t s
  | .timeReply port t1 t2 t3 t4 workerOffset t => Sys2Proof.Machine.execTimeReply port t1 t2 t3 t4 workerOffset t s
  | .lockLoss t => Sys2Proof.Machine.execLockLoss t s
  | .boundaryName step tB owner withheld rows t => Sys2Proof.Machine.execBoundaryName step tB owner withheld rows t s
  | .sealReport r t => Sys2Proof.Machine.execSealReport r t s
  | .sealTimeout t => Sys2Proof.Machine.execSealTimeout t s
  | .cut step t => Sys2Proof.Machine.execCut step t s
  | .commitPrep txn t => Sys2Proof.Machine.execCommitPrep txn t s
  | .commitReady module epoch t => Sys2Proof.Machine.execCommitReady module epoch t s
  | .resetReq port dest t => Sys2Proof.Machine.execResetReq port dest t s
  | .fence module cause t => Sys2Proof.Machine.execFence module cause t s
  | .routes table t => Sys2Proof.Machine.execRoutes table t s
  | .qlRstreq port lowNs t => Sys2Proof.Machine.execQlRstreq port lowNs t s
  | .qlFault port t => Sys2Proof.Machine.execQlFault port t s
  | .por t => Sys2Proof.Machine.execPor t s
  | .perst t => Sys2Proof.Machine.execPerst t s
  | .modWarmN lowNs t => Sys2Proof.Machine.execModWarmN lowNs t s
  | .resetRelease width rate t => Sys2Proof.Machine.execResetRelease width rate t s
  | .optionLoadComplete fuseOk t => Sys2Proof.Machine.execOptionLoadComplete fuseOk t s
  | .vbkLoss t => Sys2Proof.Machine.execVbkLoss t s
  | .thermalStop r t => Sys2Proof.Machine.execThermalStop r t s
  | .hardCut t => Sys2Proof.Machine.execHardCut t s
  | .thermLatchClear byPin lowNs t => Sys2Proof.Machine.execThermLatchClear byPin lowNs t s
  | .crossingReset c answered t => Sys2Proof.Machine.execCrossingReset c answered t s
  | .hotReset width rate t => Sys2Proof.Machine.execHotReset width rate t s
  | .flrPf t => Sys2Proof.Machine.execFlrPf t s
  | .flrVf fn t => Sys2Proof.Machine.execFlrVf fn t s
  | .d3hotEntry fn t => Sys2Proof.Machine.execD3hotEntry fn t s
  | .d0Return fn t => Sys2Proof.Machine.execD0Return fn t s
  | .spdmMessage m t => Sys2Proof.Machine.execSpdmMessage m t s
  | .mctpSetEndpointId eid t => Sys2Proof.Machine.execMctpSetEndpointId eid t s
  | .pldmRequest r t => Sys2Proof.Machine.execPldmRequest r t s
  | .pldmSetPowerBudget budget t => Sys2Proof.Machine.execPldmSetPowerBudget budget t s
  | .pldmFirmwareUpdate u t => Sys2Proof.Machine.execPldmFirmwareUpdate u t s
  | .hostReadComplete fn seq d t => Sys2Proof.Machine.execHostReadComplete fn seq d t s
  | .hostAccessTimeout fn seq t => Sys2Proof.Machine.execHostAccessTimeout fn seq t s
  | .coreTestDone core pass convFault t => Sys2Proof.Machine.execCoreTestDone core pass convFault t s
  | .keyxTimeout port slot t => Sys2Proof.Machine.execKeyxTimeout port slot t s
  | .msixUnmask fn entry t => Sys2Proof.Machine.execMsixUnmask fn entry t s
  | .warmResetDelayEnd t => Sys2Proof.Machine.execWarmResetDelayEnd t s
  | .extSyncPulse t => Sys2Proof.Machine.execExtSyncPulse t s

end Sys2Proof.Machine
end

