-- ==== Sys2Proof/WellFormed.lean ====
section
/-! DEFINITION. Well-formed commands: the unit, function, port, timer, channel, region, core, tile, plane or sheet that an operand names
exists on the module (R9, R428, R451). What a command's fields may hold beyond that, the module checks itself (R232, R247). -/

namespace Sys2Proof

/-- Numbers of R9, R428 and R451. -/
def fnOk (fn : Nat) : Bool := fn < Config.functions
def portOk (p : Nat) : Bool := p < Config.ports
def regionOk (rk : Nat) : Bool := rk < Config.stackCount * Config.regionsPerStack
def coreOk (ck : Nat) : Bool := ck < Config.stackCount * Config.regionsPerStack * Config.coresPerRegion
/-- The fields of a tile's address. -/
def tileFits (stack region core tile : Nat) : Bool :=
  stack < Config.stackCount && region < Config.regionsPerStack && core < Config.coresPerRegion && tile < 16
def planeOk (pk : Nat) : Bool :=
  pk < Config.stackCount * Config.regionsPerStack * Config.coresPerRegion * Config.tilesPerCore * Config.planesPerTile

/-- The crossing exists (R421). -/
def crossingFits : Crossing → Bool
  | .always => true
  | .pci fn => fnOk fn
  | .link p => portOk p
  | .stack s => s < Config.stackCount
  | .hbmHalf s => s < Config.stackCount

/-- The core whose scratch an operation of a vector engine writes. -/
def vecOpOk : VecOp → Bool
  | .reduce _ _ _ _ _ core _ _ => coreOk core
  | .form _ _ _ _ core _ => coreOk core
  | _ => true

/-- Every unit that the command names exists. -/
def Instr.wf : Instr → Bool
  | .identify h _ _ => fnOk h.fn
  | .negotiate h _ _ => fnOk h.fn
  | .fenceReportGet h _ _ _ => fnOk h.fn
  | .optionSet h _ _ => fnOk h.fn
  | .powerSet h _ _ => fnOk h.fn
  | .resourceAlloc h _ _ _ _ => fnOk h.fn
  | .resourceFree h _ _ _ => fnOk h.fn
  | .resetWarm h _ _ => fnOk h.fn
  | .txnBegin h _ _ => fnOk h.fn
  | .txnCommit h _ => fnOk h.fn
  | .txnRollback h _ => fnOk h.fn
  | .calSelf h _ => fnOk h.fn
  | .calRecal h _ _ => fnOk h.fn
  | .calDrift h _ _ => fnOk h.fn
  | .testRun h _ _ => fnOk h.fn
  | .fenceUnit h _ _ => fnOk h.fn
  | .proofEnter h _ => fnOk h.fn
  | .proofLeave h _ => fnOk h.fn
  | .plateLoad h _ _ _ => fnOk h.fn
  | .plateRelease h _ _ => fnOk h.fn
  | .formeLoad h _ _ _ _ => fnOk h.fn
  | .plateSourceSet h _ _ _ _ _ => fnOk h.fn
  | .plateDefectAccept h _ _ => fnOk h.fn
  | .overlaySet h _ _ _ _ _ _ => fnOk h.fn
  | .tenantSet h _ _ _ => fnOk h.fn
  | .keyLoad h _ _ _ => fnOk h.fn
  | .tenantRemove h _ _ => fnOk h.fn
  | .keyRegister h _ _ => fnOk h.fn
  | .attest h _ _ _ => fnOk h.fn
  | .debugUnlock h _ _ => fnOk h.fn
  | .reqSubmit h _ _ => fnOk h.fn
  | .reqCancel h _ _ => fnOk h.fn
  | .webOpen h _ _ => fnOk h.fn
  | .webClose h _ _ _ => fnOk h.fn
  | .webGroup h _ _ _ => fnOk h.fn
  | .galleyWrite fn _ _ _ => fnOk fn
  | .packetTake _ => true
  | .galleyReset fn _ _ => fnOk fn
  | .replyHeadWrite fn _ _ => fnOk fn
  | .registerWrite fn _ _ _ _ => fnOk fn
  | .timeLoRead fn _ => fnOk fn
  | .etArm timer _ _ => timer < 64
  | .tileEngage core tile _ _ => coreOk core && tile < 16
  | .eccRawWrite _ _ => true
  | .eccRawRead _ _ => true
  | .eccDecodedRead _ _ => true
  | .retrain port _ _ => portOk port
  | .rstCountClear _ _ => true
  | .housekeepingTick _ _ => true
  | .watchdogExpiry _ => true
  | .ageCommit _ => true
  | .txnExpired domain _ => domain < 4
  | .fwSensePass _ _ _ => true
  | .thermMonitorPass _ _ _ => true
  | .hostSensePass conv _ _ _ => conv < 644
  | .etEdge timer _ => timer < 64
  | .strobe r _ => fnOk r.slot
  | .planeSwitch core tile _ _ => coreOk core && tile < 16
  | .skimProduct core _ _ => coreOk core
  | .bankFinalise core bank _ => coreOk core && bank < 4
  | .splitReduction region op _ => regionOk region && vecOpOk op
  | .routeTransfer slot _ _ => slot < 256
  | .dualCompare primary secondary tile _ _ => coreOk primary && coreOk secondary && tile < 16
  | .dualWordsTimeout primary secondary _ => coreOk primary && coreOk secondary
  | .monitorCompare core _ => coreOk core
  | .monitorAbandon core _ => coreOk core
  | .auditCompare core _ _ => coreOk core
  | .auditTimeout core _ _ => coreOk core
  | .auditRotation _ _ _ => true
  | .checkSummary region _ _ => regionOk region
  | .stepSeal _ => true
  | .stepBoundary _ _ => true
  | .pinLimit _ => true
  | .testDue core _ => coreOk core
  | .testOverdue core _ => coreOk core
  | .coreTest core _ => coreOk core
  | .recalSlice stack region core tile _ _ => tileFits stack region core tile
  | .driftPassStart region _ => regionOk region
  | .driftSlice stack region core tile _ _ _ => tileFits stack region core tile
  | .calSelfComplete _ _ _ => true
  | .plateRecord _ _ _ _ _ => true
  | .imageReadTimeout _ => true
  | .planeProgram plane _ _ => planeOk plane
  | .writeBurst plane _ _ _ => planeOk plane
  | .genRecordWritten _ => true
  | .drainTimeout _ => true
  | .inplaceRun _ _ => true
  | .ueConsumed _ _ => true
  | .patrolRead _ _ _ => true
  | .sheetOverwrite sheet _ => sheet < 40 * Config.halfSheets
  | .tenantKeyZeroise tenant _ => fnOk tenant
  | .tdiLeaveRun fn _ => fnOk fn
  | .webSlot channel _ => channel < 4096
  | .flitReceive port _ _ => portOk port
  | .flitAckTimeout port _ => portOk port
  | .portSilence port _ => portOk port
  | .laneLockLoss port _ _ => portOk port
  | .portTrain port _ _ _ => portOk port
  | .ident port _ _ => portOk port
  | .keyx port slot _ _ => portOk port && slot < 256
  | .timeSyncSend port _ => portOk port
  | .timeSync port _ _ => portOk port
  | .timeReply port _ _ _ _ _ _ => portOk port
  | .lockLoss _ => true
  | .boundaryName _ _ _ _ _ _ => true
  | .sealReport _ _ => true
  | .sealTimeout _ => true
  | .cut _ _ => true
  | .commitPrep _ _ => true
  | .commitReady _ _ _ => true
  | .resetReq port _ _ => portOk port
  | .fence _ _ _ => true
  | .routes _ _ => true
  | .qlRstreq port _ _ => portOk port
  | .qlFault port _ => portOk port
  | .por _ => true
  | .perst _ => true
  | .modWarmN _ _ => true
  | .resetRelease _ _ _ => true
  | .optionLoadComplete _ _ => true
  | .vbkLoss _ => true
  | .thermalStop _ _ => true
  | .hardCut _ => true
  | .thermLatchClear _ _ _ => true
  | .crossingReset c _ _ => crossingFits c
  | .hotReset _ _ _ => true
  | .flrPf _ => true
  | .flrVf fn _ => 1 ≤ fn && fnOk fn
  | .d3hotEntry fn _ => fnOk fn
  | .d0Return fn _ => fnOk fn
  | .spdmMessage _ _ => true
  | .mctpSetEndpointId _ _ => true
  | .pldmRequest _ _ => true
  | .pldmSetPowerBudget _ _ => true
  | .pldmFirmwareUpdate _ _ => true
  | .hostReadComplete fn _ _ _ => fnOk fn
  | .hostAccessTimeout fn _ _ => fnOk fn
  | .coreTestDone core _ _ _ => coreOk core
  | .keyxTimeout port slot _ => portOk port && slot < 256
  | .msixUnmask fn _ _ => fnOk fn
  | .warmResetDelayEnd _ => true
  | .extSyncPulse _ => true

end Sys2Proof
end

