-- ==== Sys2Proof/Safety.lean ====
section
/-! DEFINITION. What counts as a safe run: each step answers a next state, and the memories keep their canonical form. -/

namespace Sys2Proof.Safety

open Sys2Proof.Machine

/-- Every memory of the module is in canonical form. -/
def memoriesWf (s : State) : Prop :=
  (∀ ck, Memory.wf (coreOf s ck).scratch = true) ∧ (∀ rk, Memory.wf (regionOf s rk).wideBuf = true) ∧ Memory.wf s.kv.hbm = true

/-- A step that neither stops nor refuses. -/
def goesOn (s : State) : Prop := ∃ t, step s = .next t

/-- Every waiting command is well formed. -/
def queueWf (s : State) : Prop := ∀ i ∈ s.pending, i.wf = true

/-- The state in which firmware looks at a command: time has advanced, and the queue holds the command (R244). -/
def entered (h : Hdr) (p : CmdParams) (t : Nat) (s : State) : State := enqueue (advance t s) h p

/-- Firmware starts the command (R244, R248, R403, R410), and every check of R232 passes. -/
def admitted (h : Hdr) (p : CmdParams) (t : Nat) (s : State) : Prop :=
  h.fn < 256 ∧ mayStart (entered h p t s) h p = true ∧ checkStatus (entered h p t s) h p = none

/-- The leaves of the attestation key: those of the blocks used up so far are behind the next one (R394). -/
def leavesWf (s : State) : Prop := s.nv.leafBlocks ≤ 4096 ∧ s.nv.nextLeaf ≤ 1024 * (4096 - s.nv.leafBlocks)

/-- The counters of the always-on domain lie in their ranges (R402, R404, R405, R416): seven 16-bit reset counters in three copies, a
16-bit count of aborts, and at most four aborts in a row. -/
def aonWf (s : State) : Prop :=
  (s.aon.counts.a.length = 7 ∧ s.aon.counts.b.length = 7 ∧ s.aon.counts.c.length = 7)
    ∧ ((∀ n ∈ s.aon.counts.a, n ≤ 65535) ∧ (∀ n ∈ s.aon.counts.b, n ≤ 65535) ∧ (∀ n ∈ s.aon.counts.c, n ≤ 65535))
    ∧ s.aon.totalAborts ≤ 65535 ∧ s.aon.consec ≤ 4

end Sys2Proof.Safety
end

