-- ==== Sys2Proof/Certificates/Slice0/Obligations.lean ====
section
/-! DEFINITION. The statements for the provers. Each docstring names the rules of spec/ it formalises or rests on. -/

open Sys2Proof Sys2Proof.Machine Sys2Proof.Safety

/-! ## The queue of commands and replies -/

/-- A step with a command at the front of the queue is exec of that command on the state with the queue's rest. -/
def Obligations.StepRunsFront : Prop := ∀ (c : Instr) (rest : List Instr) (s : State),
  step { s with pending := c :: rest } = exec c { s with pending := rest }

/-- A command whose operands name existing units completes in every state; a command that names a unit, function, port
or channel the module does not have faults with noSuchUnit and nothing else; no command is refused (R9, R428, R451). -/
def Obligations.WellFormedCommandsGoOn : Prop := ∀ (i : Instr) (s : State),
  (i.wf = true → ∃ u, exec i s = .next u) ∧ (i.wf = false → exec i s = .fault .noSuchUnit)

/-- A reply touches only its queue entry, its function's record, its transaction's idle time, the outward writes and the
selector of free values (R236, R237, R241, R244). -/
def Obligations.ReplyFrame : Prop := ∀ (s : State) (fn seq : Nat) (st : Status) (c : Cond) (r0 r1 : Nat),
  let u := finish s fn seq st c r0 r1
  u = { s with cmdq := u.cmdq, fns := u.fns, out := u.out, free := u.free, txns := u.txns }
    ∧ (∀ f, f ≠ fn → fnOf u f = fnOf s f)
    ∧ (fnOf u fn = { fnOf s fn with tail := (fnOf u fn).tail, ringPhase := (fnOf u fn).ringPhase, store := (fnOf u fn).store,
                                    latSum := (fnOf u fn).latSum, latNum := (fnOf u fn).latNum,
                                    pendingMsg := (fnOf u fn).pendingMsg })
    ∧ (∃ o, u.out = s.out ++ o ∧ o.length ≤ 2)
    ∧ u.txns.nextId = s.txns.nextId
    ∧ (∀ d, (txnOf u.txns d).map (fun x => { x with idleSince := 0 }) = (txnOf s.txns d).map (fun x => { x with idleSince := 0 }))

/-- Completing a command (R236, R237, R244, R246, R251): its entry leaves the queue, and unless it is QUIET and OK its reply goes to the
ring when the ring has room and no record waits, and otherwise to the end of the store; with the store full, or a completed command before it,
it keeps an entry at the end of the queue with its reply. CMD_SLOW is set when the reply, as it is written, comes more than SLOW_US after the
command was taken, and the time joins the function's latency; the source is management processor 1, 2 or 3. -/
def Obligations.CommandCompletes : Prop := ∀ (s : State) (fn seq : Nat) (st : Status) (c : Cond) (r0 r1 : Nat) (e : CmdEntry),
  findCmd s fn seq = some e →
  let u := finish s fn seq st c r0 r1
  let f := fnOf s fn
  let left := s.cmdq.eraseP (sameCmd fn seq)
  let dt := s.time.base - e.taken
  ((e.hdr.quiet = true ∧ st = .ok) → u.cmdq = left ∧ u.out = s.out ∧ (fnOf u fn).store = f.store ∧ (fnOf u fn).latSum = f.latSum + dt)
    ∧ (¬(e.hdr.quiet = true ∧ st = .ok) → ∃ src, 1 ≤ src ∧ src ≤ 3 ∧
        let r : Reply := { fn := fn, seq := seq, opcode := opcodeOf e.par, status := st, cond := c, txn := e.hdr.txn, source := src,
                           r0 := r0, r1 := r1, irq := e.hdr.irq, taken := some e.taken }
        let written : Reply := { r with cond := { c with cmdSlow := c.cmdSlow || decide (slowNs f < dt) } }
        if replyFits { s with cmdq := left } fn = true then
          u.cmdq = left ∧ (if f.store = [] ∧ replyRoom f = true then
            (.hostWrite fn (replyBase f + 32 * f.tail) (replyBytes written f.ringPhase)) ∈ u.out
              ∧ (fnOf u fn).tail = (f.tail + 1) % replyEntries f ∧ (fnOf u fn).latSum = f.latSum + dt ∧ (fnOf u fn).latNum = f.latNum + 1
          else u.out = s.out ∧ (fnOf u fn).store = f.store ++ [r])
        else u.cmdq = left ++ [{ e with wait := .replyRoom r }] ∧ u.out = s.out ∧ u.fns = s.fns ∧ u.txns = s.txns)

/-- A command starts at once when nothing is queued (R244), in service with no thermal stop (R403, R410), and its entry records the time it was
taken. A command that firmware starts and that fails a check of R232 is answered with that check's status, and has no other effect. -/
def Obligations.CommandsStart : Prop :=
  (∀ (h : Hdr) (p : CmdParams) (t : Nat) (s : State), s.cmdq = [] → s.rst.phase = .service → s.therm.stopping = none →
    (entered h p t s).cmdq = [{ hdr := h, par := p, taken := max s.time.base t, wait := .queued, attempts := 0 }]
      ∧ mayStart (entered h p t s) h p = true)
  ∧ ∀ (h : Hdr) (level : Nat) (es : List OptEntry) (rid t : Nat) (st : Status) (s : State), h.fn < 256 →
  (mayStart (entered h (.negotiate level) t s) h (.negotiate level) = true →
    checkStatus (entered h (.negotiate level) t s) h (.negotiate level) = some st →
    exec (.negotiate h level t) s = .next (finish (entered h (.negotiate level) t s) h.fn h.seq st {} 0 0))
  ∧ (mayStart (entered h (.optionSet es) t s) h (.optionSet es) = true →
    checkStatus (entered h (.optionSet es) t s) h (.optionSet es) = some st →
    exec (.optionSet h es t) s = .next (finish (entered h (.optionSet es) t s) h.fn h.seq st {} 0 0))
  ∧ (mayStart (entered h (.reqCancel rid) t s) h (.reqCancel rid) = true →
    checkStatus (entered h (.reqCancel rid) t s) h (.reqCancel rid) = some st →
    exec (.reqCancel h rid t) s = .next (finish (entered h (.reqCancel rid) t s) h.fn h.seq st {} 0 0))

/-- After a limp start, a command that every other check of R232 passes is accepted when it is IDENTIFY, NEGOTIATE, FENCE_REPORT_GET,
ATTEST or RESET_WARM, and every other opcode returns OPTIONS_UNLOADED (R248). -/
def Obligations.LimpAcceptsFive : Prop := ∀ (h : Hdr) (p : CmdParams) (s : State), s.rst.phase = .limp →
  h.fn = 0 → h.version = 1 → (fnOf s 0).level = some h.arch → h.resZero = true → 16 + definedPayload p ≤ 16 * h.length →
  tenantStatus s h p = none → txnStatus s h p = none → fieldStatus s p = none →
  checkStatus s h p =
    (if opcodeOf p = 0x0001 ∨ opcodeOf p = 0x0002 ∨ opcodeOf p = 0x0003 ∨ opcodeOf p = 0x0054 ∨ opcodeOf p = 0x0014
     then none else some .optionsUnloaded)

/-! ## Single commands -/

/-- IDENTIFY, NEGOTIATE, FENCE_REPORT_GET, OPTION_SET, POWER_SET, RESET_WARM, PROOF_ENTER and PROOF_LEAVE
complete with the effect R235, R234, R372, R239, R415, R249 and R64 give them, and nothing else but their reply; while a confidential
tenant is present PROOF_ENTER and PROOF_LEAVE are answered CONFIDENTIAL_ACTIVE and change nothing else.
Identity words rest on log entries 6 and 7. -/
def Obligations.ControlCommandsComplete : Prop := ∀ (h : Hdr) (t : Nat) (s : State),
  (∀ a, admitted h (.identify a) t s →
    let s1 := entered h (.identify a) t s
    exec (.identify h a t) s = .next (replyOk (emit s1 (.hostWrite h.fn a (identityBytes s1 h.fn))) h 0 0))
  ∧ (admitted h (.negotiate 1) t s →
    let s1 := entered h (.negotiate 1) t s
    exec (.negotiate h 1 t) s = .next (replyOk (setFn s1 h.fn { fnOf s1 h.fn with level := some 1 }) h 1 0))
  ∧ (∀ a n, admitted h (.fenceReportGet a n) t s →
    let s1 := entered h (.fenceReportGet a n) t s
    let k := min (n / 64) s1.faults.reports.length
    k ≠ 0 →
    exec (.fenceReportGet h a n t) s = .next (replyOk
      { emit s1 (.hostWrite h.fn a ((s1.faults.reports.take k).flatMap reportBytes)) with
          faults := { s1.faults with reports := s1.faults.reports.drop k } } h (64 * k) (s1.faults.reports.drop k).length))
  ∧ (∀ off (m v : W32), admitted h (.optionSet [⟨off, m, v⟩]) t s → Nat.land m.toNat (optMask off) = m.toNat →
    let s1 := entered h (.optionSet [⟨off, m, v⟩]) t s
    exec (.optionSet h [⟨off, m, v⟩] t) s = .next (replyOk (stage s1 3 (.option (optTarget s1 off) m v)) h 1 0))
  ∧ (∀ b, admitted h (.powerSet b) t s →
    ∃ u, exec (.powerSet h b t) s = .next u ∧ u.power.staged = some b ∧ u.sched.wantBoundary = true
      ∧ (∃ e, findCmd u h.fn h.seq = some e ∧ e.wait = .boundary)
      ∧ u.out = (entered h (.powerSet b) t s).out)
  ∧ (∀ k, admitted h (.resetWarm k) t s →
    let u := replyOk (entered h (.resetWarm k) t s) h 0 0
    exec (.resetWarm h k t) s = .next { u with rst := { u.rst with warmAt := some (max s.time.base t + 1000000) } })
  ∧ (admitted h .proofEnter t s → (entered h .proofEnter t s).sec.confPresent = false →
    let s1 := entered h .proofEnter t s
    exec (.proofEnter h t) s = .next (replyOk { s1 with sec := { s1.sec with proof := true } } h 0 0))
  ∧ (admitted h .proofLeave t s → (entered h .proofLeave t s).sec.confPresent = false →
    ∃ u, exec (.proofLeave h t) s = .next u ∧ u.sec.proof = false
      ∧ ((entered h .proofLeave t s).sec.proof = true → ∀ ck, (coreOf u ck).proofValid = false ∧ (coreOf u ck).proofOverrun = false
          ∧ (coreOf u ck).proofResult = [] ∧ (coreOf u ck).proofCtrl = 0))
  ∧ (s.sec.confPresent = true → admitted h .proofEnter t s →
    exec (.proofEnter h t) s = .next (finish (entered h .proofEnter t s) h.fn h.seq .confidentialActive {} 0 0))
  ∧ (s.sec.confPresent = true → admitted h .proofLeave t s →
    exec (.proofLeave h t) s = .next (finish (entered h .proofLeave t s) h.fn h.seq .confidentialActive {} 0 0))

/-- RESOURCE_ALLOC gives a free resource to the holder tag, and RESOURCE_FREE frees one that an allocation holds; a resource that another
holder has is refused with RESOURCE_BUSY and keeps its holder (R344). That RESOURCE_FREE carries no tag is log entry 14. -/
def Obligations.ResourcesComplete : Prop := ∀ (h : Hdr) (kind i tag t : Nat) (s : State), kind ≤ 1 →
  (admitted h (.resourceAlloc kind i tag) t s → i ≠ 0xFF → resHolder s kind i = none →
    ∃ u, exec (.resourceAlloc h kind i tag t) s = .next u ∧ resHolder u kind i = some (.inl tag)
      ∧ (∀ j, j ≠ i → resHolder u kind j = resHolder s kind j) ∧ (kind = 0 → (timerOf u i).edges = 0))
  ∧ (admitted h (.resourceFree kind i) t s → resHolder s kind i = some (.inl tag) →
    ∃ u, exec (.resourceFree h kind i t) s = .next u ∧ resHolder u kind i = none
      ∧ (∀ j, j ≠ i → resHolder u kind j = resHolder s kind j))
  ∧ (∀ x, admitted h (.resourceAlloc kind i tag) t s → i ≠ 0xFF → resHolder s kind i = some x → x ≠ .inl tag →
    exec (.resourceAlloc h kind i tag t) s
      = .next (finish (entered h (.resourceAlloc kind i tag) t s) h.fn h.seq .resourceBusy {} 0 0))

/-- TXN_BEGIN opens a transaction in a free domain, and answers TXN_BUSY when the domain has one; TXN_COMMIT accepts a
transaction whose checks pass; TXN_ROLLBACK discards it, and so do 10 s of idleness, of which the host is told with
TXN_EXPIRED, unless a command still uses it or its commit has been accepted (R238-R241). -/
def Obligations.TransactionsComplete : Prop := ∀ (h : Hdr) (t : Nat) (s : State),
  (∀ d, admitted h (.txnBegin d) t s → txnOf s.txns d = none →
    ∃ u x, exec (.txnBegin h d t) s = .next u ∧ txnOf u.txns d = some x ∧ x.staged = [] ∧ x.committing = false)
  ∧ (∀ d x, admitted h (.txnBegin d) t s → txnOf s.txns d = some x →
    exec (.txnBegin h d t) s = .next (finish (entered h (.txnBegin d) t s) h.fn h.seq .txnBusy {} 0 0))
  ∧ (∀ d x, admitted h .txnCommit t s → txnDomain s h.txn = some d → txnOf s.txns d = some x →
      commitStatus (entered h .txnCommit t s) d x = none →
    ∃ u, exec (.txnCommit h t) s = .next u ∧ u.sched.wantBoundary = true
      ∧ txnOf u.txns d = some { x with committing := true, acceptedAt := max s.time.base t, reply := some h }
      ∧ u.fns = s.fns ∧ (d ≠ 1 → u.out = s.out))
  ∧ (∀ d, admitted h .txnRollback t s → txnDomain s h.txn = some d →
    ∃ u, exec (.txnRollback h t) s = .next u ∧ txnOf u.txns d = none)
  ∧ (∀ d x, d < 4 → txnOf s.txns d = some x → x.committing = false → txnActive s x.id = false → (d = 1 → s.plates.load = none) →
      x.idleSince + 10000000000 ≤ max s.time.base t →
    ∃ u, exec (.txnExpired d t) s = .next u ∧ txnOf u.txns d = none
      ∧ (replyRoom (fnOf s 0) = false → s.cmdq = [] → (fnOf s 0).store.length < 4096 → ∃ r, (fnOf u 0).store = (fnOf s 0).store ++ [r] ∧ r.status = .txnExpired
          ∧ r.txn = x.id ∧ r.cond = { unsolicited := true } ∧ r.opcode = 0x0022))
  ∧ (∀ d x, d < 4 → txnOf s.txns d = some x →
      (x.committing = true ∨ txnActive s x.id = true ∨ max s.time.base t < x.idleSince + 10000000000) →
    exec (.txnExpired d t) s = .next (advance t s))

/-- The unit commands: TEST_RUN makes the core's test due at the next boundary, FENCE_UNIT fences its unit (and only answers when it is
fenced already), CAL_SELF waits for its phases, CAL_RECAL and CAL_DRIFT start a pass in every region they name, or, before CAL_SELF has completed since
cold reset, are answered CAL_REQUIRED and do nothing else (R160, R371, R357, R158, R165,
R173, R174). -/
def Obligations.UnitCommandsComplete : Prop := ∀ (h : Hdr) (w t : Nat) (s : State),
  (∀ ck, admitted h (.testRun w) t s → (namedUnit s w).bind coreOfUnit = some ck →
    ∃ u, exec (.testRun h w t) s = .next u ∧ (coreOf u ck).testDue = true ∧ (coreOf u ck).testOverdue = true
      ∧ u.sched.wantBoundary = true ∧ (∃ e, findCmd u h.fn h.seq = some e ∧ e.wait = .test ck)
      ∧ (∀ j, j ≠ ck → coreOf u j = coreOf s j))
  ∧ (∀ x, admitted h (.fenceUnit w) t s → namedUnit s w = some x →
    ∃ u, exec (.fenceUnit h w t) s = .next u ∧ ((∀ a b c d n, x ≠ .plane a b c d n) → x ≠ .module → unitFenced u x = true)
      ∧ (unitFenced s x = true → u.map = s.map ∧ u.faults = s.faults))
  ∧ (admitted h .calSelf t s → s.sched.step = none → (∀ e ∈ s.reqs, e.2.state = .held) → (∀ e ∈ s.arr.desc, e.2.state ≠ 5) →
    exec (.calSelf h t) s = .next (setWait (entered h .calSelf t s) h.fn h.seq .calSelf))
  ∧ (admitted h (.calRecal w) t s → s.rst.calDone = true → (namedUnit s w).isSome → namedRegions s w ≠ [] →
    ∃ u, exec (.calRecal h w t) s = .next u ∧ u.sched.wantBoundary = true
      ∧ (∃ e, findCmd u h.fn h.seq = some e ∧ e.wait = .passes (namedRegions s w) (namedRegions s w).length)
      ∧ ∀ r ∈ namedRegions s w, (regionOf u r).pass = (match (regionOf s r).pass with
          | none => some { kind := 1 }
          | some p => if p.kind = 2 then some { kind := 1 } else some p))
  ∧ (admitted h (.calDrift w) t s → s.rst.calDone = true → (namedUnit s w).isSome → namedRegions s w ≠ [] →
    ∃ u, exec (.calDrift h w t) s = .next u ∧ u.sched.wantBoundary = true
      ∧ (∃ e, findCmd u h.fn h.seq = some e ∧ e.wait = .passes (namedRegions s w) (namedRegions s w).length)
      ∧ ∀ r ∈ namedRegions s w, (regionOf u r).pass = some (((regionOf s r).pass).getD { kind := 2 })
          ∧ (∀ p, (regionOf s r).pass = some p → p.kind = 1 → (regionOf u r).wantDrift = true))
  ∧ (s.rst.calDone = false → admitted h (.calRecal w) t s →
    exec (.calRecal h w t) s = .next (finish (entered h (.calRecal w) t s) h.fn h.seq .calRequired {} 0 0))
  ∧ (s.rst.calDone = false → admitted h (.calDrift w) t s →
    exec (.calDrift h w t) s = .next (finish (entered h (.calDrift w) t s) h.fn h.seq .calRequired {} 0 0))

/-- The plate and forme commands (R191, R195, R201, R208, R214, R215): PLATE_LOAD asks its source for the header; once every part before the
payload has been read and checked, it claims its planes; PLATE_RELEASE and FORME_LOAD of length 0 stage, PLATE_SOURCE_SET changes the committed plate's source and lets the blocked refills of that plate go
on, PLATE_DEFECT_ACCEPT retires the plane that waits and programs its record on a spare plane. -/
def Obligations.PlateCommandsComplete : Prop := ∀ (h : Hdr) (t : Nat) (s : State),
  (∀ p, admitted h (.plateLoad p) t s → s.plates.draining = none → s.plates.rewriting = false → peerOk s p.source p.peer = true →
    let s1 := entered h (.plateLoad p) t s
    ∃ u l, exec (.plateLoad h p.toImageSource p.inPlace t) s = .next u ∧ u.plates = { s1.plates with load := some l, progress := 0, loadPlanes := [] } ∧ l.par = p ∧ l.fn = h.fn
      ∧ l.seq = h.seq ∧ l.part = 0 ∧ l.next = 0 ∧ l.authenticated = false ∧ (∃ e, findCmd u h.fn h.seq = some e ∧ e.wait = .load)
      ∧ u.out = s1.out ++ [.sourceRead (if p.source = 0 then 0xFFFF else p.peer) p.addr])
  ∧ (∀ e ld bytes ok addrs m, h.fn < 256 → s.therm.stopping = none → findCmd s h.fn h.seq = some e → e.wait = .load →
      s.plates.load = some ld → ld.fn = h.fn → ld.seq = h.seq → ld.part = 3 → ld.authenticated = false →
    let ld1 : Load := { ld with image := withBinding ld.image bytes ok addrs, part := 4, attempts := 0 }
    let s1 := setPlates (advance t s) (fun b => { b with load := some ld1 })
    imageStatus s1 ld.par ld1.image = none → claimAll s1 ld.par.inPlace (imagePlanes ld1.image) s.plates.claims = some m →
    ∃ u, exec (.hostReadComplete h.fn h.seq (.binding bytes ok addrs) t) s = .next u
      ∧ u.plates = { s.plates with load := some ld1, claims := m, loadPlanes := imagePlanes ld1.image, wants := u.plates.wants, slots := u.plates.slots,
                                   area := u.plates.area } ∧ u.arr = s.arr)
  ∧ (∀ id p, admitted h (.plateRelease id) t s → s.plates.table.find? (fun q => q.imageId == id) = some p →
    exec (.plateRelease h id t) s
      = .next (replyOk (stage (entered h (.plateRelease id) t s) 1 (.release id)) h p.planes.length 0))
  ∧ (∀ slot a, admitted h (.formeLoad slot a 0) t s →
    exec (.formeLoad h slot a 0 t) s = .next (replyOk (stage (entered h (.formeLoad slot a 0) t s) 1 (.forme slot none 0)) h 0 0))
  ∧ (∀ slot a n, admitted h (.formeLoad slot a n) t s → n ≠ 0 → n ≤ 2147483648 →
    exec (.formeLoad h slot a n t) s
      = .next (setWait (emit (entered h (.formeLoad slot a n) t s) (.hostRead h.fn a n)) h.fn h.seq .hostRead))
  ∧ (∀ id so peer a p, admitted h (.plateSourceSet id so peer a) t s → s.plates.table.find? (fun q => q.imageId == id) = some p →
      peerOk s so peer = true →
    ∃ u, exec (.plateSourceSet h id so peer a t) s = .next u
      ∧ u.plates = { s.plates with table := s.plates.table.map (fun q =>
          if q.imageId = id then { q with source := so, peer := peer, addr := a } else q) }
      ∧ u.map = { s.map with refills := s.map.refills.map (fun r =>
          if r.planes.any (· ∈ p.planes) then { r with blocked := false, attempts := 0 } else r) })
  ∧ (∀ w pk r sp left, admitted h (.plateDefectAccept w) t s → tfind s.plates.claims (wordPlane w) = some pk →
      tfind s.plates.waiting pk = some left → tfind s.plates.records (wordPlane w) = some r →
      (spareAway (entered h (.plateDefectAccept w) t s) pk r).2 = some sp →
    ∃ u, exec (.plateDefectAccept h w t) s = .next u ∧ tfind u.plates.writing sp = some (some r)
      ∧ tfind u.plates.waiting pk = none ∧ u.plates.nSpare = satAdd 8 s.plates.nSpare 1
      ∧ (∃ e, findCmd u h.fn h.seq = some e ∧ e.wait = .defect sp))

/-- A PLATE_LOAD of an older version of a committed plate is refused with PLATE_ROLLBACK; an equal version passes this check (R192). -/
def Obligations.PlateRollbackRefused : Prop := ∀ (s : State) (p : LoadParams) (img : PlateImage),
  img.magic = 0x544C505A → img.arch = 1 → img.version = 1 → headerOk p img = true → tablesOk img = true →
  (dualOnly s = true → img.dual = true) → img.keyId ∈ publisherIds s → img.sigOk = true →
  ((∃ q ∈ s.plates.table, q.imageId = img.imageId ∧ img.plateVersion < q.version) → imageStatus s p img = some .plateRollback)
  ∧ ((∀ q ∈ s.plates.table, q.imageId = img.imageId → q.version ≤ img.plateVersion) → img.tableDigestOk = true →
      (ownShard s img).isSome → s.nv.bindKey ∈ img.bindings → img.unwrapOk = true → imageStatus s p img = none)

/-- The tenant commands (R331, R375, R377, R378, R387, R206): TENANT_SET stages a configuration that passes, KEY_LOAD takes an EMPTY
slot to ACTIVE with the key's epoch, TENANT_REMOVE takes an ACTIVE slot to RETIRING and disables the tenant, OVERLAY_SET of length 0
stages the removal and any other length reads the record. A KEY_LOAD into a slot that is not EMPTY is answered KEY_SLOT_BUSY, a key that does
not unwrap KEY_INVALID, and neither changes the slot. Verdicts on keys are operands (log entry 7). -/
def Obligations.TenantCommandsComplete : Prop := ∀ (h : Hdr) (n t : Nat) (s : State),
  (∀ cfg, admitted h (.tenantSet n cfg) t s → tenantSetStatus s n cfg = none →
    exec (.tenantSet h n cfg t) s = .next (replyOk (stage (entered h (.tenantSet n cfg) t s) 0 (.tenant n cfg)) h 0 0))
  ∧ (∀ e, admitted h (.keyLoad n) t s → n < 256 → tenantSlot s n = 0 →
    ∃ u, exec (.keyLoad h n (some e) t) s = .next u ∧ tenantOf u n = { tenantOf s n with slot := ⟨1, 1, 1⟩, epoch := e % 256 }
      ∧ (∀ m, m ≠ n → tenantOf u m = tenantOf s m))
  ∧ (admitted h (.tenantRemove n) t s → n < 256 → tenantSlot s n = 1 →
    ∃ u, exec (.tenantRemove h n t) s = .next u ∧ tenantSlot u n = 2 ∧ (tenantOf u n).enabled = false
      ∧ (tenantOf u n).removing = some (max s.time.base t) ∧ (∀ m, m ≠ n → tenantOf u m = tenantOf s m)
      ∧ (∃ e, findCmd u h.fn h.seq = some e ∧ e.wait = .removal))
  ∧ (∀ slot layer a len, admitted h (.overlaySet n slot layer a len) t s → n < 256 → tenantSlot s n ≠ 2 → len ≠ 0 →
    exec (.overlaySet h n slot layer a len t) s
      = .next (setWait (emit (entered h (.overlaySet n slot layer a len) t s) (.hostRead h.fn a len)) h.fn h.seq .hostRead))
  ∧ (∀ slot layer a, admitted h (.overlaySet n slot layer a 0) t s → n < 256 → tenantSlot s n ≠ 2 →
    ∃ u r0, exec (.overlaySet h n slot layer a 0 t) s = .next u
      ∧ u = replyOk (stage (entered h (.overlaySet n slot layer a 0) t s) 0 (.overlay n slot layer none 0)) h r0 0)
  ∧ (∀ k, admitted h (.keyLoad n) t s → n < 256 → tenantSlot s n ≠ 0 →
    exec (.keyLoad h n k t) s = .next (finish (entered h (.keyLoad n) t s) h.fn h.seq .keySlotBusy {} 0 0))
  ∧ (admitted h (.keyLoad n) t s → n < 256 → tenantSlot s n = 0 →
    exec (.keyLoad h n none t) s = .next (finish (entered h (.keyLoad n) t s) h.fn h.seq .keyInvalid {} 0 0))

/-- KEY_REGISTER adds a publisher key to those in flash, ATTEST writes its report and uses up a leaf, DEBUG_UNLOCK grants a good
token's scope and always changes the challenge (R390, R392, R394, R395). With a
confidential tenant present, a 17th publisher key, or a key when one is registered and debug is not unlocked with SCOPE bit 2, no key is
added and no scope granted. Verdicts on tokens and keys are operands (log entry 7). -/
def Obligations.SecurityCommandsComplete : Prop := ∀ (h : Hdr) (t : Nat) (s : State),
  (∀ key, admitted h (.keyRegister key) t s → s.sec.confPresent = false → (publisherKeys s).length < 16 →
      (publisherKeys s = [] ∨ ∃ sc, s.sec.debugScope = some sc ∧ bitAt sc 2 = true) →
    ∃ u, exec (.keyRegister h key t) s = .next u ∧ publisherKeys u = publisherKeys s ++ [key]
      ∧ u.nv = { s.nv with publishers := u.nv.publishers })
  ∧ (∀ nonce a, admitted h (.attest nonce a) t s → leavesWf s →
    ∃ u leaf, exec (.attest h nonce a t) s = .next u
      ∧ (.hostWrite h.fn a (attestBytes (takeLeaf (entered h (.attest nonce a) t s)).1 h.fn nonce leaf)) ∈ u.out
      ∧ (match leaf with
        | some l => s.nv.nextLeaf ≤ l ∧ u.nv.nextLeaf = l + 1
        | none => s.nv.leafBlocks = 0 ∧ u.nv = s.nv))
  ∧ (∀ k, admitted h (.debugUnlock k.scope) t s → s.sec.confPresent = false → tokenOk s k = true →
    ∃ u, exec (.debugUnlock h k t) s = .next u ∧ u.sec.debugScope = some k.scope
      ∧ u.sec = { s.sec with debugScope := some k.scope, challenge := u.sec.challenge })
  ∧ (∀ key, admitted h (.keyRegister key) t s →
      (s.sec.confPresent = true ∨ 16 ≤ (publisherKeys s).length
        ∨ (publisherKeys s ≠ [] ∧ ∀ sc, s.sec.debugScope = some sc → bitAt sc 2 = false)) →
    exec (.keyRegister h key t) s = .next (finish (entered h (.keyRegister key) t s) h.fn h.seq .debugDenied {} 0 0))
  ∧ (∀ k, admitted h (.debugUnlock k.scope) t s → (s.sec.confPresent = true ∨ tokenOk s k = false) →
    ∃ u, exec (.debugUnlock h k t) s = .next u ∧ u.sec = { s.sec with challenge := u.sec.challenge })

/-! ## Requests and web streams -/

/-- REQ_SUBMIT reads the prompt once its checks pass; when the prompt has come with words of the vocabulary, the request
takes the lowest free index of the table (R254, R255). REQ_CANCEL asks for the end of a request in its scope, at
the boundary of the first step whose seal begins after the command was taken, and waits for it (R260, R276). -/
def Obligations.RequestCommandsComplete : Prop := ∀ (h : Hdr) (t : Nat) (s : State),
  (∀ p, admitted h (.reqSubmit p) t s → submitStatus s p (ownerOf h) s.rst.calDone = none →
    exec (.reqSubmit h p t) s = .next (setWait (emit (entered h (.reqSubmit p) t s)
      (.hostRead h.fn p.promptAddr (4 * p.promptTokens))) h.fn h.seq .hostRead))
  ∧ (∀ p words f e, h.fn < 256 → s.therm.stopping = none → findCmd s h.fn h.seq = some e → e.hdr = h → e.par = .reqSubmit p →
      e.wait = .hostRead → submitBad s p (ownerOf h) s.rst.calDone = none → formeOf s p.slot = some f →
      words.length = p.promptTokens → (∀ x ∈ words, x < f.image.sched.vocab) →
    let i := freeIndex 0 s.reqs
    ∃ u q, exec (.hostReadComplete h.fn h.seq (.prompt words) t) s = .next u ∧ reqOf u i = some q ∧ q.p = p ∧ q.fn = h.fn
      ∧ q.tenant = ownerOf h ∧ q.history = words ∧ q.order = s.sched.nextOrder ∧ q.emitted = 0 ∧ q.endAs = []
      ∧ q.state = (if (p.pinned = true ∧ flipPending s = true) ∨ slotDraining s p.slot = true then ReqState.held else ReqState.queued)
      ∧ (∀ j, j ≠ i → reqOf u j = reqOf s j))
  ∧ (∀ rid q, admitted h (.reqCancel rid) t s → reqOf s (ridIndex rid) = some q → ridOf s (ridIndex rid) = rid →
      (∀ n, hdrTenant h = some n → q.tenant = n) → q.endAs = [] →
    let taken := ((findCmd (entered h (.reqCancel rid) t s) h.fn h.seq).map (·.taken)).getD (max s.time.base t)
    ∃ u, exec (.reqCancel h rid t) s = .next u
      ∧ reqOf u (ridIndex rid) = some { q with endAs := [(.cancelled, endFrom s taken)] }
      ∧ (∃ e, findCmd u h.fn h.seq = some e ∧ e.wait = .cancel (ridIndex rid)) ∧ u.sched.wantBoundary = true)

/-- A host access that does not complete is tried again, and the third failure answers the command HOST_TIMEOUT with nothing done (R247). -/
def Obligations.HostAccessTimesOut : Prop := ∀ (fn seq t : Nat) (e : CmdEntry) (p : ReqParams) (s : State), fn < 256 →
  s.therm.stopping = none → findCmd s fn seq = some e → e.hdr.fn = fn → e.hdr.seq = seq → e.wait = .hostRead →
  e.par = .reqSubmit p →
  (2 ≤ e.attempts →
    exec (.hostAccessTimeout fn seq t) s = .next (finish (advance t s) fn seq .hostTimeout {} 0 0))
  ∧ (e.attempts < 2 →
    ∃ u e', exec (.hostAccessTimeout fn seq t) s = .next u ∧ findCmd u fn seq = some e' ∧ e' = { e with attempts := e.attempts + 1 }
      ∧ u.out = s.out ++ [.hostRead fn p.promptAddr (4 * p.promptTokens)] ∧ u.fns = s.fns)

/-- WEB_OPEN opens its channel when no silence payload has to be read, and otherwise reads it; WEB_CLOSE with MODE 1 writes the end frame
and closes at once, with MODE 0 it waits for the next slot; WEB_GROUP stages (R309, R318, R323). -/
def Obligations.WebCommandsComplete : Prop := ∀ (h : Hdr) (t : Nat) (s : State),
  (∀ p, admitted h (.webOpen p) t s → tenantEnabled s (ownerOf h) = true → webOpenStatus s p = none → p.silenceAddr = 0 →
    ∃ u c, exec (.webOpen h p t) s = .next u ∧ chanOf u p.channel = some c ∧ c.p = p ∧ c.tenant = ownerOf h ∧ c.fn = h.fn
      ∧ c.queue = [] ∧ c.bound = none ∧ c.data = 0 ∧ c.fills = 0 ∧ c.closing = false
      ∧ (∀ w, w ≠ p.channel → chanOf u w = chanOf s w))
  ∧ (∀ p, admitted h (.webOpen p) t s → tenantEnabled s (ownerOf h) = true → webOpenStatus s p = none → p.silenceAddr ≠ 0 →
    exec (.webOpen h p t) s = .next (setWait (emit (entered h (.webOpen p) t s)
      (.hostRead h.fn p.silenceAddr (4 * ((p.frameBytes - 16) / 4)))) h.fn h.seq .hostRead))
  ∧ (∀ w c, admitted h (.webClose w 1) t s → chanOf s w = some c → webScope h c = true →
    ∃ u, exec (.webClose h w 1 t) s = .next u ∧ chanOf u w = none ∧ (∀ v, v ≠ w → chanOf u v = chanOf s v)
      ∧ (.hostWrite c.fn (c.p.destAddr + c.slot % (c.p.destBytes / frameStride c.g) * frameStride c.g)
          (frameOf c.slot 3 0 c.g c.data [])) ∈ u.out)
  ∧ (∀ w c, admitted h (.webClose w 0) t s → chanOf s w = some c → webScope h c = true →
    ∃ u, exec (.webClose h w 0 t) s = .next u ∧ chanOf u w = some { c with queue := [], closing := true }
      ∧ (∃ e, findCmd u h.fn h.seq = some e ∧ e.wait = .webClose w) ∧ u.out = s.out)
  ∧ (∀ g ms, admitted h (.webGroup g ms) t s → g < 1024 →
      (ms = [0xFFFF] ∨ (ms.Nodup ∧ ∀ m ∈ ms, m < 4096)) → (∀ m ∈ ms, inOtherGroup s g m = false) →
    exec (.webGroup h g ms t) s = .next (replyOk (stage (entered h (.webGroup g ms) t s) 2 (.group g ms)) h 0 0))

/-- At its slot an ungrouped channel writes the head of its queue as a data frame, and with an empty queue a fill frame under FILL 0 or
1; either moves it to the next slot. A channel that closes, that must fill under FILL 2, or that must fill after FILL_LIMIT fill frames in a
row writes an end frame and closes. Before its slot nothing happens (R308, R315, R316, R317, R323). -/
def Obligations.WebSlotWritesAFrame : Prop := ∀ (w t : Nat) (c : Channel) (s : State), w < 4096 → chanOf s w = some c →
  c.p.group = 0xFFFF →
  let addr := c.p.destAddr + c.slot % (c.p.destBytes / frameStride c.g) * frameStride c.g
  (max s.time.base t < slotTime c c.slot → exec (.webSlot w t) s = .next (advance t s))
  ∧ (slotTime c c.slot ≤ max s.time.base t →
    (∀ tokens after q, c.closing = false → c.queue = (tokens, after) :: q →
      ∃ u, exec (.webSlot w t) s = .next u
        ∧ chanOf u w = some { c with slot := c.slot + 1, queue := q, data := c.data + 1, run := 0, filling := false,
                                     lastTokens := tokens }
        ∧ u.out = s.out ++ [.hostWrite c.fn addr (frameOf c.slot 0 (if after then 2 else 0) c.g c.data tokens)])
    ∧ (c.closing = false → c.queue = [] → c.p.fill ≤ 1 → (fillLimit s = 0 ∨ c.run < fillLimit s) →
      ∃ u tokens, exec (.webSlot w t) s = .next u
        ∧ chanOf u w = some { c with slot := c.slot + 1, fills := satAdd 32 c.fills 1, run := c.run + 1, filling := true }
        ∧ u.out = s.out ++ [.hostWrite c.fn addr (frameOf c.slot (if c.p.fill = 0 then 1 else 2) 0 c.g c.data tokens)]
        ∧ (c.p.fill = 0 → c.data ≠ 0 → tokens = c.lastTokens))
    ∧ (c.closing = true ∨ (c.queue = [] ∧ (c.p.fill = 2 ∨ (fillLimit s ≠ 0 ∧ fillLimit s ≤ c.run))) →
      ∃ u, exec (.webSlot w t) s = .next u ∧ chanOf u w = none
        ∧ (.hostWrite c.fn addr (frameOf c.slot 3 0 c.g c.data [])) ∈ u.out))

/-! ## The galley, replies and registers -/

/-- A write of one whole packet at the frontier is stored, and frontier and next SEQ move on; a write at another offset is
discarded; a header with a wrong SEQ or a length outside 1 to 257 sets HEADER, one without room sets OVERRUN, and both store
nothing and note the SEQ (R225, R226, R227). -/
def Obligations.GalleyTakesPackets : Prop := ∀ (fn off t : Nat) (b : List Byte) (s : State), fn < 256 →
  hostUp s = true → barOpen s fn = true → (fnOf s fn).due = 0 →
  let f := fnOf s fn
  let n := leAt b 4 2
  (off ≠ f.frontier → exec (.galleyWrite fn off b t) s = .next (advance t s))
  ∧ (off = f.frontier → 1 ≤ n → n ≤ 257 → b.length = 16 * n → leAt b 8 4 = f.nextSeq → 16 * n ≤ galleySize fn - f.stored.length →
    exec (.galleyWrite fn off b t) s = .next (setFn (advance t s) fn
      { f with stored := f.stored ++ b, frontier := (f.frontier + 16 * n) % galleySize fn, nextSeq := (f.nextSeq + 1) % 2 ^ 32 }))
  ∧ (off = f.frontier → 16 ≤ b.length → (n < 1 ∨ 257 < n ∨ leAt b 8 4 ≠ f.nextSeq) →
    exec (.galleyWrite fn off b t) s = .next (setFn (advance t s) fn { f with header := true, droppedSeq := leAt b 8 4 }))
  ∧ (off = f.frontier → 16 ≤ b.length → 1 ≤ n → n ≤ 257 → leAt b 8 4 = f.nextSeq → galleySize fn - f.stored.length < 16 * n →
    exec (.galleyWrite fn off b t) s = .next (setFn (advance t s) fn { f with overrun := true, droppedSeq := leAt b 8 4 }))

/-- Firmware takes the first complete packet of the first function in rotation that has one: the packet leaves the galley, the consume point
passes it, and its command enters the queue, or OPCODE_UNKNOWN answers it; with the command queue full nothing is taken (R228,
R230, R244, R250). -/
def Obligations.PacketTakeQueuesTheCommand : Prop := ∀ (t : Nat) (s : State), hostUp s = true →
  (∀ fn hd p, s.cmdq.length < 1024 → (rotation s).find? (takeable s) = some fn →
      let f := fnOf s fn
      let n := (completePacket f).getD 0
      decodePacket fn (f.stored.take n) = (hd, some p) →
    ∃ u, exec (.packetTake t) s = .next u
      ∧ u.cmdq = s.cmdq ++ [{ hdr := hd, par := p, taken := max s.time.base t, wait := .queued, attempts := 0 }]
      ∧ fnOf u fn = { f with stored := f.stored.drop n, consume := (f.consume + n) % galleySize fn }
      ∧ (∀ g, g ≠ fn → fnOf u g = fnOf s g) ∧ u.turn = (fn + 1) % 256)
  ∧ (∀ fn hd, s.cmdq.length < 1024 → (rotation s).find? (takeable s) = some fn →
      let f := fnOf s fn
      let n := (completePacket f).getD 0
      decodePacket fn (f.stored.take n) = (hd, none) →
    ∃ u, exec (.packetTake t) s = .next u ∧ u.cmdq = s.cmdq ∧ (fnOf u fn).stored = f.stored.drop n
      ∧ (replyRoom f = false → ∃ r, (fnOf u fn).store = f.store ++ [r] ∧ r.status = .opcodeUnknown ∧ r.seq = hd.seq
          ∧ r.taken = some (max s.time.base t))
      ∧ (replyRoom f = true → f.store = [] → ∃ r : Reply, r.status = .opcodeUnknown ∧ r.seq = hd.seq
          ∧ (.hostWrite fn (replyBase f + 32 * f.tail) (replyBytes r f.ringPhase)) ∈ u.out))
  ∧ (1024 ≤ s.cmdq.length → exec (.packetTake t) s = .next (advance t s))

/-- HUB_GALLEY_CTRL.RESET empties the galley, its frontier and consume point go to 0 and its next SEQ to 1, and commands taken before stay
(R230); the idle time of a transaction whose stored command it discards starts over (R241), and nothing else changes. A write of HUB_REPLY_HEAD moves the head, and stored replies move into the ring until none is left or it is full (R237). -/
def Obligations.GalleyResetAndReplyHead : Prop := ∀ (fn t : Nat) (v : W32) (s : State), fn < 256 → hostUp s = true →
  barOpen s fn = true →
  (v.toNat % 2 = 1 → ∃ u, exec (.galleyReset fn v t) s = .next u
    ∧ u = { setFn (advance t s) fn { fnOf s fn with stored := [], frontier := 0, consume := 0, nextSeq := 1, due := 0 } with txns := u.txns }
    ∧ u.txns.nextId = s.txns.nextId
    ∧ (∀ d, (txnOf u.txns d).map (fun x => { x with idleSince := 0 }) = (txnOf s.txns d).map (fun x => { x with idleSince := 0 }))
    ∧ (fn ≠ 0 ∨ (fnOf s fn).stored = [] → u.txns = s.txns)
    ∧ (∀ b ∈ storedHeaders (fnOf s 0).stored.length (fnOf s 0).stored, ∀ d, fn = 0 → txnDomain s (leAt b 12 2) = some d →
        (txnOf u.txns d).map (·.idleSince) = some (max s.time.base t)))
  ∧ (v.toNat % 2 = 0 → exec (.galleyReset fn v t) s = .next (advance t s))
  ∧ (∃ u, exec (.replyHeadWrite fn v t) s = .next u ∧ (fnOf u fn).head = v.toNat % 65536
      ∧ ((fnOf u fn).store = [] ∨ replyRoom (fnOf u fn) = false) ∧ (fnOf u fn).stored = (fnOf s fn).stored)

/-- Writes of BAR0 registers (R4, R453, R454): an access that is not naturally aligned or not of 4 or 8 bytes is discarded and counted;
8 bytes act as two 4-byte writes, low address first; W1C bits clear where a 1 is written; RW fields take what is written and reserved bits
stay 0, and read back. RST_COUNT_CLR clears the counters of the sources whose bits are 1, in all three copies, and no
other (R402, R366). -/
def Obligations.RegisterWrites : Prop := ∀ (fn off size v t : Nat) (s : State), fn < 256 → hostUp s = true → barOpen s fn = true →
  let base := if fn = 0 then 0x1000 else 0
  (¬(size = 4 ∧ off % 4 = 0) → ¬(size = 8 ∧ off % 8 = 0) →
    exec (.registerWrite fn off size v t) s
      = .next { advance t s with pci := { s.pci with accessErr := satAdd 32 s.pci.accessErr 1 } })
  ∧ (exec (.registerWrite fn (base + 0x04) 4 v t) s = .next (setFn (advance t s) fn
      { fnOf s fn with header := (fnOf s fn).header && !bitAt (v % 2 ^ 32) 1, overrun := (fnOf s fn).overrun && !bitAt (v % 2 ^ 32) 0 }))
  ∧ (∃ u, exec (.registerWrite fn (base + 0x30) 4 v t) s = .next u ∧ bar0Read u fn (base + 0x30) = v % 65536
      ∧ u = setFn (advance t s) fn (fnOf u fn))
  ∧ (∃ u, exec (.registerWrite fn (base + 0x10) 8 v t) s = .next u
      ∧ bar0Read u fn (base + 0x10) = Nat.land (v % 2 ^ 32) 0xFFFFFFC1 ∧ bar0Read u fn (base + 0x14) = v / 2 ^ 32 % 2 ^ 32)
  ∧ (∀ w, ∃ u, exec (.rstCountClear w t) s = .next u
    ∧ (∀ i, u.aon.counts.a.getD i 0 = (if bitAt w.toNat i then 0 else s.aon.counts.a.getD i 0)
        ∧ u.aon.counts.b.getD i 0 = (if bitAt w.toNat i then 0 else s.aon.counts.b.getD i 0)
        ∧ u.aon.counts.c.getD i 0 = (if bitAt w.toNat i then 0 else s.aon.counts.c.getD i 0))
    ∧ u = { advance t s with aon := { s.aon with counts := u.aon.counts } })

/-- Reading HUB_TIME_LO returns the low word of the count and latches the matching high word for the reading function, which its
following read of HUB_TIME_HI returns (R425). -/
def Obligations.TimeLoLatchesHigh : Prop := ∀ (fn t : Nat) (s : State), fn < 256 →
  ∃ u, exec (.timeLoRead fn t) s = .next u
    ∧ u.out = s.out ++ [.readValue fn (BitVec.ofNat 32 (max s.time.base t))]
    ∧ readTime u fn 0x04 = max s.time.base t / 2 ^ 32 % 2 ^ 32
    ∧ (∀ g, g ≠ fn → readTime u g 0x04 = readTime s g 0x04)
    ∧ u = { advance t s with out := u.out, time := { s.time with base := max s.time.base t, latch := u.time.latch } }

/-- Event timers (R426): arming an enabled timer that the host holds sets its next edge, at the compare value when that lies at
least 200 ns ahead and otherwise later with LATE set; an edge that is due is counted, a periodic timer's next edge follows one
period later, and a single timer clears EN. -/
def Obligations.EventTimers : Prop := ∀ (n t : Nat) (hi : W32) (s : State), n < 64 →
  let x := timerOf s n
  let cmp := hi.toNat * 2 ^ 32 + x.cmpLo.toNat
  (heldByHost s 0 n = true → x.en = true → max s.time.base t + 200 ≤ cmp →
    exec (.etArm n hi t) s = .next (setTimer (advance t s) n { x with cmpHi := hi, next := some cmp }))
  ∧ (heldByHost s 0 n = true → x.en = true → cmp < max s.time.base t + 200 → x.periodic = false →
    exec (.etArm n hi t) s
      = .next (setTimer (advance t s) n { x with cmpHi := hi, next := some (max s.time.base t + 200), late := true }))
  ∧ (heldByHost s 0 n = true → x.en = true → cmp < max s.time.base t + 200 → x.periodic = true →
    ∃ u e k, exec (.etArm n hi t) s = .next u ∧ timerOf u n = { x with cmpHi := hi, next := some e, late := true }
      ∧ e = cmp + k * max 100 x.period.toNat ∧ max s.time.base t + 200 ≤ e ∧ e < max s.time.base t + 200 + max 100 x.period.toNat)
  ∧ (heldByHost s 0 n = true → x.en = false → exec (.etArm n hi t) s = .next (setTimer (advance t s) n { x with cmpHi := hi }))
  ∧ (heldByHost s 0 n = false → exec (.etArm n hi t) s = .next (advance t s))
  ∧ (∀ e, x.next = some e → x.en = true → e ≤ max s.time.base t → x.periodic = true →
    exec (.etEdge n t) s = .next (setTimer (advance t s) n
      { x with edges := min (x.edges + 1) (2 ^ 30 - 1), next := some (e + max 100 x.period.toNat) }))
  ∧ (∀ e, x.next = some e → x.en = true → e ≤ max s.time.base t → x.periodic = false →
    exec (.etEdge n t) s = .next (setTimer (advance t s) n
      { x with edges := min (x.edges + 1) (2 ^ 30 - 1), en := false, next := none }))

/-- TILE_ENGAGE in proof mode engages the plane it names when its descriptor is good and its state allows it, 120 ns after the tile is
free; outside proof mode it does nothing, and on a core that a resident forme names it sets REFUSED (R43, R67, R68). A plane the tile does not
have, and a core of a stack without a logical stack, engage nothing (the model's own choices, log entries 88 and 89). -/
def Obligations.TileEngage : Prop := ∀ (ck tile t : Nat) (v : W32) (s : State), ck < nCores → tile < 16 →
  ((s.sec.proof = false ∨ logicalStack s (coreStack ck) = none) → exec (.tileEngage ck tile v t) s = .next (advance t s))
  ∧ (s.sec.proof = true → bitAt v.toNat 31 = true → logicalStack s (coreStack ck) ≠ none → coreNamed s ck = true →
    exec (.tileEngage ck tile v t) s = .next (setCore (advance t s) ck { coreOf s ck with proofRefused := true }))
  ∧ (coreNamed s ck = false → (if bitAt v.toNat 30 then 1408 else 1344) ≤ fld v.toNat 10 0 →
    exec (.tileEngage ck tile v t) s = .next (advance t s))
  ∧ (s.sec.proof = true → bitAt v.toNat 31 = true → logicalStack s (coreStack ck) ≠ none → coreNamed s ck = false →
      let n := fld v.toNat 10 0
      let p := if bitAt v.toNat 30 then n else physPlane s (tileKey ck tile) n
      n < (if bitAt v.toNat 30 then 1408 else 1344) →
      (descOf s (planeKey (tileKey ck tile) p)).state ∈ (if bitAt v.toNat 30 then [1, 2, 3, 4] else [1, 2]) →
      descGood (descOf s (planeKey (tileKey ck tile) p)) = true →
    ∃ u, exec (.tileEngage ck tile v t) s = .next u ∧ (tileOf (coreOf u ck) tile).engaged = some p
      ∧ (tileOf (coreOf u ck) tile).proofEngaged = true
      ∧ (∃ b, max s.time.base t ≤ b ∧ (tileOf (coreOf s ck) tile).freeAt ≤ b ∧ (2, b, b + 120) ∈ (tileOf (coreOf u ck) tile).work
          ∧ (tileOf (coreOf u ck) tile).freeAt = b + 120 ∧ (b, b + 120) ∈ (coreOf u ck).switches
          ∧ ∀ w ∈ (coreOf s ck).switches, b + 120 ≤ w.1 ∨ w.2 ≤ b)
      ∧ (∀ x, x ≠ tile → tileOf (coreOf u ck) x = tileOf (coreOf s ck) x) ∧ (∀ j, j ≠ ck → coreOf u j = coreOf s j))

/-- Check-bit test mode (R368): a raw write stores data and check bits and sets DONE; a raw read returns them as they stand; a decoded read
of a good word returns it without an error. While a confidential tenant is present a raw write is refused.
What R368 leaves open is log entry 20. -/
def Obligations.CheckBitTestMode : Prop := ∀ (v : W32) (t : Nat) (s : State), s.rst.phase = .service → bitAt v.toNat 31 = true →
  let mem := fld v.toNat 3 0
  let key := eccKey s mem
  let data := s.faults.eccDataHi.toNat * 2 ^ 32 + s.faults.eccDataLo.toNat
  (s.sec.confPresent = false → eccTarget s mem = true → fld v.toNat 30 28 = 1 →
    ∃ u, exec (.eccRawWrite v t) s = .next u ∧ aget u.faults.eccMem key = some (data, fld v.toNat 23 16) ∧ u.faults.eccDone = true)
  ∧ (∀ d c, s.sec.confPresent = false → eccTarget s mem = true → fld v.toNat 30 28 = 2 → aget s.faults.eccMem key = some (d, c) →
    ∃ u, exec (.eccRawRead v t) s = .next u ∧ u.faults.eccDataLo = BitVec.ofNat 32 d
      ∧ u.faults.eccDataHi = BitVec.ofNat 32 (d / 2 ^ 32) ∧ u.faults.eccCheck = c ∧ u.faults.eccDone = true
      ∧ u.faults.eccMem = s.faults.eccMem)
  ∧ (∀ d, s.sec.confPresent = false → eccTarget s mem = true → fld v.toNat 30 28 = 3 →
      aget s.faults.eccMem key = some (d, Config.checkBits d % 256) →
    ∃ u, exec (.eccDecodedRead v t) s = .next u ∧ u.faults.eccDataLo = BitVec.ofNat 32 d
      ∧ u.faults.eccDataHi = BitVec.ofNat 32 (d / 2 ^ 32) ∧ u.faults.eccCe = false ∧ u.faults.eccUe = false
      ∧ u.faults.eccSyndrome = 0 ∧ u.faults.eccDone = true)
  ∧ (s.sec.confPresent = true → fld v.toNat 30 28 = 1 →
    ∃ u, exec (.eccRawWrite v t) s = .next u ∧ u.faults.eccRefused = true ∧ u.faults.eccMem = s.faults.eccMem)

/-! ## Resets, the option load, the watchdog -/

/-- POR and PERST from any running phase (R397, R398, R399, R401, R402, R404): the reset starts with that source alone, its counter and no
other adds 1 in all three copies, a load in progress counts as aborted, everything the cold reset reaches is at its reset value, flash and the
latch record stay, no plane is engaged (R40), and MOD_RST_N and the array drivers are low. A source that asserts
while a reset is in progress joins it once, without a second start (R399). What a cold reset keeps beyond R398 is log entries 42 and 43. -/
def Obligations.ColdResets : Prop := ∀ (x : Src) (t : Nat) (s : State), (x = .por ∨ x = .perst) →
  (s.rst.phase = .inReset → x ∈ s.rst.sources → exec (if x = .por then .por t else .perst t) s = .next (advance t s))
  ∧ (s.rst.phase = .inReset → x ∉ s.rst.sources → ∃ u, exec (if x = .por then .por t else .perst t) s = .next u
      ∧ u.rst.sources = s.rst.sources ++ [x] ∧ u.rst.started = s.rst.started ∧ u.rst.phase = .inReset)
  ∧ (aonWf s → s.rst.phase ≠ .inReset → s.rst.phase ≠ .latched → s.therm.stopping = none →
  ∃ u, exec (if x = .por then .por t else .perst t) s = .next u
    ∧ u.rst.phase = .inReset ∧ u.rst.sources = [x] ∧ u.aon.sources = [x] ∧ u.rst.started = max s.time.base t
    ∧ (∀ i, i < 7 → u.aon.counts.a.getD i 0 = (if i = srcCode x then min (s.aon.counts.a.getD i 0 + 1) 65535 else s.aon.counts.a.getD i 0)
        ∧ u.aon.counts.b.getD i 0 = (if i = srcCode x then min (s.aon.counts.b.getD i 0 + 1) 65535 else s.aon.counts.b.getD i 0)
        ∧ u.aon.counts.c.getD i 0 = (if i = srcCode x then min (s.aon.counts.c.getD i 0 + 1) 65535 else s.aon.counts.c.getD i 0))
    ∧ u.aon.totalAborts = (if s.rst.phase = .loading then min (s.aon.totalAborts + 1) 65535 else s.aon.totalAborts)
    ∧ u.nv = s.nv ∧ u.aon.thermLatch = s.aon.thermLatch ∧ u.aon.errorLog = s.aon.errorLog
    ∧ u.reqs = [] ∧ u.cmdq = [] ∧ u.fns = [] ∧ u.tenants = [] ∧ u.formes = [] ∧ u.web = {} ∧ u.txns = {} ∧ u.kv = {} ∧ u.ql = {}
    ∧ u.plates = {} ∧ u.sched = {} ∧ u.rst.calDone = false
    ∧ (∀ ck tile, (tileOf (coreOf u ck) tile).engaged = none)
    ∧ pinLevel u .modRst = some false ∧ pinLevel u .arrayDrivers = some false)

/-- The warm sources (R397, R398, R400, R249, R376): MOD_WARM_N low for 10 µs while it is enabled, the end of RESET_WARM's delay and the
watchdog 500 ms after its last service each start a reset that keeps the time base, HBM contents, resident formes, calibration, MSI-X and active
tenants and drops requests, commands, RETIRING tenants and the engagement of every plane; the watchdog notes the silent processor.
What a warm reset keeps beyond R398 is log entries 42 and 43. -/
def Obligations.WarmResets : Prop := ∀ (i : Instr) (x : Src) (t : Nat) (s : State), aonWf s → s.txns.plate = none →
  s.rst.phase ≠ .inReset → s.rst.phase ≠ .latched → s.therm.stopping = none →
  ((∃ low, i = .modWarmN low t ∧ 10000 ≤ low ∧ warmPinEn s = true ∧ x = .warm)
    ∨ (∃ a, i = .warmResetDelayEnd t ∧ s.rst.warmAt = some a ∧ a ≤ max s.time.base t ∧ x = .warm)
    ∨ (i = .watchdogExpiry t ∧ firmwareRuns s = true ∧ s.rst.lastService + 500000000 ≤ max s.time.base t ∧ x = .wdt)) →
  ∃ u, exec i s = .next u
    ∧ u.rst.phase = .inReset ∧ u.rst.sources = [x] ∧ u.time.base = max s.time.base t ∧ u.time.valid = s.time.valid
    ∧ (∀ j, j < 7 → u.aon.counts.a.getD j 0 = (if j = srcCode x then min (s.aon.counts.a.getD j 0 + 1) 65535 else s.aon.counts.a.getD j 0))
    ∧ u.nv = s.nv ∧ u.rst.calDone = s.rst.calDone ∧ u.kv.hbm = s.kv.hbm
    ∧ u.formes.map (fun f => (f.1, f.2.image)) = s.formes.map (fun f => (f.1, f.2.image))
    ∧ u.reqs = [] ∧ u.cmdq = [] ∧ u.web = {} ∧ u.plates = {}
    ∧ (∀ e ∈ s.fns, e.2.msixTable ≠ [] → ∃ f ∈ u.fns, f.1 = e.1 ∧ f.2.msixTable = e.2.msixTable ∧ f.2.unmasked = e.2.unmasked)
    ∧ (∀ e ∈ s.tenants, tenantSlot s e.1 ≠ 2 → e.2.enabled = true → ∃ y ∈ u.tenants, y.1 = e.1 ∧ y.2.slot = e.2.slot
        ∧ y.2.cfg = e.2.cfg ∧ y.2.enabled = true ∧ y.2.confidential = e.2.confidential ∧ y.2.epoch = e.2.epoch)
    ∧ (∀ n, tenantSlot s n = 2 → tenantOf u n = {})
    ∧ (∀ ck tile, (tileOf (coreOf u ck) tile).engaged = none)
    ∧ (i = .watchdogExpiry t → u.aon.wdtMp = silentMp s)

/-- RESET_RELEASE after the 1 ms stretch (R393, R398, R404, R405, R422): MOD_RST_N and the drivers are released, a cold reset restarts the time base
and takes the first firmware slot that verifies, and the option load starts; after the fourth abort in a row the limp start follows; with
no good slot nothing starts. Before the end of the stretch nothing happens.
That the time base restarts at the end of a cold reset is the model's reading (log entry 19). -/
def Obligations.ResetRelease : Prop := ∀ (width rate t : Nat) (s : State), s.rst.phase = .inReset →
  (max s.time.base t < s.rst.started + 1000000 → exec (.resetRelease width rate t) s = .next (advance t s))
  ∧ (∀ f, s.rst.started + 1000000 ≤ max s.time.base t → s.rst.cold = true →
      s.nv.fw.find? (fun f => f.good && s.nv.svnMin ≤ f.svn) = some f →
    ∃ u, exec (.resetRelease width rate t) s = .next u ∧ u.time.base = 0 ∧ u.nv.fwActive = f ∧ u.pci.width = width ∧ u.pci.rate = rate
      ∧ pinLevel u .modRst = none ∧ pinLevel u .arrayDrivers = none ∧ u.nv.svnMin = s.nv.svnMin ∧ u.nv.fw = s.nv.fw
      ∧ (¬(s.aon.consec = 4 ∧ s.aon.limp = false) → u.rst.phase = .loading ∧ u.aon.limp = false)
      ∧ (s.aon.consec = 4 → s.aon.limp = false → u.rst.phase = .limp ∧ u.aon.limp = true ∧ pinLevel u .ledFault = some false))
  ∧ (s.rst.started + 1000000 ≤ max s.time.base t → s.rst.cold = true →
      s.nv.fw.find? (fun f => f.good && s.nv.svnMin ≤ f.svn) = none →
    ∃ u, exec (.resetRelease width rate t) s = .next u ∧ u.rst.phase = .noFirmware)
  ∧ (s.rst.started + 1000000 ≤ max s.time.base t → s.rst.cold = false → ¬(s.aon.consec = 4 ∧ s.aon.limp = false) →
    ∃ u, exec (.resetRelease width rate t) s = .next u ∧ u.time.base = max s.time.base t ∧ u.nv.fwActive = s.nv.fwActive
      ∧ u.rst.phase = .loading ∧ pinLevel u .modRst = none)

/-- OPTION_LOAD_COMPLETE (R216, R403, R404, R405, R416): a good load takes the newest generation record's plates and epoch, clears the count of
consecutive aborts and enters service with FEED_EN high; a failed one counts an abort in both counters and loads again, or makes
the limp start at the fourth. Outside a load nothing happens. VBK_LOSS while the 50 V input is gone clears the always-on domain (R402, R467):
every counter reads 0, the latch is open, the age of the unpowered time is lost; at any other time VBK is not needed.
When VBK_LOSS matters is the model's reading (log entry 61). -/
def Obligations.OptionLoad : Prop := ∀ (ok : Bool) (t : Nat) (s : State),
  (∀ g, s.rst.phase = .loading → newest s.nv.gen = some g → ok = true → s.nv.fuseMapOk = true → hubFactoryOk s = true →
    ∃ u, exec (.optionLoadComplete ok t) s = .next u ∧ u.rst.phase = .service ∧ u.rst.loadDone = true ∧ u.plates.table = g.plates
      ∧ u.plates.epoch = g.epoch ∧ u.aon.consec = 0 ∧ u.aon.limp = false ∧ u.aon.errorLog = [] ∧ u.time.valid = true
      ∧ pinLevel u .feedEn = some true ∧ s.nv.svnMin ≤ u.nv.svnMin)
  ∧ (s.rst.phase = .loading → (newest s.nv.gen = none ∨ ok = false ∨ s.nv.fuseMapOk = false ∨ hubFactoryOk s = false) →
    ∃ u, exec (.optionLoadComplete ok t) s = .next u ∧ u.aon.totalAborts = min (s.aon.totalAborts + 1) 65535
      ∧ u.aon.consec = min 4 (s.aon.consec + 1)
      ∧ u.rst.phase = (if 3 ≤ s.aon.consec then .limp else .loading) ∧ u.nv = s.nv)
  ∧ (s.rst.phase ≠ .loading → exec (.optionLoadComplete ok t) s = .next (advance t s))
  ∧ ((s.rst.phase = .inReset ∨ s.rst.phase = .latched) → .por ∈ s.rst.sources →
    ∃ u, exec (.vbkLoss t) s = .next u ∧ u.aon.counts = ⟨[0, 0, 0, 0, 0, 0, 0], [0, 0, 0, 0, 0, 0, 0], [0, 0, 0, 0, 0, 0, 0]⟩
      ∧ u.aon.vbkLost = true ∧ u.aon.thermLatch = false ∧ u.aon.unpowered = none ∧ u.aon.errorLog = [] ∧ u.aon.totalAborts = 0
      ∧ u.aon.consec = 0 ∧ u.nv = s.nv ∧ u.arr = s.arr)
  ∧ (.por ∉ s.rst.sources → exec (.vbkLoss t) s = .next (advance t s))

/-! ## The housekeeping tick -/

/-- A housekeeping tick that is due (R366, R396, R400, R420): MP0 services the watchdog when its work is done and no processor has missed three
ticks, heartbeats are counted, a queue that overran shows its flag, and the copies of the fence map and of the reset counters agree again. A tick less than 40 ms after the last
one does nothing. AGE_COMMIT, once an hour in service, writes the field record of ages and drift results into the older of its two copies and
nothing else; at other times it writes nothing (R157, R171).
Overruns are operands, and votes are repaired at the tick (log entries 32 and 54). -/
def Obligations.HousekeepingTick : Prop := ∀ (inp : TickInput) (t : Nat) (s : State), firmwareRuns s = true →
  (s.rst.lastTick + 40000000 ≤ max s.time.base t →
    ∃ u, exec (.housekeepingTick inp t) s = .next u ∧ u.rst.lastTick = max s.time.base t ∧ u.sec.power = inp.power
      ∧ (∀ p, p ∈ [1, 2, 3] → tget 0 u.rst.missed p = (if p ∈ inp.alive then 0 else tget 0 s.rst.missed p + 1))
      ∧ ((inp.done = false → u.rst.lastService = s.rst.lastService)
        ∧ (inp.done = true → silentMp u = 0 → u.rst.lastService = max s.time.base t))
      ∧ (∀ n, (.hbm, n) ∈ inp.overruns → 0 < n → u.time.ovrHbm = true)
      ∧ (∀ n k, (.converter k, n) ∈ inp.overruns → 0 < n → k < nRegions → (regionOf u k).ovrConv = true)
      ∧ (inp.overruns = [] → u.time = { s.time with base := max s.time.base t })
      ∧ u.map.fenced.a = u.map.fenced.b ∧ u.map.fenced.b = u.map.fenced.c
      ∧ u.aon.counts.a = u.aon.counts.b ∧ u.aon.counts.b = u.aon.counts.c)
  ∧ (max s.time.base t < s.rst.lastTick + 40000000 → exec (.housekeepingTick inp t) s = .next (advance t s))
  ∧ (inService s = true → s.rst.lastAge + 3600000000000 ≤ max s.time.base t →
    ∃ u, exec (.ageCommit t) s = .next u ∧ newest u.nv.field = some (fieldOf s)
      ∧ u = { advance t s with rst := { s.rst with lastAge := max s.time.base t }, nv := { s.nv with field := u.nv.field } }
      ∧ (s.nv.field.turn = true → u.nv.field.a = s.nv.field.a) ∧ (s.nv.field.turn = false → u.nv.field.b = s.nv.field.b))
  ∧ ((inService s = false ∨ max s.time.base t < s.rst.lastAge + 3600000000000) → exec (.ageCommit t) s = .next (advance t s))

/-! ## Sensing and thermal protection -/

/-- The sense passes (R177, R408): every reading of the pass is taken, the monitor's own pass starts when none has run for 2 ms. Readings of
regions and HBM4 stacks below their levels stop nothing. A host pass of a sense converter (R178, R179, R180): with its trigger set, an edge that
finds the converter busy is counted as missed; otherwise, once the delay has passed, the pass runs and holds the converter for its time. -/
def Obligations.SensePasses : Prop := ∀ (temps : List TempReading) (rs : List SenseResult) (t : Nat) (s : State),
  (firmwareRuns s = true → s.therm.stopping = none → (∀ r ∈ temps, trips s r = false ∧ ∀ j, r.sensor ≠ .hub j) →
    (∃ u, exec (.fwSensePass temps rs t) s = .next u ∧ u.therm.lastFwPass = max s.time.base t ∧ u.therm.stopping = none
        ∧ u.rst.phase = s.rst.phase
        ∧ (∀ r ∈ temps, ∃ q ∈ temps, q.sensor = r.sensor ∧ aget u.therm.temps r.sensor = some q.value))
    ∧ (s.therm.lastFwPass + 2000000 ≤ max s.time.base t →
      ∃ u, exec (.thermMonitorPass temps rs t) s = .next u ∧ u.therm.lastFwPass = max s.time.base t ∧ u.therm.stopping = none
        ∧ (∀ r ∈ temps, ∃ q ∈ temps, q.sensor = r.sensor ∧ aget u.therm.temps r.sensor = some q.value))
    ∧ (max s.time.base t < s.therm.lastFwPass + 2000000 → exec (.thermMonitorPass temps rs t) s = .next (advance t s)))
  ∧ (∀ conv edge, conv < 644 →
    let n := max s.time.base t
    let q := senseOf s conv
    let delay := fld (senseTrig s conv) 15 0
    (triggered s conv = false → exec (.hostSensePass conv edge rs t) s = .next (advance t s))
    ∧ (triggered s conv = true → edge < q.hostUntil →
      ∃ u, exec (.hostSensePass conv edge rs t) s = .next u ∧ senseOf u conv = { q with miss := min (q.miss + 1) 65535 })
    ∧ (triggered s conv = true → q.hostUntil ≤ edge → n < edge + delay → exec (.hostSensePass conv edge rs t) s = .next (advance t s))
    ∧ (triggered s conv = true → q.hostUntil ≤ edge → edge + delay ≤ n →
      ∃ u, exec (.hostSensePass conv edge rs t) s = .next u
        ∧ (senseOf u conv).hostFrom = edge + delay ∧ (senseOf u conv).hostUntil = edge + delay + passNs s conv true
        ∧ (senseOf u conv).miss = q.miss))

/-- The thermal stop (R408, R409, R410, R411, R412): a region reading at 110 °C starts the orderly stop, which closes every channel and stops
formation; a reading whose slope reaches 115 °C within 10 ms makes the hard cut; a stop in progress whose step has sealed ends in the THERM
reset, with ages and corrections committed; a cut level reached in a stop makes the hard cut. Every stop ends latched. -/
def Obligations.ThermalStops : Prop := ∀ (r : TempReading) (k c t : Nat) (s : State), s.rst.phase = .service →
  r.sensor = .region k c →
  (s.therm.stopping = none → 1760 ≤ r.value → predicted (takeReading (advance t s) r) r.sensor r.value = false →
    ∃ u, exec (.thermalStop r t) s = .next u ∧ u.therm.stopping = some (max s.time.base t) ∧ u.sched.stopped = true
      ∧ u.web.channels = [] ∧ u.aon.thermCause = 1 ∧ u.aon.thermReading = r.value ∧ u.aon.thermHard = false ∧ u.rst.phase = .service)
  ∧ (s.therm.stopping = none → 1760 ≤ r.value → predicted (takeReading (advance t s) r) r.sensor r.value = true →
    ∃ u, exec (.thermalStop r t) s = .next u ∧ u.rst.phase = .latched ∧ u.aon.thermLatch = true ∧ u.aon.thermHard = true
      ∧ u.aon.latchAt = max s.time.base t)
  ∧ (∀ t0, s.therm.stopping = some t0 → (s.sched.step = none ∨ t0 + 6000000 ≤ max s.time.base t) → max s.time.base t ≤ t0 + 8000000 →
    ∃ u, exec (.thermalStop r t) s = .next u ∧ u.rst.phase = .latched ∧ u.aon.thermLatch = true ∧ u.aon.thermHard = false
      ∧ newest u.nv.field = some (fieldOf s))
  ∧ (∀ t0, s.therm.stopping = some t0 → s.sched.step ≠ none → max s.time.base t < t0 + 6000000 →
    exec (.thermalStop r t) s = .next (advance t s))
  ∧ (∀ t0, s.therm.stopping = some t0 → t0 + 10000000 ≤ max s.time.base t →
    ∃ u, exec (.hardCut t) s = .next u ∧ u.rst.phase = .latched ∧ u.aon.thermLatch = true ∧ u.aon.thermHard = true
      ∧ u.nv.field = s.nv.field)

/-- The latch opens after 1 s without input power, or with THERM_CLR_N low for 10 ms no earlier than 10 s after it was set; a cold
start follows, the record of the stop stays, and the regulators are free again. A shorter pulse, or one too early, does nothing (R412). -/
def Obligations.ThermalLatchClears : Prop := ∀ (byPin : Bool) (low t : Nat) (s : State), s.rst.phase = .latched →
  ((if byPin then 10000000 ≤ low ∧ s.aon.latchAt + 10000000000 ≤ max s.time.base t else 1000000000 ≤ low) →
    ∃ u, exec (.thermLatchClear byPin low t) s = .next u ∧ u.rst.phase = .inReset ∧ u.rst.cold = true
      ∧ u.rst.started = max s.time.base t ∧ u.aon.thermLatch = false
      ∧ u.aon.thermCause = s.aon.thermCause ∧ u.aon.thermReading = s.aon.thermReading ∧ u.aon.thermAddr = s.aon.thermAddr
      ∧ pinLevel u .regulators = none ∧ pinLevel u .feedEn = none
      ∧ pinLevel u .ledFault = none)
  ∧ (¬(if byPin then 10000000 ≤ low ∧ s.aon.latchAt + 10000000000 ≤ max s.time.base t else 1000000000 ≤ low) →
    exec (.thermLatchClear byPin low t) s = .next (advance t s))

/-! ## The data path -/

/-- STROBE and PLANE_SWITCH (R41, R43, R46, R47, R55, R94): on a core that may strobe, a tile whose plane is not engaged switches to it
first when its descriptor allows it; a product with no driven block is skipped and its strobes are counted as suppressed; a segment whose
sheet fails its CRC-32C withholds the row, and the third from one core within 10 s makes that core's test overdue (R302, R357); any other is
converted once per strobe, 272 columns each, and waits for the skim path. A tile whose plane a burst or a slice has taken away engages it anew
first (R69). A core that may not strobe, a plane that no forme may strobe (R17), a simultaneous group whose region timer is not locked, and a
strobe that names no product of a resident forme, do nothing. The model's own sum of energy grows by E of R62 for each strobe, and not for a
skipped product. -/
def Obligations.StrobesAndSwitches : Prop := ∀ (x : StrobeCmd) (t : Nat) (s : State),
  let s1 := advance t s
  (resolveStrobe s1 x = none → exec (.strobe x t) s = .next s1)
  ∧ (∀ r lpk, resolveStrobe s1 x = some (r, lpk) →
  let tile := tileOf (coreOf s r.core) r.tile
  let desc := fun (q : Nat) => descOf s (planeKey (tileKey r.core r.tile) q)
  let p := physPlane s (tileKey r.core r.tile) r.plane
  let pk := planeKey (tileKey r.core r.tile) p
  let n := 2 ^ min 2 r.restrike * (if r.bits ≤ 4 then 1 else 2)
  let may := coreUsable s r.core = true ∧ ((desc p).state = 1 ∨ (desc p).state = 2)
    ∧ (simultaneous s (coreRegion r.core) r.groupCores = false ∨ regionLocked s (coreRegion r.core) = true)
  let ready := may ∧ (descGood (desc p) = true ∨ (tile.engaged = some p ∧ tile.former = none))
    ∧ (∀ q, tile.former = some q → formeState (desc q) = true → descGood (desc q) = true)
  (¬may → exec (.strobe x t) s = .next s1)
  ∧ (ready → r.badSheet = none → drivenBlocks r.seg r.rows = [] →
    ∃ u, exec (.strobe x t) s = .next u
      ∧ (coreOf u r.core).held
          = (coreOf s r.core).held ++ [{ req := r, phys := p, convs := [], skipped := true, other := otherReady s1 lpk }]
      ∧ (coreOf u r.core).suppressCount = min ((coreOf s r.core).suppressCount + n) (2 ^ 32 - 1)
      ∧ (coreOf u r.core).strobeCount = (coreOf s r.core).strobeCount ∧ (coreOf u r.core).energy = (coreOf s r.core).energy
      ∧ (tileOf (coreOf u r.core) r.tile).engaged = some p
      ∧ (∀ j, j ≠ r.core → coreOf u j = coreOf s j) ∧ (∀ k, k ≠ coreRegion r.core → regionOf u k = regionOf s k)
      ∧ u = { s1 with cores := u.cores, regions := u.regions, sched := { s1.sched with issued := u.sched.issued } })
  ∧ (∀ a k i, ready → r.badSheet = some a → a < nCores → s.sched.step = some k → r.rid = some i →
    ∃ u v, exec (.strobe x t) s = .next u ∧ u.sched.step = some v ∧ v.rows.map (·.rid) = k.rows.map (·.rid)
      ∧ (∀ w ∈ v.rows, w.rid = i → w.withheld = true ∧ w.cond.failed = true) ∧ (∀ w ∈ k.rows, w.rid ≠ i → w ∈ v.rows)
      ∧ (2 ≤ eventsWithin s1 .none a 10000000000 → (coreOf u a).testOverdue = true)
      ∧ (eventsWithin s1 .none a 10000000000 < 2 → (coreOf u a).testOverdue = (coreOf s a).testOverdue))
  ∧ (ready → r.badSheet = none → drivenBlocks r.seg r.rows ≠ [] →
    ∃ u vs, exec (.strobe x t) s = .next u
      ∧ (coreOf u r.core).held
          = (coreOf s r.core).held ++ [{ req := r, phys := p, convs := vs, skipped := false, other := otherReady s1 lpk }]
      ∧ vs.length = n
      ∧ (∀ v ∈ vs, v.fine = r.fine ∧ v.codes.length = 272 ∧ ∀ c ∈ v.codes, c.1 ≤ (if r.fine then 2047 else 511))
      ∧ (coreOf u r.core).strobeCount = min ((coreOf s r.core).strobeCount + n) (2 ^ 64 - 1)
      ∧ (coreOf u r.core).energy = (coreOf s r.core).energy + sumNat (((List.replicate (2 ^ min 2 r.restrike)
          (strikeDrives r.bits (driveCodes r.bits (drivenRows (desc p) r.seg r.rows)))).flatten).map (strobeEnergy s pk r.fine))
      ∧ (tileOf (coreOf u r.core) r.tile).engaged = some p ∧ (∃ w ∈ (tileOf (coreOf u r.core) r.tile).work, w.1 = 1)
      ∧ (∀ j, j ≠ r.core → coreOf u j = coreOf s j) ∧ (∀ k, k ≠ coreRegion r.core → regionOf u k = regionOf s k)
      ∧ u = { s1 with cores := u.cores, regions := u.regions, free := u.free, sched := { s1.sched with issued := u.sched.issued } }))
  ∧ (∀ ck tile plane, ck < nCores → tile < 16 →
    let q := physPlane s (tileKey ck tile) plane
    let d := descOf s (planeKey (tileKey ck tile) q)
    let x0 := tileOf (coreOf s ck) tile
    (coreUsable s ck = true → (d.state = 1 ∨ d.state = 2) → descGood d = true →
        (∀ n, x0.former = some n → formeState (descOf s (planeKey (tileKey ck tile) n)) = true →
          descGood (descOf s (planeKey (tileKey ck tile) n)) = true) →
      ∃ u b, exec (.planeSwitch ck tile plane t) s = .next u
        ∧ (let y := tileOf (coreOf u ck) tile
          y.engaged = some q ∧ y.former = none ∧ (2, b, b + 120) ∈ y.work ∧ y.freeAt = b + 120 ∧ max s.time.base t ≤ b
            ∧ (∀ w ∈ (coreOf s ck).switches, b + 120 ≤ w.1 ∨ w.2 ≤ b) ∧ (x0.burst = none → x0.freeAt ≤ b))
        ∧ (∀ x, x ≠ tile → tileOf (coreOf u ck) x = tileOf (coreOf s ck) x)
        ∧ (∀ j, j ≠ ck → coreOf u j = coreOf s j) ∧ u = { s1 with cores := u.cores })
    ∧ ((coreUsable s ck = false ∨ (d.state ≠ 1 ∧ d.state ≠ 2)) → exec (.planeSwitch ck tile plane t) s = .next s1))

/-- SKIM_PRODUCT (R77, R83, R85, R87, R88): without a product nothing happens; a product whose slot tag is wrong waits while the slot is
being filled, and otherwise fails with SKIM_SLOT; one whose checksum groups pass enters its accumulator bank; one that fails stays out, though the bank
takes the group's descriptor (R119), is counted, and brings the core's test forward, and when the failures of the core so far point to one converter, that converter is failed and the
core fenced (R70). Either counts its clamps once and each strobe of it with a near miss. Which of a group's eight converters is named is free
(log entry 81). -/
def Obligations.SkimProducts : Prop := ∀ (ck t : Nat) (filling : Bool) (s : State), ck < nCores →
  ((coreOf s ck).held = [] → exec (.skimProduct ck filling t) s = .next (advance t s))
  ∧ (∀ h rest, (coreOf s ck).held = h :: rest → h.req.core = ck →
    let pk := planeKey (tileKey ck h.req.tile) h.phys
    let s1 := advance t s
    let d := descOf s1 pk
    let tagOk := d.skimValid = 0
      ∨ (h.req.skimSlot ≠ 0xFFFF ∧ leNat (mread (coreOf s ck).scratch (16 * h.req.skimSlot) 8) = planeTag s1 pk)
    let rg := regionOf s (coreRegion ck)
    let verdict := checkStrobes s1 (coreOf s ck) (rg.tNow - rg.tCal) h.req.tile pk d ((drivenRows d h.req.seg h.req.rows).map (·.1))
      (((layerRec s1 h.req.slot h.req.layer).map tauOf).getD 0x01F0) h.convs (none, 0)
    let fails := (failedGroups s1 (coreOf s ck) (rg.tNow - rg.tCal) h.req.tile pk d ((drivenRows d h.req.seg h.req.rows).map (·.1))
      (((layerRec s1 h.req.slot h.req.layer).map tauOf).getD 0x01F0) h.convs).foldl
        (fun m n => tset 0 m n (Nat.lor (tget 0 m n) (2 ^ h.req.tile))) (coreOf s ck).groupFails
    let outside := fun (u : State) =>
      (discards s1 h pk = true → (coreOf u ck).banks = (coreOf s ck).banks)
        ∧ (discards s1 h pk = false → (bankOf (coreOf u ck) h.req.acc.bank).desc = some h.req.acc
            ∧ ((bankOf (coreOf s ck) h.req.acc.bank).desc = some h.req.acc ∨ h.req.acc.resume = false →
                (bankOf (coreOf u ck) h.req.acc.bank).lanes = (bankOf (coreOf s ck) h.req.acc.bank).lanes)
            ∧ ∀ n, n ≠ h.req.acc.bank → bankOf (coreOf u ck) n = bankOf (coreOf s ck) n)
        ∧ (∀ j, j ≠ ck → coreOf u j = { coreOf s j with parked := (coreOf u j).parked })
        ∧ u = { s1 with cores := u.cores, regions := u.regions, faults := u.faults }
    let clamps := fun (u : State) =>
      (coreOf u ck).clampCount = min ((coreOf s ck).clampCount + clampCount h.req.seg h.req.rows) (2 ^ 32 - 1)
    (¬tagOk → filling = true → exec (.skimProduct ck filling t) s = .next (advance t s))
    ∧ (¬tagOk → filling = false →
      ∃ u, exec (.skimProduct ck filling t) s = .next u ∧ (coreOf u ck).held = rest ∧ (coreOf u ck).lastCause = 3
        ∧ clamps u ∧ (coreOf u ck).failCount = min ((coreOf s ck).failCount + 1) (2 ^ 32 - 1) ∧ outside u)
    ∧ (∀ e near, tagOk → h.skipped = false → verdict = (some e, near) → (e = .checksum ∨ e = .overrange) →
        eventsWithin s1 e ck 10000000000 = 0 → suspectOf fails (drawNat s1) = none →
      ∃ u, exec (.skimProduct ck filling t) s = .next u ∧ (coreOf u ck).held = rest ∧ outside u
        ∧ (coreOf u ck).failCount = min ((coreOf s ck).failCount + 1) (2 ^ 32 - 1) ∧ (coreOf u ck).testDue = true
        ∧ (coreOf u ck).nearCount = min ((coreOf s ck).nearCount + near) (2 ^ 32 - 1) ∧ clamps u
        ∧ (coreOf u ck).stFailed = true ∧ (coreOf u ck).groupFails = fails)
    ∧ (∀ e near k, tagOk → h.skipped = false → verdict = (some e, near) → suspectOf fails (drawNat s1) = some k →
      ∃ u, exec (.skimProduct ck filling t) s = .next u ∧ (coreOf u ck).convFault = true
        ∧ (coreOf u ck).failedConv = min (coreOf s ck).failedConv k ∧ unitFenced u (unitOfCore ck) = true)
    ∧ (∀ near, tagOk → (if h.skipped then near = 0 else verdict = (none, near)) →
      ∃ u, exec (.skimProduct ck filling t) s = .next u ∧ (coreOf u ck).held = rest
        ∧ (coreOf u ck).failCount = (coreOf s ck).failCount ∧ clamps u
        ∧ (coreOf u ck).nearCount = min ((coreOf s ck).nearCount + near) (2 ^ 32 - 1)
        ∧ (discards s1 h pk = false → (bankOf (coreOf u ck) h.req.acc.bank).desc = some h.req.acc)
        ∧ (discards s1 h pk = true → (coreOf u ck).banks = (coreOf s ck).banks)
        ∧ (∀ j, j ≠ ck → coreOf u j = { coreOf s j with parked := (coreOf u j).parked })
        ∧ u = { s1 with cores := u.cores, regions := u.regions, faults := u.faults, free := u.free }))

/-- BANK_FINALISE (R119, R121, R123, R126): a bank with PARK goes to its spill slot and is freed; one with LAST is added up with its slot,
clears the slot, is freed, and writes its result: with DEST 0 what the epilogue makes of it, to scratch; else its entries, to scratch or to the
region's wide buffer, and no byte outside them. A bank that holds no reduction, whose group has neither mark, or whose layer no resident forme
has (DEST 0), stays as it is. Slots and wide-buffer addresses lie in the area of the bank's forme (R337; its
numbering is the model's own, log entry 64). -/
def Obligations.BanksFinalise : Prop := ∀ (ck bn t : Nat) (s : State), ck < nCores → bn < 4 →
  let c := coreOf s ck
  let b := bankOf c bn
  let g := regionOf s (coreRegion ck)
  (b.desc = none → exec (.bankFinalise ck bn t) s = .next (advance t s))
  ∧ (∀ acc, b.desc = some acc →
    let sp := areaSlot b.slot acc.spillSlot
    let wa := areaAddr b.slot (8 * acc.destAddr)
    let full := reloadLanes sp g b (List.range (bankLanes b))
    (acc.last = false → acc.park = false → exec (.bankFinalise ck bn t) s = .next (advance t s))
    ∧ (acc.last = false → acc.park = true →
      ∃ u, exec (.bankFinalise ck bn t) s = .next u ∧ bankOf (coreOf u ck) bn = {}
        ∧ (coreOf u ck).parked = Nat.lor c.parked (2 ^ bn)
        ∧ tfind (regionOf u (coreRegion ck)).parks sp = some { slot := b.slot, layer := b.layer, core := ck, rid := b.rid, bank := some bn }
        ∧ ((∀ l ∈ b.lanes, l.1 < 256) → b.width ≤ 256 → ∀ a, (a < sp ∨ sp + 2048 ≤ a) →
            mget (regionOf u (coreRegion ck)).wideBuf a = mget g.wideBuf a)
        ∧ (coreOf u ck).scratch = c.scratch
        ∧ (∀ j, j ≠ ck → coreOf u j = coreOf s j) ∧ (∀ k, k ≠ coreRegion ck → regionOf u k = regionOf s k)
        ∧ u = { advance t s with cores := u.cores, regions := u.regions })
    ∧ (acc.last = true → acc.dest = 0 → layerRec s b.slot b.layer = none → exec (.bankFinalise ck bn t) s = .next (advance t s))
    ∧ (acc.last = true → (acc.dest ≠ 0 ∨ (layerRec s b.slot b.layer).isSome) →
      ∃ u, exec (.bankFinalise ck bn t) s = .next u ∧ bankOf (coreOf u ck) bn = {}
        ∧ tfind (regionOf u (coreRegion ck)).parks sp = none
        ∧ (∀ l, acc.dest = 0 → layerRec s b.slot b.layer = some l →
          (coreOf u ck).scratch = (epilogue (advance t s) ck full acc l (bankLanes b)).scratch
            ∧ (coreOf u ck).sr = (epilogue (advance t s) ck full acc l (bankLanes b)).sr)
        ∧ (acc.dest ≠ 0 → (coreOf u ck).sr = c.sr)
        ∧ (acc.dest = 1 → (coreOf u ck).scratch = writeEntries acc.add full (8 * acc.destAddr) c.scratch (List.range (bankLanes b))
          ∧ ∀ a, (a < 8 * acc.destAddr ∨ 8 * acc.destAddr + 8 * bankLanes b ≤ a) → mget (coreOf u ck).scratch a = mget c.scratch a)
        ∧ (2 ≤ acc.dest → (regionOf u (coreRegion ck)).wideBuf
            = writeEntries acc.add full wa (clearSlot g.wideBuf sp) (List.range (bankLanes b)) ∧ (coreOf u ck).scratch = c.scratch)
        ∧ (acc.dest ≤ 1 → (regionOf u (coreRegion ck)).wideBuf = clearSlot g.wideBuf sp)
        ∧ (∀ a, (acc.dest ≤ 1 ∨ a < wa ∨ wa + 8 * bankLanes b ≤ a) →
            mget (regionOf u (coreRegion ck)).wideBuf a = if sp ≤ a ∧ a < sp + 2048 then 0 else mget g.wideBuf a)
        ∧ (∀ j, j ≠ ck → coreOf u j = coreOf s j) ∧ (∀ k, k ≠ coreRegion ck → regionOf u k = regionOf s k)
        ∧ u = { advance t s with cores := u.cores, regions := u.regions }))

/-- The region's vector engine and the sheet routes (R125, R131, R212, R271, R287, R288, R289): an operation of the engine changes its own
region, the rows of the running step, the pages with their counts, the selector of free values, the scratch of the core that a reduction or the
forming of input segments writes, and, when it consumed a sheet whose CRC-32C failed, the counts against the cores that produced it (R302,
R357), and nothing else; a top-k delivers its pairs, with the positions of a part offset to the whole vector, and the lists of the parts are
merged; at temperature 0 a request
without released tokens samples the largest logit. The row of a new position enters staging and its page slot, and no other byte of HBM; a query
that sees one row yields that row's value, and one that sees none a zero vector, counted. A route whose source has finalised copies its sheets, and no other byte, into the
destination core's scratch, and to another module sends them without a change of any core; before that it moves nothing. -/
def Obligations.VectorAndRoutes : Prop := ∀ (rk t : Nat) (s : State),
  (∀ op, rk < nRegions → vecCoreOk op = true → ∃ u, exec (.splitReduction rk op t) s = .next u ∧ (∀ j, j ≠ rk → regionOf u j = regionOf s j)
      ∧ (∀ ck, ((∃ rid slot layer cols input dest first, op = .reduce rid slot layer cols input ck dest first)
            ∨ ∃ rid slot group entry vals, op = .form rid slot group entry ck vals) →
          u.faults = s.faults ∧ (∀ j, j ≠ ck → coreOf u j = coreOf s j) ∧ coreOf u ck = { coreOf s ck with scratch := (coreOf u ck).scratch })
      ∧ ((∀ rid slot layer cols input ck dest first, op ≠ .reduce rid slot layer cols input ck dest first) →
          (∀ rid slot group entry ck vals, op ≠ .form rid slot group entry ck vals) →
          (∀ rid slot layer pos head q bad, op = .attend rid slot layer pos head q bad → bad = []) → u.cores = s.cores ∧ u.faults = s.faults)
      ∧ u = { advance t s with
          regions := u.regions, sched := u.sched, kv := u.kv, free := u.free, cores := u.cores, faults := u.faults })
  ∧ (∀ rid router k offset xs, rk < nRegions → ∃ u, exec (.splitReduction rk (.topK rid router k offset xs) t) s = .next u
      ∧ (regionOf u rk).vec = (topK (max 1 (min 64 k)) xs).1.flatMap (fun x => [x.1, BitVec.ofNat 32 (x.2 + offset)])
      ∧ u.reqs = s.reqs ∧ u.kv = s.kv ∧ u.free = s.free)
  ∧ (∀ rid router k parts, rk < nRegions → ∃ u, exec (.splitReduction rk (.topMerge rid router k parts) t) s = .next u
      ∧ (regionOf u rk).vec = (mergeTop (max 1 (min 64 k)) parts).flatMap (fun x => [x.1, BitVec.ofNat 32 x.2])
      ∧ u.reqs = s.reqs ∧ u.kv = s.kv ∧ u.free = s.free)
  ∧ (∀ rid q k xs, rk < nRegions → reqOf s rid = some q → q.p.temperature.toNat % 2 ^ 31 = 0 → q.counts = [] → s.sched.step = some k →
    ∃ u v, exec (.splitReduction rk (.sample rid xs) t) s = .next u ∧ u.sched.step = some v
      ∧ v.rows = k.rows.map (fun w => if w.rid = rid then
          { w with tokens := w.tokens ++ (((topK 1 xs).1.head?).map (·.2)).toList, nan := w.nan || ((topK 1 xs).1.head?).isNone, sampled := true,
                   cond := condOr w.cond { nanInput := xs.any f32IsNan } } else w))
  ∧ (∀ rid slot layer pos keys vals q a p i x, rk < nRegions → rid < 2 ^ 32 → reqOf s rid = some q → attnOf s slot layer = some a →
      coverSet pos 0 (setsOf q (draftSlot s slot)) = some (p, i) → rowAddr a layer p i = some x → attnStochastic s slot layer = false →
    let f := setFmt p layer
    let row := (rowImage a f.1 f.2 pos (stepNow s) (List.replicate (2 * a.kvHeads * a.headDim) none) keys vals).1
    ∃ u, exec (.splitReduction rk (.stage rid slot layer pos keys vals) t) s = .next u ∧ mread u.kv.hbm x row.length = row
      ∧ (∀ y, (y < x ∨ x + row.length ≤ y) → mget u.kv.hbm y = mget s.kv.hbm y)
      ∧ (regionOf u rk).staged.getLast?
          = some { rid := rid, slot := slot, layer := layer, pos := pos, keyFmt := f.1, valFmt := f.2, bytes := row }
      ∧ u.free = s.free ∧ u.reqs = s.reqs ∧ u.kv = { s.kv with hbm := u.kv.hbm })
  ∧ (∀ rid slot layer pos head query q a, rk < nRegions → rid < 2 ^ 32 → reqOf s rid = some q → attnOf s slot layer = some a →
    let v := visible a pos
    let rows := visibleRows s rk rid slot layer v.1 v.2 a (setsOf q (draftSlot s slot))
    let st := attnStochastic s slot layer
    (rows = [] → ∃ u, exec (.splitReduction rk (.attend rid slot layer pos head query []) t) s = .next u
      ∧ (regionOf u rk).vec = (vecModes (advance t s) st query.length).map (fun m => (toQuery a.queryFmt m 0).1) ∧ u.kv.empty = min (s.kv.empty + 1) (2 ^ 32 - 1))
    ∧ (∀ r, rows = [r] →
        let kv := (rowHead a r.keyFmt r.valFmt (head / a.qPerKv) r.bytes).1
        f32IsNan (f32Mul a.scale (dotF32 query kv.1)) = false →
      ∃ u, exec (.splitReduction rk (.attend rid slot layer pos head query []) t) s = .next u
        ∧ (regionOf u rk).vec = (kv.2.zip (vecModes (spend 2 (advance t s)) st kv.2.length)).map (fun w =>
            (toQuery a.queryFmt w.2 (f32Div w.1 0x3F800000)).1) ∧ u.kv.empty = min s.kv.empty (2 ^ 32 - 1)))
  ∧ (∀ slot index f r a b, slot < 256 → formeOf s slot = some f → f.image.routes[index]? = some r → ownCore s r.src = some a →
      ownCore s r.dst = some b →
    (slotRuns s slot = true → layerFinal s a slot r.after = true → Memory.wf (coreOf s a).scratch = true → Memory.wf (coreOf s b).scratch = true →
      ∃ u, exec (.routeTransfer slot index t) s = .next u
        ∧ (∀ i, i < 4096 * r.sheets → mget (coreOf u b).scratch (r.dstOff + i) = mget (coreOf s a).scratch (r.srcOff + i))
        ∧ (∀ i, (i < r.dstOff ∨ r.dstOff + 4096 * r.sheets ≤ i) → mget (coreOf u b).scratch i = mget (coreOf s b).scratch i)
        ∧ (coreOf u b) = { coreOf s b with scratch := (coreOf u b).scratch }
        ∧ (∀ j, j ≠ b → coreOf u j = coreOf s j) ∧ (∀ k, k ≠ coreRegion a → regionOf u k = regionOf s k)
        ∧ u = { advance t s with cores := u.cores, regions := u.regions })
    ∧ ((slotRuns s slot = false ∨ layerFinal s a slot r.after = false) → exec (.routeTransfer slot index t) s = .next (advance t s)))
  ∧ (∀ slot index f r a, slot < 256 → formeOf s slot = some f → f.image.routes[index]? = some r → ownCore s r.src = some a →
      ownCore s r.dst = none → ∃ u, exec (.routeTransfer slot index t) s = .next u ∧ u.cores = s.cores ∧ u.kv = s.kv
        ∧ (∀ k, k ≠ coreRegion a → regionOf u k = regionOf s k)
        ∧ regionOf u (coreRegion a) = { regionOf s (coreRegion a) with dmaWaits := (regionOf u (coreRegion a)).dmaWaits })

/-! ## Comparisons: twins, monitors, audits -/

/-- Dual comparison (R353, R354): words that agree end the comparison and change nothing else; words that differ, or that are missing 10 µs
after the strobe, count as a mismatch, name both cores in the running step and make both cores' tests overdue. The first
mismatch in 10 s fences nothing. -/
def Obligations.TwinsCompare : Prop := ∀ (a b tile t : Nat) (words : DualWords) (s : State), a < nCores → b < nCores → tile < 16 →
  (s.faults.dual.find? (fun w => w.primary == a && w.secondary == b && w.tile == tile) = none →
    exec (.dualCompare a b tile words t) s = .next (advance t s))
  ∧ (∀ w, s.faults.dual.find? (fun w => w.primary == a && w.secondary == b && w.tile == tile) = some w → wordsDiffer s w.own words = false →
    exec (.dualCompare a b tile words t) s
      = .next { advance t s with faults := { s.faults with dual := s.faults.dual.erase w } })
  ∧ (∀ i w, ((i = .dualCompare a b tile words t
          ∧ s.faults.dual.find? (fun w => w.primary == a && w.secondary == b && w.tile == tile) = some w ∧ wordsDiffer s w.own words = true)
        ∨ (i = .dualWordsTimeout a b t
          ∧ s.faults.dual.find? (fun w => w.primary == a && w.secondary == b && w.time + 10000 ≤ max s.time.base t) = some w)) →
      eventsWithin (advance t s) .checksum a 10000000000 = 0 → eventsWithin (advance t s) .checksum (10 ^ 10 + nCores * a + b) 10000000000 = 0 →
    ∃ u, exec i s = .next u ∧ u.faults.dual = s.faults.dual.erase w
      ∧ u.faults.dualMismatch = min (s.faults.dualMismatch + 1) (2 ^ 32 - 1)
      ∧ (coreOf u a).testOverdue = true ∧ (coreOf u b).testOverdue = true ∧ (coreOf u a).testDue = true ∧ (coreOf u b).testDue = true
      ∧ (coreOf u a).failCount = min ((coreOf s a).failCount + 1) (2 ^ 32 - 1) ∧ (coreOf u a).lastCause = 1
      ∧ (∀ k, s.sched.step = some k → ∃ v, u.sched.step = some v ∧ unitOfCore a ∈ v.alarmed ∧ unitOfCore b ∈ v.alarmed
          ∧ v = { k with alarmed := v.alarmed })
      ∧ (∀ j, j ≠ a → j ≠ b → coreOf u j = coreOf s j)
      ∧ u = { advance t s with cores := u.cores, faults := u.faults, sched := { s.sched with step := u.sched.step } })
  ∧ (s.faults.dual.find? (fun w => w.primary == a && w.secondary == b && w.time + 10000 ≤ max s.time.base t) = none →
    exec (.dualWordsTimeout a b t) s = .next (advance t s))

/-- Range monitors (R91, R92, R93): a window of 4,096 products whose columns all lie in their envelopes ends without an alarm and the next
one starts; a code outside its envelope raises the alarm, opens a late fault on the core, makes its test overdue and, on an ALLOCATED plane,
starts the plane's readback (R205); a mean or variance outside
its bounds is a precision event alone; before the 4,096th product nothing is compared. A window that gathers no product for 2^20 strobes is given up and counted. -/
def Obligations.MonitorWindows : Prop := ∀ (ck t : Nat) (s : State), ck < nCores →
  let c := coreOf s ck
  ((c.monPlane = none ∨ c.monCount < 4096) → exec (.monitorCompare ck t) s = .next (advance t s))
  ∧ (∀ tile lp, c.monPlane = some (tile, lp) → 4096 ≤ c.monCount →
    let env := fun (col : Nat) => envelopeOf (mread c.scratch (4096 * c.envArea + 16 * col) 16)
    ((∀ x ∈ c.monStats, codeAlarm (env x.1) x.2 = false ∧ envelopeExcess c.monCount (env x.1) x.2 = false) →
      ∃ u, exec (.monitorCompare ck t) s = .next u ∧ (coreOf u ck).monDone = true ∧ (coreOf u ck).monAlarm = false
        ∧ (coreOf u ck).monPrec = false ∧ (coreOf u ck).monCount = 0 ∧ (coreOf u ck).monStats = [] ∧ (coreOf u ck).summary = c.summary
        ∧ (∀ j, j ≠ ck → coreOf u j = coreOf s j) ∧ u = { advance t s with cores := u.cores })
    ∧ ((∃ x ∈ c.monStats, codeAlarm (env x.1) x.2 = true) → eventsWithin (advance t s) .monitorAlarm ck 3600000000000 = 0 →
      ∃ u, exec (.monitorCompare ck t) s = .next u ∧ (coreOf u ck).monAlarm = true ∧ (coreOf u ck).testOverdue = true
        ∧ unitOfCore ck ∈ u.faults.openLate ∧ u.faults.late = min (s.faults.late + 1) (2 ^ 32 - 1) ∧ (coreOf u ck).monCount = 0
        ∧ (∀ j, j ≠ ck → coreOf u j = coreOf s j)
        ∧ (∀ q, c.monPhys = some q → (descOf s q).state = 2 → (tfind u.plates.writing q).isSome)
        ∧ u = { advance t s with cores := u.cores, faults := u.faults, sched := { s.sched with step := u.sched.step },
                                 plates := { s.plates with writing := u.plates.writing, slots := u.plates.slots } })
    ∧ ((∀ x ∈ c.monStats, codeAlarm (env x.1) x.2 = false) → (∃ x ∈ c.monStats, envelopeExcess c.monCount (env x.1) x.2 = true) →
      ∃ u, exec (.monitorCompare ck t) s = .next u ∧ (coreOf u ck).monPrec = true ∧ (coreOf u ck).monAlarm = false
        ∧ (coreOf u ck).monCount = 0 ∧ (∀ j, j ≠ ck → coreOf u j = coreOf s j) ∧ u = { advance t s with cores := u.cores }))
  ∧ ((c.monPlane = none ∨ c.monSince < 1048576) → exec (.monitorAbandon ck t) s = .next (advance t s))
  ∧ (c.monPlane ≠ none → 1048576 ≤ c.monSince →
    ∃ u, exec (.monitorAbandon ck t) s = .next u ∧ (coreOf u ck).monSkip = min (c.monSkip + 1) (2 ^ 32 - 1)
      ∧ (coreOf u ck).monCount = 0 ∧ (coreOf u ck).monSince = 0 ∧ (coreOf u ck).monStats = []
      ∧ (∀ j, j ≠ ck → coreOf u j = coreOf s j) ∧ u = { advance t s with cores := u.cores })

/-- The audit (R74, R96, R98, R99): a recomputation from the plane's reference copy, exact, frees its slot and is counted; one within TAU_A / 2 changes nothing else; one beyond
TAU_A counts as failed, opens a late fault on the plane and starts the readback of an ALLOCATED one. A recomputation 50 µs old is abandoned. A rotation starts a new
period when one is due, with the planes of the walk that fit in the window; the copy of the plan's next plane joins the set once it has been
fetched and passes its checks, with its adjustment record applied (R203), and a plane whose copy could not be fetched is counted. -/
def Obligations.Audits : Prop := ∀ (ck i t : Nat) (s : State), ck < nCores →
  let c := coreOf s ck
  (tfind c.auditSlots i = none →
    exec (.auditCompare ck i t) s = .next (advance t s) ∧ exec (.auditTimeout ck i t) s = .next (advance t s))
  ∧ (∀ x a, tfind c.auditSlots i = some x → auditCopyOf s x = some a →
    let d := auditPeak x.y ((List.range x.y.length).map (referenceY a x)) * auditScale x
    let tau := ((layerRec s x.slot x.layer).map tauAOf).getD 8
    (2 * d ≤ tau * auditDen x →
      exec (.auditCompare ck i t) s
        = .next (setCore (advance t s) ck { c with auditSlots := tdel c.auditSlots i, auditCount := min (c.auditCount + 1) (2 ^ 32 - 1) }))
    ∧ (tau * auditDen x < d → eventsWithin (advance t s) .auditMismatch x.plane 3600000000000 = 0 →
      ∃ u, exec (.auditCompare ck i t) s = .next u ∧ tfind (coreOf u ck).auditSlots i = none
        ∧ (coreOf u ck).auditCount = min (c.auditCount + 1) (2 ^ 32 - 1) ∧ (coreOf u ck).auditFail = min (c.auditFail + 1) (2 ^ 32 - 1)
        ∧ (coreOf u ck).stPrecision = true ∧ x.plane ∈ (coreOf u ck).summary.mismatch ∧ unitOfPlane x.plane ∈ u.faults.openLate
        ∧ ((descOf s x.plane).state = 2 → tfind s.plates.writing x.plane = none → tfind u.plates.writing x.plane = some none)
        ∧ (∀ j, j ≠ ck → coreOf u j = coreOf s j) ∧ u.arr = s.arr ∧ u.map = s.map))
  ∧ (∀ x, tfind c.auditSlots i = some x →
    (auditCopyOf s x = none → exec (.auditCompare ck i t) s = .next (advance t s))
    ∧ (x.started + 50000 ≤ max s.time.base t →
      ∃ u, exec (.auditTimeout ck i t) s = .next u ∧ (∀ e ∈ (coreOf u ck).auditSlots, e.2 ≠ x)
        ∧ (∀ e ∈ c.auditSlots, e.2 ≠ x → e ∈ (coreOf u ck).auditSlots) ∧ min (c.auditSkip + 1) (2 ^ 32 - 1) ≤ (coreOf u ck).auditSkip
        ∧ (∀ j, j ≠ ck → coreOf u j = coreOf s j) ∧ u = { advance t s with cores := u.cores })
    ∧ (max s.time.base t < x.started + 50000 → exec (.auditTimeout ck i t) s = .next (advance t s)))
  ∧ (let n := max s.time.base t
    let allocated := fun (l : Nat) => ∃ p, physPlaneKey s l = some p ∧ (descOf s p).state = 2
    let good := fun (l : Nat) (x : AuditFetch) => x.ok = true ∧ sourceReads s l = true ∧ l ∈ recPlanes (decodeRecord x.bytes)
      ∧ recordOk ((decodeRecord x.bytes).twin != 0) none (decodeRecord x.bytes) = true
    (∀ fetched checks, ∃ u, exec (.auditRotation fetched checks t) s = .next u
      ∧ (∀ a ∈ u.plates.auditSet, a ∈ s.plates.auditSet
          ∨ ∃ x, some x ∈ auditFetches fetched checks ∧ good a.plane x ∧ allocated a.plane ∧ a = copyOf s a.plane (decodeRecord x.bytes))
      ∧ ((∀ t0, s.plates.auditStart = some t0 → t0 + auditPeriodNs s ≤ n) → u.plates.auditStart = some n
          ∧ (fetched = [] → u.plates.auditPlan = takeWindow s 17179869184 (auditWalk s s.plates.auditAt)))
      ∧ (∀ t0, s.plates.auditStart = some t0 → n < t0 + auditPeriodNs s → u.plates.auditStart = some t0 ∧ u.plates.auditAt = s.plates.auditAt
          ∧ (fetched = [] → u.plates.auditPlan = s.plates.auditPlan ∧ u.plates.auditSkips = s.plates.auditSkips))
      ∧ u = { advance t s with cores := u.cores, regions := u.regions, out := u.out, plates := { s.plates with
          auditSet := u.plates.auditSet, auditAt := u.plates.auditAt, auditSkips := u.plates.auditSkips, auditStart := u.plates.auditStart,
          auditPlan := u.plates.auditPlan, auditOld := u.plates.auditOld, wants := u.plates.wants, slots := u.plates.slots,
          area := u.plates.area } })
    ∧ (∀ t0 l rest f ok, s.plates.auditStart = some t0 → n < t0 + auditPeriodNs s → s.plates.auditPlan = l :: rest → rest ≠ [] → allocated l →
        (auditRegion (settleDma (advance t s)) = none ∨ holdsCredit (settleDma (advance t s)) .audit = true) →
      ∃ u, exec (.auditRotation [f] [ok] t) s = .next u ∧ u.plates.auditPlan = rest
        ∧ (f = none → u.plates.auditSet = s.plates.auditSet ∧ u.plates.auditSkips = min (s.plates.auditSkips + 1) (2 ^ 32 - 1))
        ∧ (∀ b, f = some b → good l ⟨b, ok⟩ → copyOf s l (decodeRecord b) ∈ u.plates.auditSet ∧ u.plates.auditSkips = s.plates.auditSkips)))

/-! ## Steps, tests, calibration slices -/

/-- The end of a step (R101, R123, R260, R263, R282, R420): the last check summary of a region leaves its cores without events and its spill slots
without parked reductions, and the last region's lets the step seal; a gap in the region's step messages alarms the region and makes its cores'
tests overdue; sealing settles every row, and a row that is not withheld has no failed product and no NaN
logits; at its boundary the step is the sealed one, its boundary time enters the history, and no announcement of a ring is left to make. A
region that is not waited for, a step that cannot seal yet and a boundary that is not due change nothing.
Gaps in step messages are operands (log entry 32). -/
def Obligations.StepsSealAndEnd : Prop := ∀ (rk t : Nat) (inp : TickInput) (k : Step) (s : State), s.sched.step = some k →
  let s1 := advance t s
  (∀ gap, rk < nRegions → rk ∈ k.waiting → k.cut = false →
    ∃ u v, exec (.checkSummary rk gap t) s = .next u ∧ u.sched.step = some v ∧ v.number = k.number ∧ v.rows = k.rows
      ∧ v.waiting = k.waiting.filter (· != rk) ∧ v.sealing = (k.sealing || k.waiting.all (· == rk))
      ∧ (∀ ck, coreRegion ck = rk → (coreOf u ck).summary = {}) ∧ (regionOf u rk).parks = []
      ∧ (gap = true → unitOfRegion rk ∈ v.alarmed ∧ ∀ ck, coreRegion ck = rk → (coreOf u ck).testOverdue = true)
      ∧ (∀ ck, coreRegion ck ≠ rk → coreOf u ck = { coreOf s ck with parked := (coreOf u ck).parked })
      ∧ (∀ j, j ≠ rk → regionOf u j = regionOf s j)
      ∧ u = { s1 with cores := u.cores, regions := u.regions, faults := u.faults, sched := { s.sched with step := u.sched.step } })
  ∧ (∀ gap, rk < nRegions → (rk ∉ k.waiting ∨ k.cut = true) → exec (.checkSummary rk gap t) s = .next s1)
  ∧ ((k.sealing = false ∨ k.settled = true ∨ (k.cut = false ∧ s.faults.dual ≠ [])) → exec (.stepSeal t) s = .next s1)
  ∧ (k.sealing = true → k.settled = false → (k.cut = true ∨ s.faults.dual = []) → k.system = false →
    ∃ u v, exec (.stepSeal t) s = .next u ∧ u.sched.step = some v ∧ v = { k with rows := v.rows, settled := true }
      ∧ v.rows.map (fun w => (w.rid, w.slot, w.n, w.final)) = k.rows.map (fun w => (w.rid, w.slot, w.n, w.final))
      ∧ (k.cut = true → v.rows = k.rows)
      ∧ (k.cut = false → ∀ w ∈ v.rows, w.withheld = false →
          w.nan = false ∧ ∀ c ∈ k.summaries, ∀ x ∈ c.failed, x.2 ≠ some w.rid)
      ∧ u = { s1 with sched := { s.sched with step := u.sched.step }, free := u.free })
  ∧ ((inService s = false ∨ boundaryReady s1 k = false) → exec (.stepBoundary inp t) s = .next s1)
  ∧ (inService s = true → boundaryReady s1 k = true →
    ∃ u ids, exec (.stepBoundary inp t) s = .next u ∧ u.sched.sealed = k.number ∧ u.sched.lastB = max s.time.base t
      ∧ u.sched.history = ((k.number, max s.time.base t, ids) :: s.sched.history).take 64 ∧ u.sched.ringFns = [])

/-- Core tests (R357, R369, R370, R371): a test falls due INTERVAL after the last one, is overdue MAX_DEFER later, and starts on a core whose arrays are driven (R31) at an
opportunity once every tile of the core has a plane with the test pattern; a tile without a SPARE plane takes a STANDBY plane and the pattern is written
into it first. The test's end clears both marks and notes the result; a pass closes the core's late fault, a failure is counted and fences the
core; a TEST_RUN that waits for it is answered 0 for a pass and 1 for a failure. -/
def Obligations.CoreTests : Prop := ∀ (ck t : Nat) (conv : Option Nat) (s : State), ck < nCores →
  let s1 := advance t s
  let c := coreOf s ck
  let n := max s.time.base t
  (testEn s = true → c.testSince + testInterval s ≤ n → coreFenced s ck = false →
    exec (.testDue ck t) s = .next (setCore s1 ck { c with testDue := true }))
  ∧ ((testEn s = false ∨ n < c.testSince + testInterval s ∨ coreFenced s ck = true) → exec (.testDue ck t) s = .next s1)
  ∧ (c.testDue = true → c.testSince + testInterval s + testDefer s ≤ n → coreFenced s ck = false →
    exec (.testOverdue ck t) s = .next (setCore s1 ck { c with testDue := true, testOverdue := true }))
  ∧ ((c.testDue = false ∨ n < c.testSince + testInterval s + testDefer s ∨ coreFenced s ck = true) → exec (.testOverdue ck t) s = .next s1)
  ∧ (c.testDue = true → c.testing = none → testable s ck = true → inSlice s1 ck = false → testChance s1 ck = true →
    let has := fun (x : Nat) => planesIn s (tileKey ck x) 3 ≠ [] ∨ ∃ p ∈ s.plates.testPlanes, planeTile p = tileKey ck x
    ((∀ x, x < 16 → has x) → patternReady s ck = true →
      exec (.coreTest ck t) s = .next (setCore s1 ck { c with testing := some n }))
    ∧ (∀ x m, x < 16 → ¬has x → s.rst.loadDone = true → m < 1408 → (descOf s (planeKey (tileKey ck x) m)).state = 1 →
        (∀ e ∈ s.plates.claims, e.2 ≠ planeKey (tileKey ck x) m) →
      ∃ u p, exec (.coreTest ck t) s = .next u ∧ p ∈ u.plates.testPlanes ∧ planeTile p = tileKey ck x ∧ (descOf u p).state = 5
        ∧ tfind u.plates.writing p = some none ∧ u.cores = s.cores))
  ∧ ((c.testDue = false ∨ c.testing ≠ none ∨ testable s ck = false ∨ inSlice s1 ck = true ∨ testChance s1 ck = false) →
    exec (.coreTest ck t) s = .next s1)
  ∧ (∀ pass, c.testing = none → exec (.coreTestDone ck pass conv t) s = .next s1)
  ∧ (∀ pass, c.testing ≠ none → ∃ u, exec (.coreTestDone ck pass conv t) s = .next u
      ∧ coreOf u ck = { c with testing := none, testDue := false, testOverdue := false, testSince := n, testResult := if pass then 1 else 2,
                               convFault := c.convFault || conv.isSome, failedConv := min c.failedConv (conv.getD 0xFF),
                               groupFails := if conv.isSome then c.groupFails else [] }
      ∧ u.sched.slotCores = s.sched.slotCores.filter (· != ck) ∧ (∀ j, j ≠ ck → coreOf u j = coreOf s j)
      ∧ (pass = true → unitOfCore ck ∉ u.faults.openLate ∧ u.map = s.map ∧ u.faults.testFails = s.faults.testFails)
      ∧ (pass = false → unitFenced u (unitOfCore ck) = true ∧ u.faults.testFails = min (s.faults.testFails + 1) (2 ^ 32 - 1)))
  ∧ (∀ pass e, c.testing ≠ none → s.cmdq.filter (fun x => x.wait == .test ck) = [e] →
    ∃ u v, exec (.coreTestDone ck pass conv t) s = .next u
      ∧ u = finish v e.hdr.fn e.hdr.seq .ok {} (if pass then 0 else 1) 0 ∧ v.cmdq = s.cmdq ∧ v.fns = s.fns)

/-- Temperature recalibration (R162, R163, R164, R166, R167): a slice of a pass holds its tile for 20 µs from the end of what the tile does, and
strikes the engaged plane, one that a burst took away after it is engaged anew (R69), or the tile's lowest plane when none is engaged, 64 times
at u = 7; the change of gain and offset it measures, with one failed reference column the gain alone (R20, log entry 94), is staged for the boundary. There, words that their fields hold and that lie within the limits are taken and clear the tile's mark; any other
result is a reject that keeps the words and brings the core's test forward, and the tile's third reject in a row fences the core. A tile that has had
its slice, or a core less than 100 µs after its last one, with a tile in a slice, or in a stack whose arrays are not driven (R31), is left alone. How a slice predicts the two reference columns is the model's choice (log
entry 78). -/
def Obligations.RecalSlices : Prop := ∀ (ck tile refs t : Nat) (p : Pass) (s : State), ck < nCores → tile < 16 →
  (regionOf s (coreRegion ck)).pass = some p →
  let s1 := advance t s
  let c := coreOf s ck
  let g := regionOf s (coreRegion ck)
  let tk := tileKey ck tile
  let b := max (max s.time.base t) (tileOf c tile).freeAt
  let h := reengage (holdTile s1 ck tile) ck tile
  let found := (tileOf (coreOf h ck) tile).engaged
  let sound := ∀ n, (tileOf c tile).former = some n → formeState (descOf s (planeKey tk n)) = true → descGood (descOf s (planeKey tk n)) = true
  let open_ := p.kind = 1 ∧ passOver s1 (coreRegion ck) p = false ∧ coreFenced s ck = false ∧ stackDriven s (coreStack ck) = true ∧ tk ∉ p.slices.map (·.1) ∧ c.testing = none
    ∧ sliceFree s1 p ck 100000 = true
  (¬open_ → exec (.recalSlice (ck / 2560) (ck / 160 % 16) (ck % 160) tile refs t) s = .next s1)
  ∧ (open_ → ∃ u v, exec (.recalSlice (ck / 2560) (ck / 160 % 16) (ck % 160) tile refs t) s = .next u ∧ (regionOf u (coreRegion ck)).pass = some v
      ∧ v.slices = p.slices ++ [(tk, b)] ∧ v.temps = p.temps ∧ b + 20000 ≤ (tileOf (coreOf u ck) tile).freeAt
      ∧ (sound → ∀ q, found = some q →
        let pk := planeKey tk q
        let a := fun (col : Nat) => strikeSum h (coreOf h ck) ck col (columnCharge h pk (rowsAt (List.range 256) 7) col) 0 64
        let r := sliceResult (tileOf c tile) (corrWord c (corrKey tile (planeClass q) 269)) (g.tRead - g.tCal) (a 270) (a 271) refs
          (Config.refReading (coreRegion ck))
        v.staged = (r.map (tput p.staged tk)).getD p.staged
          ∧ (4, b, b + 20000) ∈ (tileOf (coreOf u ck) tile).work ∧ (coreOf u ck).strobeCount = min (c.strobeCount + 64) (2 ^ 64 - 1)
          ∧ (∀ j, j ≠ ck → coreOf u j = coreOf s j) ∧ (∀ j, j ≠ coreRegion ck → regionOf u j = regionOf s j)
          ∧ u = { s1 with cores := u.cores, regions := u.regions, free := s.free + 64 })
      ∧ (sound → found = none → ∀ q, lowestPlane s tk = some q → descGood (descOf s (planeKey tk q)) = true →
          (tileOf (coreOf u ck) tile).engaged = some q)
      ∧ (sound → found = none → lowestPlane s tk = none → v.staged = p.staged
          ∧ u = { s1 with cores := u.cores, regions := u.regions }))
  ∧ (∀ T ws, ws.all (wordOk s T ck) = true → coreOf (takeTile s T tk (some ws)) ck
      = { c with corr := ws.foldl (fun x (e : Nat × (Int × Int × Int)) => tset (0, 0, 0) x e.1 e.2) c.corr, runs := tdel c.runs (tileUnit tile) })
  ∧ (∀ T m, (∀ ws, m = some ws → ws.all (wordOk s T ck) = false) →
      let u := takeTile s T tk m
      (coreOf u ck).corr = c.corr ∧ (coreOf u ck).rejects = min (c.rejects + 1) 65535
        ∧ tget 0 (coreOf u ck).runs (tileUnit tile) = tget 0 c.runs (tileUnit tile) + 1 ∧ (coreOf u ck).testDue = true
        ∧ (2 ≤ tget 0 c.runs (tileUnit tile) → unitFenced u (unitOfCore ck) = true)
        ∧ (tget 0 c.runs (tileUnit tile) < 2 → u.map = s.map))

/-- Drift passes and CAL_SELF (R154, R158, R159, R161, R162, R164, R172, R173, R174): a drift pass starts in service when the age since the last
one has reached INTERVAL, or waits for a temperature pass; a slice of up to 40 ALLOCATED planes of one tile is noted with its time, holds the
tile, measures a fit for each plane and leaves the plane engaged before to be engaged anew; any other slice changes nothing. The end of CAL_SELF
stores each result within the limits, clears the converter's mark, lets calibration count as done and answers the command. -/
def Obligations.DriftAndSelfCalibration : Prop := ∀ (rk ck tile t : Nat) (s : State), rk < nRegions → ck < nCores → tile < 16 →
  let s1 := advance t s
  let g := regionOf s rk
  ((inService s = false ∨ driftDue s rk = false ∨ g.wantDrift = true ∨ passRegion s rk = false) → exec (.driftPassStart rk t) s = .next s1)
  ∧ (∀ p, g.pass = some p → p.kind = 2 → exec (.driftPassStart rk t) s = .next s1)
  ∧ (inService s = true → driftDue s rk = true → g.wantDrift = false → passRegion s rk = true → g.pass = none →
    exec (.driftPassStart rk t) s = .next (setRegion s1 rk { g with pass := some { kind := 2 } }))
  ∧ (∀ p, inService s = true → driftDue s rk = true → g.wantDrift = false → passRegion s rk = true → g.pass = some p → p.kind = 1 →
    exec (.driftPassStart rk t) s = .next (setRegion s1 rk { g with wantDrift := true }))
  ∧ (∀ p plane more, (regionOf s (coreRegion ck)).pass = some p →
      let planes := plane :: more
      let tk := tileKey ck tile
      let x := tileOf (coreOf s ck) tile
      let b := max (max s.time.base t) x.freeAt
      let f := reengage (holdTile s1 ck tile) ck tile
      let open_ := p.kind = 2 ∧ passOver s1 (coreRegion ck) p = false ∧ coreFenced s ck = false ∧ stackDriven s (coreStack ck) = true ∧ (coreOf s ck).testing = none
        ∧ planes.length ≤ 40 ∧ (∀ n ∈ planes, (descOf s (planeKey tk n)).state = 2 ∧ planeKey tk n ∉ p.slices.map (·.1))
        ∧ sliceFree s1 p ck 1000000 = true
      (¬open_ → exec (.driftSlice (ck / 2560) (ck / 160 % 16) (ck % 160) tile plane more t) s = .next s1)
      ∧ (open_ → ∃ u v, exec (.driftSlice (ck / 2560) (ck / 160 % 16) (ck % 160) tile plane more t) s = .next u ∧ (regionOf u (coreRegion ck)).pass = some v ∧ v.kind = 2
        ∧ v.slices = p.slices ++ planes.map (fun n => (planeKey tk n, b)) ∧ b + 20000 ≤ (tileOf (coreOf u ck) tile).freeAt
        ∧ ((∀ n ∈ planes, descGood (descOf s (planeKey tk n)) = true) →
            (∀ n, x.former = some n → formeState (descOf s (planeKey tk n)) = true → descGood (descOf s (planeKey tk n)) = true) →
          (∀ n ∈ planes, ∃ f, tfind v.fits (planeKey tk n) = some f
              ∧ f.dT = (regionOf s (coreRegion ck)).tRead - (regionOf s (coreRegion ck)).tCal)
            ∧ (tileOf (coreOf u ck) tile).engaged = planes.getLast? ∧ (tileOf (coreOf u ck) tile).former = (tileOf (coreOf f ck) tile).engaged
            ∧ (∀ j, j ≠ ck → coreOf u j = coreOf s j) ∧ (∀ j, j ≠ coreRegion ck → regionOf u j = regionOf s j)
            ∧ u = { s1 with cores := u.cores, regions := u.regions, free := s.free + 8 * planes.length })))
  ∧ (∀ results bandgap, s.cmdq.find? (fun e => e.wait == .calSelf) = none →
    exec (.calSelfComplete results bandgap t) s = .next s1)
  ∧ (∀ results bandgap e, s.cmdq.find? (fun e => e.wait == .calSelf) = some e →
    ∃ u v, exec (.calSelfComplete results bandgap t) s = .next u ∧ u = finish v e.hdr.fn e.hdr.seq .ok {} 0 0
      ∧ v.cmdq = s.cmdq ∧ v.fns = s.fns ∧ v.rst = { s.rst with calDone := true }
      ∧ (bandgap = [] → v.bandgap = { s.bandgap with hubSuspect := false })
      ∧ (∀ r, results = { columns := [(ck, [r])], units := [] } → bandgap = [] → r.failed = false → trimOk s ck r = true →
          coreOf u ck = { coreOf s ck with factor := tput (coreOf s ck).factor r.conv (r.gain, r.offset, true),
                                           newDnl := some (withDnl ((coreOf s ck).newDnl.getD (coreOf s ck).dnl) r.conv r.dnl),
                                           runs := tdel (coreOf s ck).runs r.conv, groupFails := [] } ∧ u.map = s.map))

/-- BANK_FINALISE, RECAL_SLICE, DRIFT_PASS_START, DRIFT_SLICE and CAL_SELF_COMPLETE complete with their effect (R121, R123, R158, R166, R173):
a bank that its group marks for parking or as last is freed; the slice of a temperature pass that is under way, and that of a drift pass, are
noted with the moment they begin; a drift pass that is due starts; the end of CAL_SELF lets calibration count as done. -/
def Obligations.BanksAndCalibrationComplete : Prop := ∀ (t : Nat) (s : State),
  let s1 := advance t s
  (∀ ck bn acc, ck < nCores → bn < 4 → (bankOf (coreOf s ck) bn).desc = some acc → acc.last = false → acc.park = true →
    ∃ u, exec (.bankFinalise ck bn t) s = .next u ∧ bankOf (coreOf u ck) bn = {})
  ∧ (∀ ck bn acc, ck < nCores → bn < 4 → (bankOf (coreOf s ck) bn).desc = some acc → acc.last = true → acc.dest ≠ 0 →
    ∃ u, exec (.bankFinalise ck bn t) s = .next u ∧ bankOf (coreOf u ck) bn = {})
  ∧ (∀ ck tile refs p, ck < nCores → tile < 16 → (regionOf s (coreRegion ck)).pass = some p → p.kind = 1 →
      passOver s1 (coreRegion ck) p = false → coreFenced s ck = false → stackDriven s (coreStack ck) = true → tileKey ck tile ∉ p.slices.map (·.1) →
      sliceFree s1 p ck 100000 = true → (coreOf s ck).testing = none →
    ∃ u v, exec (.recalSlice (ck / 2560) (ck / 160 % 16) (ck % 160) tile refs t) s = .next u ∧ (regionOf u (coreRegion ck)).pass = some v
      ∧ v.slices = p.slices ++ [(tileKey ck tile, max (max s.time.base t) (tileOf (coreOf s ck) tile).freeAt)])
  ∧ (∀ rk, rk < nRegions → inService s = true → driftDue s rk = true → (regionOf s rk).wantDrift = false → passRegion s rk = true →
      (regionOf s rk).pass = none →
    exec (.driftPassStart rk t) s = .next (setRegion s1 rk { regionOf s rk with pass := some { kind := 2 } }))
  ∧ (∀ ck tile n p, ck < nCores → tile < 16 → (regionOf s (coreRegion ck)).pass = some p → p.kind = 2 →
      passOver s1 (coreRegion ck) p = false → coreFenced s ck = false → stackDriven s (coreStack ck) = true → planeKey (tileKey ck tile) n ∉ p.slices.map (·.1) →
      sliceFree s1 p ck 1000000 = true → (coreOf s ck).testing = none →
      n < 1408 → (descOf s (planeKey (tileKey ck tile) n)).state = 2 →
    ∃ u v, exec (.driftSlice (ck / 2560) (ck / 160 % 16) (ck % 160) tile n [] t) s = .next u ∧ (regionOf u (coreRegion ck)).pass = some v
      ∧ v.slices = p.slices ++ [(planeKey (tileKey ck tile) n, max (max s.time.base t) (tileOf (coreOf s ck) tile).freeAt)])
  ∧ (∀ results bandgap, (∃ e ∈ s.cmdq, e.wait = .calSelf) →
    ∃ u, exec (.calSelfComplete results bandgap t) s = .next u ∧ u.rst = { s.rst with calDone := true })

/-- TIME_SYNC_SEND, TIME_SYNC, TIME_REPLY, LOCK_LOSS, EXT_SYNC_PULSE, CROSSING_RESET, THERMAL_STOP and HARD_CUT complete with their effect (R408,
R410, R411, R421, R423, R440, R469): the messages that carry the times, the offset that a reply gives, the lock that is lost, the pulse, the
side of a crossing in reset, the start of the orderly stop, and the latch that a cut sets. -/
def Obligations.TimeAndThermalComplete : Prop := ∀ (p t : Nat) (s : State), p < 36 →
  let s1 := advance t s
  let x := portOf s p
  let n := max s.time.base t
  (x.state = 2 → x.use = 2 → x.syncAt + 100000 ≤ n →
    exec (.timeSyncSend p t) s = .next (emit (setPort s1 p { x with syncAt := n }) (.control p 3 x.peer [n])))
  ∧ (∀ t1, x.state = 2 → x.use = 1 → exec (.timeSync p t1 t) s = .next (emit s1 (.control p 4 x.peer [t1, n, n])))
  ∧ (∀ t1 t2 t3 t4, x.state = 2 → x.use = 1 → s.time.lastReply ≠ 0 →
    ∃ u, exec (.timeReply p t1 t2 t3 t4 0 t) s = .next u ∧ u.time.offset = 8 * ((t2 - t1) - (t4 - t3)))
  ∧ (2 ≤ sysRole s → s.time.lastReply + 10000000 ≤ n →
    exec (.lockLoss t) s = .next { s1 with time := { s.time with base := n, locked := false } })
  ∧ (s.time.valid = true → s.rst.lastSync < n / 1000000 * 1000000 → exec (.extSyncPulse t) s
      = .next { s1 with out := s.out ++ [.pin .extSync true, .pin .extSync false], rst := { s.rst with lastSync := n } })
  ∧ (∀ c, crossingOk c = true → exec (.crossingReset c false t) s
      = .next { s1 with time := { s.time with base := n, resetting := addOnce s.time.resetting c, stuck := true } })
  ∧ (∀ (r : TempReading) k c, s.rst.phase = .service → s.therm.stopping = none → r.sensor = .region k c → 1760 ≤ r.value →
      predicted (takeReading s1 r) r.sensor r.value = false →
    ∃ u, exec (.thermalStop r t) s = .next u ∧ u.therm.stopping = some n ∧ u.sched.stopped = true)
  ∧ (∀ t0, s.rst.phase = .service → s.therm.stopping = some t0 → t0 + 10000000 ≤ n →
    ∃ u, exec (.hardCut t) s = .next u ∧ u.rst.phase = .latched ∧ u.aon.thermLatch = true)

/-! ## Plates, stored data, tenants -/

/-- PLATE_RECORD, IMAGE_READ_TIMEOUT, GEN_RECORD_WRITTEN and INPLACE_RUN (R28, R190, R193, R194, R195, R196, R197, R216, R221, R340), once claims on
fenced units have moved and the DMA credits are settled: a good record puts its claimed plane into PROGRAMMING; one that breaks R190, a
payload whose tag or DIGEST fails, or one too large for the plates' share of HBM ends the load with its status; a record of a refill goes to the
plane that waits for it; a read that fails is issued again, and the third failure ends the load with SOURCE_TIMEOUT; once every plane of
an accepted change is written, the generation record goes to flash and the change waits for its boundary; a run of an in-place second pass whose
SHA-256 is that of the first pass writes its planes, and any other ends the change. When a load completes is the model's reading (log entry 16). -/
def Obligations.PlateLoads : Prop := ∀ (t : Nat) (s : State), s.rst.loadDone = true →
  let s1 := advance t s
  let s2 := settleDma (settleClaims s1)
  (∀ ld bytes tagOk digestOk keyOk, s2.plates.load = some ld → ld.part = 4 → ld.authenticated = false → fetched s2 (changeRegion s2) .change = true →
    let r := decodeRecord bytes
    let l := wordPlane r.addr
    let n := ((ownShard s2 ld.image).map (·.planes)).getD 0
    let good := bytes.length = 39984 ∧ recordOk ld.image.dual ld.last r = true ∧ ∀ q ∈ recPlanes r, tfind s2.plates.claims q ≠ none
    let ends := fun (st : Status) (u : State) => ∃ v, u = settleDma (finish v ld.fn ld.seq st {} 0 0) ∧ v.cmdq = s2.cmdq ∧ v.fns = s2.fns
      ∧ u.plates.load = none
    n ≠ 0 → tfind s2.plates.claims l ≠ none →
    (good → ∀ pk, r.twin = 0 → ld.par.inPlace = false → ld.next + 1 < n → tfind s2.plates.claims l = some pk →
        digitalUsed s2 + digitalBytes r ≤ digitalMax →
      ∃ u, exec (.plateRecord bytes tagOk digestOk keyOk t) s = .next u ∧ (descOf u pk).state = 5 ∧ tfind u.plates.writing pk = some (some r)
        ∧ tfind u.plates.records l = some r ∧ (∀ q, q ≠ pk → descOf u q = descOf s2 q)
        ∧ u.plates.load = some { ld with next := ld.next + 1, last := some l, attempts := 0, payload := ld.payload ++ bytes }
        ∧ u = { s2 with arr := { s2.arr with desc := u.arr.desc }, plates := u.plates, regions := u.regions, out := u.out })
    ∧ (¬good → ∃ u, exec (.plateRecord bytes tagOk digestOk keyOk t) s = .next u ∧ ends .plateInvalid u)
    ∧ (good → digitalMax < digitalUsed s2 + (recPlanes r).length * digitalBytes r →
      ∃ u, exec (.plateRecord bytes tagOk digestOk keyOk t) s = .next u ∧ ends .noStandby u)
    ∧ (good → digitalUsed s2 + (recPlanes r).length * digitalBytes r ≤ digitalMax → n ≤ ld.next + 1 →
        (tagOk = false ∨ digestOf (ld.payload ++ bytes) ≠ ((ownShard s2 ld.image).map (·.digest)).getD 0) →
      ∃ u, exec (.plateRecord bytes tagOk digestOk keyOk t) s = .next u ∧ ends .plateSignature u))
  ∧ (∀ bytes q pk, s2.plates.load = none → (decodeRecord bytes).twin = 0 →
      refillOf s2 (wordPlane (decodeRecord bytes).addr) = some (q, pk) → holdsCredit s2 (.refill q.unit) = true →
      sourceReads s2 (wordPlane (decodeRecord bytes).addr) = true → recordOk false none (decodeRecord bytes) = true →
    ∃ u, exec (.plateRecord bytes true true true t) s = .next u ∧ (descOf u pk).state = 5
      ∧ tfind u.plates.writing pk = some (some (decodeRecord bytes)))
  ∧ (∀ bytes tagOk digestOk keyOk, s2.plates.load = none → (∀ l, l ∈ recPlanes (decodeRecord bytes) → refillOf s2 l = none) →
    exec (.plateRecord bytes tagOk digestOk keyOk t) s = .next (settleDma s2))
  ∧ (∀ ld, s.plates.load = some ld → ld.authenticated = false → ld.attempts < 2 → ld.part < 4 →
    exec (.imageReadTimeout t) s = .next (emit { s1 with plates := { s.plates with load := some { ld with attempts := ld.attempts + 1 } } }
      (.sourceRead (if ld.par.source = 0 then 0xFFFF else ld.par.peer) (partAddr s1 ld.par ld.image ld.part ld.next))))
  ∧ (∀ ld, s.plates.load = some ld → ld.authenticated = false → ld.attempts < 2 → ∃ u, exec (.imageReadTimeout t) s = .next u
      ∧ u = { s1 with
              plates := { s.plates with
                load := some { ld with attempts := ld.attempts + 1 }, wants := u.plates.wants, slots := u.plates.slots, area := u.plates.area },
              regions := u.regions, out := u.out })
  ∧ (∀ ld, s.plates.load = some ld → ld.authenticated = false → 2 ≤ ld.attempts →
    ∃ u v, exec (.imageReadTimeout t) s = .next u ∧ u = finish v ld.fn ld.seq .sourceTimeout {} 0 0 ∧ v.cmdq = s.cmdq ∧ v.fns = s.fns
      ∧ u.plates.load = none)
  ∧ (s.plates.load = none → s.plates.rewriting = false → (∀ r ∈ s.map.refills, r.blocked = true ∨ r.planes = []) →
    exec (.imageReadTimeout t) s = .next s1)
  ∧ (∀ x, s.txns.plate = some x → x.committing = true → x.recordWritten = false → changeWritten s1 = true → sysRole s = 0 →
      s.plates.systemPrep = none →
    ∃ u, exec (.genRecordWritten t) s = .next u ∧ newest u.nv.gen = some (genRecordOf (flipPlates s1 x.staged))
      ∧ u.txns.plate = some { x with recordWritten := true }
      ∧ u = { s1 with nv := { s1.nv with gen := u.nv.gen }, txns := u.txns, sched := { s.sched with wantBoundary := true } }
      ∧ (∀ d, d ≤ 3 → d ≠ 1 → txnOf u.txns d = txnOf s.txns d))
  ∧ ((s.txns.plate = none ∨ changeWritten s1 = false) → exec (.genRecordWritten t) s = .next s1)
  ∧ (∀ bytes, s2.plates.rewriting = false → exec (.inplaceRun bytes t) s = .next s2)
  ∧ (∀ bytes ld x, s2.plates.rewriting = true → runsLeft s2 = some ld → fetched s2 (rerunRegion s2) .rerun = true →
      ld.digests.head? ≠ some (digestOf bytes) → s2.txns.plate = some x →
    ∃ u, exec (.inplaceRun bytes t) s = .next u ∧ u.txns.plate = none ∧ u.plates.rewriting = false ∧ u.plates.inplace = []
      ∧ u.plates.claims = [] ∧ u.plates.table = s2.plates.table ∧ u.plates.epoch = s2.plates.epoch
      ∧ (∀ h, x.reply = some h → ∃ v, u = finish v h.fn h.seq .plateSignature {} 0 0 ∧ v.cmdq = s2.cmdq))
  ∧ (∀ bytes ld r pk, s2.plates.rewriting = true → runsLeft s2 = some ld → fetched s2 (rerunRegion s2) .rerun = true →
      ld.digests.head? = some (digestOf bytes) → decodeRecords 64 bytes = [r] → r.twin = 0 → loadTarget s2 (wordPlane r.addr) = some pk →
    ∃ u, exec (.inplaceRun bytes t) s = .next u ∧ (descOf u pk).state = 5 ∧ tfind u.plates.writing pk = some (some r)
      ∧ u.plates.inplace = modRuns (fun d => { d with attempts := 0, digests := d.digests.drop 1 }) s2.plates.inplace
      ∧ u.plates.rewriting = true ∧ (∀ q, q ≠ pk → descOf u q = descOf s2 q)
      ∧ u = { s2 with arr := { s2.arr with desc := u.arr.desc }, plates := u.plates, regions := u.regions, out := u.out })

/-- PLANE_PROGRAM, WRITE_BURST, DRAIN_TIMEOUT and PIN_LIMIT (R69, R81, R197, R198, R199, R200, R201, R218, R221): a plane without a write slot
waits; one that holds a slot, programmed without defects, takes its record's levels and descriptor, ALLOCATED in a refill; a single defect
below 4-bit weights becomes a stuck-list entry, in effect at the next boundary; a burst of rows of the plane holds its tile for 625 ns a row from the moment the
tile is free and disengages its plane, which is engaged anew before its next strobe; past DRAIN_MAX the requests of draining formes, and past
PIN_MAX the PINNED requests, are asked to end with PLATE_CHANGED. Readings of the defect rules are log entry 47. -/
def Obligations.PlaneWrites : Prop := ∀ (t : Nat) (s : State), s.rst.loadDone = true →
  let s1 := advance t s
  let s2 := fillSlots (settleClaims s1)
  let f := fillSlots s1
  (∀ pk ds, pk < 22528 * nCores → canWrite s2 pk = false → exec (.planeProgram pk ds t) s = .next s2)
  ∧ (∀ pk r, pk < 22528 * nCores → pk ∈ s2.plates.slots → tfind s2.plates.writing pk = some (some r) →
    ∃ u, exec (.planeProgram pk [] t) s = .next u ∧ tfind u.arr.cells pk = some (planeLevels r []) ∧ tfind u.plates.writing pk = none
      ∧ descOf u pk = { state := if isRefill s2 pk then 2 else 5, wmode := r.wmode, width := r.width, zeroPoint := r.zeroPoint,
                        skimValid := r.skimValid, skimRow := r.skimRow, xmap := [] }
      ∧ (∀ q, q ≠ pk → descOf u q = descOf s2 q ∧ tfind u.arr.cells q = tfind s2.arr.cells q))
  ∧ (∀ pk r d, pk < 22528 * nCores → pk ∈ s2.plates.slots → tfind s2.plates.writing pk = some (some r) → d.col < 264 → d.unstable = false →
      r.wmode < 3 →
      let x := tileOf (coreOf s2 (planeCore pk)) (tileOfPlane pk)
      (x.stuck.filter (fun e => e.plane != planeNo pk)).length + (x.newStuck.filter (fun e => e.plane != planeNo pk)).length < 16 →
    ∃ u, exec (.planeProgram pk [d] t) s = .next u ∧ tfind u.arr.cells pk = some (withStuck (planeLevels r []) [d])
      ∧ (tileOf (coreOf u (planeCore pk)) (tileOfPlane pk)).newStuck
          = x.newStuck.filter (fun e => e.plane != planeNo pk) ++ [stuckOf (planeNo pk) (planeLevels r []) d]
      ∧ tfind u.plates.writing pk = none)
  ∧ (∀ pk row rows, pk < 22528 * nCores → canWrite f pk = true → (coreOf s (planeCore pk)).burstWait < 1255 → (coreOf s (planeCore pk)).testing = none →
      row + rows ≤ 256 →
    let x := tileOf (coreOf s (planeCore pk)) (tileOfPlane pk)
    let b := tileReady s1 (coreOf s (planeCore pk)) (tileOfPlane pk)
    ∃ u, exec (.writeBurst pk row rows t) s = .next u
      ∧ (let y := tileOf (coreOf u (planeCore pk)) (tileOfPlane pk)
        y.engaged = none ∧ y.former = x.engaged.orElse (fun _ => x.former) ∧ y.freeAt = b + 625 * rows
          ∧ (3, b, b + 625 * rows) ∈ y.work ∧ y.burst = some (b, b + 625 * rows))
      ∧ (∀ j, j ≠ tileOfPlane pk → tileOf (coreOf u (planeCore pk)) j = tileOf (coreOf s (planeCore pk)) j)
      ∧ (∀ j, j ≠ planeCore pk → coreOf u j = coreOf s j) ∧ u = { f with cores := u.cores })
  ∧ (∀ pk row rows, pk < 22528 * nCores → (canWrite f pk = false ∨ 1255 ≤ (coreOf s (planeCore pk)).burstWait
      ∨ (coreOf s (planeCore pk)).testing ≠ none ∨ 256 < row + rows) → exec (.writeBurst pk row rows t) s = .next f)
  ∧ ((s.plates.draining = none ∨ ∃ t0, s.plates.draining = some t0 ∧ max s.time.base t < t0 + drainMax s) →
    exec (.drainTimeout t) s = .next s1)
  ∧ (∀ t0 i q, s.plates.draining = some t0 → t0 + drainMax s ≤ max s.time.base t → reqOf s i = some q → slotDraining s q.p.slot = true →
      q.state ≠ .held → q.endAs = [] →
    ∃ u, exec (.drainTimeout t) s = .next u ∧ reqOf u i = some { q with endAs := [(.plateChanged, nextBoundary s)] }
      ∧ u = { s1 with reqs := u.reqs, sched := { s.sched with wantBoundary := true } })
  ∧ (∀ x, s.txns.plate = some x → max s.time.base t < x.acceptedAt + pinMax s → exec (.pinLimit t) s = .next s1)
  ∧ (∀ x i q, s.txns.plate = some x → x.committing = true → x.acceptedAt + pinMax s ≤ max s.time.base t → reqOf s i = some q →
      q.p.pinned = true → q.state ≠ .held → q.endAs = [] →
    ∃ u, exec (.pinLimit t) s = .next u ∧ reqOf u i = some { q with endAs := [(.plateChanged, nextBoundary s)] }
      ∧ u = { s1 with reqs := u.reqs, sched := { s.sched with wantBoundary := true } })

/-- Stored data (R363, R364, R386): an uncorrectable error in use ends every request that consumed it in P2 mode, and otherwise, as in the
memory of a management processor, latches its location and starts a FATAL reset; one that nobody owns only retires its location; patrol reads
count or retire and never reset; a location whose bank has no spare line left fences the core or region that owns it, or withdraws the hub bank;
SHEET_OVERWRITE takes one sheet off those that wait, with zeros in it while it is free, and changes no other byte of HBM. Whether a spare line is left is an operand (log entry 29). -/
def Obligations.StoredData : Prop := ∀ (e : MemError) (t : Nat) (s : State),
  let s1 := advance t s
  let key := (e.mem, e.owner, e.line)
  (firmwareRuns s = false → exec (.ueConsumed e t) s = .next s1)
  ∧ (firmwareRuns s = true → e.inUse = false → e.noSpare = false → ∃ u, exec (.ueConsumed e t) s = .next u ∧ key ∈ u.faults.retired ∧ u.faults.ue = s.faults.ue
      ∧ u = { s1 with faults := u.faults, nv := { s.nv with retired := u.nv.retired } })
  ∧ (firmwareRuns s = true → e.inUse = true → p2Mode s = true → e.mem ≠ .mpMemory → e.noSpare = false →
    ∃ u, exec (.ueConsumed e t) s = .next u ∧ u.faults.ue = min (s.faults.ue + 1) (2 ^ 32 - 1) ∧ key ∈ u.faults.retired ∧ u.rst = s.rst
      ∧ (∀ i ∈ e.rids, ∀ q, reqOf s i = some q → q.endAs = [] →
          reqOf u i = some { q with cond := { q.cond with failed := true }, endAs := [(.cancelled, nextBoundary s)] })
      ∧ (∀ i, i ∉ e.rids → reqOf u i = reqOf s i)
      ∧ (∀ k, s.sched.step = some k → ∃ v, u.sched.step = some v ∧ ∀ w ∈ v.rows, w.rid ∈ e.rids → w.withheld = true)
      ∧ u = { s1 with faults := u.faults, nv := { s.nv with retired := u.nv.retired }, reqs := u.reqs, sched := u.sched })
  ∧ (firmwareRuns s = true → e.inUse = true → (p2Mode s = false ∨ e.mem = .mpMemory) → s.therm.stopping = none → aonWf s →
    ∃ u, exec (.ueConsumed e t) s = .next u ∧ u.rst.phase = .inReset ∧ u.rst.sources = [.fatal] ∧ u.aon.errorLog = s.aon.errorLog ++ [e]
      ∧ u.aon.counts.a.getD 4 0 = min (s.aon.counts.a.getD 4 0 + 1) 65535 ∧ u.time.base = max s.time.base t ∧ u.reqs = [])
  ∧ (∀ ce ue, inService s = false → exec (.patrolRead ce ue t) s = .next s1)
  ∧ (∀ ce ue, (∀ x ∈ ce ++ ue, x.inUse = true) → exec (.patrolRead ce ue t) s = .next s1)
  ∧ (inService s = true → e.inUse = false → e.noSpare = false → ∃ u, exec (.patrolRead [] [e] t) s = .next u ∧ key ∈ u.faults.retired
      ∧ u = { s1 with faults := u.faults, nv := { s.nv with retired := u.nv.retired } })
  ∧ (inService s = true → e.inUse = false → e.noSpare = false → ∃ u, exec (.patrolRead [e] [] t) s = .next u
      ∧ u.faults.ce = min (s.faults.ce + 1) (2 ^ 32 - 1) ∧ aget u.faults.ceTable key = some ((aget s.faults.ceTable key).getD 0 + 1)
      ∧ (ceRetire s ≤ (aget s.faults.ceTable key).getD 0 + 1 → key ∈ u.faults.retired)
      ∧ ((aget s.faults.ceTable key).getD 0 + 1 < ceRetire s → u.faults.retired = s.faults.retired ∧ u.nv = s.nv)
      ∧ u = { s1 with faults := u.faults, nv := { s.nv with retired := u.nv.retired } })
  ∧ (inService s = true → e.inUse = false → e.noSpare = true → ∃ u, exec (.patrolRead [] [e] t) s = .next u ∧ key ∈ u.faults.retired
      ∧ (e.mem = .hubSram → e.line ∈ u.faults.hubWithdrawn ∧ u.map = s.map)
      ∧ (∀ ck, ck < nCores → e.mem = .scratch → e.owner = physWord (unitOfCore ck) → unitOfCore ck ∈ fencedUnits u)
      ∧ (∀ rk, rk < nRegions → e.mem = .wideBuffer → e.owner = physWord (unitOfRegion rk) → unitOfRegion rk ∈ fencedUnits u))
  ∧ (∀ x, x < 40 * Config.halfSheets → ∃ u, exec (.sheetOverwrite x t) s = .next u
      ∧ (∀ y, (∃ r ∈ u.kv.overwrite, r.1 ≤ y ∧ y < r.1 + r.2) ↔ (y ≠ x ∧ ∃ r ∈ s.kv.overwrite, r.1 ≤ y ∧ y < r.1 + r.2))
      ∧ ((∃ r ∈ s.kv.overwrite, r.1 ≤ x ∧ x < r.1 + r.2) → sheetTaken s x = false → ∀ y, y / 4096 = x → mget u.kv.hbm y = 0)
      ∧ (((∀ r ∈ s.kv.overwrite, x < r.1 ∨ r.1 + r.2 ≤ x) ∨ sheetTaken s x = true) → u.kv.hbm = s.kv.hbm)
      ∧ (∀ y, y / 4096 ≠ x → mget u.kv.hbm y = mget s.kv.hbm y)
      ∧ u = { s1 with kv := { s.kv with overwrite := u.kv.overwrite, hbm := u.kv.hbm } })

/-- Removing a tenant (R381, R387): its key is zeroised once the cut boundary has passed and no host access of it is left, or 2 ms after the
start; the slot is EMPTY, its overlays are gone and the washdown is counted. A TDI that leaves RUN starts the removal of its tenant when that
is confidential and ACTIVE. -/
def Obligations.TenantsLeave : Prop := ∀ (n t : Nat) (s : State), n < 256 →
  let s1 := advance t s
  let x := tenantOf s n
  (x.removing = none → exec (.tenantKeyZeroise n t) s = .next s1)
  ∧ (∀ t0, x.removing = some t0 → (x.removeBoundary = true ∨ (tenantReads s n ≠ [] ∧ max s.time.base t < t0 + 2000000)) →
    exec (.tenantKeyZeroise n t) s = .next s1)
  ∧ (∀ t0, x.removing = some t0 → x.removeBoundary = false → (tenantReads s n = [] ∨ t0 + 2000000 ≤ max s.time.base t) →
    ∃ u, exec (.tenantKeyZeroise n t) s = .next u ∧ tenantOf u n = {} ∧ (∀ m, m ≠ n → tenantOf u m = tenantOf s m)
      ∧ u.overlays = s.overlays.filter (fun e => overlayTenant e.1 != n)
      ∧ u.sec.washdowns = min (s.sec.washdowns + 1) (2 ^ 32 - 1) ∧ (∀ e ∈ u.sched.ended, e.2.tenant ≠ n)
      ∧ u.reqs = s.reqs ∧ u.kv = s.kv ∧ u.cores = s.cores ∧ u.regions = s.regions ∧ u.arr = s.arr ∧ u.nv = s.nv)
  ∧ ((fnOf s n).tdi ≠ 2 → exec (.tdiLeaveRun n t) s = .next s1)
  ∧ ((fnOf s n).tdi = 2 → (x.confidential = false ∨ tenantSlot s n ≠ 1) →
    exec (.tdiLeaveRun n t) s = .next (setFn s1 n { fnOf s n with tdi := 0 }))
  ∧ ((fnOf s n).tdi = 2 → x.confidential = true → tenantSlot s n = 1 →
    ∃ u, exec (.tdiLeaveRun n t) s = .next u ∧ (fnOf u n).tdi = 0 ∧ tenantSlot u n = 2 ∧ (tenantOf u n).enabled = false
      ∧ (tenantOf u n).removing = some (max s.time.base t) ∧ (tenantOf u n).notice = true ∧ (∀ m, m ≠ n → tenantOf u m = tenantOf s m)
      ∧ u.reqs = s.reqs ∧ u.cmdq = s.cmdq)

/-! ## Quoin links and systems -/

/-- Ports (R429, R435, R437, R439, R446): PORT_TRAIN locks the lanes and sends IDENT, and after a peer's IDENT brings the port up with initial
credits; a failed training is counted and the third in a row leaves the port failed; IDENT refuses another key and roles that do not fit;
silence for 10 µs, a lost lane and FAULT_N take a port down, with its flits and keys gone and the event counted; RETRAIN takes it down to
train again. No other port changes. The order of training and IDENT is the model's reading (log entry 22). -/
def Obligations.PortsTrain : Prop := ∀ (p t : Nat) (s : State), p < 36 →
  let s1 := advance t s
  let x := portOf s p
  let failed := fun (u : State) (c : Nat) => portOf u p = { dropLink x (if 3 ≤ x.fails + 1 then 3 else 0) c with fails := min 3 (x.fails + 1) }
    ∧ (∀ q, q ≠ p → portOf u q = portOf s q)
  let down := fun (u : State) (c : Nat) => portOf u p = { dropLink x 0 c with downs := min (x.downs + 1) (2 ^ 32 - 1) }
    ∧ (∀ q, q ≠ p → portOf u q = portOf s q)
  (∀ lanes ok, (mayTrain s1 p = false ∨ x.state = 2 ∨ x.state = 3) → exec (.portTrain p lanes ok t) s = .next s1)
  ∧ (∀ lanes, mayTrain s1 p = true → x.state ≠ 2 → x.state ≠ 3 → x.use = 0 → (lanes = 15 ∨ lanes = 3 ∨ lanes = 12) →
    ∃ u words, exec (.portTrain p lanes true t) s = .next u ∧ portOf u p = { x with state := 1, lanes := lanes }
      ∧ (∀ q, q ≠ p → portOf u q = portOf s q) ∧ u.out = s.out ++ [.control p 1 (numberFor s p) words])
  ∧ (∀ lanes ok, mayTrain s1 p = true → x.state ≠ 2 → x.state ≠ 3 → x.use = 0 → (ok = false ∨ (lanes ≠ 15 ∧ lanes ≠ 3 ∧ lanes ≠ 12)) →
    ∃ u, exec (.portTrain p lanes ok t) s = .next u ∧ failed u 2)
  ∧ (∀ lanes, mayTrain s1 p = true → x.state ≠ 2 → x.state ≠ 3 → x.use ≠ 0 →
    (∃ u, exec (.portTrain p lanes false t) s = .next u ∧ failed u 7)
    ∧ ∃ u, exec (.portTrain p lanes true t) s = .next u ∧ (portOf u p).state = 2 ∧ (portOf u p).fails = 0 ∧ (portOf u p).use = x.use
      ∧ (portOf u p).expect = 0 ∧ (portOf u p).nextSeq = 0 ∧ (portOf u p).credits = [32, 1024, 256, 512] ∧ (portOf u p).replay = []
      ∧ (portOf u p).subkeys = [] ∧ (portOf u p).lastRx = max s.time.base t ∧ (∀ q, q ≠ p → portOf u q = portOf s q))
  ∧ (∀ m, (x.state ≠ 1 ∨ x.use ≠ 0) → exec (.ident p m t) s = .next s1)
  ∧ (∀ m, x.state = 1 → x.use = 0 → m.bindKey ≠ peerKeyOf s p → ∃ u, exec (.ident p m t) s = .next u ∧ failed u 4)
  ∧ (∀ m, x.state = 1 → x.use = 0 → m.bindKey = peerKeyOf s p → pairing s1 p m = none → ∃ u, exec (.ident p m t) s = .next u ∧ failed u 5)
  ∧ (∀ m k, x.state = 1 → x.use = 0 → m.bindKey = peerKeyOf s p → pairing s1 p m = some k →
    ∃ u, exec (.ident p m t) s = .next u
      ∧ portOf u p = { x with use := k, peer := if k = 2 then numberFor s p else m.module, peerSerial := m.serial }
      ∧ u.ql.module = (if k = 1 then m.assigned else s.ql.module) ∧ u.ql.module ∈ u.ql.present ∧ (portOf u p).peer ∈ u.ql.present
      ∧ (∀ q, q ≠ p → portOf u q = portOf s q))
  ∧ (∀ v : W32, (inService s = false ∨ bitAt v.toNat 1 = false) → exec (.retrain p v t) s = .next s1)
  ∧ (∀ v : W32, inService s = true → bitAt v.toNat 1 = true → ∃ u, exec (.retrain p v t) s = .next u
      ∧ portOf u p = { dropLink x 0 0 with fails := 0 } ∧ (∀ q, q ≠ p → portOf u q = portOf s q) ∧ u.out = s.out)
  ∧ ((x.state ≠ 2 ∨ max s.time.base t < x.lastRx + 10000) → exec (.portSilence p t) s = .next s1)
  ∧ (x.state = 2 → x.lastRx + 10000 ≤ max s.time.base t → ∃ u, exec (.portSilence p t) s = .next u ∧ down u 3)
  ∧ (∀ lane, bitAt x.lanes lane = false → exec (.laneLockLoss p lane t) s = .next s1)
  ∧ (∀ lane, bitAt x.lanes lane = true →
    (x.state = 2 → ∃ u, exec (.laneLockLoss p lane t) s = .next u ∧ down u 2)
    ∧ (x.state = 1 → ∃ u, exec (.laneLockLoss p lane t) s = .next u ∧ failed u 2))
  ∧ (x.state = 2 → ∃ u, exec (.qlFault p t) s = .next u ∧ down u 6
      ∧ (x.use = 2 → isManager s = true → x.peer ≠ s.ql.module → x.peer ∈ u.ql.absent))

/-- Flits and tenant subkeys (R380, R430-R432, R434, R436): a flit with a bad CRC, or out of order, is not taken and is asked for again
at once; one in order for this module is taken and the next one expected, and the last one of a sheet brings it into the scratch of the
destination of the route that it stands for, or, when its CRC-32C fails, withholds the rows of that forme (R212; log entry 99); one of a tenant
whose slot, epoch or tag does not fit is dropped and counted; 4 µs without an acknowledgement send the replay buffer again; an exchanged subkey comes into use, and after 100 µs
without one the tenant's flits are discarded. Which rows a lost flit withholds is log entry 23. -/
def Obligations.FlitsAndKeys : Prop := ∀ (p t : Nat) (f : Flit) (s : State), p < 36 →
  let s1 := advance t s
  let x := portOf s p
  (x.state ≠ 2 → exec (.flitReceive p f t) s = .next s1)
  ∧ (x.state = 2 → f.crcOk = false → ∃ u g, exec (.flitReceive p f t) s = .next u ∧ u.out = s.out ++ [.flit p g] ∧ g.nak = true
      ∧ (portOf u p).crc = min (x.crc + 1) (2 ^ 32 - 1) ∧ (portOf u p).expect = x.expect ∧ u.ql.received = s.ql.received)
  ∧ (x.state = 2 → f.crcOk = true → f.isNull = false → f.nak = false → f.seq ≠ x.expect →
    ∃ u g, exec (.flitReceive p f t) s = .next u ∧ u.out = s.out ++ [.flit p g] ∧ g.nak = true ∧ (portOf u p).expect = x.expect
      ∧ u.ql.received = s.ql.received)
  ∧ (x.state = 2 → f.crcOk = true → f.isNull = false → f.nak = false → f.seq = x.expect →
    (tenantDrop s f = true → ∃ u, exec (.flitReceive p f t) s = .next u ∧ (portOf u p).expect = (x.expect + 1) % 65536
      ∧ u.sec.epochDrops = min (s.sec.epochDrops + 1) (2 ^ 32 - 1) ∧ u.ql.received = s.ql.received)
    ∧ (tenantDrop s f = false → f.tagOk = true → f.dest = s.ql.module →
      let before := if f.typ = 1 then [] else s.ql.received.filter (sameMessage f)
      let others := s.ql.received.filter (fun g => !sameMessage f g)
      let bytes := (before ++ [f]).flatMap (·.payload)
      let l := routeSlots s f.src
      ∃ u, exec (.flitReceive p f t) s = .next u ∧ (portOf u p).expect = (x.expect + 1) % 65536 ∧ u.sec = s.sec
        ∧ (f.cls ≠ 1 → u.ql.received = s.ql.received ∧ u.cores = s.cores)
        ∧ (f.cls = 1 → f.last = false → u.ql.received = others ++ before ++ [f] ∧ u.cores = s.cores)
        ∧ (f.cls = 1 → f.last = true → u.ql.received = others
          ∧ ∀ slot ck off, l[tget 0 s.ql.arrived f.src % l.length]? = some (slot, ck, off) →
            (leNat ((bytes.drop 4096).take 4) = crc32c (bytes.take 4096) →
              coreOf u ck = { coreOf s ck with scratch := mwrite (coreOf s ck).scratch off (bytes.take 4096) }
                ∧ (∀ j, j ≠ ck → coreOf u j = coreOf s j) ∧ u.sched = s.sched)
            ∧ (leNat ((bytes.drop 4096).take 4) ≠ crc32c (bytes.take 4096) → u.cores = s.cores
              ∧ ∀ k, s.sched.step = some k → ∃ v, u.sched.step = some v ∧ ∀ w ∈ k.rows, runsForme s w slot = true →
                  { w with withheld := true, cond := { w.cond with failed := true } } ∈ v.rows))))
  ∧ ((x.state ≠ 2 ∨ x.replay = [] ∨ max s.time.base t < x.lastTx + 4000) → exec (.flitAckTimeout p t) s = .next s1)
  ∧ (x.state = 2 → x.replay ≠ [] → x.lastTx + 4000 ≤ max s.time.base t → x.replays < 7 →
    ∃ u, exec (.flitAckTimeout p t) s = .next u ∧ u.out = s.out ++ x.replay.map (fun g => .flit p g)
      ∧ portOf u p = { x with retry := min (x.retry + 1) (2 ^ 32 - 1), replays := x.replays + 1, lastTx := max s.time.base t }
      ∧ (∀ q, q ≠ p → portOf u q = portOf s q))
  ∧ (x.state = 2 → x.replay ≠ [] → x.lastTx + 4000 ≤ max s.time.base t → 7 ≤ x.replays →
    ∃ u, exec (.flitAckTimeout p t) s = .next u ∧ (portOf u p).state = 0 ∧ (portOf u p).downs = min (x.downs + 1) (2 ^ 32 - 1)
      ∧ (portOf u p).replay = [] ∧ (∀ q, q ≠ p → portOf u q = portOf s q))
  ∧ (∀ slot v, slot < 256 → x.state ≠ 2 → exec (.keyx p slot v t) s = .next s1)
  ∧ (∀ slot, slot < 256 → x.state = 2 → exec (.keyx p slot none t) s = .next (setPort s1 p { x with kex := tdel x.kex slot }))
  ∧ (∀ slot v, slot < 256 → x.state = 2 → tenantSlot s slot ≠ 1 →
    exec (.keyx p slot (some v) t) s = .next (emit s1 (.control p 2 x.peer [slot])))
  ∧ (∀ slot v, slot < 256 → x.state = 2 → tenantSlot s slot = 1 → ∃ u, exec (.keyx p slot (some v) t) s = .next u
      ∧ slot ∈ (portOf u p).subkeys ∧ tfind (portOf u p).kex slot = none ∧ (∀ q, q ∈ x.subkeys → q ∈ (portOf u p).subkeys))
  ∧ (∀ slot, slot < 256 → (∀ t0, tfind x.kex slot = some t0 → max s.time.base t < t0 + 100000) →
    exec (.keyxTimeout p slot t) s = .next s1)
  ∧ (∀ slot t0, slot < 256 → tfind x.kex slot = some t0 → t0 + 100000 ≤ max s.time.base t → ∃ u, exec (.keyxTimeout p slot t) s = .next u
      ∧ tfind (portOf u p).kex slot = none
      ∧ (portOf u p).waiting = x.waiting.filter (fun e => !(e.1.tkey && e.1.tenant == slot)) ∧ u.out = s.out)

/-- Time across modules (R421, R423, R440, R469): TIME_SYNC goes to a lower module every 100 µs and is answered on the uplink with the times of
its arrival and departure; a reply gives the offset, locks the time base within 4 ns and slews it against the offset by at most 100 ppm, and
the first one of a cold start steps it instead; 10 ms without a reply lose the lock. EXT_SYNC pulses once at each whole millisecond. A
crossing whose other side does not answer stays in reset and shows STUCK. The magnitude of the slew is free (log entry 26). -/
def Obligations.TimeBases : Prop := ∀ (p t : Nat) (s : State), p < 36 →
  let s1 := advance t s
  let x := portOf s p
  let n := max s.time.base t
  (x.state = 2 → x.use = 2 → x.syncAt + 100000 ≤ n →
    exec (.timeSyncSend p t) s = .next (emit (setPort s1 p { x with syncAt := n }) (.control p 3 x.peer [n])))
  ∧ ((x.state ≠ 2 ∨ x.use ≠ 2 ∨ n < x.syncAt + 100000) → exec (.timeSyncSend p t) s = .next s1)
  ∧ (∀ t1, x.state = 2 → x.use = 1 → exec (.timeSync p t1 t) s = .next (emit s1 (.control p 4 x.peer [t1, n, n])))
  ∧ (∀ t1, (x.state ≠ 2 ∨ x.use ≠ 1) → exec (.timeSync p t1 t) s = .next s1)
  ∧ (∀ t1 t2 t3 t4 w, (x.state ≠ 2 ∨ x.use ≠ 1) → exec (.timeReply p t1 t2 t3 t4 w t) s = .next s1)
  ∧ (∀ t1 t2 t3 t4 w, x.state = 2 → x.use = 1 → s.time.lastReply ≠ 0 →
    let th : Int := 8 * ((t2 - t1) - (t4 - t3))
    ∃ u, exec (.timeReply p t1 t2 t3 t4 w t) s = .next u ∧ u.time.base = n ∧ u.time.offset = th + (if sysRole s = 3 then w else 0)
      ∧ u.time.locked = decide (th.natAbs ≤ 64) ∧ u.time.slew.natAbs ≤ 25600
      ∧ (0 < th → u.time.slew ≤ 0) ∧ (th < 0 → 0 ≤ u.time.slew) ∧ (th = 0 → u.time.slew = 0) ∧ u.time.lastReply = max 1 n
      ∧ u.time.stepped = s.time.stepped)
  ∧ (∀ t1 t2 t3 t4 w, x.state = 2 → x.use = 1 → s.time.lastReply = 0 → s.rst.cold = true →
    let th : Int := 8 * ((t2 - t1) - (t4 - t3))
    th ≠ 0 →
    ∃ u, exec (.timeReply p t1 t2 t3 t4 w t) s = .next u ∧ u.time.base = ((n : Int) - rneDiv th 16).toNat ∧ u.time.stepped = true
      ∧ u.time.locked = true ∧ u.time.slew = 0 ∧ u.time.offset = (if sysRole s = 3 then w else 0))
  ∧ ((sysRole s < 2 ∨ n < s.time.lastReply + 10000000) → exec (.lockLoss t) s = .next s1)
  ∧ (2 ≤ sysRole s → s.time.lastReply + 10000000 ≤ n →
    exec (.lockLoss t) s = .next { s1 with time := { s.time with base := n, locked := false } })
  ∧ ((s.time.valid = false ∨ n / 1000000 * 1000000 ≤ s.rst.lastSync) → exec (.extSyncPulse t) s = .next s1)
  ∧ (s.time.valid = true → s.rst.lastSync < n / 1000000 * 1000000 → exec (.extSyncPulse t) s
      = .next { s1 with out := s.out ++ [.pin .extSync true, .pin .extSync false], rst := { s.rst with lastSync := n } })
  ∧ (∀ c, crossingOk c = true →
    exec (.crossingReset c false t) s
      = .next { s1 with time := { s.time with base := n, resetting := addOnce s.time.resetting c, stuck := true } })
  ∧ (∃ u, exec (.crossingReset (.link p) true t) s = .next u ∧ portOf u p = flushPort x ∧ (∀ q, q ≠ p → portOf u q = portOf s q)
      ∧ (∀ c, c ∈ u.time.resetting ↔ c ∈ s.time.resetting ∧ c ≠ .link p) ∧ (u.time.stuck = true ↔ u.time.resetting ≠ []))

/-- Systems (R220, R384, R433, R441-R446): BOUNDARY_NAME keeps the named boundary and withholds the named rows; the manager keeps seal
reports, names the boundary when the last one is in, and marks modules without one absent after SEAL_TIMEOUT, as it does at FENCE; CUT voids the
running step; the first COMMIT_PREP locks the plate change up and the second orders its flip; COMMIT_READY counts a module as ready, or takes it
back in with the epoch in effect; RESET_REQ and RSTREQ_N on the uplink make a LINK reset; ROUTES installs its table. Messages that do not
concern the module change nothing. That COMMIT_PREP comes twice is the model's reading (log entry 27). -/
def Obligations.SystemMessages : Prop := ∀ (p m t : Nat) (s : State), p < 36 →
  let s1 := advance t s
  let n := max s.time.base t
  (∀ step tB o bad rows, (inService s = false ∨ sysRole s < 2) → exec (.boundaryName step tB o bad rows t) s = .next s1)
  ∧ (∀ step tB o bad rows, inService s = true → 2 ≤ sysRole s → ∃ u, exec (.boundaryName step tB o bad rows t) s = .next u
      ∧ u.ql.named = some (step, tB) ∧ u.ql.nextOwner = some o ∧ u.ql.late = (s.ql.late || decide (tB < n)) ∧ u.sched.wantBoundary = true
      ∧ (rows ≠ [] → u.ql.nextRows = rows ∧ u.ql.nextNumber = step + 1)
      ∧ (∀ k, s.sched.step = some k → ∃ v, u.sched.step = some v
          ∧ v.rows = k.rows.map (fun w => if rowId s w ∈ bad then { w with withheld := true } else w))
      ∧ (∀ id, s.plates.systemPrep = some (id, true) → u.plates.flipAt = some tB ∧ u.plates.systemPrep = none))
  ∧ (∀ r, (inService s = false ∨ sysRole s ≠ 1 ∨ r.module ∈ s.ql.absent) → exec (.sealReport r t) s = .next s1)
  ∧ (∀ r, inService s = true → sysRole s = 1 → r.module ∉ s.ql.absent → ∃ u, exec (.sealReport r t) s = .next u ∧ r ∈ u.ql.reports
      ∧ tfind u.kv.others r.module = some r.freeSheets
      ∧ (∀ k, s.sched.step = some k → k.system = true → k.settled = true → s.ql.named = none →
          ((∀ q ∈ stepModules s1 k, (q = r.module ∧ r.step = k.number) ∨ ∃ y ∈ s.ql.reports, y.module = q ∧ y.step = k.number) →
            u.ql.named = some (k.number, n + boundaryLead s))
          ∧ ((∃ q ∈ stepModules s1 k, q ≠ r.module ∧ ∀ y ∈ s.ql.reports, y.module = q → y.step ≠ k.number) → u.ql.named = none)))
  ∧ ((s.sched.step = none ∨ s.ql.sealAt = none) → exec (.sealTimeout t) s = .next s1)
  ∧ (∀ k t0, s.sched.step = some k → s.ql.sealAt = some t0 → sysRole s = 1 → k.system = true → k.settled = true → s.ql.named = none →
      t0 + sealTimeoutNs s ≤ n →
    ∃ u, exec (.sealTimeout t) s = .next u ∧ (∀ q ∈ s.ql.absent, q ∈ u.ql.absent)
      ∧ ∀ q ∈ stepModules s1 k, (∀ y ∈ s.ql.reports, y.module = q → y.step ≠ k.number) → q ∈ u.ql.absent)
  ∧ (∀ step, (sysRole s < 2 ∨ ∀ k, s.sched.step = some k → k.number ≠ step ∨ k.system = false) → exec (.cut step t) s = .next s1)
  ∧ (∀ k, 2 ≤ sysRole s → s.sched.step = some k → k.system = true → k.cut = false → ∃ u, exec (.cut k.number t) s = .next u
      ∧ u.sched.step = some { k with cut := true, waiting := [], sealing := true } ∧ u.sched.wantBoundary = true
      ∧ u.sec.cuts = min (s.sec.cuts + 1) (2 ^ 32 - 1) ∧ u = { s1 with sched := u.sched, sec := u.sec })
  ∧ (∀ txn x, inService s = true → 2 ≤ sysRole s → s.plates.systemPrep = none → s.txns.plate = some x → x.committing = false →
      commitStatus s1 1 x = none →
    ∃ u, exec (.commitPrep txn t) s = .next u ∧ u.txns.plate = some { x with committing := true, acceptedAt := n, reply := none }
      ∧ u.plates.systemPrep = some (txn, false) ∧ u.sched.wantBoundary = true ∧ u.plates.table = s.plates.table)
  ∧ (∀ txn b, inService s = true → 2 ≤ sysRole s → s.plates.systemPrep = some (txn, b) →
    exec (.commitPrep txn t) s = .next { s1 with plates := { s.plates with systemPrep := some (txn, true) } })
  ∧ (∀ e, inService s = true → sysRole s = 1 →
    (m ∈ s.ql.absent → e = s.plates.epoch →
      exec (.commitReady m e t) s = .next { s1 with ql := { s.ql with absent := s.ql.absent.filter (· != m) } })
    ∧ (m ∈ s.ql.absent → e ≠ s.plates.epoch → exec (.commitReady m e t) s = .next s1)
    ∧ (m ∉ s.ql.absent → ∃ u, exec (.commitReady m e t) s = .next u ∧ m ∈ u.ql.ready ∧ u.ql.absent = s.ql.absent))
  ∧ ((sysRole s < 2 ∨ p ≠ uplink s ∨ firmwareRuns s = false) →
    exec (.resetReq p m t) s = .next s1 ∧ ∀ low, exec (.qlRstreq p low t) s = .next s1)
  ∧ (∀ i, 2 ≤ sysRole s → p = uplink s → firmwareRuns s = true → s.therm.stopping = none →
      (i = .resetReq p s.ql.module t ∨ ∃ low, 10000 ≤ low ∧ i = .qlRstreq p low t) →
    ∃ u, exec i s = .next u ∧ u.rst.phase = .inReset ∧ u.rst.sources = [.link] ∧ u.time.base = n ∧ u.reqs = [])
  ∧ (∀ low, low < 10000 → exec (.qlRstreq p low t) s = .next s1)
  ∧ (∀ c, (inService s = false ∨ sysRole s ≠ 1) → exec (.fence m c t) s = .next s1)
  ∧ (∀ c, inService s = true → sysRole s = 1 → m ≠ s.ql.module → m ∉ s.ql.absent →
    ∃ u, exec (.fence m c t) s = .next u ∧ m ∈ u.ql.absent ∧ m ∉ u.ql.ready)
  ∧ (∀ table, (inService s = false ∨ sysRole s = 0) → exec (.routes table t) s = .next s1)
  ∧ (∀ table, inService s = true → sysRole s ≠ 0 → ∃ u, exec (.routes table t) s = .next u ∧ u.ql.routeTable = table
      ∧ (∀ q, q ∈ u.ql.present ↔ q = s.ql.module ∨ ∃ e ∈ table, e.1 = q)
      ∧ (sysRole s ≠ 1 → u = { s1 with ql := u.ql }))

/-! ## The host port and the sideband -/

/-- Function-level resets, hot reset, power states and MSI-X masks (R230, R234, R456, R457): a function-level reset empties the galley,
forgets the level and ends the function's requests with nothing written; of the physical function it frees every allocation and drops
uncommitted transactions, of a virtual function it closes its channels; a hot reset does so for every function and takes the new link width
and rate; D3hot is entered and left, and a reply that was held then moves into the ring; unmasking an entry sends the message that waited.
What R457 does not name is log entry 34. -/
def Obligations.FunctionResets : Prop := ∀ (fn t : Nat) (s : State), fn < 256 →
  let s1 := advance t s
  let blank := fun (u : State) (f : Nat) => (fnOf u f).stored = [] ∧ (fnOf u f).frontier = 0 ∧ (fnOf u f).consume = 0 ∧ (fnOf u f).nextSeq = 1
    ∧ (fnOf u f).due = 0 ∧ (fnOf u f).level = none ∧ (fnOf u f).overrun = false ∧ (fnOf u f).header = false ∧ (fnOf u f).tdi = (fnOf s f).tdi
    ∧ (fnOf u f).ide = (fnOf s f).ide ∧ (fnOf u f).d3hot = false
  let silent := fun (u : State) (i : Nat) => ∃ y, reqOf u i = some y ∧ y.silent = true ∧ y.waiting = []
    ∧ y.endAs = [(.cancelled, nextBoundary s)]
  (hostUp s = false → exec (.flrPf t) s = .next s1 ∧ (fn ≠ 0 → exec (.flrVf fn t) s = .next s1)
    ∧ (∀ w r, exec (.hotReset w r t) s = .next s1) ∧ exec (.d3hotEntry fn t) s = .next s1)
  ∧ (hostUp s = true → ∃ u, exec (.flrPf t) s = .next u ∧ blank u 0 ∧ (∀ k i, heldByHost u k i = false)
      ∧ (∀ i q, reqOf s i = some q → q.fn = 0 → q.endAs = [] → silent u i)
      ∧ (∀ d x, d < 4 → txnOf s.txns d = some x → (x.committing = false → txnOf u.txns d = none)
          ∧ (x.committing = true → ∃ y, txnOf u.txns d = some y ∧ y.staged = x.staged ∧ y.committing = true ∧ y.reply = none))
      ∧ u.pci.accessErr = 0 ∧ u.pci.width = s.pci.width ∧ u.pci.rate = s.pci.rate)
  ∧ (hostUp s = true → fn ≠ 0 → ∃ u, exec (.flrVf fn t) s = .next u ∧ blank u fn
      ∧ (∀ i q, reqOf s i = some q → q.tenant = fn → q.endAs = [] → silent u i)
      ∧ (∀ i q, reqOf s i = some q → q.tenant ≠ fn → reqOf u i = some q) ∧ (∀ e ∈ u.web.channels, e.2.tenant ≠ fn)
      ∧ u.txns.options.map (·.id) = s.txns.options.map (·.id) ∧ u.pci = s.pci ∧ u.share = s.share)
  ∧ (hostUp s = true → ∀ w r, ∃ u, exec (.hotReset w r t) s = .next u ∧ blank u 0 ∧ u.pci.width = w ∧ u.pci.rate = r
      ∧ u.pci.retrains = 1 ∧ (∀ k i, heldByHost u k i = false)
      ∧ (∀ f, f < 256 → (fnOf u f).due = 0 ∧ (fnOf u f).stored = []))
  ∧ (hostUp s = true → exec (.d3hotEntry fn t) s = .next (setFn s1 fn { fnOf s fn with d3hot := true }))
  ∧ ((fnOf s fn).d3hot = false → exec (.d0Return fn t) s = .next s1)
  ∧ ((fnOf s fn).d3hot = true → ∃ u, exec (.d0Return fn t) s = .next u ∧ (fnOf u fn).d3hot = false
      ∧ ((fnOf u fn).store = [] ∨ replyRoom (fnOf u fn) = false) ∧ (fnOf u fn).stored = (fnOf s fn).stored)
  ∧ (∀ v, (fnOf s fn).d3hot = false → (fnOf s fn).funcMask = false → v < vectorsOf fn → v ∈ (fnOf s fn).pendingMsg →
    ∃ u, exec (.msixUnmask fn (some v) t) s = .next u ∧ v ∈ (fnOf u fn).unmasked ∧ v ∉ (fnOf u fn).pendingMsg ∧ (.msix fn v) ∈ u.out
      ∧ (∀ g, g ≠ fn → fnOf u g = fnOf s g))
  ∧ (∃ u, exec (.msixUnmask fn none t) s = .next u ∧ (fnOf u fn).funcMask = false ∧ (fnOf u fn).unmasked = (fnOf s fn).unmasked
      ∧ (∀ g, g ≠ fn → fnOf u g = fnOf s g))

/-- The DOE mailbox and the sideband (R393, R458-R462): an SPDM session opens; within one, stream keys come into use and go, and a TDI moves
from unlocked to locked and from locked to run and no other way; MCTP takes an endpoint; a PLDM request is answered and clears the event
that waited; a power budget of 0 or 500 to 3,300 W waits for the next boundary and any other is refused; an update lands in the slot that the
running firmware does not use and leaves the SVN minimum. Words of answers rest on log entries 7, 28 and 38. -/
def Obligations.Sideband : Prop := ∀ (fn t : Nat) (s : State),
  let s1 := advance t s
  (hostUp s = false → ∀ m, exec (.spdmMessage m t) s = .next s1)
  ∧ (hostUp s = true → exec (.spdmMessage .session t) s = .next (emit { s1 with pci := { s.pci with spdm := true } } (.sideband [1])))
  ∧ (hostUp s = true → s.pci.spdm = true → fn < 256 →
    exec (.spdmMessage (.ideKeys fn) t) s = .next (emit (setFn s1 fn { fnOf s fn with ide := true }) (.sideband [1]))
    ∧ exec (.spdmMessage (.ideStop fn) t) s = .next (emit (setFn s1 fn { fnOf s fn with ide := false }) (.sideband [0]))
    ∧ ((fnOf s fn).ide = false → exec (.spdmMessage (.ideRefresh fn) t) s = .next s1)
    ∧ ((fnOf s fn).ide = true → exec (.spdmMessage (.ideRefresh fn) t) s = .next (emit (setFn s1 fn (fnOf s fn)) (.sideband [1]))))
  ∧ (hostUp s = true → s.pci.spdm = true → 1 ≤ fn → fn < 256 →
    ((fnOf s fn).tdi = 0 → exec (.spdmMessage (.tdiLock fn) t) s = .next (emit (setFn s1 fn { fnOf s fn with tdi := 1 }) (.sideband [1])))
    ∧ ((fnOf s fn).tdi ≠ 0 → exec (.spdmMessage (.tdiLock fn) t) s = .next s1)
    ∧ ((fnOf s fn).tdi = 1 → exec (.spdmMessage (.tdiRun fn) t) s = .next (emit (setFn s1 fn { fnOf s fn with tdi := 2 }) (.sideband [2])))
    ∧ ((fnOf s fn).tdi ≠ 1 → exec (.spdmMessage (.tdiRun fn) t) s = .next s1))
  ∧ (s.pci.spdm = false → ∀ m, m ≠ .session → exec (.spdmMessage m t) s = .next s1)
  ∧ (∀ eid, (sidebandUp s = false ∨ 256 ≤ eid) → exec (.mctpSetEndpointId eid t) s = .next s1)
  ∧ (∀ eid, sidebandUp s = true → eid < 256 →
    exec (.mctpSetEndpointId eid t) s = .next (emit { s1 with side := { s.side with eid := eid } } (.sideband [eid])))
  ∧ (∀ r, firmwareRuns s = false → exec (.pldmRequest r t) s = .next s1)
  ∧ (∀ r, firmwareRuns s = true → ∃ u, exec (.pldmRequest r t) s = .next u ∧ u.out = s.out ++ [.sideband (pldmAnswer s1 r)]
      ∧ u.side = { s.side with event := false } ∧ (s.side.event = true → pinLevel u .smbAlert = none)
      ∧ u = { s1 with out := u.out, side := u.side, pins := u.pins })
  ∧ (∀ b, (firmwareRuns s = false ∨ (b ≠ 0 ∧ (b < 500 ∨ 3300 < b))) → exec (.pldmSetPowerBudget b t) s = .next s1)
  ∧ (∀ b, firmwareRuns s = true → (b = 0 ∨ (500 ≤ b ∧ b ≤ 3300)) → exec (.pldmSetPowerBudget b t) s
      = .next { s1 with power := { s.power with staged := some b }, sched := { s.sched with wantBoundary := true } })
  ∧ (∀ x, sidebandUp s = false → exec (.pldmFirmwareUpdate x t) s = .next s1)
  ∧ (sidebandUp s = true →
    exec (.pldmFirmwareUpdate .request t) s = .next { s1 with side := { s.side with fwState := 1, fwBytes := 0 } }
    ∧ exec (.pldmFirmwareUpdate .cancel t) s = .next { s1 with side := { s.side with fwState := 0, fwBytes := 0 } }
    ∧ (∀ n, s.side.fwState = 1 →
      exec (.pldmFirmwareUpdate (.data n) t) s = .next { s1 with side := { s.side with fwBytes := s.side.fwBytes + n } })
    ∧ (∀ v svn ok, s.side.fwState = 1 → exec (.pldmFirmwareUpdate (.finish v svn ok) t) s
        = .next { s1 with side := { s.side with fwState := 0, fwBytes := 0 }, nv := { s.nv with fw := [⟨v, svn, ok⟩, s.nv.fwActive] } })
    ∧ (∀ n v svn ok, s.side.fwState ≠ 1 → exec (.pldmFirmwareUpdate (.data n) t) s = .next s1
        ∧ exec (.pldmFirmwareUpdate (.finish v svn ok) t) s = .next s1))

/-! ## Invariants -/

/-- Every step keeps the always-on counters in their ranges and the attestation leaves of used blocks behind the next leaf (R394, R402, R404,
R405, R416), whatever the command. -/
def Obligations.StepsKeepCounters : Prop := ∀ s u : State, aonWf s → leavesWf s → step s = .next u → aonWf u ∧ leavesWf u

/-- Every step keeps every memory in its canonical form: addresses strictly rising and no byte equal to what an unlisted one reads as.
That an unlisted byte reads 0 is log entry 8. -/
def Obligations.StepsKeepMemories : Prop := ∀ s u : State, memoriesWf s → step s = .next u → memoriesWf u

/-- The reset state meets both invariants; the values are the spec's: the reset is in progress from POR alone with its counter at 1, the drivers
and MOD_RST_N are low, no plane is engaged, nothing is loaded, calibrated or queued, and no memory byte is listed (R40, R398, R401, R402).
Flash starts as log entry 6 says. -/
def Obligations.ResetState : Prop :=
  aonWf State.reset ∧ leavesWf State.reset ∧ memoriesWf State.reset ∧ State.reset.pending = [] ∧ State.reset.rst.phase = .inReset
    ∧ State.reset.rst.sources = [.por] ∧ State.reset.rst.calDone = false ∧ State.reset.rst.loadDone = false
    ∧ State.reset.cmdq = [] ∧ State.reset.reqs = [] ∧ State.reset.formes = [] ∧ State.reset.tenants = []
    ∧ State.reset.time.base = 0 ∧ pinLevel State.reset .modRst = some false ∧ pinLevel State.reset .arrayDrivers = some false
    ∧ (∀ ck tile, (tileOf (coreOf State.reset ck) tile).engaged = none)
end

