-- ==== Sys2Proof/Laws/State.lean ====
section
/-! SUPPORT. What each named update of State leaves and what it writes, one lemma per field per update. -/

namespace Sys2Proof.Machine

/-! ### setFn -/

@[simp] theorem setFn_pending (s : State) (f : Nat) (b : FnBlk) : (setFn s f b).pending = s.pending := rfl
@[simp] theorem setFn_free (s : State) (f : Nat) (b : FnBlk) : (setFn s f b).free = s.free := rfl
@[simp] theorem setFn_out (s : State) (f : Nat) (b : FnBlk) : (setFn s f b).out = s.out := rfl
@[simp] theorem setFn_time (s : State) (f : Nat) (b : FnBlk) : (setFn s f b).time = s.time := rfl
@[simp] theorem setFn_rst (s : State) (f : Nat) (b : FnBlk) : (setFn s f b).rst = s.rst := rfl
@[simp] theorem setFn_aon (s : State) (f : Nat) (b : FnBlk) : (setFn s f b).aon = s.aon := rfl
@[simp] theorem setFn_nv (s : State) (f : Nat) (b : FnBlk) : (setFn s f b).nv = s.nv := rfl
@[simp] theorem setFn_opts (s : State) (f : Nat) (b : FnBlk) : (setFn s f b).opts = s.opts := rfl
@[simp] theorem setFn_fns (s : State) (f : Nat) (b : FnBlk) : (setFn s f b).fns = tset {} s.fns f b := rfl
@[simp] theorem setFn_cmdq (s : State) (f : Nat) (b : FnBlk) : (setFn s f b).cmdq = s.cmdq := rfl
@[simp] theorem setFn_turn (s : State) (f : Nat) (b : FnBlk) : (setFn s f b).turn = s.turn := rfl
@[simp] theorem setFn_txns (s : State) (f : Nat) (b : FnBlk) : (setFn s f b).txns = s.txns := rfl
@[simp] theorem setFn_map (s : State) (f : Nat) (b : FnBlk) : (setFn s f b).map = s.map := rfl
@[simp] theorem setFn_cores (s : State) (f : Nat) (b : FnBlk) : (setFn s f b).cores = s.cores := rfl
@[simp] theorem setFn_regions (s : State) (f : Nat) (b : FnBlk) : (setFn s f b).regions = s.regions := rfl
@[simp] theorem setFn_hubSense (s : State) (f : Nat) (b : FnBlk) : (setFn s f b).hubSense = s.hubSense := rfl
@[simp] theorem setFn_bandgap (s : State) (f : Nat) (b : FnBlk) : (setFn s f b).bandgap = s.bandgap := rfl
@[simp] theorem setFn_formes (s : State) (f : Nat) (b : FnBlk) : (setFn s f b).formes = s.formes := rfl
@[simp] theorem setFn_plates (s : State) (f : Nat) (b : FnBlk) : (setFn s f b).plates = s.plates := rfl
@[simp] theorem setFn_arr (s : State) (f : Nat) (b : FnBlk) : (setFn s f b).arr = s.arr := rfl
@[simp] theorem setFn_sched (s : State) (f : Nat) (b : FnBlk) : (setFn s f b).sched = s.sched := rfl
@[simp] theorem setFn_reqs (s : State) (f : Nat) (b : FnBlk) : (setFn s f b).reqs = s.reqs := rfl
@[simp] theorem setFn_gens (s : State) (f : Nat) (b : FnBlk) : (setFn s f b).gens = s.gens := rfl
@[simp] theorem setFn_tenants (s : State) (f : Nat) (b : FnBlk) : (setFn s f b).tenants = s.tenants := rfl
@[simp] theorem setFn_overlays (s : State) (f : Nat) (b : FnBlk) : (setFn s f b).overlays = s.overlays := rfl
@[simp] theorem setFn_kv (s : State) (f : Nat) (b : FnBlk) : (setFn s f b).kv = s.kv := rfl
@[simp] theorem setFn_web (s : State) (f : Nat) (b : FnBlk) : (setFn s f b).web = s.web := rfl
@[simp] theorem setFn_share (s : State) (f : Nat) (b : FnBlk) : (setFn s f b).share = s.share := rfl
@[simp] theorem setFn_faults (s : State) (f : Nat) (b : FnBlk) : (setFn s f b).faults = s.faults := rfl
@[simp] theorem setFn_sec (s : State) (f : Nat) (b : FnBlk) : (setFn s f b).sec = s.sec := rfl
@[simp] theorem setFn_therm (s : State) (f : Nat) (b : FnBlk) : (setFn s f b).therm = s.therm := rfl
@[simp] theorem setFn_ql (s : State) (f : Nat) (b : FnBlk) : (setFn s f b).ql = s.ql := rfl
@[simp] theorem setFn_pci (s : State) (f : Nat) (b : FnBlk) : (setFn s f b).pci = s.pci := rfl
@[simp] theorem setFn_side (s : State) (f : Nat) (b : FnBlk) : (setFn s f b).side = s.side := rfl
@[simp] theorem setFn_pins (s : State) (f : Nat) (b : FnBlk) : (setFn s f b).pins = s.pins := rfl
@[simp] theorem setFn_power (s : State) (f : Nat) (b : FnBlk) : (setFn s f b).power = s.power := rfl
@[simp] theorem setFn_seen (s : State) (f : Nat) (b : FnBlk) : (setFn s f b).seen = s.seen := rfl

/-! ### setCore -/

@[simp] theorem setCore_pending (s : State) (k : Nat) (c : Core) : (setCore s k c).pending = s.pending := rfl
@[simp] theorem setCore_free (s : State) (k : Nat) (c : Core) : (setCore s k c).free = s.free := rfl
@[simp] theorem setCore_out (s : State) (k : Nat) (c : Core) : (setCore s k c).out = s.out := rfl
@[simp] theorem setCore_time (s : State) (k : Nat) (c : Core) : (setCore s k c).time = s.time := rfl
@[simp] theorem setCore_rst (s : State) (k : Nat) (c : Core) : (setCore s k c).rst = s.rst := rfl
@[simp] theorem setCore_aon (s : State) (k : Nat) (c : Core) : (setCore s k c).aon = s.aon := rfl
@[simp] theorem setCore_nv (s : State) (k : Nat) (c : Core) : (setCore s k c).nv = s.nv := rfl
@[simp] theorem setCore_opts (s : State) (k : Nat) (c : Core) : (setCore s k c).opts = s.opts := rfl
@[simp] theorem setCore_fns (s : State) (k : Nat) (c : Core) : (setCore s k c).fns = s.fns := rfl
@[simp] theorem setCore_cmdq (s : State) (k : Nat) (c : Core) : (setCore s k c).cmdq = s.cmdq := rfl
@[simp] theorem setCore_turn (s : State) (k : Nat) (c : Core) : (setCore s k c).turn = s.turn := rfl
@[simp] theorem setCore_txns (s : State) (k : Nat) (c : Core) : (setCore s k c).txns = s.txns := rfl
@[simp] theorem setCore_map (s : State) (k : Nat) (c : Core) : (setCore s k c).map = s.map := rfl
@[simp] theorem setCore_cores (s : State) (k : Nat) (c : Core) : (setCore s k c).cores = tset {} s.cores k c := rfl
@[simp] theorem setCore_regions (s : State) (k : Nat) (c : Core) : (setCore s k c).regions = s.regions := rfl
@[simp] theorem setCore_hubSense (s : State) (k : Nat) (c : Core) : (setCore s k c).hubSense = s.hubSense := rfl
@[simp] theorem setCore_bandgap (s : State) (k : Nat) (c : Core) : (setCore s k c).bandgap = s.bandgap := rfl
@[simp] theorem setCore_formes (s : State) (k : Nat) (c : Core) : (setCore s k c).formes = s.formes := rfl
@[simp] theorem setCore_plates (s : State) (k : Nat) (c : Core) : (setCore s k c).plates = s.plates := rfl
@[simp] theorem setCore_arr (s : State) (k : Nat) (c : Core) : (setCore s k c).arr = s.arr := rfl
@[simp] theorem setCore_sched (s : State) (k : Nat) (c : Core) : (setCore s k c).sched = s.sched := rfl
@[simp] theorem setCore_reqs (s : State) (k : Nat) (c : Core) : (setCore s k c).reqs = s.reqs := rfl
@[simp] theorem setCore_gens (s : State) (k : Nat) (c : Core) : (setCore s k c).gens = s.gens := rfl
@[simp] theorem setCore_tenants (s : State) (k : Nat) (c : Core) : (setCore s k c).tenants = s.tenants := rfl
@[simp] theorem setCore_overlays (s : State) (k : Nat) (c : Core) : (setCore s k c).overlays = s.overlays := rfl
@[simp] theorem setCore_kv (s : State) (k : Nat) (c : Core) : (setCore s k c).kv = s.kv := rfl
@[simp] theorem setCore_web (s : State) (k : Nat) (c : Core) : (setCore s k c).web = s.web := rfl
@[simp] theorem setCore_share (s : State) (k : Nat) (c : Core) : (setCore s k c).share = s.share := rfl
@[simp] theorem setCore_faults (s : State) (k : Nat) (c : Core) : (setCore s k c).faults = s.faults := rfl
@[simp] theorem setCore_sec (s : State) (k : Nat) (c : Core) : (setCore s k c).sec = s.sec := rfl
@[simp] theorem setCore_therm (s : State) (k : Nat) (c : Core) : (setCore s k c).therm = s.therm := rfl
@[simp] theorem setCore_ql (s : State) (k : Nat) (c : Core) : (setCore s k c).ql = s.ql := rfl
@[simp] theorem setCore_pci (s : State) (k : Nat) (c : Core) : (setCore s k c).pci = s.pci := rfl
@[simp] theorem setCore_side (s : State) (k : Nat) (c : Core) : (setCore s k c).side = s.side := rfl
@[simp] theorem setCore_pins (s : State) (k : Nat) (c : Core) : (setCore s k c).pins = s.pins := rfl
@[simp] theorem setCore_power (s : State) (k : Nat) (c : Core) : (setCore s k c).power = s.power := rfl
@[simp] theorem setCore_seen (s : State) (k : Nat) (c : Core) : (setCore s k c).seen = s.seen := rfl

/-! ### setRegion -/

@[simp] theorem setRegion_pending (s : State) (k : Nat) (r : Region) : (setRegion s k r).pending = s.pending := rfl
@[simp] theorem setRegion_free (s : State) (k : Nat) (r : Region) : (setRegion s k r).free = s.free := rfl
@[simp] theorem setRegion_out (s : State) (k : Nat) (r : Region) : (setRegion s k r).out = s.out := rfl
@[simp] theorem setRegion_time (s : State) (k : Nat) (r : Region) : (setRegion s k r).time = s.time := rfl
@[simp] theorem setRegion_rst (s : State) (k : Nat) (r : Region) : (setRegion s k r).rst = s.rst := rfl
@[simp] theorem setRegion_aon (s : State) (k : Nat) (r : Region) : (setRegion s k r).aon = s.aon := rfl
@[simp] theorem setRegion_nv (s : State) (k : Nat) (r : Region) : (setRegion s k r).nv = s.nv := rfl
@[simp] theorem setRegion_opts (s : State) (k : Nat) (r : Region) : (setRegion s k r).opts = s.opts := rfl
@[simp] theorem setRegion_fns (s : State) (k : Nat) (r : Region) : (setRegion s k r).fns = s.fns := rfl
@[simp] theorem setRegion_cmdq (s : State) (k : Nat) (r : Region) : (setRegion s k r).cmdq = s.cmdq := rfl
@[simp] theorem setRegion_turn (s : State) (k : Nat) (r : Region) : (setRegion s k r).turn = s.turn := rfl
@[simp] theorem setRegion_txns (s : State) (k : Nat) (r : Region) : (setRegion s k r).txns = s.txns := rfl
@[simp] theorem setRegion_map (s : State) (k : Nat) (r : Region) : (setRegion s k r).map = s.map := rfl
@[simp] theorem setRegion_cores (s : State) (k : Nat) (r : Region) : (setRegion s k r).cores = s.cores := rfl
@[simp] theorem setRegion_regions (s : State) (k : Nat) (r : Region) : (setRegion s k r).regions = tset {} s.regions k r := rfl
@[simp] theorem setRegion_hubSense (s : State) (k : Nat) (r : Region) : (setRegion s k r).hubSense = s.hubSense := rfl
@[simp] theorem setRegion_bandgap (s : State) (k : Nat) (r : Region) : (setRegion s k r).bandgap = s.bandgap := rfl
@[simp] theorem setRegion_formes (s : State) (k : Nat) (r : Region) : (setRegion s k r).formes = s.formes := rfl
@[simp] theorem setRegion_plates (s : State) (k : Nat) (r : Region) : (setRegion s k r).plates = s.plates := rfl
@[simp] theorem setRegion_arr (s : State) (k : Nat) (r : Region) : (setRegion s k r).arr = s.arr := rfl
@[simp] theorem setRegion_sched (s : State) (k : Nat) (r : Region) : (setRegion s k r).sched = s.sched := rfl
@[simp] theorem setRegion_reqs (s : State) (k : Nat) (r : Region) : (setRegion s k r).reqs = s.reqs := rfl
@[simp] theorem setRegion_gens (s : State) (k : Nat) (r : Region) : (setRegion s k r).gens = s.gens := rfl
@[simp] theorem setRegion_tenants (s : State) (k : Nat) (r : Region) : (setRegion s k r).tenants = s.tenants := rfl
@[simp] theorem setRegion_overlays (s : State) (k : Nat) (r : Region) : (setRegion s k r).overlays = s.overlays := rfl
@[simp] theorem setRegion_kv (s : State) (k : Nat) (r : Region) : (setRegion s k r).kv = s.kv := rfl
@[simp] theorem setRegion_web (s : State) (k : Nat) (r : Region) : (setRegion s k r).web = s.web := rfl
@[simp] theorem setRegion_share (s : State) (k : Nat) (r : Region) : (setRegion s k r).share = s.share := rfl
@[simp] theorem setRegion_faults (s : State) (k : Nat) (r : Region) : (setRegion s k r).faults = s.faults := rfl
@[simp] theorem setRegion_sec (s : State) (k : Nat) (r : Region) : (setRegion s k r).sec = s.sec := rfl
@[simp] theorem setRegion_therm (s : State) (k : Nat) (r : Region) : (setRegion s k r).therm = s.therm := rfl
@[simp] theorem setRegion_ql (s : State) (k : Nat) (r : Region) : (setRegion s k r).ql = s.ql := rfl
@[simp] theorem setRegion_pci (s : State) (k : Nat) (r : Region) : (setRegion s k r).pci = s.pci := rfl
@[simp] theorem setRegion_side (s : State) (k : Nat) (r : Region) : (setRegion s k r).side = s.side := rfl
@[simp] theorem setRegion_pins (s : State) (k : Nat) (r : Region) : (setRegion s k r).pins = s.pins := rfl
@[simp] theorem setRegion_power (s : State) (k : Nat) (r : Region) : (setRegion s k r).power = s.power := rfl
@[simp] theorem setRegion_seen (s : State) (k : Nat) (r : Region) : (setRegion s k r).seen = s.seen := rfl

/-! ### setTenant -/

@[simp] theorem setTenant_pending (s : State) (n : Nat) (x : Tenant) : (setTenant s n x).pending = s.pending := rfl
@[simp] theorem setTenant_free (s : State) (n : Nat) (x : Tenant) : (setTenant s n x).free = s.free := rfl
@[simp] theorem setTenant_out (s : State) (n : Nat) (x : Tenant) : (setTenant s n x).out = s.out := rfl
@[simp] theorem setTenant_time (s : State) (n : Nat) (x : Tenant) : (setTenant s n x).time = s.time := rfl
@[simp] theorem setTenant_rst (s : State) (n : Nat) (x : Tenant) : (setTenant s n x).rst = s.rst := rfl
@[simp] theorem setTenant_aon (s : State) (n : Nat) (x : Tenant) : (setTenant s n x).aon = s.aon := rfl
@[simp] theorem setTenant_nv (s : State) (n : Nat) (x : Tenant) : (setTenant s n x).nv = s.nv := rfl
@[simp] theorem setTenant_opts (s : State) (n : Nat) (x : Tenant) : (setTenant s n x).opts = s.opts := rfl
@[simp] theorem setTenant_fns (s : State) (n : Nat) (x : Tenant) : (setTenant s n x).fns = s.fns := rfl
@[simp] theorem setTenant_cmdq (s : State) (n : Nat) (x : Tenant) : (setTenant s n x).cmdq = s.cmdq := rfl
@[simp] theorem setTenant_turn (s : State) (n : Nat) (x : Tenant) : (setTenant s n x).turn = s.turn := rfl
@[simp] theorem setTenant_txns (s : State) (n : Nat) (x : Tenant) : (setTenant s n x).txns = s.txns := rfl
@[simp] theorem setTenant_map (s : State) (n : Nat) (x : Tenant) : (setTenant s n x).map = s.map := rfl
@[simp] theorem setTenant_cores (s : State) (n : Nat) (x : Tenant) : (setTenant s n x).cores = s.cores := rfl
@[simp] theorem setTenant_regions (s : State) (n : Nat) (x : Tenant) : (setTenant s n x).regions = s.regions := rfl
@[simp] theorem setTenant_hubSense (s : State) (n : Nat) (x : Tenant) : (setTenant s n x).hubSense = s.hubSense := rfl
@[simp] theorem setTenant_bandgap (s : State) (n : Nat) (x : Tenant) : (setTenant s n x).bandgap = s.bandgap := rfl
@[simp] theorem setTenant_formes (s : State) (n : Nat) (x : Tenant) : (setTenant s n x).formes = s.formes := rfl
@[simp] theorem setTenant_plates (s : State) (n : Nat) (x : Tenant) : (setTenant s n x).plates = s.plates := rfl
@[simp] theorem setTenant_arr (s : State) (n : Nat) (x : Tenant) : (setTenant s n x).arr = s.arr := rfl
@[simp] theorem setTenant_sched (s : State) (n : Nat) (x : Tenant) : (setTenant s n x).sched = s.sched := rfl
@[simp] theorem setTenant_reqs (s : State) (n : Nat) (x : Tenant) : (setTenant s n x).reqs = s.reqs := rfl
@[simp] theorem setTenant_gens (s : State) (n : Nat) (x : Tenant) : (setTenant s n x).gens = s.gens := rfl
@[simp] theorem setTenant_tenants (s : State) (n : Nat) (x : Tenant) : (setTenant s n x).tenants = tset {} s.tenants n x := rfl
@[simp] theorem setTenant_overlays (s : State) (n : Nat) (x : Tenant) : (setTenant s n x).overlays = s.overlays := rfl
@[simp] theorem setTenant_kv (s : State) (n : Nat) (x : Tenant) : (setTenant s n x).kv = s.kv := rfl
@[simp] theorem setTenant_web (s : State) (n : Nat) (x : Tenant) : (setTenant s n x).web = s.web := rfl
@[simp] theorem setTenant_share (s : State) (n : Nat) (x : Tenant) : (setTenant s n x).share = s.share := rfl
@[simp] theorem setTenant_faults (s : State) (n : Nat) (x : Tenant) : (setTenant s n x).faults = s.faults := rfl
@[simp] theorem setTenant_sec (s : State) (n : Nat) (x : Tenant) : (setTenant s n x).sec = s.sec := rfl
@[simp] theorem setTenant_therm (s : State) (n : Nat) (x : Tenant) : (setTenant s n x).therm = s.therm := rfl
@[simp] theorem setTenant_ql (s : State) (n : Nat) (x : Tenant) : (setTenant s n x).ql = s.ql := rfl
@[simp] theorem setTenant_pci (s : State) (n : Nat) (x : Tenant) : (setTenant s n x).pci = s.pci := rfl
@[simp] theorem setTenant_side (s : State) (n : Nat) (x : Tenant) : (setTenant s n x).side = s.side := rfl
@[simp] theorem setTenant_pins (s : State) (n : Nat) (x : Tenant) : (setTenant s n x).pins = s.pins := rfl
@[simp] theorem setTenant_power (s : State) (n : Nat) (x : Tenant) : (setTenant s n x).power = s.power := rfl
@[simp] theorem setTenant_seen (s : State) (n : Nat) (x : Tenant) : (setTenant s n x).seen = s.seen := rfl

/-! ### setPort -/

@[simp] theorem setPort_pending (s : State) (p : Nat) (x : Port) : (setPort s p x).pending = s.pending := rfl
@[simp] theorem setPort_free (s : State) (p : Nat) (x : Port) : (setPort s p x).free = s.free := rfl
@[simp] theorem setPort_out (s : State) (p : Nat) (x : Port) : (setPort s p x).out = s.out := rfl
@[simp] theorem setPort_time (s : State) (p : Nat) (x : Port) : (setPort s p x).time = s.time := rfl
@[simp] theorem setPort_rst (s : State) (p : Nat) (x : Port) : (setPort s p x).rst = s.rst := rfl
@[simp] theorem setPort_aon (s : State) (p : Nat) (x : Port) : (setPort s p x).aon = s.aon := rfl
@[simp] theorem setPort_nv (s : State) (p : Nat) (x : Port) : (setPort s p x).nv = s.nv := rfl
@[simp] theorem setPort_opts (s : State) (p : Nat) (x : Port) : (setPort s p x).opts = s.opts := rfl
@[simp] theorem setPort_fns (s : State) (p : Nat) (x : Port) : (setPort s p x).fns = s.fns := rfl
@[simp] theorem setPort_cmdq (s : State) (p : Nat) (x : Port) : (setPort s p x).cmdq = s.cmdq := rfl
@[simp] theorem setPort_turn (s : State) (p : Nat) (x : Port) : (setPort s p x).turn = s.turn := rfl
@[simp] theorem setPort_txns (s : State) (p : Nat) (x : Port) : (setPort s p x).txns = s.txns := rfl
@[simp] theorem setPort_map (s : State) (p : Nat) (x : Port) : (setPort s p x).map = s.map := rfl
@[simp] theorem setPort_cores (s : State) (p : Nat) (x : Port) : (setPort s p x).cores = s.cores := rfl
@[simp] theorem setPort_regions (s : State) (p : Nat) (x : Port) : (setPort s p x).regions = s.regions := rfl
@[simp] theorem setPort_hubSense (s : State) (p : Nat) (x : Port) : (setPort s p x).hubSense = s.hubSense := rfl
@[simp] theorem setPort_bandgap (s : State) (p : Nat) (x : Port) : (setPort s p x).bandgap = s.bandgap := rfl
@[simp] theorem setPort_formes (s : State) (p : Nat) (x : Port) : (setPort s p x).formes = s.formes := rfl
@[simp] theorem setPort_plates (s : State) (p : Nat) (x : Port) : (setPort s p x).plates = s.plates := rfl
@[simp] theorem setPort_arr (s : State) (p : Nat) (x : Port) : (setPort s p x).arr = s.arr := rfl
@[simp] theorem setPort_sched (s : State) (p : Nat) (x : Port) : (setPort s p x).sched = s.sched := rfl
@[simp] theorem setPort_reqs (s : State) (p : Nat) (x : Port) : (setPort s p x).reqs = s.reqs := rfl
@[simp] theorem setPort_gens (s : State) (p : Nat) (x : Port) : (setPort s p x).gens = s.gens := rfl
@[simp] theorem setPort_tenants (s : State) (p : Nat) (x : Port) : (setPort s p x).tenants = s.tenants := rfl
@[simp] theorem setPort_overlays (s : State) (p : Nat) (x : Port) : (setPort s p x).overlays = s.overlays := rfl
@[simp] theorem setPort_kv (s : State) (p : Nat) (x : Port) : (setPort s p x).kv = s.kv := rfl
@[simp] theorem setPort_web (s : State) (p : Nat) (x : Port) : (setPort s p x).web = s.web := rfl
@[simp] theorem setPort_share (s : State) (p : Nat) (x : Port) : (setPort s p x).share = s.share := rfl
@[simp] theorem setPort_faults (s : State) (p : Nat) (x : Port) : (setPort s p x).faults = s.faults := rfl
@[simp] theorem setPort_sec (s : State) (p : Nat) (x : Port) : (setPort s p x).sec = s.sec := rfl
@[simp] theorem setPort_therm (s : State) (p : Nat) (x : Port) : (setPort s p x).therm = s.therm := rfl
@[simp] theorem setPort_ql (s : State) (p : Nat) (x : Port) : (setPort s p x).ql = { s.ql with ports := tset {} s.ql.ports p x } := rfl
@[simp] theorem setPort_pci (s : State) (p : Nat) (x : Port) : (setPort s p x).pci = s.pci := rfl
@[simp] theorem setPort_side (s : State) (p : Nat) (x : Port) : (setPort s p x).side = s.side := rfl
@[simp] theorem setPort_pins (s : State) (p : Nat) (x : Port) : (setPort s p x).pins = s.pins := rfl
@[simp] theorem setPort_power (s : State) (p : Nat) (x : Port) : (setPort s p x).power = s.power := rfl
@[simp] theorem setPort_seen (s : State) (p : Nat) (x : Port) : (setPort s p x).seen = s.seen := rfl

/-! ### setTimer -/

@[simp] theorem setTimer_pending (s : State) (n : Nat) (x : Timer) : (setTimer s n x).pending = s.pending := rfl
@[simp] theorem setTimer_free (s : State) (n : Nat) (x : Timer) : (setTimer s n x).free = s.free := rfl
@[simp] theorem setTimer_out (s : State) (n : Nat) (x : Timer) : (setTimer s n x).out = s.out := rfl
@[simp] theorem setTimer_time (s : State) (n : Nat) (x : Timer) : (setTimer s n x).time = { s.time with timers := tset {} s.time.timers n x } := rfl
@[simp] theorem setTimer_rst (s : State) (n : Nat) (x : Timer) : (setTimer s n x).rst = s.rst := rfl
@[simp] theorem setTimer_aon (s : State) (n : Nat) (x : Timer) : (setTimer s n x).aon = s.aon := rfl
@[simp] theorem setTimer_nv (s : State) (n : Nat) (x : Timer) : (setTimer s n x).nv = s.nv := rfl
@[simp] theorem setTimer_opts (s : State) (n : Nat) (x : Timer) : (setTimer s n x).opts = s.opts := rfl
@[simp] theorem setTimer_fns (s : State) (n : Nat) (x : Timer) : (setTimer s n x).fns = s.fns := rfl
@[simp] theorem setTimer_cmdq (s : State) (n : Nat) (x : Timer) : (setTimer s n x).cmdq = s.cmdq := rfl
@[simp] theorem setTimer_turn (s : State) (n : Nat) (x : Timer) : (setTimer s n x).turn = s.turn := rfl
@[simp] theorem setTimer_txns (s : State) (n : Nat) (x : Timer) : (setTimer s n x).txns = s.txns := rfl
@[simp] theorem setTimer_map (s : State) (n : Nat) (x : Timer) : (setTimer s n x).map = s.map := rfl
@[simp] theorem setTimer_cores (s : State) (n : Nat) (x : Timer) : (setTimer s n x).cores = s.cores := rfl
@[simp] theorem setTimer_regions (s : State) (n : Nat) (x : Timer) : (setTimer s n x).regions = s.regions := rfl
@[simp] theorem setTimer_hubSense (s : State) (n : Nat) (x : Timer) : (setTimer s n x).hubSense = s.hubSense := rfl
@[simp] theorem setTimer_bandgap (s : State) (n : Nat) (x : Timer) : (setTimer s n x).bandgap = s.bandgap := rfl
@[simp] theorem setTimer_formes (s : State) (n : Nat) (x : Timer) : (setTimer s n x).formes = s.formes := rfl
@[simp] theorem setTimer_plates (s : State) (n : Nat) (x : Timer) : (setTimer s n x).plates = s.plates := rfl
@[simp] theorem setTimer_arr (s : State) (n : Nat) (x : Timer) : (setTimer s n x).arr = s.arr := rfl
@[simp] theorem setTimer_sched (s : State) (n : Nat) (x : Timer) : (setTimer s n x).sched = s.sched := rfl
@[simp] theorem setTimer_reqs (s : State) (n : Nat) (x : Timer) : (setTimer s n x).reqs = s.reqs := rfl
@[simp] theorem setTimer_gens (s : State) (n : Nat) (x : Timer) : (setTimer s n x).gens = s.gens := rfl
@[simp] theorem setTimer_tenants (s : State) (n : Nat) (x : Timer) : (setTimer s n x).tenants = s.tenants := rfl
@[simp] theorem setTimer_overlays (s : State) (n : Nat) (x : Timer) : (setTimer s n x).overlays = s.overlays := rfl
@[simp] theorem setTimer_kv (s : State) (n : Nat) (x : Timer) : (setTimer s n x).kv = s.kv := rfl
@[simp] theorem setTimer_web (s : State) (n : Nat) (x : Timer) : (setTimer s n x).web = s.web := rfl
@[simp] theorem setTimer_share (s : State) (n : Nat) (x : Timer) : (setTimer s n x).share = s.share := rfl
@[simp] theorem setTimer_faults (s : State) (n : Nat) (x : Timer) : (setTimer s n x).faults = s.faults := rfl
@[simp] theorem setTimer_sec (s : State) (n : Nat) (x : Timer) : (setTimer s n x).sec = s.sec := rfl
@[simp] theorem setTimer_therm (s : State) (n : Nat) (x : Timer) : (setTimer s n x).therm = s.therm := rfl
@[simp] theorem setTimer_ql (s : State) (n : Nat) (x : Timer) : (setTimer s n x).ql = s.ql := rfl
@[simp] theorem setTimer_pci (s : State) (n : Nat) (x : Timer) : (setTimer s n x).pci = s.pci := rfl
@[simp] theorem setTimer_side (s : State) (n : Nat) (x : Timer) : (setTimer s n x).side = s.side := rfl
@[simp] theorem setTimer_pins (s : State) (n : Nat) (x : Timer) : (setTimer s n x).pins = s.pins := rfl
@[simp] theorem setTimer_power (s : State) (n : Nat) (x : Timer) : (setTimer s n x).power = s.power := rfl
@[simp] theorem setTimer_seen (s : State) (n : Nat) (x : Timer) : (setTimer s n x).seen = s.seen := rfl

/-! ### setReq -/

@[simp] theorem setReq_pending (s : State) (i : Nat) (r : Req) : (setReq s i r).pending = s.pending := rfl
@[simp] theorem setReq_free (s : State) (i : Nat) (r : Req) : (setReq s i r).free = s.free := rfl
@[simp] theorem setReq_out (s : State) (i : Nat) (r : Req) : (setReq s i r).out = s.out := rfl
@[simp] theorem setReq_time (s : State) (i : Nat) (r : Req) : (setReq s i r).time = s.time := rfl
@[simp] theorem setReq_rst (s : State) (i : Nat) (r : Req) : (setReq s i r).rst = s.rst := rfl
@[simp] theorem setReq_aon (s : State) (i : Nat) (r : Req) : (setReq s i r).aon = s.aon := rfl
@[simp] theorem setReq_nv (s : State) (i : Nat) (r : Req) : (setReq s i r).nv = s.nv := rfl
@[simp] theorem setReq_opts (s : State) (i : Nat) (r : Req) : (setReq s i r).opts = s.opts := rfl
@[simp] theorem setReq_fns (s : State) (i : Nat) (r : Req) : (setReq s i r).fns = s.fns := rfl
@[simp] theorem setReq_cmdq (s : State) (i : Nat) (r : Req) : (setReq s i r).cmdq = s.cmdq := rfl
@[simp] theorem setReq_turn (s : State) (i : Nat) (r : Req) : (setReq s i r).turn = s.turn := rfl
@[simp] theorem setReq_txns (s : State) (i : Nat) (r : Req) : (setReq s i r).txns = s.txns := rfl
@[simp] theorem setReq_map (s : State) (i : Nat) (r : Req) : (setReq s i r).map = s.map := rfl
@[simp] theorem setReq_cores (s : State) (i : Nat) (r : Req) : (setReq s i r).cores = s.cores := rfl
@[simp] theorem setReq_regions (s : State) (i : Nat) (r : Req) : (setReq s i r).regions = s.regions := rfl
@[simp] theorem setReq_hubSense (s : State) (i : Nat) (r : Req) : (setReq s i r).hubSense = s.hubSense := rfl
@[simp] theorem setReq_bandgap (s : State) (i : Nat) (r : Req) : (setReq s i r).bandgap = s.bandgap := rfl
@[simp] theorem setReq_formes (s : State) (i : Nat) (r : Req) : (setReq s i r).formes = s.formes := rfl
@[simp] theorem setReq_plates (s : State) (i : Nat) (r : Req) : (setReq s i r).plates = s.plates := rfl
@[simp] theorem setReq_arr (s : State) (i : Nat) (r : Req) : (setReq s i r).arr = s.arr := rfl
@[simp] theorem setReq_sched (s : State) (i : Nat) (r : Req) : (setReq s i r).sched = s.sched := rfl
@[simp] theorem setReq_reqs (s : State) (i : Nat) (r : Req) : (setReq s i r).reqs = tput s.reqs i r := rfl
@[simp] theorem setReq_gens (s : State) (i : Nat) (r : Req) : (setReq s i r).gens = s.gens := rfl
@[simp] theorem setReq_tenants (s : State) (i : Nat) (r : Req) : (setReq s i r).tenants = s.tenants := rfl
@[simp] theorem setReq_overlays (s : State) (i : Nat) (r : Req) : (setReq s i r).overlays = s.overlays := rfl
@[simp] theorem setReq_kv (s : State) (i : Nat) (r : Req) : (setReq s i r).kv = s.kv := rfl
@[simp] theorem setReq_web (s : State) (i : Nat) (r : Req) : (setReq s i r).web = s.web := rfl
@[simp] theorem setReq_share (s : State) (i : Nat) (r : Req) : (setReq s i r).share = s.share := rfl
@[simp] theorem setReq_faults (s : State) (i : Nat) (r : Req) : (setReq s i r).faults = s.faults := rfl
@[simp] theorem setReq_sec (s : State) (i : Nat) (r : Req) : (setReq s i r).sec = s.sec := rfl
@[simp] theorem setReq_therm (s : State) (i : Nat) (r : Req) : (setReq s i r).therm = s.therm := rfl
@[simp] theorem setReq_ql (s : State) (i : Nat) (r : Req) : (setReq s i r).ql = s.ql := rfl
@[simp] theorem setReq_pci (s : State) (i : Nat) (r : Req) : (setReq s i r).pci = s.pci := rfl
@[simp] theorem setReq_side (s : State) (i : Nat) (r : Req) : (setReq s i r).side = s.side := rfl
@[simp] theorem setReq_pins (s : State) (i : Nat) (r : Req) : (setReq s i r).pins = s.pins := rfl
@[simp] theorem setReq_power (s : State) (i : Nat) (r : Req) : (setReq s i r).power = s.power := rfl
@[simp] theorem setReq_seen (s : State) (i : Nat) (r : Req) : (setReq s i r).seen = s.seen := rfl

/-! ### delReq -/

@[simp] theorem delReq_pending (s : State) (i : Nat) : (delReq s i).pending = s.pending := rfl
@[simp] theorem delReq_free (s : State) (i : Nat) : (delReq s i).free = s.free := rfl
@[simp] theorem delReq_out (s : State) (i : Nat) : (delReq s i).out = s.out := rfl
@[simp] theorem delReq_time (s : State) (i : Nat) : (delReq s i).time = s.time := rfl
@[simp] theorem delReq_rst (s : State) (i : Nat) : (delReq s i).rst = s.rst := rfl
@[simp] theorem delReq_aon (s : State) (i : Nat) : (delReq s i).aon = s.aon := rfl
@[simp] theorem delReq_nv (s : State) (i : Nat) : (delReq s i).nv = s.nv := rfl
@[simp] theorem delReq_opts (s : State) (i : Nat) : (delReq s i).opts = s.opts := rfl
@[simp] theorem delReq_fns (s : State) (i : Nat) : (delReq s i).fns = s.fns := rfl
@[simp] theorem delReq_cmdq (s : State) (i : Nat) : (delReq s i).cmdq = s.cmdq := rfl
@[simp] theorem delReq_turn (s : State) (i : Nat) : (delReq s i).turn = s.turn := rfl
@[simp] theorem delReq_txns (s : State) (i : Nat) : (delReq s i).txns = s.txns := rfl
@[simp] theorem delReq_map (s : State) (i : Nat) : (delReq s i).map = s.map := rfl
@[simp] theorem delReq_cores (s : State) (i : Nat) : (delReq s i).cores = s.cores := rfl
@[simp] theorem delReq_regions (s : State) (i : Nat) : (delReq s i).regions = s.regions := rfl
@[simp] theorem delReq_hubSense (s : State) (i : Nat) : (delReq s i).hubSense = s.hubSense := rfl
@[simp] theorem delReq_bandgap (s : State) (i : Nat) : (delReq s i).bandgap = s.bandgap := rfl
@[simp] theorem delReq_formes (s : State) (i : Nat) : (delReq s i).formes = s.formes := rfl
@[simp] theorem delReq_plates (s : State) (i : Nat) : (delReq s i).plates = s.plates := rfl
@[simp] theorem delReq_arr (s : State) (i : Nat) : (delReq s i).arr = s.arr := rfl
@[simp] theorem delReq_sched (s : State) (i : Nat) : (delReq s i).sched = s.sched := rfl
@[simp] theorem delReq_reqs (s : State) (i : Nat) : (delReq s i).reqs = tdel s.reqs i := rfl
@[simp] theorem delReq_gens (s : State) (i : Nat) : (delReq s i).gens = s.gens := rfl
@[simp] theorem delReq_tenants (s : State) (i : Nat) : (delReq s i).tenants = s.tenants := rfl
@[simp] theorem delReq_overlays (s : State) (i : Nat) : (delReq s i).overlays = s.overlays := rfl
@[simp] theorem delReq_kv (s : State) (i : Nat) : (delReq s i).kv = s.kv := rfl
@[simp] theorem delReq_web (s : State) (i : Nat) : (delReq s i).web = s.web := rfl
@[simp] theorem delReq_share (s : State) (i : Nat) : (delReq s i).share = s.share := rfl
@[simp] theorem delReq_faults (s : State) (i : Nat) : (delReq s i).faults = s.faults := rfl
@[simp] theorem delReq_sec (s : State) (i : Nat) : (delReq s i).sec = s.sec := rfl
@[simp] theorem delReq_therm (s : State) (i : Nat) : (delReq s i).therm = s.therm := rfl
@[simp] theorem delReq_ql (s : State) (i : Nat) : (delReq s i).ql = s.ql := rfl
@[simp] theorem delReq_pci (s : State) (i : Nat) : (delReq s i).pci = s.pci := rfl
@[simp] theorem delReq_side (s : State) (i : Nat) : (delReq s i).side = s.side := rfl
@[simp] theorem delReq_pins (s : State) (i : Nat) : (delReq s i).pins = s.pins := rfl
@[simp] theorem delReq_power (s : State) (i : Nat) : (delReq s i).power = s.power := rfl
@[simp] theorem delReq_seen (s : State) (i : Nat) : (delReq s i).seen = s.seen := rfl

/-! ### setChan -/

@[simp] theorem setChan_pending (s : State) (w : Nat) (c : Channel) : (setChan s w c).pending = s.pending := rfl
@[simp] theorem setChan_free (s : State) (w : Nat) (c : Channel) : (setChan s w c).free = s.free := rfl
@[simp] theorem setChan_out (s : State) (w : Nat) (c : Channel) : (setChan s w c).out = s.out := rfl
@[simp] theorem setChan_time (s : State) (w : Nat) (c : Channel) : (setChan s w c).time = s.time := rfl
@[simp] theorem setChan_rst (s : State) (w : Nat) (c : Channel) : (setChan s w c).rst = s.rst := rfl
@[simp] theorem setChan_aon (s : State) (w : Nat) (c : Channel) : (setChan s w c).aon = s.aon := rfl
@[simp] theorem setChan_nv (s : State) (w : Nat) (c : Channel) : (setChan s w c).nv = s.nv := rfl
@[simp] theorem setChan_opts (s : State) (w : Nat) (c : Channel) : (setChan s w c).opts = s.opts := rfl
@[simp] theorem setChan_fns (s : State) (w : Nat) (c : Channel) : (setChan s w c).fns = s.fns := rfl
@[simp] theorem setChan_cmdq (s : State) (w : Nat) (c : Channel) : (setChan s w c).cmdq = s.cmdq := rfl
@[simp] theorem setChan_turn (s : State) (w : Nat) (c : Channel) : (setChan s w c).turn = s.turn := rfl
@[simp] theorem setChan_txns (s : State) (w : Nat) (c : Channel) : (setChan s w c).txns = s.txns := rfl
@[simp] theorem setChan_map (s : State) (w : Nat) (c : Channel) : (setChan s w c).map = s.map := rfl
@[simp] theorem setChan_cores (s : State) (w : Nat) (c : Channel) : (setChan s w c).cores = s.cores := rfl
@[simp] theorem setChan_regions (s : State) (w : Nat) (c : Channel) : (setChan s w c).regions = s.regions := rfl
@[simp] theorem setChan_hubSense (s : State) (w : Nat) (c : Channel) : (setChan s w c).hubSense = s.hubSense := rfl
@[simp] theorem setChan_bandgap (s : State) (w : Nat) (c : Channel) : (setChan s w c).bandgap = s.bandgap := rfl
@[simp] theorem setChan_formes (s : State) (w : Nat) (c : Channel) : (setChan s w c).formes = s.formes := rfl
@[simp] theorem setChan_plates (s : State) (w : Nat) (c : Channel) : (setChan s w c).plates = s.plates := rfl
@[simp] theorem setChan_arr (s : State) (w : Nat) (c : Channel) : (setChan s w c).arr = s.arr := rfl
@[simp] theorem setChan_sched (s : State) (w : Nat) (c : Channel) : (setChan s w c).sched = s.sched := rfl
@[simp] theorem setChan_reqs (s : State) (w : Nat) (c : Channel) : (setChan s w c).reqs = s.reqs := rfl
@[simp] theorem setChan_gens (s : State) (w : Nat) (c : Channel) : (setChan s w c).gens = s.gens := rfl
@[simp] theorem setChan_tenants (s : State) (w : Nat) (c : Channel) : (setChan s w c).tenants = s.tenants := rfl
@[simp] theorem setChan_overlays (s : State) (w : Nat) (c : Channel) : (setChan s w c).overlays = s.overlays := rfl
@[simp] theorem setChan_kv (s : State) (w : Nat) (c : Channel) : (setChan s w c).kv = s.kv := rfl
@[simp] theorem setChan_web (s : State) (w : Nat) (c : Channel) : (setChan s w c).web = { s.web with channels := tput s.web.channels w c } := rfl
@[simp] theorem setChan_share (s : State) (w : Nat) (c : Channel) : (setChan s w c).share = s.share := rfl
@[simp] theorem setChan_faults (s : State) (w : Nat) (c : Channel) : (setChan s w c).faults = s.faults := rfl
@[simp] theorem setChan_sec (s : State) (w : Nat) (c : Channel) : (setChan s w c).sec = s.sec := rfl
@[simp] theorem setChan_therm (s : State) (w : Nat) (c : Channel) : (setChan s w c).therm = s.therm := rfl
@[simp] theorem setChan_ql (s : State) (w : Nat) (c : Channel) : (setChan s w c).ql = s.ql := rfl
@[simp] theorem setChan_pci (s : State) (w : Nat) (c : Channel) : (setChan s w c).pci = s.pci := rfl
@[simp] theorem setChan_side (s : State) (w : Nat) (c : Channel) : (setChan s w c).side = s.side := rfl
@[simp] theorem setChan_pins (s : State) (w : Nat) (c : Channel) : (setChan s w c).pins = s.pins := rfl
@[simp] theorem setChan_power (s : State) (w : Nat) (c : Channel) : (setChan s w c).power = s.power := rfl
@[simp] theorem setChan_seen (s : State) (w : Nat) (c : Channel) : (setChan s w c).seen = s.seen := rfl

/-! ### setFaults -/

@[simp] theorem setFaults_pending (s : State) (f : FaultBlk → FaultBlk) : (setFaults s f).pending = s.pending := rfl
@[simp] theorem setFaults_free (s : State) (f : FaultBlk → FaultBlk) : (setFaults s f).free = s.free := rfl
@[simp] theorem setFaults_out (s : State) (f : FaultBlk → FaultBlk) : (setFaults s f).out = s.out := rfl
@[simp] theorem setFaults_time (s : State) (f : FaultBlk → FaultBlk) : (setFaults s f).time = s.time := rfl
@[simp] theorem setFaults_rst (s : State) (f : FaultBlk → FaultBlk) : (setFaults s f).rst = s.rst := rfl
@[simp] theorem setFaults_aon (s : State) (f : FaultBlk → FaultBlk) : (setFaults s f).aon = s.aon := rfl
@[simp] theorem setFaults_nv (s : State) (f : FaultBlk → FaultBlk) : (setFaults s f).nv = s.nv := rfl
@[simp] theorem setFaults_opts (s : State) (f : FaultBlk → FaultBlk) : (setFaults s f).opts = s.opts := rfl
@[simp] theorem setFaults_fns (s : State) (f : FaultBlk → FaultBlk) : (setFaults s f).fns = s.fns := rfl
@[simp] theorem setFaults_cmdq (s : State) (f : FaultBlk → FaultBlk) : (setFaults s f).cmdq = s.cmdq := rfl
@[simp] theorem setFaults_turn (s : State) (f : FaultBlk → FaultBlk) : (setFaults s f).turn = s.turn := rfl
@[simp] theorem setFaults_txns (s : State) (f : FaultBlk → FaultBlk) : (setFaults s f).txns = s.txns := rfl
@[simp] theorem setFaults_map (s : State) (f : FaultBlk → FaultBlk) : (setFaults s f).map = s.map := rfl
@[simp] theorem setFaults_cores (s : State) (f : FaultBlk → FaultBlk) : (setFaults s f).cores = s.cores := rfl
@[simp] theorem setFaults_regions (s : State) (f : FaultBlk → FaultBlk) : (setFaults s f).regions = s.regions := rfl
@[simp] theorem setFaults_hubSense (s : State) (f : FaultBlk → FaultBlk) : (setFaults s f).hubSense = s.hubSense := rfl
@[simp] theorem setFaults_bandgap (s : State) (f : FaultBlk → FaultBlk) : (setFaults s f).bandgap = s.bandgap := rfl
@[simp] theorem setFaults_formes (s : State) (f : FaultBlk → FaultBlk) : (setFaults s f).formes = s.formes := rfl
@[simp] theorem setFaults_plates (s : State) (f : FaultBlk → FaultBlk) : (setFaults s f).plates = s.plates := rfl
@[simp] theorem setFaults_arr (s : State) (f : FaultBlk → FaultBlk) : (setFaults s f).arr = s.arr := rfl
@[simp] theorem setFaults_sched (s : State) (f : FaultBlk → FaultBlk) : (setFaults s f).sched = s.sched := rfl
@[simp] theorem setFaults_reqs (s : State) (f : FaultBlk → FaultBlk) : (setFaults s f).reqs = s.reqs := rfl
@[simp] theorem setFaults_gens (s : State) (f : FaultBlk → FaultBlk) : (setFaults s f).gens = s.gens := rfl
@[simp] theorem setFaults_tenants (s : State) (f : FaultBlk → FaultBlk) : (setFaults s f).tenants = s.tenants := rfl
@[simp] theorem setFaults_overlays (s : State) (f : FaultBlk → FaultBlk) : (setFaults s f).overlays = s.overlays := rfl
@[simp] theorem setFaults_kv (s : State) (f : FaultBlk → FaultBlk) : (setFaults s f).kv = s.kv := rfl
@[simp] theorem setFaults_web (s : State) (f : FaultBlk → FaultBlk) : (setFaults s f).web = s.web := rfl
@[simp] theorem setFaults_share (s : State) (f : FaultBlk → FaultBlk) : (setFaults s f).share = s.share := rfl
@[simp] theorem setFaults_faults (s : State) (f : FaultBlk → FaultBlk) : (setFaults s f).faults = f s.faults := rfl
@[simp] theorem setFaults_sec (s : State) (f : FaultBlk → FaultBlk) : (setFaults s f).sec = s.sec := rfl
@[simp] theorem setFaults_therm (s : State) (f : FaultBlk → FaultBlk) : (setFaults s f).therm = s.therm := rfl
@[simp] theorem setFaults_ql (s : State) (f : FaultBlk → FaultBlk) : (setFaults s f).ql = s.ql := rfl
@[simp] theorem setFaults_pci (s : State) (f : FaultBlk → FaultBlk) : (setFaults s f).pci = s.pci := rfl
@[simp] theorem setFaults_side (s : State) (f : FaultBlk → FaultBlk) : (setFaults s f).side = s.side := rfl
@[simp] theorem setFaults_pins (s : State) (f : FaultBlk → FaultBlk) : (setFaults s f).pins = s.pins := rfl
@[simp] theorem setFaults_power (s : State) (f : FaultBlk → FaultBlk) : (setFaults s f).power = s.power := rfl
@[simp] theorem setFaults_seen (s : State) (f : FaultBlk → FaultBlk) : (setFaults s f).seen = s.seen := rfl

/-! ### setKv -/

@[simp] theorem setKv_pending (s : State) (f : KvBlk → KvBlk) : (setKv s f).pending = s.pending := rfl
@[simp] theorem setKv_free (s : State) (f : KvBlk → KvBlk) : (setKv s f).free = s.free := rfl
@[simp] theorem setKv_out (s : State) (f : KvBlk → KvBlk) : (setKv s f).out = s.out := rfl
@[simp] theorem setKv_time (s : State) (f : KvBlk → KvBlk) : (setKv s f).time = s.time := rfl
@[simp] theorem setKv_rst (s : State) (f : KvBlk → KvBlk) : (setKv s f).rst = s.rst := rfl
@[simp] theorem setKv_aon (s : State) (f : KvBlk → KvBlk) : (setKv s f).aon = s.aon := rfl
@[simp] theorem setKv_nv (s : State) (f : KvBlk → KvBlk) : (setKv s f).nv = s.nv := rfl
@[simp] theorem setKv_opts (s : State) (f : KvBlk → KvBlk) : (setKv s f).opts = s.opts := rfl
@[simp] theorem setKv_fns (s : State) (f : KvBlk → KvBlk) : (setKv s f).fns = s.fns := rfl
@[simp] theorem setKv_cmdq (s : State) (f : KvBlk → KvBlk) : (setKv s f).cmdq = s.cmdq := rfl
@[simp] theorem setKv_turn (s : State) (f : KvBlk → KvBlk) : (setKv s f).turn = s.turn := rfl
@[simp] theorem setKv_txns (s : State) (f : KvBlk → KvBlk) : (setKv s f).txns = s.txns := rfl
@[simp] theorem setKv_map (s : State) (f : KvBlk → KvBlk) : (setKv s f).map = s.map := rfl
@[simp] theorem setKv_cores (s : State) (f : KvBlk → KvBlk) : (setKv s f).cores = s.cores := rfl
@[simp] theorem setKv_regions (s : State) (f : KvBlk → KvBlk) : (setKv s f).regions = s.regions := rfl
@[simp] theorem setKv_hubSense (s : State) (f : KvBlk → KvBlk) : (setKv s f).hubSense = s.hubSense := rfl
@[simp] theorem setKv_bandgap (s : State) (f : KvBlk → KvBlk) : (setKv s f).bandgap = s.bandgap := rfl
@[simp] theorem setKv_formes (s : State) (f : KvBlk → KvBlk) : (setKv s f).formes = s.formes := rfl
@[simp] theorem setKv_plates (s : State) (f : KvBlk → KvBlk) : (setKv s f).plates = s.plates := rfl
@[simp] theorem setKv_arr (s : State) (f : KvBlk → KvBlk) : (setKv s f).arr = s.arr := rfl
@[simp] theorem setKv_sched (s : State) (f : KvBlk → KvBlk) : (setKv s f).sched = s.sched := rfl
@[simp] theorem setKv_reqs (s : State) (f : KvBlk → KvBlk) : (setKv s f).reqs = s.reqs := rfl
@[simp] theorem setKv_gens (s : State) (f : KvBlk → KvBlk) : (setKv s f).gens = s.gens := rfl
@[simp] theorem setKv_tenants (s : State) (f : KvBlk → KvBlk) : (setKv s f).tenants = s.tenants := rfl
@[simp] theorem setKv_overlays (s : State) (f : KvBlk → KvBlk) : (setKv s f).overlays = s.overlays := rfl
@[simp] theorem setKv_kv (s : State) (f : KvBlk → KvBlk) : (setKv s f).kv = f s.kv := rfl
@[simp] theorem setKv_web (s : State) (f : KvBlk → KvBlk) : (setKv s f).web = s.web := rfl
@[simp] theorem setKv_share (s : State) (f : KvBlk → KvBlk) : (setKv s f).share = s.share := rfl
@[simp] theorem setKv_faults (s : State) (f : KvBlk → KvBlk) : (setKv s f).faults = s.faults := rfl
@[simp] theorem setKv_sec (s : State) (f : KvBlk → KvBlk) : (setKv s f).sec = s.sec := rfl
@[simp] theorem setKv_therm (s : State) (f : KvBlk → KvBlk) : (setKv s f).therm = s.therm := rfl
@[simp] theorem setKv_ql (s : State) (f : KvBlk → KvBlk) : (setKv s f).ql = s.ql := rfl
@[simp] theorem setKv_pci (s : State) (f : KvBlk → KvBlk) : (setKv s f).pci = s.pci := rfl
@[simp] theorem setKv_side (s : State) (f : KvBlk → KvBlk) : (setKv s f).side = s.side := rfl
@[simp] theorem setKv_pins (s : State) (f : KvBlk → KvBlk) : (setKv s f).pins = s.pins := rfl
@[simp] theorem setKv_power (s : State) (f : KvBlk → KvBlk) : (setKv s f).power = s.power := rfl
@[simp] theorem setKv_seen (s : State) (f : KvBlk → KvBlk) : (setKv s f).seen = s.seen := rfl

/-! ### setSched -/

@[simp] theorem setSched_pending (s : State) (f : SchedBlk → SchedBlk) : (setSched s f).pending = s.pending := rfl
@[simp] theorem setSched_free (s : State) (f : SchedBlk → SchedBlk) : (setSched s f).free = s.free := rfl
@[simp] theorem setSched_out (s : State) (f : SchedBlk → SchedBlk) : (setSched s f).out = s.out := rfl
@[simp] theorem setSched_time (s : State) (f : SchedBlk → SchedBlk) : (setSched s f).time = s.time := rfl
@[simp] theorem setSched_rst (s : State) (f : SchedBlk → SchedBlk) : (setSched s f).rst = s.rst := rfl
@[simp] theorem setSched_aon (s : State) (f : SchedBlk → SchedBlk) : (setSched s f).aon = s.aon := rfl
@[simp] theorem setSched_nv (s : State) (f : SchedBlk → SchedBlk) : (setSched s f).nv = s.nv := rfl
@[simp] theorem setSched_opts (s : State) (f : SchedBlk → SchedBlk) : (setSched s f).opts = s.opts := rfl
@[simp] theorem setSched_fns (s : State) (f : SchedBlk → SchedBlk) : (setSched s f).fns = s.fns := rfl
@[simp] theorem setSched_cmdq (s : State) (f : SchedBlk → SchedBlk) : (setSched s f).cmdq = s.cmdq := rfl
@[simp] theorem setSched_turn (s : State) (f : SchedBlk → SchedBlk) : (setSched s f).turn = s.turn := rfl
@[simp] theorem setSched_txns (s : State) (f : SchedBlk → SchedBlk) : (setSched s f).txns = s.txns := rfl
@[simp] theorem setSched_map (s : State) (f : SchedBlk → SchedBlk) : (setSched s f).map = s.map := rfl
@[simp] theorem setSched_cores (s : State) (f : SchedBlk → SchedBlk) : (setSched s f).cores = s.cores := rfl
@[simp] theorem setSched_regions (s : State) (f : SchedBlk → SchedBlk) : (setSched s f).regions = s.regions := rfl
@[simp] theorem setSched_hubSense (s : State) (f : SchedBlk → SchedBlk) : (setSched s f).hubSense = s.hubSense := rfl
@[simp] theorem setSched_bandgap (s : State) (f : SchedBlk → SchedBlk) : (setSched s f).bandgap = s.bandgap := rfl
@[simp] theorem setSched_formes (s : State) (f : SchedBlk → SchedBlk) : (setSched s f).formes = s.formes := rfl
@[simp] theorem setSched_plates (s : State) (f : SchedBlk → SchedBlk) : (setSched s f).plates = s.plates := rfl
@[simp] theorem setSched_arr (s : State) (f : SchedBlk → SchedBlk) : (setSched s f).arr = s.arr := rfl
@[simp] theorem setSched_sched (s : State) (f : SchedBlk → SchedBlk) : (setSched s f).sched = f s.sched := rfl
@[simp] theorem setSched_reqs (s : State) (f : SchedBlk → SchedBlk) : (setSched s f).reqs = s.reqs := rfl
@[simp] theorem setSched_gens (s : State) (f : SchedBlk → SchedBlk) : (setSched s f).gens = s.gens := rfl
@[simp] theorem setSched_tenants (s : State) (f : SchedBlk → SchedBlk) : (setSched s f).tenants = s.tenants := rfl
@[simp] theorem setSched_overlays (s : State) (f : SchedBlk → SchedBlk) : (setSched s f).overlays = s.overlays := rfl
@[simp] theorem setSched_kv (s : State) (f : SchedBlk → SchedBlk) : (setSched s f).kv = s.kv := rfl
@[simp] theorem setSched_web (s : State) (f : SchedBlk → SchedBlk) : (setSched s f).web = s.web := rfl
@[simp] theorem setSched_share (s : State) (f : SchedBlk → SchedBlk) : (setSched s f).share = s.share := rfl
@[simp] theorem setSched_faults (s : State) (f : SchedBlk → SchedBlk) : (setSched s f).faults = s.faults := rfl
@[simp] theorem setSched_sec (s : State) (f : SchedBlk → SchedBlk) : (setSched s f).sec = s.sec := rfl
@[simp] theorem setSched_therm (s : State) (f : SchedBlk → SchedBlk) : (setSched s f).therm = s.therm := rfl
@[simp] theorem setSched_ql (s : State) (f : SchedBlk → SchedBlk) : (setSched s f).ql = s.ql := rfl
@[simp] theorem setSched_pci (s : State) (f : SchedBlk → SchedBlk) : (setSched s f).pci = s.pci := rfl
@[simp] theorem setSched_side (s : State) (f : SchedBlk → SchedBlk) : (setSched s f).side = s.side := rfl
@[simp] theorem setSched_pins (s : State) (f : SchedBlk → SchedBlk) : (setSched s f).pins = s.pins := rfl
@[simp] theorem setSched_power (s : State) (f : SchedBlk → SchedBlk) : (setSched s f).power = s.power := rfl
@[simp] theorem setSched_seen (s : State) (f : SchedBlk → SchedBlk) : (setSched s f).seen = s.seen := rfl

/-! ### setPlates -/

@[simp] theorem setPlates_pending (s : State) (f : PlateBlk → PlateBlk) : (setPlates s f).pending = s.pending := rfl
@[simp] theorem setPlates_free (s : State) (f : PlateBlk → PlateBlk) : (setPlates s f).free = s.free := rfl
@[simp] theorem setPlates_out (s : State) (f : PlateBlk → PlateBlk) : (setPlates s f).out = s.out := rfl
@[simp] theorem setPlates_time (s : State) (f : PlateBlk → PlateBlk) : (setPlates s f).time = s.time := rfl
@[simp] theorem setPlates_rst (s : State) (f : PlateBlk → PlateBlk) : (setPlates s f).rst = s.rst := rfl
@[simp] theorem setPlates_aon (s : State) (f : PlateBlk → PlateBlk) : (setPlates s f).aon = s.aon := rfl
@[simp] theorem setPlates_nv (s : State) (f : PlateBlk → PlateBlk) : (setPlates s f).nv = s.nv := rfl
@[simp] theorem setPlates_opts (s : State) (f : PlateBlk → PlateBlk) : (setPlates s f).opts = s.opts := rfl
@[simp] theorem setPlates_fns (s : State) (f : PlateBlk → PlateBlk) : (setPlates s f).fns = s.fns := rfl
@[simp] theorem setPlates_cmdq (s : State) (f : PlateBlk → PlateBlk) : (setPlates s f).cmdq = s.cmdq := rfl
@[simp] theorem setPlates_turn (s : State) (f : PlateBlk → PlateBlk) : (setPlates s f).turn = s.turn := rfl
@[simp] theorem setPlates_txns (s : State) (f : PlateBlk → PlateBlk) : (setPlates s f).txns = s.txns := rfl
@[simp] theorem setPlates_map (s : State) (f : PlateBlk → PlateBlk) : (setPlates s f).map = s.map := rfl
@[simp] theorem setPlates_cores (s : State) (f : PlateBlk → PlateBlk) : (setPlates s f).cores = s.cores := rfl
@[simp] theorem setPlates_regions (s : State) (f : PlateBlk → PlateBlk) : (setPlates s f).regions = s.regions := rfl
@[simp] theorem setPlates_hubSense (s : State) (f : PlateBlk → PlateBlk) : (setPlates s f).hubSense = s.hubSense := rfl
@[simp] theorem setPlates_bandgap (s : State) (f : PlateBlk → PlateBlk) : (setPlates s f).bandgap = s.bandgap := rfl
@[simp] theorem setPlates_formes (s : State) (f : PlateBlk → PlateBlk) : (setPlates s f).formes = s.formes := rfl
@[simp] theorem setPlates_plates (s : State) (f : PlateBlk → PlateBlk) : (setPlates s f).plates = f s.plates := rfl
@[simp] theorem setPlates_arr (s : State) (f : PlateBlk → PlateBlk) : (setPlates s f).arr = s.arr := rfl
@[simp] theorem setPlates_sched (s : State) (f : PlateBlk → PlateBlk) : (setPlates s f).sched = s.sched := rfl
@[simp] theorem setPlates_reqs (s : State) (f : PlateBlk → PlateBlk) : (setPlates s f).reqs = s.reqs := rfl
@[simp] theorem setPlates_gens (s : State) (f : PlateBlk → PlateBlk) : (setPlates s f).gens = s.gens := rfl
@[simp] theorem setPlates_tenants (s : State) (f : PlateBlk → PlateBlk) : (setPlates s f).tenants = s.tenants := rfl
@[simp] theorem setPlates_overlays (s : State) (f : PlateBlk → PlateBlk) : (setPlates s f).overlays = s.overlays := rfl
@[simp] theorem setPlates_kv (s : State) (f : PlateBlk → PlateBlk) : (setPlates s f).kv = s.kv := rfl
@[simp] theorem setPlates_web (s : State) (f : PlateBlk → PlateBlk) : (setPlates s f).web = s.web := rfl
@[simp] theorem setPlates_share (s : State) (f : PlateBlk → PlateBlk) : (setPlates s f).share = s.share := rfl
@[simp] theorem setPlates_faults (s : State) (f : PlateBlk → PlateBlk) : (setPlates s f).faults = s.faults := rfl
@[simp] theorem setPlates_sec (s : State) (f : PlateBlk → PlateBlk) : (setPlates s f).sec = s.sec := rfl
@[simp] theorem setPlates_therm (s : State) (f : PlateBlk → PlateBlk) : (setPlates s f).therm = s.therm := rfl
@[simp] theorem setPlates_ql (s : State) (f : PlateBlk → PlateBlk) : (setPlates s f).ql = s.ql := rfl
@[simp] theorem setPlates_pci (s : State) (f : PlateBlk → PlateBlk) : (setPlates s f).pci = s.pci := rfl
@[simp] theorem setPlates_side (s : State) (f : PlateBlk → PlateBlk) : (setPlates s f).side = s.side := rfl
@[simp] theorem setPlates_pins (s : State) (f : PlateBlk → PlateBlk) : (setPlates s f).pins = s.pins := rfl
@[simp] theorem setPlates_power (s : State) (f : PlateBlk → PlateBlk) : (setPlates s f).power = s.power := rfl
@[simp] theorem setPlates_seen (s : State) (f : PlateBlk → PlateBlk) : (setPlates s f).seen = s.seen := rfl

/-! ### advance -/

@[simp] theorem advance_pending (t : Nat) (s : State) : (advance t s).pending = s.pending := rfl
@[simp] theorem advance_free (t : Nat) (s : State) : (advance t s).free = s.free := rfl
@[simp] theorem advance_out (t : Nat) (s : State) : (advance t s).out = s.out := rfl
@[simp] theorem advance_time (t : Nat) (s : State) : (advance t s).time = { s.time with base := max s.time.base t } := rfl
@[simp] theorem advance_rst (t : Nat) (s : State) : (advance t s).rst = s.rst := rfl
@[simp] theorem advance_aon (t : Nat) (s : State) : (advance t s).aon = s.aon := rfl
@[simp] theorem advance_nv (t : Nat) (s : State) : (advance t s).nv = s.nv := rfl
@[simp] theorem advance_opts (t : Nat) (s : State) : (advance t s).opts = s.opts := rfl
@[simp] theorem advance_fns (t : Nat) (s : State) : (advance t s).fns = s.fns := rfl
@[simp] theorem advance_cmdq (t : Nat) (s : State) : (advance t s).cmdq = s.cmdq := rfl
@[simp] theorem advance_turn (t : Nat) (s : State) : (advance t s).turn = s.turn := rfl
@[simp] theorem advance_txns (t : Nat) (s : State) : (advance t s).txns = s.txns := rfl
@[simp] theorem advance_map (t : Nat) (s : State) : (advance t s).map = s.map := rfl
@[simp] theorem advance_cores (t : Nat) (s : State) : (advance t s).cores = s.cores := rfl
@[simp] theorem advance_regions (t : Nat) (s : State) : (advance t s).regions = s.regions := rfl
@[simp] theorem advance_hubSense (t : Nat) (s : State) : (advance t s).hubSense = s.hubSense := rfl
@[simp] theorem advance_bandgap (t : Nat) (s : State) : (advance t s).bandgap = s.bandgap := rfl
@[simp] theorem advance_formes (t : Nat) (s : State) : (advance t s).formes = s.formes := rfl
@[simp] theorem advance_plates (t : Nat) (s : State) : (advance t s).plates = s.plates := rfl
@[simp] theorem advance_arr (t : Nat) (s : State) : (advance t s).arr = s.arr := rfl
@[simp] theorem advance_sched (t : Nat) (s : State) : (advance t s).sched = s.sched := rfl
@[simp] theorem advance_reqs (t : Nat) (s : State) : (advance t s).reqs = s.reqs := rfl
@[simp] theorem advance_gens (t : Nat) (s : State) : (advance t s).gens = s.gens := rfl
@[simp] theorem advance_tenants (t : Nat) (s : State) : (advance t s).tenants = s.tenants := rfl
@[simp] theorem advance_overlays (t : Nat) (s : State) : (advance t s).overlays = s.overlays := rfl
@[simp] theorem advance_kv (t : Nat) (s : State) : (advance t s).kv = s.kv := rfl
@[simp] theorem advance_web (t : Nat) (s : State) : (advance t s).web = s.web := rfl
@[simp] theorem advance_share (t : Nat) (s : State) : (advance t s).share = s.share := rfl
@[simp] theorem advance_faults (t : Nat) (s : State) : (advance t s).faults = s.faults := rfl
@[simp] theorem advance_sec (t : Nat) (s : State) : (advance t s).sec = s.sec := rfl
@[simp] theorem advance_therm (t : Nat) (s : State) : (advance t s).therm = s.therm := rfl
@[simp] theorem advance_ql (t : Nat) (s : State) : (advance t s).ql = s.ql := rfl
@[simp] theorem advance_pci (t : Nat) (s : State) : (advance t s).pci = s.pci := rfl
@[simp] theorem advance_side (t : Nat) (s : State) : (advance t s).side = s.side := rfl
@[simp] theorem advance_pins (t : Nat) (s : State) : (advance t s).pins = s.pins := rfl
@[simp] theorem advance_power (t : Nat) (s : State) : (advance t s).power = s.power := rfl
@[simp] theorem advance_seen (t : Nat) (s : State) : (advance t s).seen = if s.time.base / 1000000 < max s.time.base t / 1000000 then viewOf s else s.seen := rfl

/-! ### emit -/

@[simp] theorem emit_pending (s : State) (o : Out) : (emit s o).pending = s.pending := rfl
@[simp] theorem emit_free (s : State) (o : Out) : (emit s o).free = s.free := rfl
@[simp] theorem emit_out (s : State) (o : Out) : (emit s o).out = s.out ++ [o] := rfl
@[simp] theorem emit_time (s : State) (o : Out) : (emit s o).time = s.time := rfl
@[simp] theorem emit_rst (s : State) (o : Out) : (emit s o).rst = s.rst := rfl
@[simp] theorem emit_aon (s : State) (o : Out) : (emit s o).aon = s.aon := rfl
@[simp] theorem emit_nv (s : State) (o : Out) : (emit s o).nv = s.nv := rfl
@[simp] theorem emit_opts (s : State) (o : Out) : (emit s o).opts = s.opts := rfl
@[simp] theorem emit_fns (s : State) (o : Out) : (emit s o).fns = s.fns := rfl
@[simp] theorem emit_cmdq (s : State) (o : Out) : (emit s o).cmdq = s.cmdq := rfl
@[simp] theorem emit_turn (s : State) (o : Out) : (emit s o).turn = s.turn := rfl
@[simp] theorem emit_txns (s : State) (o : Out) : (emit s o).txns = s.txns := rfl
@[simp] theorem emit_map (s : State) (o : Out) : (emit s o).map = s.map := rfl
@[simp] theorem emit_cores (s : State) (o : Out) : (emit s o).cores = s.cores := rfl
@[simp] theorem emit_regions (s : State) (o : Out) : (emit s o).regions = s.regions := rfl
@[simp] theorem emit_hubSense (s : State) (o : Out) : (emit s o).hubSense = s.hubSense := rfl
@[simp] theorem emit_bandgap (s : State) (o : Out) : (emit s o).bandgap = s.bandgap := rfl
@[simp] theorem emit_formes (s : State) (o : Out) : (emit s o).formes = s.formes := rfl
@[simp] theorem emit_plates (s : State) (o : Out) : (emit s o).plates = s.plates := rfl
@[simp] theorem emit_arr (s : State) (o : Out) : (emit s o).arr = s.arr := rfl
@[simp] theorem emit_sched (s : State) (o : Out) : (emit s o).sched = s.sched := rfl
@[simp] theorem emit_reqs (s : State) (o : Out) : (emit s o).reqs = s.reqs := rfl
@[simp] theorem emit_gens (s : State) (o : Out) : (emit s o).gens = s.gens := rfl
@[simp] theorem emit_tenants (s : State) (o : Out) : (emit s o).tenants = s.tenants := rfl
@[simp] theorem emit_overlays (s : State) (o : Out) : (emit s o).overlays = s.overlays := rfl
@[simp] theorem emit_kv (s : State) (o : Out) : (emit s o).kv = s.kv := rfl
@[simp] theorem emit_web (s : State) (o : Out) : (emit s o).web = s.web := rfl
@[simp] theorem emit_share (s : State) (o : Out) : (emit s o).share = s.share := rfl
@[simp] theorem emit_faults (s : State) (o : Out) : (emit s o).faults = s.faults := rfl
@[simp] theorem emit_sec (s : State) (o : Out) : (emit s o).sec = s.sec := rfl
@[simp] theorem emit_therm (s : State) (o : Out) : (emit s o).therm = s.therm := rfl
@[simp] theorem emit_ql (s : State) (o : Out) : (emit s o).ql = s.ql := rfl
@[simp] theorem emit_pci (s : State) (o : Out) : (emit s o).pci = s.pci := rfl
@[simp] theorem emit_side (s : State) (o : Out) : (emit s o).side = s.side := rfl
@[simp] theorem emit_pins (s : State) (o : Out) : (emit s o).pins = s.pins := rfl
@[simp] theorem emit_power (s : State) (o : Out) : (emit s o).power = s.power := rfl
@[simp] theorem emit_seen (s : State) (o : Out) : (emit s o).seen = s.seen := rfl

/-! ### drive -/

@[simp] theorem drive_pending (s : State) (p : Pin) (l : Bool) : (drive s p l).pending = s.pending := rfl
@[simp] theorem drive_free (s : State) (p : Pin) (l : Bool) : (drive s p l).free = s.free := rfl
@[simp] theorem drive_out (s : State) (p : Pin) (l : Bool) : (drive s p l).out = s.out ++ [.pin p l] := rfl
@[simp] theorem drive_time (s : State) (p : Pin) (l : Bool) : (drive s p l).time = s.time := rfl
@[simp] theorem drive_rst (s : State) (p : Pin) (l : Bool) : (drive s p l).rst = s.rst := rfl
@[simp] theorem drive_aon (s : State) (p : Pin) (l : Bool) : (drive s p l).aon = s.aon := rfl
@[simp] theorem drive_nv (s : State) (p : Pin) (l : Bool) : (drive s p l).nv = s.nv := rfl
@[simp] theorem drive_opts (s : State) (p : Pin) (l : Bool) : (drive s p l).opts = s.opts := rfl
@[simp] theorem drive_fns (s : State) (p : Pin) (l : Bool) : (drive s p l).fns = s.fns := rfl
@[simp] theorem drive_cmdq (s : State) (p : Pin) (l : Bool) : (drive s p l).cmdq = s.cmdq := rfl
@[simp] theorem drive_turn (s : State) (p : Pin) (l : Bool) : (drive s p l).turn = s.turn := rfl
@[simp] theorem drive_txns (s : State) (p : Pin) (l : Bool) : (drive s p l).txns = s.txns := rfl
@[simp] theorem drive_map (s : State) (p : Pin) (l : Bool) : (drive s p l).map = s.map := rfl
@[simp] theorem drive_cores (s : State) (p : Pin) (l : Bool) : (drive s p l).cores = s.cores := rfl
@[simp] theorem drive_regions (s : State) (p : Pin) (l : Bool) : (drive s p l).regions = s.regions := rfl
@[simp] theorem drive_hubSense (s : State) (p : Pin) (l : Bool) : (drive s p l).hubSense = s.hubSense := rfl
@[simp] theorem drive_bandgap (s : State) (p : Pin) (l : Bool) : (drive s p l).bandgap = s.bandgap := rfl
@[simp] theorem drive_formes (s : State) (p : Pin) (l : Bool) : (drive s p l).formes = s.formes := rfl
@[simp] theorem drive_plates (s : State) (p : Pin) (l : Bool) : (drive s p l).plates = s.plates := rfl
@[simp] theorem drive_arr (s : State) (p : Pin) (l : Bool) : (drive s p l).arr = s.arr := rfl
@[simp] theorem drive_sched (s : State) (p : Pin) (l : Bool) : (drive s p l).sched = s.sched := rfl
@[simp] theorem drive_reqs (s : State) (p : Pin) (l : Bool) : (drive s p l).reqs = s.reqs := rfl
@[simp] theorem drive_gens (s : State) (p : Pin) (l : Bool) : (drive s p l).gens = s.gens := rfl
@[simp] theorem drive_tenants (s : State) (p : Pin) (l : Bool) : (drive s p l).tenants = s.tenants := rfl
@[simp] theorem drive_overlays (s : State) (p : Pin) (l : Bool) : (drive s p l).overlays = s.overlays := rfl
@[simp] theorem drive_kv (s : State) (p : Pin) (l : Bool) : (drive s p l).kv = s.kv := rfl
@[simp] theorem drive_web (s : State) (p : Pin) (l : Bool) : (drive s p l).web = s.web := rfl
@[simp] theorem drive_share (s : State) (p : Pin) (l : Bool) : (drive s p l).share = s.share := rfl
@[simp] theorem drive_faults (s : State) (p : Pin) (l : Bool) : (drive s p l).faults = s.faults := rfl
@[simp] theorem drive_sec (s : State) (p : Pin) (l : Bool) : (drive s p l).sec = s.sec := rfl
@[simp] theorem drive_therm (s : State) (p : Pin) (l : Bool) : (drive s p l).therm = s.therm := rfl
@[simp] theorem drive_ql (s : State) (p : Pin) (l : Bool) : (drive s p l).ql = s.ql := rfl
@[simp] theorem drive_pci (s : State) (p : Pin) (l : Bool) : (drive s p l).pci = s.pci := rfl
@[simp] theorem drive_side (s : State) (p : Pin) (l : Bool) : (drive s p l).side = s.side := rfl
@[simp] theorem drive_pins (s : State) (p : Pin) (l : Bool) : (drive s p l).pins = { driven := aset s.pins.driven p l } := rfl
@[simp] theorem drive_power (s : State) (p : Pin) (l : Bool) : (drive s p l).power = s.power := rfl
@[simp] theorem drive_seen (s : State) (p : Pin) (l : Bool) : (drive s p l).seen = s.seen := rfl

/-! ### release -/

@[simp] theorem release_pending (s : State) (p : Pin) : (release s p).pending = s.pending := rfl
@[simp] theorem release_free (s : State) (p : Pin) : (release s p).free = s.free := rfl
@[simp] theorem release_out (s : State) (p : Pin) : (release s p).out = s.out := rfl
@[simp] theorem release_time (s : State) (p : Pin) : (release s p).time = s.time := rfl
@[simp] theorem release_rst (s : State) (p : Pin) : (release s p).rst = s.rst := rfl
@[simp] theorem release_aon (s : State) (p : Pin) : (release s p).aon = s.aon := rfl
@[simp] theorem release_nv (s : State) (p : Pin) : (release s p).nv = s.nv := rfl
@[simp] theorem release_opts (s : State) (p : Pin) : (release s p).opts = s.opts := rfl
@[simp] theorem release_fns (s : State) (p : Pin) : (release s p).fns = s.fns := rfl
@[simp] theorem release_cmdq (s : State) (p : Pin) : (release s p).cmdq = s.cmdq := rfl
@[simp] theorem release_turn (s : State) (p : Pin) : (release s p).turn = s.turn := rfl
@[simp] theorem release_txns (s : State) (p : Pin) : (release s p).txns = s.txns := rfl
@[simp] theorem release_map (s : State) (p : Pin) : (release s p).map = s.map := rfl
@[simp] theorem release_cores (s : State) (p : Pin) : (release s p).cores = s.cores := rfl
@[simp] theorem release_regions (s : State) (p : Pin) : (release s p).regions = s.regions := rfl
@[simp] theorem release_hubSense (s : State) (p : Pin) : (release s p).hubSense = s.hubSense := rfl
@[simp] theorem release_bandgap (s : State) (p : Pin) : (release s p).bandgap = s.bandgap := rfl
@[simp] theorem release_formes (s : State) (p : Pin) : (release s p).formes = s.formes := rfl
@[simp] theorem release_plates (s : State) (p : Pin) : (release s p).plates = s.plates := rfl
@[simp] theorem release_arr (s : State) (p : Pin) : (release s p).arr = s.arr := rfl
@[simp] theorem release_sched (s : State) (p : Pin) : (release s p).sched = s.sched := rfl
@[simp] theorem release_reqs (s : State) (p : Pin) : (release s p).reqs = s.reqs := rfl
@[simp] theorem release_gens (s : State) (p : Pin) : (release s p).gens = s.gens := rfl
@[simp] theorem release_tenants (s : State) (p : Pin) : (release s p).tenants = s.tenants := rfl
@[simp] theorem release_overlays (s : State) (p : Pin) : (release s p).overlays = s.overlays := rfl
@[simp] theorem release_kv (s : State) (p : Pin) : (release s p).kv = s.kv := rfl
@[simp] theorem release_web (s : State) (p : Pin) : (release s p).web = s.web := rfl
@[simp] theorem release_share (s : State) (p : Pin) : (release s p).share = s.share := rfl
@[simp] theorem release_faults (s : State) (p : Pin) : (release s p).faults = s.faults := rfl
@[simp] theorem release_sec (s : State) (p : Pin) : (release s p).sec = s.sec := rfl
@[simp] theorem release_therm (s : State) (p : Pin) : (release s p).therm = s.therm := rfl
@[simp] theorem release_ql (s : State) (p : Pin) : (release s p).ql = s.ql := rfl
@[simp] theorem release_pci (s : State) (p : Pin) : (release s p).pci = s.pci := rfl
@[simp] theorem release_side (s : State) (p : Pin) : (release s p).side = s.side := rfl
@[simp] theorem release_pins (s : State) (p : Pin) : (release s p).pins = { driven := adel s.pins.driven p } := rfl
@[simp] theorem release_power (s : State) (p : Pin) : (release s p).power = s.power := rfl
@[simp] theorem release_seen (s : State) (p : Pin) : (release s p).seen = s.seen := rfl

/-! ### drawn -/

@[simp] theorem drawn_pending (s : State) : (drawn s).pending = s.pending := rfl
@[simp] theorem drawn_free (s : State) : (drawn s).free = s.free + 1 := rfl
@[simp] theorem drawn_out (s : State) : (drawn s).out = s.out := rfl
@[simp] theorem drawn_time (s : State) : (drawn s).time = s.time := rfl
@[simp] theorem drawn_rst (s : State) : (drawn s).rst = s.rst := rfl
@[simp] theorem drawn_aon (s : State) : (drawn s).aon = s.aon := rfl
@[simp] theorem drawn_nv (s : State) : (drawn s).nv = s.nv := rfl
@[simp] theorem drawn_opts (s : State) : (drawn s).opts = s.opts := rfl
@[simp] theorem drawn_fns (s : State) : (drawn s).fns = s.fns := rfl
@[simp] theorem drawn_cmdq (s : State) : (drawn s).cmdq = s.cmdq := rfl
@[simp] theorem drawn_turn (s : State) : (drawn s).turn = s.turn := rfl
@[simp] theorem drawn_txns (s : State) : (drawn s).txns = s.txns := rfl
@[simp] theorem drawn_map (s : State) : (drawn s).map = s.map := rfl
@[simp] theorem drawn_cores (s : State) : (drawn s).cores = s.cores := rfl
@[simp] theorem drawn_regions (s : State) : (drawn s).regions = s.regions := rfl
@[simp] theorem drawn_hubSense (s : State) : (drawn s).hubSense = s.hubSense := rfl
@[simp] theorem drawn_bandgap (s : State) : (drawn s).bandgap = s.bandgap := rfl
@[simp] theorem drawn_formes (s : State) : (drawn s).formes = s.formes := rfl
@[simp] theorem drawn_plates (s : State) : (drawn s).plates = s.plates := rfl
@[simp] theorem drawn_arr (s : State) : (drawn s).arr = s.arr := rfl
@[simp] theorem drawn_sched (s : State) : (drawn s).sched = s.sched := rfl
@[simp] theorem drawn_reqs (s : State) : (drawn s).reqs = s.reqs := rfl
@[simp] theorem drawn_gens (s : State) : (drawn s).gens = s.gens := rfl
@[simp] theorem drawn_tenants (s : State) : (drawn s).tenants = s.tenants := rfl
@[simp] theorem drawn_overlays (s : State) : (drawn s).overlays = s.overlays := rfl
@[simp] theorem drawn_kv (s : State) : (drawn s).kv = s.kv := rfl
@[simp] theorem drawn_web (s : State) : (drawn s).web = s.web := rfl
@[simp] theorem drawn_share (s : State) : (drawn s).share = s.share := rfl
@[simp] theorem drawn_faults (s : State) : (drawn s).faults = s.faults := rfl
@[simp] theorem drawn_sec (s : State) : (drawn s).sec = s.sec := rfl
@[simp] theorem drawn_therm (s : State) : (drawn s).therm = s.therm := rfl
@[simp] theorem drawn_ql (s : State) : (drawn s).ql = s.ql := rfl
@[simp] theorem drawn_pci (s : State) : (drawn s).pci = s.pci := rfl
@[simp] theorem drawn_side (s : State) : (drawn s).side = s.side := rfl
@[simp] theorem drawn_pins (s : State) : (drawn s).pins = s.pins := rfl
@[simp] theorem drawn_power (s : State) : (drawn s).power = s.power := rfl
@[simp] theorem drawn_seen (s : State) : (drawn s).seen = s.seen := rfl

/-! ### putTxn -/

@[simp] theorem putTxn_pending (s : State) (d : Nat) (v : Option Txn) : (putTxn s d v).pending = s.pending := rfl
@[simp] theorem putTxn_free (s : State) (d : Nat) (v : Option Txn) : (putTxn s d v).free = s.free := rfl
@[simp] theorem putTxn_out (s : State) (d : Nat) (v : Option Txn) : (putTxn s d v).out = s.out := rfl
@[simp] theorem putTxn_time (s : State) (d : Nat) (v : Option Txn) : (putTxn s d v).time = s.time := rfl
@[simp] theorem putTxn_rst (s : State) (d : Nat) (v : Option Txn) : (putTxn s d v).rst = s.rst := rfl
@[simp] theorem putTxn_aon (s : State) (d : Nat) (v : Option Txn) : (putTxn s d v).aon = s.aon := rfl
@[simp] theorem putTxn_nv (s : State) (d : Nat) (v : Option Txn) : (putTxn s d v).nv = s.nv := rfl
@[simp] theorem putTxn_opts (s : State) (d : Nat) (v : Option Txn) : (putTxn s d v).opts = s.opts := rfl
@[simp] theorem putTxn_fns (s : State) (d : Nat) (v : Option Txn) : (putTxn s d v).fns = s.fns := rfl
@[simp] theorem putTxn_cmdq (s : State) (d : Nat) (v : Option Txn) : (putTxn s d v).cmdq = s.cmdq := rfl
@[simp] theorem putTxn_turn (s : State) (d : Nat) (v : Option Txn) : (putTxn s d v).turn = s.turn := rfl
@[simp] theorem putTxn_txns (s : State) (d : Nat) (v : Option Txn) : (putTxn s d v).txns = setTxn s.txns d v := rfl
@[simp] theorem putTxn_map (s : State) (d : Nat) (v : Option Txn) : (putTxn s d v).map = s.map := rfl
@[simp] theorem putTxn_cores (s : State) (d : Nat) (v : Option Txn) : (putTxn s d v).cores = s.cores := rfl
@[simp] theorem putTxn_regions (s : State) (d : Nat) (v : Option Txn) : (putTxn s d v).regions = s.regions := rfl
@[simp] theorem putTxn_hubSense (s : State) (d : Nat) (v : Option Txn) : (putTxn s d v).hubSense = s.hubSense := rfl
@[simp] theorem putTxn_bandgap (s : State) (d : Nat) (v : Option Txn) : (putTxn s d v).bandgap = s.bandgap := rfl
@[simp] theorem putTxn_formes (s : State) (d : Nat) (v : Option Txn) : (putTxn s d v).formes = s.formes := rfl
@[simp] theorem putTxn_plates (s : State) (d : Nat) (v : Option Txn) : (putTxn s d v).plates = s.plates := rfl
@[simp] theorem putTxn_arr (s : State) (d : Nat) (v : Option Txn) : (putTxn s d v).arr = s.arr := rfl
@[simp] theorem putTxn_sched (s : State) (d : Nat) (v : Option Txn) : (putTxn s d v).sched = s.sched := rfl
@[simp] theorem putTxn_reqs (s : State) (d : Nat) (v : Option Txn) : (putTxn s d v).reqs = s.reqs := rfl
@[simp] theorem putTxn_gens (s : State) (d : Nat) (v : Option Txn) : (putTxn s d v).gens = s.gens := rfl
@[simp] theorem putTxn_tenants (s : State) (d : Nat) (v : Option Txn) : (putTxn s d v).tenants = s.tenants := rfl
@[simp] theorem putTxn_overlays (s : State) (d : Nat) (v : Option Txn) : (putTxn s d v).overlays = s.overlays := rfl
@[simp] theorem putTxn_kv (s : State) (d : Nat) (v : Option Txn) : (putTxn s d v).kv = s.kv := rfl
@[simp] theorem putTxn_web (s : State) (d : Nat) (v : Option Txn) : (putTxn s d v).web = s.web := rfl
@[simp] theorem putTxn_share (s : State) (d : Nat) (v : Option Txn) : (putTxn s d v).share = s.share := rfl
@[simp] theorem putTxn_faults (s : State) (d : Nat) (v : Option Txn) : (putTxn s d v).faults = s.faults := rfl
@[simp] theorem putTxn_sec (s : State) (d : Nat) (v : Option Txn) : (putTxn s d v).sec = s.sec := rfl
@[simp] theorem putTxn_therm (s : State) (d : Nat) (v : Option Txn) : (putTxn s d v).therm = s.therm := rfl
@[simp] theorem putTxn_ql (s : State) (d : Nat) (v : Option Txn) : (putTxn s d v).ql = s.ql := rfl
@[simp] theorem putTxn_pci (s : State) (d : Nat) (v : Option Txn) : (putTxn s d v).pci = s.pci := rfl
@[simp] theorem putTxn_side (s : State) (d : Nat) (v : Option Txn) : (putTxn s d v).side = s.side := rfl
@[simp] theorem putTxn_pins (s : State) (d : Nat) (v : Option Txn) : (putTxn s d v).pins = s.pins := rfl
@[simp] theorem putTxn_power (s : State) (d : Nat) (v : Option Txn) : (putTxn s d v).power = s.power := rfl
@[simp] theorem putTxn_seen (s : State) (d : Nat) (v : Option Txn) : (putTxn s d v).seen = s.seen := rfl

/-! ### setWait -/

@[simp] theorem setWait_pending (s : State) (fn seq : Nat) (w : Wait) : (setWait s fn seq w).pending = s.pending := rfl
@[simp] theorem setWait_free (s : State) (fn seq : Nat) (w : Wait) : (setWait s fn seq w).free = s.free := rfl
@[simp] theorem setWait_out (s : State) (fn seq : Nat) (w : Wait) : (setWait s fn seq w).out = s.out := rfl
@[simp] theorem setWait_time (s : State) (fn seq : Nat) (w : Wait) : (setWait s fn seq w).time = s.time := rfl
@[simp] theorem setWait_rst (s : State) (fn seq : Nat) (w : Wait) : (setWait s fn seq w).rst = s.rst := rfl
@[simp] theorem setWait_aon (s : State) (fn seq : Nat) (w : Wait) : (setWait s fn seq w).aon = s.aon := rfl
@[simp] theorem setWait_nv (s : State) (fn seq : Nat) (w : Wait) : (setWait s fn seq w).nv = s.nv := rfl
@[simp] theorem setWait_opts (s : State) (fn seq : Nat) (w : Wait) : (setWait s fn seq w).opts = s.opts := rfl
@[simp] theorem setWait_fns (s : State) (fn seq : Nat) (w : Wait) : (setWait s fn seq w).fns = s.fns := rfl
@[simp] theorem setWait_cmdq (s : State) (fn seq : Nat) (w : Wait) : (setWait s fn seq w).cmdq = modFirst (sameCmd fn seq) (fun e => { e with wait := w, attempts := 0 }) s.cmdq := rfl
@[simp] theorem setWait_turn (s : State) (fn seq : Nat) (w : Wait) : (setWait s fn seq w).turn = s.turn := rfl
@[simp] theorem setWait_txns (s : State) (fn seq : Nat) (w : Wait) : (setWait s fn seq w).txns = s.txns := rfl
@[simp] theorem setWait_map (s : State) (fn seq : Nat) (w : Wait) : (setWait s fn seq w).map = s.map := rfl
@[simp] theorem setWait_cores (s : State) (fn seq : Nat) (w : Wait) : (setWait s fn seq w).cores = s.cores := rfl
@[simp] theorem setWait_regions (s : State) (fn seq : Nat) (w : Wait) : (setWait s fn seq w).regions = s.regions := rfl
@[simp] theorem setWait_hubSense (s : State) (fn seq : Nat) (w : Wait) : (setWait s fn seq w).hubSense = s.hubSense := rfl
@[simp] theorem setWait_bandgap (s : State) (fn seq : Nat) (w : Wait) : (setWait s fn seq w).bandgap = s.bandgap := rfl
@[simp] theorem setWait_formes (s : State) (fn seq : Nat) (w : Wait) : (setWait s fn seq w).formes = s.formes := rfl
@[simp] theorem setWait_plates (s : State) (fn seq : Nat) (w : Wait) : (setWait s fn seq w).plates = s.plates := rfl
@[simp] theorem setWait_arr (s : State) (fn seq : Nat) (w : Wait) : (setWait s fn seq w).arr = s.arr := rfl
@[simp] theorem setWait_sched (s : State) (fn seq : Nat) (w : Wait) : (setWait s fn seq w).sched = s.sched := rfl
@[simp] theorem setWait_reqs (s : State) (fn seq : Nat) (w : Wait) : (setWait s fn seq w).reqs = s.reqs := rfl
@[simp] theorem setWait_gens (s : State) (fn seq : Nat) (w : Wait) : (setWait s fn seq w).gens = s.gens := rfl
@[simp] theorem setWait_tenants (s : State) (fn seq : Nat) (w : Wait) : (setWait s fn seq w).tenants = s.tenants := rfl
@[simp] theorem setWait_overlays (s : State) (fn seq : Nat) (w : Wait) : (setWait s fn seq w).overlays = s.overlays := rfl
@[simp] theorem setWait_kv (s : State) (fn seq : Nat) (w : Wait) : (setWait s fn seq w).kv = s.kv := rfl
@[simp] theorem setWait_web (s : State) (fn seq : Nat) (w : Wait) : (setWait s fn seq w).web = s.web := rfl
@[simp] theorem setWait_share (s : State) (fn seq : Nat) (w : Wait) : (setWait s fn seq w).share = s.share := rfl
@[simp] theorem setWait_faults (s : State) (fn seq : Nat) (w : Wait) : (setWait s fn seq w).faults = s.faults := rfl
@[simp] theorem setWait_sec (s : State) (fn seq : Nat) (w : Wait) : (setWait s fn seq w).sec = s.sec := rfl
@[simp] theorem setWait_therm (s : State) (fn seq : Nat) (w : Wait) : (setWait s fn seq w).therm = s.therm := rfl
@[simp] theorem setWait_ql (s : State) (fn seq : Nat) (w : Wait) : (setWait s fn seq w).ql = s.ql := rfl
@[simp] theorem setWait_pci (s : State) (fn seq : Nat) (w : Wait) : (setWait s fn seq w).pci = s.pci := rfl
@[simp] theorem setWait_side (s : State) (fn seq : Nat) (w : Wait) : (setWait s fn seq w).side = s.side := rfl
@[simp] theorem setWait_pins (s : State) (fn seq : Nat) (w : Wait) : (setWait s fn seq w).pins = s.pins := rfl
@[simp] theorem setWait_power (s : State) (fn seq : Nat) (w : Wait) : (setWait s fn seq w).power = s.power := rfl
@[simp] theorem setWait_seen (s : State) (fn seq : Nat) (w : Wait) : (setWait s fn seq w).seen = s.seen := rfl

/-! ### wantBoundary -/

@[simp] theorem wantBoundary_pending (s : State) : (wantBoundary s).pending = s.pending := rfl
@[simp] theorem wantBoundary_free (s : State) : (wantBoundary s).free = s.free := rfl
@[simp] theorem wantBoundary_out (s : State) : (wantBoundary s).out = s.out := rfl
@[simp] theorem wantBoundary_time (s : State) : (wantBoundary s).time = s.time := rfl
@[simp] theorem wantBoundary_rst (s : State) : (wantBoundary s).rst = s.rst := rfl
@[simp] theorem wantBoundary_aon (s : State) : (wantBoundary s).aon = s.aon := rfl
@[simp] theorem wantBoundary_nv (s : State) : (wantBoundary s).nv = s.nv := rfl
@[simp] theorem wantBoundary_opts (s : State) : (wantBoundary s).opts = s.opts := rfl
@[simp] theorem wantBoundary_fns (s : State) : (wantBoundary s).fns = s.fns := rfl
@[simp] theorem wantBoundary_cmdq (s : State) : (wantBoundary s).cmdq = s.cmdq := rfl
@[simp] theorem wantBoundary_turn (s : State) : (wantBoundary s).turn = s.turn := rfl
@[simp] theorem wantBoundary_txns (s : State) : (wantBoundary s).txns = s.txns := rfl
@[simp] theorem wantBoundary_map (s : State) : (wantBoundary s).map = s.map := rfl
@[simp] theorem wantBoundary_cores (s : State) : (wantBoundary s).cores = s.cores := rfl
@[simp] theorem wantBoundary_regions (s : State) : (wantBoundary s).regions = s.regions := rfl
@[simp] theorem wantBoundary_hubSense (s : State) : (wantBoundary s).hubSense = s.hubSense := rfl
@[simp] theorem wantBoundary_bandgap (s : State) : (wantBoundary s).bandgap = s.bandgap := rfl
@[simp] theorem wantBoundary_formes (s : State) : (wantBoundary s).formes = s.formes := rfl
@[simp] theorem wantBoundary_plates (s : State) : (wantBoundary s).plates = s.plates := rfl
@[simp] theorem wantBoundary_arr (s : State) : (wantBoundary s).arr = s.arr := rfl
@[simp] theorem wantBoundary_sched (s : State) : (wantBoundary s).sched = { s.sched with wantBoundary := true } := rfl
@[simp] theorem wantBoundary_reqs (s : State) : (wantBoundary s).reqs = s.reqs := rfl
@[simp] theorem wantBoundary_gens (s : State) : (wantBoundary s).gens = s.gens := rfl
@[simp] theorem wantBoundary_tenants (s : State) : (wantBoundary s).tenants = s.tenants := rfl
@[simp] theorem wantBoundary_overlays (s : State) : (wantBoundary s).overlays = s.overlays := rfl
@[simp] theorem wantBoundary_kv (s : State) : (wantBoundary s).kv = s.kv := rfl
@[simp] theorem wantBoundary_web (s : State) : (wantBoundary s).web = s.web := rfl
@[simp] theorem wantBoundary_share (s : State) : (wantBoundary s).share = s.share := rfl
@[simp] theorem wantBoundary_faults (s : State) : (wantBoundary s).faults = s.faults := rfl
@[simp] theorem wantBoundary_sec (s : State) : (wantBoundary s).sec = s.sec := rfl
@[simp] theorem wantBoundary_therm (s : State) : (wantBoundary s).therm = s.therm := rfl
@[simp] theorem wantBoundary_ql (s : State) : (wantBoundary s).ql = s.ql := rfl
@[simp] theorem wantBoundary_pci (s : State) : (wantBoundary s).pci = s.pci := rfl
@[simp] theorem wantBoundary_side (s : State) : (wantBoundary s).side = s.side := rfl
@[simp] theorem wantBoundary_pins (s : State) : (wantBoundary s).pins = s.pins := rfl
@[simp] theorem wantBoundary_power (s : State) : (wantBoundary s).power = s.power := rfl
@[simp] theorem wantBoundary_seen (s : State) : (wantBoundary s).seen = s.seen := rfl

end Sys2Proof.Machine
end

