-- ==== Sys2Proof/Laws/Ops.lean ====
section
/-! SUPPORT. Laws of the sparse tables and memories, of the accessors of State's blocks, and of replies. -/

namespace Sys2Proof.Machine

/-! ## Tables: read after write -/

@[simp] theorem tfind_nil {α : Type} (k : Nat) : tfind ([] : Tbl α) k = none := rfl

theorem tfind_tput {α : Type} (m : Tbl α) (k k' : Nat) (v : α) : tfind (tput m k v) k' = if k' = k then some v else tfind m k' := by
  induction m with
  | nil => simp [tput, tfind]
  | cons e r ih =>
    obtain ⟨a, b⟩ := e
    simp only [tput]
    split
    · simp [tfind]
    · split
      · next h1 h2 => subst h2; by_cases h : k' = k <;> simp [tfind, h]
      · next h1 h2 =>
        simp only [tfind, ih]
        by_cases h : k' = a
        · subst h; simp [Ne.symm h2]
        · simp [h]

@[simp] theorem tfind_tput_same {α : Type} (m : Tbl α) (k : Nat) (v : α) : tfind (tput m k v) k = some v := by simp [tfind_tput]

theorem tfind_filter {α : Type} (m : Tbl α) (p : Nat → Bool) (k : Nat) :
    tfind (m.filter (fun e => p e.1)) k = if p k then tfind m k else none := by
  induction m with
  | nil => simp
  | cons e r ih =>
    obtain ⟨a, b⟩ := e
    by_cases hp : p a <;> by_cases hk : k = a <;> simp_all [List.filter, tfind]

theorem tfind_tdel {α : Type} (m : Tbl α) (k k' : Nat) : tfind (tdel m k) k' = if k' = k then none else tfind m k' := by
  have h := tfind_filter m (fun a => a != k) k'
  by_cases hk : k' = k <;> simp_all [tdel]

@[simp] theorem tfind_tdel_same {α : Type} (m : Tbl α) (k : Nat) : tfind (tdel m k) k = none := by simp [tfind_tdel]

theorem tget_tset {α : Type} [DecidableEq α] (d : α) (m : Tbl α) (k k' : Nat) (v : α) :
    tget d (tset d m k v) k' = if k' = k then v else tget d m k' := by
  by_cases h : k' = k <;> by_cases hv : v = d <;> simp_all [tget, tset, tfind_tput, tfind_tdel]

@[simp] theorem tget_tset_same {α : Type} [DecidableEq α] (d : α) (m : Tbl α) (k : Nat) (v : α) : tget d (tset d m k v) k = v := by
  simp [tget_tset]

@[simp] theorem tget_tset_ne {α : Type} [DecidableEq α] (d : α) (m : Tbl α) {k k' : Nat} (v : α) (h : k' ≠ k) :
    tget d (tset d m k v) k' = tget d m k' := by simp [tget_tset, h]

@[simp] theorem tget_nil {α : Type} (d : α) (k : Nat) : tget d [] k = d := rfl

theorem tfind_tmap {α : Type} [DecidableEq α] (d : α) (f : Nat → α → α) (m : Tbl α) (k : Nat) :
    tfind (tmap d f m) k = (tfind m k).bind (fun v => if f k v = d then none else some (f k v)) := by
  induction m with
  | nil => rfl
  | cons e r ih =>
    obtain ⟨a, b⟩ := e
    simp only [tmap]
    by_cases hk : k = a
    · subst hk
      split <;> simp_all [tfind]
    · split <;> simp_all [tfind, tfind_tdel]

/-- Mapping a table applies the function to what every key reads as, when the default maps to itself. -/
theorem tget_tmap {α : Type} [DecidableEq α] (d : α) (f : Nat → α → α) (m : Tbl α) (k : Nat) (hd : f k d = d) :
    tget d (tmap d f m) k = f k (tget d m k) := by
  simp only [tget, tfind_tmap]
  cases tfind m k with
  | none => simp [hd]
  | some v => by_cases h : f k v = d <;> simp [h]

/-! ## Tables: keys stay strictly rising -/

/-- Rising keys as a relation between neighbours' keys. -/
theorem rising_iff {α : Type} (m : Tbl α) : Tbl.rising m = true ↔ (m.map (·.1)).Pairwise (· < ·) := by
  induction m with
  | nil => simp [Tbl.rising]
  | cons e r ih =>
    cases r with
    | nil => simp [Tbl.rising]
    | cons f q =>
      simp only [Tbl.rising, Bool.and_eq_true, decide_eq_true_eq, ih]
      constructor
      · rintro ⟨h, hp⟩
        simp only [List.map_cons, List.pairwise_cons] at hp ⊢
        refine ⟨?_, hp⟩
        intro a ha
        rcases List.mem_cons.mp ha with rfl | ha
        · exact h
        · exact Nat.lt_trans h (hp.1 a ha)
      · intro hp
        simp only [List.map_cons, List.pairwise_cons] at hp ⊢
        exact ⟨hp.1 _ (by simp), hp.2⟩

theorem mem_keys_tput {α : Type} (m : Tbl α) (k : Nat) (v : α) (a : Nat) :
    a ∈ (tput m k v).map (·.1) → a = k ∨ a ∈ m.map (·.1) := by
  induction m with
  | nil => simp [tput]
  | cons e r ih =>
    obtain ⟨x, y⟩ := e
    simp only [tput]
    split
    · simp
    · split
      · next h1 h2 => subst h2; simp
      · simp only [List.map_cons, List.mem_cons]
        rintro (h | h)
        · exact Or.inr (Or.inl h)
        · rcases ih h with h | h
          · exact Or.inl h
          · exact Or.inr (Or.inr h)

theorem rising_tput {α : Type} (m : Tbl α) (k : Nat) (v : α) (h : Tbl.rising m = true) : Tbl.rising (tput m k v) = true := by
  rw [rising_iff] at *
  induction m with
  | nil => simp [tput]
  | cons e r ih =>
    obtain ⟨x, y⟩ := e
    simp only [List.map_cons, List.pairwise_cons] at h
    simp only [tput]
    split
    · next h1 =>
      simp only [List.map_cons, List.pairwise_cons, List.mem_cons]
      refine ⟨?_, h⟩
      rintro a (rfl | ha)
      · exact h1
      · exact Nat.lt_trans h1 (h.1 a ha)
    · split
      · next h1 h2 => subst h2; simpa using h
      · next h1 h2 =>
        simp only [List.map_cons, List.pairwise_cons]
        refine ⟨?_, ih h.2⟩
        intro a ha
        rcases mem_keys_tput r k v a ha with rfl | ha
        · omega
        · exact h.1 a ha

theorem rising_filter {α : Type} (m : Tbl α) (p : Nat × α → Bool) (h : Tbl.rising m = true) : Tbl.rising (m.filter p) = true := by
  rw [rising_iff] at *
  exact h.sublist (List.Sublist.map _ List.filter_sublist)

theorem rising_tdel {α : Type} (m : Tbl α) (k : Nat) (h : Tbl.rising m = true) : Tbl.rising (tdel m k) = true := rising_filter m _ h

theorem rising_tset {α : Type} [DecidableEq α] (d : α) (m : Tbl α) (k : Nat) (v : α) (h : Tbl.rising m = true) :
    Tbl.rising (tset d m k v) = true := by
  unfold tset
  split
  · exact rising_tdel m k h
  · exact rising_tput m k v h

/-! ## Memories -/

theorem mget_mput (m : List Host.Cell) (a b : Nat) (v : Byte) : mget (mput m a v) b = if b = a then v else mget m b :=
  tget_tset _ m a b v

theorem mem_tput {α : Type} (m : Tbl α) (k : Nat) (v : α) (e : Nat × α) : e ∈ tput m k v → e = (k, v) ∨ e ∈ m := by
  induction m with
  | nil => simp [tput]
  | cons f r ih =>
    simp only [tput]
    split
    · simp
    · split
      · simp; tauto
      · simp only [List.mem_cons]
        rintro (h | h)
        · exact Or.inr (Or.inl h)
        · rcases ih h with h | h
          · exact Or.inl h
          · exact Or.inr (Or.inr h)

/-- A write of one byte keeps the canonical form. -/
theorem memory_wf_mput (m : List Host.Cell) (a : Nat) (v : Byte) (h : Memory.wf m = true) : Memory.wf (mput m a v) = true := by
  simp only [Memory.wf, Bool.and_eq_true] at *
  refine ⟨rising_tset 0 m a v h.1, ?_⟩
  simp only [List.all_eq_true] at *
  intro c hc
  unfold mput tset at hc
  split at hc
  · exact h.2 c (List.mem_of_mem_filter hc)
  · next hv =>
    rcases mem_tput m a v c hc with rfl | hc
    · simpa using hv
    · exact h.2 c hc

/-- A write of bytes keeps the canonical form. -/
theorem memory_wf_mwrite (b : List Byte) (m : List Host.Cell) (a : Nat) (h : Memory.wf m = true) : Memory.wf (mwrite m a b) = true := by
  induction b generalizing m a with
  | nil => exact h
  | cons x xs ih => exact ih _ _ (memory_wf_mput m a x h)

/-- What a write of bytes leaves: every byte outside it. -/
theorem mget_mwrite_outside (b : List Byte) (m : List Host.Cell) (a c : Nat) (h : c < a ∨ a + b.length ≤ c) :
    mget (mwrite m a b) c = mget m c := by
  induction b generalizing m a with
  | nil => rfl
  | cons x xs ih =>
    simp only [List.length_cons] at h
    simp only [mwrite]
    rw [ih _ _ (by omega), mget_mput, if_neg (by omega)]

/-- What a write of bytes stores. -/
theorem mget_mwrite_inside (b : List Byte) (m : List Host.Cell) (a i : Nat) (h : i < b.length) :
    mget (mwrite m a b) (a + i) = b[i] := by
  induction b generalizing m a i with
  | nil => simp at h
  | cons x xs ih =>
    simp only [mwrite]
    cases i with
    | zero => rw [mget_mwrite_outside _ _ _ _ (by omega), mget_mput]; simp
    | succ j => rw [show a + (j + 1) = a + 1 + j by omega, ih _ _ _ (by simpa using h)]; simp

/-! ## Accessors of blocks -/

@[simp] theorem fnOf_setFn (s : State) (f : Nat) (b : FnBlk) : fnOf (setFn s f b) f = b := tget_tset_same _ _ _ _
@[simp] theorem fnOf_setFn_ne (s : State) {f g : Nat} (b : FnBlk) (h : g ≠ f) : fnOf (setFn s f b) g = fnOf s g := tget_tset_ne _ _ _ h
theorem modFn_eq (s : State) (f : Nat) (g : FnBlk → FnBlk) : modFn s f g = setFn s f (g (fnOf s f)) := rfl

@[simp] theorem coreOf_setCore (s : State) (k : Nat) (c : Core) : coreOf (setCore s k c) k = c := tget_tset_same _ _ _ _
@[simp] theorem coreOf_setCore_ne (s : State) {k j : Nat} (c : Core) (h : j ≠ k) : coreOf (setCore s k c) j = coreOf s j :=
  tget_tset_ne _ _ _ h
theorem modCore_eq (s : State) (k : Nat) (g : Core → Core) : modCore s k g = setCore s k (g (coreOf s k)) := rfl

@[simp] theorem tileOf_setTile (c : Core) (t : Nat) (x : Tile) : tileOf (setTile c t x) t = x := tget_tset_same _ _ _ _
@[simp] theorem tileOf_setTile_ne (c : Core) {t u : Nat} (x : Tile) (h : u ≠ t) : tileOf (setTile c t x) u = tileOf c u :=
  tget_tset_ne _ _ _ h

@[simp] theorem regionOf_setRegion (s : State) (k : Nat) (r : Region) : regionOf (setRegion s k r) k = r := tget_tset_same _ _ _ _
@[simp] theorem regionOf_setRegion_ne (s : State) {k j : Nat} (r : Region) (h : j ≠ k) : regionOf (setRegion s k r) j = regionOf s j :=
  tget_tset_ne _ _ _ h
theorem modRegion_eq (s : State) (k : Nat) (g : Region → Region) : modRegion s k g = setRegion s k (g (regionOf s k)) := rfl

@[simp] theorem tenantOf_setTenant (s : State) (n : Nat) (x : Tenant) : tenantOf (setTenant s n x) n = x := tget_tset_same _ _ _ _
@[simp] theorem tenantOf_setTenant_ne (s : State) {n m : Nat} (x : Tenant) (h : m ≠ n) : tenantOf (setTenant s n x) m = tenantOf s m :=
  tget_tset_ne _ _ _ h
theorem modTenant_eq (s : State) (n : Nat) (g : Tenant → Tenant) : modTenant s n g = setTenant s n (g (tenantOf s n)) := rfl

@[simp] theorem portOf_setPort (s : State) (p : Nat) (x : Port) : portOf (setPort s p x) p = x := tget_tset_same _ _ _ _
@[simp] theorem portOf_setPort_ne (s : State) {p q : Nat} (x : Port) (h : q ≠ p) : portOf (setPort s p x) q = portOf s q :=
  tget_tset_ne _ _ _ h
theorem modPort_eq (s : State) (p : Nat) (g : Port → Port) : modPort s p g = setPort s p (g (portOf s p)) := rfl

@[simp] theorem timerOf_setTimer (s : State) (n : Nat) (x : Timer) : timerOf (setTimer s n x) n = x := tget_tset_same _ _ _ _
@[simp] theorem timerOf_setTimer_ne (s : State) {n m : Nat} (x : Timer) (h : m ≠ n) : timerOf (setTimer s n x) m = timerOf s m :=
  tget_tset_ne _ _ _ h

@[simp] theorem reqOf_setReq (s : State) (i : Nat) (r : Req) : reqOf (setReq s i r) i = some r := tfind_tput_same _ _ _
@[simp] theorem reqOf_setReq_ne (s : State) {i j : Nat} (r : Req) (h : j ≠ i) : reqOf (setReq s i r) j = reqOf s j := by
  simp [reqOf, tfind_tput, h]
@[simp] theorem reqOf_delReq (s : State) (i : Nat) : reqOf (delReq s i) i = none := tfind_tdel_same _ _

@[simp] theorem chanOf_setChan (s : State) (w : Nat) (c : Channel) : chanOf (setChan s w c) w = some c := tfind_tput_same _ _ _
@[simp] theorem chanOf_setChan_ne (s : State) {w v : Nat} (c : Channel) (h : v ≠ w) : chanOf (setChan s w c) v = chanOf s v := by
  simp [chanOf, tfind_tput, h]

@[simp] theorem advance_base (t : Nat) (s : State) : (advance t s).time.base = max s.time.base t := rfl

/-! ## Transactions -/

@[simp] theorem txnOf_setTxn (x : TxnBlk) (d : Nat) (v : Option Txn) : txnOf (setTxn x d v) d = v := by
  rcases d with _ | _ | _ | d <;> rfl

theorem txnOf_setTxn_ne (x : TxnBlk) (d e : Nat) (v : Option Txn) (h : d ≤ 3) (h' : e ≤ 3) (hn : e ≠ d) :
    txnOf (setTxn x d v) e = txnOf x e := by
  rcases d with _ | _ | _ | d <;> rcases e with _ | _ | _ | e <;> simp_all [txnOf, setTxn] <;> omega

@[simp] theorem setTxn_nextId (x : TxnBlk) (d : Nat) (v : Option Txn) : (setTxn x d v).nextId = x.nextId := by
  unfold setTxn; split <;> rfl

/-! ## Replies -/

/-- All that sending and counting a reply can change. -/
def ReplyOnly (s u : State) : Prop :=
  u = { s with cmdq := u.cmdq, fns := u.fns, out := u.out, free := u.free, txns := u.txns }

theorem ReplyOnly.refl (s : State) : ReplyOnly s s := rfl

theorem ReplyOnly.trans {s u v : State} (h : ReplyOnly s u) (g : ReplyOnly u v) : ReplyOnly s v := by
  unfold ReplyOnly at *
  rw [g, h]

theorem replyOnly_setFn (s : State) (f : Nat) (b : FnBlk) : ReplyOnly s (setFn s f b) := rfl
theorem replyOnly_emit (s : State) (o : Out) : ReplyOnly s (emit s o) := rfl
theorem replyOnly_drawn (s : State) : ReplyOnly s (drawn s) := rfl
theorem replyOnly_putTxn (s : State) (d : Nat) (v : Option Txn) : ReplyOnly s (putTxn s d v) := rfl

theorem replyOnly_sendMsix (s : State) (fn v : Nat) : ReplyOnly s (sendMsix s fn v) := by
  simp only [sendMsix]
  repeat' split
  all_goals rfl

theorem replyOnly_hostWrite (s : State) (fn a : Nat) (bs : List Byte) : ReplyOnly s (hostWrite s fn a bs) := rfl

theorem replyOnly_touchTxn (s : State) (id : Nat) : ReplyOnly s (touchTxn s id) := by
  simp only [touchTxn]
  split <;> rfl

theorem replyOnly_modFn (s : State) (fn : Nat) (f : FnBlk → FnBlk) : ReplyOnly s (modFn s fn f) := rfl

theorem replyOnly_ite (s u v : State) (b : Bool) (hu : ReplyOnly s u) (hv : ReplyOnly s v) : ReplyOnly s (if b then u else v) := by
  cases b
  · exact hv
  · exact hu

theorem replyOnly_writeReply (s : State) (r : Reply) : ReplyOnly s (writeReply s r) := by
  have h0 : ReplyOnly s (if r.taken.isSome then touchTxn s r.txn else s) :=
    replyOnly_ite _ _ _ _ (replyOnly_touchTxn _ _) (ReplyOnly.refl s)
  unfold writeReply
  generalize (if r.taken.isSome then touchTxn s r.txn else s) = s' at h0 ⊢
  refine h0.trans ?_
  refine replyOnly_ite _ _ _ _ ?_ ?_
  · exact ((replyOnly_hostWrite _ _ _ _).trans (replyOnly_setFn _ _ _)).trans (replyOnly_sendMsix _ _ _)
  · exact (replyOnly_hostWrite _ _ _ _).trans (replyOnly_setFn _ _ _)

theorem replyOnly_pushReply (s : State) (r : Reply) : ReplyOnly s (pushReply s r) := by
  simp only [pushReply]
  split
  · exact replyOnly_writeReply s r
  · rfl

theorem replyOnly_finish (s : State) (fn seq : Nat) (st : Status) (c : Cond) (r0 r1 : Nat) :
    ReplyOnly s (finish s fn seq st c r0 r1) := by
  unfold finish
  cases he : findCmd s fn seq with
  | none => exact ReplyOnly.refl s
  | some e =>
    have h1 : ReplyOnly s { s with cmdq := s.cmdq.eraseP (sameCmd fn seq) } := rfl
    refine h1.trans (replyOnly_ite _ _ _ _ ?_ ?_)
    · exact (replyOnly_touchTxn _ _).trans (replyOnly_modFn _ _ _)
    · refine (replyOnly_drawn _).trans (replyOnly_ite _ _ _ _ (replyOnly_pushReply _ _) rfl)

end Sys2Proof.Machine
end

