-- ==== Sys2Proof/Laws/Replies.lean ====
section
/-! SUPPORT. Fields that replies and the command queue leave unchanged. -/

namespace Sys2Proof.Machine

open Sys2Proof.Safety

/-! ### ReplyOnly -/

theorem replyOnly_pending {s u : State} (h : ReplyOnly s u) : u.pending = s.pending := (congrArg State.pending h).trans rfl
theorem replyOnly_time {s u : State} (h : ReplyOnly s u) : u.time = s.time := (congrArg State.time h).trans rfl
theorem replyOnly_rst {s u : State} (h : ReplyOnly s u) : u.rst = s.rst := (congrArg State.rst h).trans rfl
theorem replyOnly_aon {s u : State} (h : ReplyOnly s u) : u.aon = s.aon := (congrArg State.aon h).trans rfl
theorem replyOnly_nv {s u : State} (h : ReplyOnly s u) : u.nv = s.nv := (congrArg State.nv h).trans rfl
theorem replyOnly_opts {s u : State} (h : ReplyOnly s u) : u.opts = s.opts := (congrArg State.opts h).trans rfl
theorem replyOnly_turn {s u : State} (h : ReplyOnly s u) : u.turn = s.turn := (congrArg State.turn h).trans rfl
theorem replyOnly_map {s u : State} (h : ReplyOnly s u) : u.map = s.map := (congrArg State.map h).trans rfl
theorem replyOnly_cores {s u : State} (h : ReplyOnly s u) : u.cores = s.cores := (congrArg State.cores h).trans rfl
theorem replyOnly_regions {s u : State} (h : ReplyOnly s u) : u.regions = s.regions := (congrArg State.regions h).trans rfl
theorem replyOnly_hubSense {s u : State} (h : ReplyOnly s u) : u.hubSense = s.hubSense := (congrArg State.hubSense h).trans rfl
theorem replyOnly_bandgap {s u : State} (h : ReplyOnly s u) : u.bandgap = s.bandgap := (congrArg State.bandgap h).trans rfl
theorem replyOnly_formes {s u : State} (h : ReplyOnly s u) : u.formes = s.formes := (congrArg State.formes h).trans rfl
theorem replyOnly_plates {s u : State} (h : ReplyOnly s u) : u.plates = s.plates := (congrArg State.plates h).trans rfl
theorem replyOnly_arr {s u : State} (h : ReplyOnly s u) : u.arr = s.arr := (congrArg State.arr h).trans rfl
theorem replyOnly_sched {s u : State} (h : ReplyOnly s u) : u.sched = s.sched := (congrArg State.sched h).trans rfl
theorem replyOnly_reqs {s u : State} (h : ReplyOnly s u) : u.reqs = s.reqs := (congrArg State.reqs h).trans rfl
theorem replyOnly_gens {s u : State} (h : ReplyOnly s u) : u.gens = s.gens := (congrArg State.gens h).trans rfl
theorem replyOnly_tenants {s u : State} (h : ReplyOnly s u) : u.tenants = s.tenants := (congrArg State.tenants h).trans rfl
theorem replyOnly_overlays {s u : State} (h : ReplyOnly s u) : u.overlays = s.overlays := (congrArg State.overlays h).trans rfl
theorem replyOnly_kv {s u : State} (h : ReplyOnly s u) : u.kv = s.kv := (congrArg State.kv h).trans rfl
theorem replyOnly_web {s u : State} (h : ReplyOnly s u) : u.web = s.web := (congrArg State.web h).trans rfl
theorem replyOnly_share {s u : State} (h : ReplyOnly s u) : u.share = s.share := (congrArg State.share h).trans rfl
theorem replyOnly_faults {s u : State} (h : ReplyOnly s u) : u.faults = s.faults := (congrArg State.faults h).trans rfl
theorem replyOnly_sec {s u : State} (h : ReplyOnly s u) : u.sec = s.sec := (congrArg State.sec h).trans rfl
theorem replyOnly_therm {s u : State} (h : ReplyOnly s u) : u.therm = s.therm := (congrArg State.therm h).trans rfl
theorem replyOnly_ql {s u : State} (h : ReplyOnly s u) : u.ql = s.ql := (congrArg State.ql h).trans rfl
theorem replyOnly_pci {s u : State} (h : ReplyOnly s u) : u.pci = s.pci := (congrArg State.pci h).trans rfl
theorem replyOnly_side {s u : State} (h : ReplyOnly s u) : u.side = s.side := (congrArg State.side h).trans rfl
theorem replyOnly_pins {s u : State} (h : ReplyOnly s u) : u.pins = s.pins := (congrArg State.pins h).trans rfl
theorem replyOnly_power {s u : State} (h : ReplyOnly s u) : u.power = s.power := (congrArg State.power h).trans rfl
theorem replyOnly_seen {s u : State} (h : ReplyOnly s u) : u.seen = s.seen := (congrArg State.seen h).trans rfl

/-! ### pushReply -/

@[simp] theorem pushReply_pending (s : State) (r : Reply) : (pushReply s r).pending = s.pending := replyOnly_pending (replyOnly_pushReply s r)
@[simp] theorem pushReply_time (s : State) (r : Reply) : (pushReply s r).time = s.time := replyOnly_time (replyOnly_pushReply s r)
@[simp] theorem pushReply_rst (s : State) (r : Reply) : (pushReply s r).rst = s.rst := replyOnly_rst (replyOnly_pushReply s r)
@[simp] theorem pushReply_aon (s : State) (r : Reply) : (pushReply s r).aon = s.aon := replyOnly_aon (replyOnly_pushReply s r)
@[simp] theorem pushReply_nv (s : State) (r : Reply) : (pushReply s r).nv = s.nv := replyOnly_nv (replyOnly_pushReply s r)
@[simp] theorem pushReply_opts (s : State) (r : Reply) : (pushReply s r).opts = s.opts := replyOnly_opts (replyOnly_pushReply s r)
@[simp] theorem pushReply_turn (s : State) (r : Reply) : (pushReply s r).turn = s.turn := replyOnly_turn (replyOnly_pushReply s r)
@[simp] theorem pushReply_map (s : State) (r : Reply) : (pushReply s r).map = s.map := replyOnly_map (replyOnly_pushReply s r)
@[simp] theorem pushReply_cores (s : State) (r : Reply) : (pushReply s r).cores = s.cores := replyOnly_cores (replyOnly_pushReply s r)
@[simp] theorem pushReply_regions (s : State) (r : Reply) : (pushReply s r).regions = s.regions := replyOnly_regions (replyOnly_pushReply s r)
@[simp] theorem pushReply_hubSense (s : State) (r : Reply) : (pushReply s r).hubSense = s.hubSense := replyOnly_hubSense (replyOnly_pushReply s r)
@[simp] theorem pushReply_bandgap (s : State) (r : Reply) : (pushReply s r).bandgap = s.bandgap := replyOnly_bandgap (replyOnly_pushReply s r)
@[simp] theorem pushReply_formes (s : State) (r : Reply) : (pushReply s r).formes = s.formes := replyOnly_formes (replyOnly_pushReply s r)
@[simp] theorem pushReply_plates (s : State) (r : Reply) : (pushReply s r).plates = s.plates := replyOnly_plates (replyOnly_pushReply s r)
@[simp] theorem pushReply_arr (s : State) (r : Reply) : (pushReply s r).arr = s.arr := replyOnly_arr (replyOnly_pushReply s r)
@[simp] theorem pushReply_sched (s : State) (r : Reply) : (pushReply s r).sched = s.sched := replyOnly_sched (replyOnly_pushReply s r)
@[simp] theorem pushReply_reqs (s : State) (r : Reply) : (pushReply s r).reqs = s.reqs := replyOnly_reqs (replyOnly_pushReply s r)
@[simp] theorem pushReply_gens (s : State) (r : Reply) : (pushReply s r).gens = s.gens := replyOnly_gens (replyOnly_pushReply s r)
@[simp] theorem pushReply_tenants (s : State) (r : Reply) : (pushReply s r).tenants = s.tenants := replyOnly_tenants (replyOnly_pushReply s r)
@[simp] theorem pushReply_overlays (s : State) (r : Reply) : (pushReply s r).overlays = s.overlays := replyOnly_overlays (replyOnly_pushReply s r)
@[simp] theorem pushReply_kv (s : State) (r : Reply) : (pushReply s r).kv = s.kv := replyOnly_kv (replyOnly_pushReply s r)
@[simp] theorem pushReply_web (s : State) (r : Reply) : (pushReply s r).web = s.web := replyOnly_web (replyOnly_pushReply s r)
@[simp] theorem pushReply_share (s : State) (r : Reply) : (pushReply s r).share = s.share := replyOnly_share (replyOnly_pushReply s r)
@[simp] theorem pushReply_faults (s : State) (r : Reply) : (pushReply s r).faults = s.faults := replyOnly_faults (replyOnly_pushReply s r)
@[simp] theorem pushReply_sec (s : State) (r : Reply) : (pushReply s r).sec = s.sec := replyOnly_sec (replyOnly_pushReply s r)
@[simp] theorem pushReply_therm (s : State) (r : Reply) : (pushReply s r).therm = s.therm := replyOnly_therm (replyOnly_pushReply s r)
@[simp] theorem pushReply_ql (s : State) (r : Reply) : (pushReply s r).ql = s.ql := replyOnly_ql (replyOnly_pushReply s r)
@[simp] theorem pushReply_pci (s : State) (r : Reply) : (pushReply s r).pci = s.pci := replyOnly_pci (replyOnly_pushReply s r)
@[simp] theorem pushReply_side (s : State) (r : Reply) : (pushReply s r).side = s.side := replyOnly_side (replyOnly_pushReply s r)
@[simp] theorem pushReply_pins (s : State) (r : Reply) : (pushReply s r).pins = s.pins := replyOnly_pins (replyOnly_pushReply s r)
@[simp] theorem pushReply_power (s : State) (r : Reply) : (pushReply s r).power = s.power := replyOnly_power (replyOnly_pushReply s r)
@[simp] theorem pushReply_seen (s : State) (r : Reply) : (pushReply s r).seen = s.seen := replyOnly_seen (replyOnly_pushReply s r)

/-! ### finish -/

@[simp] theorem finish_pending (s : State) (fn seq : Nat) (st : Status) (c : Cond) (r0 r1 : Nat) : (finish s fn seq st c r0 r1).pending = s.pending := replyOnly_pending (replyOnly_finish s fn seq st c r0 r1)
@[simp] theorem finish_time (s : State) (fn seq : Nat) (st : Status) (c : Cond) (r0 r1 : Nat) : (finish s fn seq st c r0 r1).time = s.time := replyOnly_time (replyOnly_finish s fn seq st c r0 r1)
@[simp] theorem finish_rst (s : State) (fn seq : Nat) (st : Status) (c : Cond) (r0 r1 : Nat) : (finish s fn seq st c r0 r1).rst = s.rst := replyOnly_rst (replyOnly_finish s fn seq st c r0 r1)
@[simp] theorem finish_aon (s : State) (fn seq : Nat) (st : Status) (c : Cond) (r0 r1 : Nat) : (finish s fn seq st c r0 r1).aon = s.aon := replyOnly_aon (replyOnly_finish s fn seq st c r0 r1)
@[simp] theorem finish_nv (s : State) (fn seq : Nat) (st : Status) (c : Cond) (r0 r1 : Nat) : (finish s fn seq st c r0 r1).nv = s.nv := replyOnly_nv (replyOnly_finish s fn seq st c r0 r1)
@[simp] theorem finish_opts (s : State) (fn seq : Nat) (st : Status) (c : Cond) (r0 r1 : Nat) : (finish s fn seq st c r0 r1).opts = s.opts := replyOnly_opts (replyOnly_finish s fn seq st c r0 r1)
@[simp] theorem finish_turn (s : State) (fn seq : Nat) (st : Status) (c : Cond) (r0 r1 : Nat) : (finish s fn seq st c r0 r1).turn = s.turn := replyOnly_turn (replyOnly_finish s fn seq st c r0 r1)
@[simp] theorem finish_map (s : State) (fn seq : Nat) (st : Status) (c : Cond) (r0 r1 : Nat) : (finish s fn seq st c r0 r1).map = s.map := replyOnly_map (replyOnly_finish s fn seq st c r0 r1)
@[simp] theorem finish_cores (s : State) (fn seq : Nat) (st : Status) (c : Cond) (r0 r1 : Nat) : (finish s fn seq st c r0 r1).cores = s.cores := replyOnly_cores (replyOnly_finish s fn seq st c r0 r1)
@[simp] theorem finish_regions (s : State) (fn seq : Nat) (st : Status) (c : Cond) (r0 r1 : Nat) : (finish s fn seq st c r0 r1).regions = s.regions := replyOnly_regions (replyOnly_finish s fn seq st c r0 r1)
@[simp] theorem finish_hubSense (s : State) (fn seq : Nat) (st : Status) (c : Cond) (r0 r1 : Nat) : (finish s fn seq st c r0 r1).hubSense = s.hubSense := replyOnly_hubSense (replyOnly_finish s fn seq st c r0 r1)
@[simp] theorem finish_bandgap (s : State) (fn seq : Nat) (st : Status) (c : Cond) (r0 r1 : Nat) : (finish s fn seq st c r0 r1).bandgap = s.bandgap := replyOnly_bandgap (replyOnly_finish s fn seq st c r0 r1)
@[simp] theorem finish_formes (s : State) (fn seq : Nat) (st : Status) (c : Cond) (r0 r1 : Nat) : (finish s fn seq st c r0 r1).formes = s.formes := replyOnly_formes (replyOnly_finish s fn seq st c r0 r1)
@[simp] theorem finish_plates (s : State) (fn seq : Nat) (st : Status) (c : Cond) (r0 r1 : Nat) : (finish s fn seq st c r0 r1).plates = s.plates := replyOnly_plates (replyOnly_finish s fn seq st c r0 r1)
@[simp] theorem finish_arr (s : State) (fn seq : Nat) (st : Status) (c : Cond) (r0 r1 : Nat) : (finish s fn seq st c r0 r1).arr = s.arr := replyOnly_arr (replyOnly_finish s fn seq st c r0 r1)
@[simp] theorem finish_sched (s : State) (fn seq : Nat) (st : Status) (c : Cond) (r0 r1 : Nat) : (finish s fn seq st c r0 r1).sched = s.sched := replyOnly_sched (replyOnly_finish s fn seq st c r0 r1)
@[simp] theorem finish_reqs (s : State) (fn seq : Nat) (st : Status) (c : Cond) (r0 r1 : Nat) : (finish s fn seq st c r0 r1).reqs = s.reqs := replyOnly_reqs (replyOnly_finish s fn seq st c r0 r1)
@[simp] theorem finish_gens (s : State) (fn seq : Nat) (st : Status) (c : Cond) (r0 r1 : Nat) : (finish s fn seq st c r0 r1).gens = s.gens := replyOnly_gens (replyOnly_finish s fn seq st c r0 r1)
@[simp] theorem finish_tenants (s : State) (fn seq : Nat) (st : Status) (c : Cond) (r0 r1 : Nat) : (finish s fn seq st c r0 r1).tenants = s.tenants := replyOnly_tenants (replyOnly_finish s fn seq st c r0 r1)
@[simp] theorem finish_overlays (s : State) (fn seq : Nat) (st : Status) (c : Cond) (r0 r1 : Nat) : (finish s fn seq st c r0 r1).overlays = s.overlays := replyOnly_overlays (replyOnly_finish s fn seq st c r0 r1)
@[simp] theorem finish_kv (s : State) (fn seq : Nat) (st : Status) (c : Cond) (r0 r1 : Nat) : (finish s fn seq st c r0 r1).kv = s.kv := replyOnly_kv (replyOnly_finish s fn seq st c r0 r1)
@[simp] theorem finish_web (s : State) (fn seq : Nat) (st : Status) (c : Cond) (r0 r1 : Nat) : (finish s fn seq st c r0 r1).web = s.web := replyOnly_web (replyOnly_finish s fn seq st c r0 r1)
@[simp] theorem finish_share (s : State) (fn seq : Nat) (st : Status) (c : Cond) (r0 r1 : Nat) : (finish s fn seq st c r0 r1).share = s.share := replyOnly_share (replyOnly_finish s fn seq st c r0 r1)
@[simp] theorem finish_faults (s : State) (fn seq : Nat) (st : Status) (c : Cond) (r0 r1 : Nat) : (finish s fn seq st c r0 r1).faults = s.faults := replyOnly_faults (replyOnly_finish s fn seq st c r0 r1)
@[simp] theorem finish_sec (s : State) (fn seq : Nat) (st : Status) (c : Cond) (r0 r1 : Nat) : (finish s fn seq st c r0 r1).sec = s.sec := replyOnly_sec (replyOnly_finish s fn seq st c r0 r1)
@[simp] theorem finish_therm (s : State) (fn seq : Nat) (st : Status) (c : Cond) (r0 r1 : Nat) : (finish s fn seq st c r0 r1).therm = s.therm := replyOnly_therm (replyOnly_finish s fn seq st c r0 r1)
@[simp] theorem finish_ql (s : State) (fn seq : Nat) (st : Status) (c : Cond) (r0 r1 : Nat) : (finish s fn seq st c r0 r1).ql = s.ql := replyOnly_ql (replyOnly_finish s fn seq st c r0 r1)
@[simp] theorem finish_pci (s : State) (fn seq : Nat) (st : Status) (c : Cond) (r0 r1 : Nat) : (finish s fn seq st c r0 r1).pci = s.pci := replyOnly_pci (replyOnly_finish s fn seq st c r0 r1)
@[simp] theorem finish_side (s : State) (fn seq : Nat) (st : Status) (c : Cond) (r0 r1 : Nat) : (finish s fn seq st c r0 r1).side = s.side := replyOnly_side (replyOnly_finish s fn seq st c r0 r1)
@[simp] theorem finish_pins (s : State) (fn seq : Nat) (st : Status) (c : Cond) (r0 r1 : Nat) : (finish s fn seq st c r0 r1).pins = s.pins := replyOnly_pins (replyOnly_finish s fn seq st c r0 r1)
@[simp] theorem finish_power (s : State) (fn seq : Nat) (st : Status) (c : Cond) (r0 r1 : Nat) : (finish s fn seq st c r0 r1).power = s.power := replyOnly_power (replyOnly_finish s fn seq st c r0 r1)
@[simp] theorem finish_seen (s : State) (fn seq : Nat) (st : Status) (c : Cond) (r0 r1 : Nat) : (finish s fn seq st c r0 r1).seen = s.seen := replyOnly_seen (replyOnly_finish s fn seq st c r0 r1)

/-! ### reply -/

@[simp] theorem reply_pending (s : State) (h : Hdr) (st : Status) : (reply s h st).pending = s.pending := replyOnly_pending (replyOnly_finish s h.fn h.seq st {} 0 0)
@[simp] theorem reply_time (s : State) (h : Hdr) (st : Status) : (reply s h st).time = s.time := replyOnly_time (replyOnly_finish s h.fn h.seq st {} 0 0)
@[simp] theorem reply_rst (s : State) (h : Hdr) (st : Status) : (reply s h st).rst = s.rst := replyOnly_rst (replyOnly_finish s h.fn h.seq st {} 0 0)
@[simp] theorem reply_aon (s : State) (h : Hdr) (st : Status) : (reply s h st).aon = s.aon := replyOnly_aon (replyOnly_finish s h.fn h.seq st {} 0 0)
@[simp] theorem reply_nv (s : State) (h : Hdr) (st : Status) : (reply s h st).nv = s.nv := replyOnly_nv (replyOnly_finish s h.fn h.seq st {} 0 0)
@[simp] theorem reply_opts (s : State) (h : Hdr) (st : Status) : (reply s h st).opts = s.opts := replyOnly_opts (replyOnly_finish s h.fn h.seq st {} 0 0)
@[simp] theorem reply_turn (s : State) (h : Hdr) (st : Status) : (reply s h st).turn = s.turn := replyOnly_turn (replyOnly_finish s h.fn h.seq st {} 0 0)
@[simp] theorem reply_map (s : State) (h : Hdr) (st : Status) : (reply s h st).map = s.map := replyOnly_map (replyOnly_finish s h.fn h.seq st {} 0 0)
@[simp] theorem reply_cores (s : State) (h : Hdr) (st : Status) : (reply s h st).cores = s.cores := replyOnly_cores (replyOnly_finish s h.fn h.seq st {} 0 0)
@[simp] theorem reply_regions (s : State) (h : Hdr) (st : Status) : (reply s h st).regions = s.regions := replyOnly_regions (replyOnly_finish s h.fn h.seq st {} 0 0)
@[simp] theorem reply_hubSense (s : State) (h : Hdr) (st : Status) : (reply s h st).hubSense = s.hubSense := replyOnly_hubSense (replyOnly_finish s h.fn h.seq st {} 0 0)
@[simp] theorem reply_bandgap (s : State) (h : Hdr) (st : Status) : (reply s h st).bandgap = s.bandgap := replyOnly_bandgap (replyOnly_finish s h.fn h.seq st {} 0 0)
@[simp] theorem reply_formes (s : State) (h : Hdr) (st : Status) : (reply s h st).formes = s.formes := replyOnly_formes (replyOnly_finish s h.fn h.seq st {} 0 0)
@[simp] theorem reply_plates (s : State) (h : Hdr) (st : Status) : (reply s h st).plates = s.plates := replyOnly_plates (replyOnly_finish s h.fn h.seq st {} 0 0)
@[simp] theorem reply_arr (s : State) (h : Hdr) (st : Status) : (reply s h st).arr = s.arr := replyOnly_arr (replyOnly_finish s h.fn h.seq st {} 0 0)
@[simp] theorem reply_sched (s : State) (h : Hdr) (st : Status) : (reply s h st).sched = s.sched := replyOnly_sched (replyOnly_finish s h.fn h.seq st {} 0 0)
@[simp] theorem reply_reqs (s : State) (h : Hdr) (st : Status) : (reply s h st).reqs = s.reqs := replyOnly_reqs (replyOnly_finish s h.fn h.seq st {} 0 0)
@[simp] theorem reply_gens (s : State) (h : Hdr) (st : Status) : (reply s h st).gens = s.gens := replyOnly_gens (replyOnly_finish s h.fn h.seq st {} 0 0)
@[simp] theorem reply_tenants (s : State) (h : Hdr) (st : Status) : (reply s h st).tenants = s.tenants := replyOnly_tenants (replyOnly_finish s h.fn h.seq st {} 0 0)
@[simp] theorem reply_overlays (s : State) (h : Hdr) (st : Status) : (reply s h st).overlays = s.overlays := replyOnly_overlays (replyOnly_finish s h.fn h.seq st {} 0 0)
@[simp] theorem reply_kv (s : State) (h : Hdr) (st : Status) : (reply s h st).kv = s.kv := replyOnly_kv (replyOnly_finish s h.fn h.seq st {} 0 0)
@[simp] theorem reply_web (s : State) (h : Hdr) (st : Status) : (reply s h st).web = s.web := replyOnly_web (replyOnly_finish s h.fn h.seq st {} 0 0)
@[simp] theorem reply_share (s : State) (h : Hdr) (st : Status) : (reply s h st).share = s.share := replyOnly_share (replyOnly_finish s h.fn h.seq st {} 0 0)
@[simp] theorem reply_faults (s : State) (h : Hdr) (st : Status) : (reply s h st).faults = s.faults := replyOnly_faults (replyOnly_finish s h.fn h.seq st {} 0 0)
@[simp] theorem reply_sec (s : State) (h : Hdr) (st : Status) : (reply s h st).sec = s.sec := replyOnly_sec (replyOnly_finish s h.fn h.seq st {} 0 0)
@[simp] theorem reply_therm (s : State) (h : Hdr) (st : Status) : (reply s h st).therm = s.therm := replyOnly_therm (replyOnly_finish s h.fn h.seq st {} 0 0)
@[simp] theorem reply_ql (s : State) (h : Hdr) (st : Status) : (reply s h st).ql = s.ql := replyOnly_ql (replyOnly_finish s h.fn h.seq st {} 0 0)
@[simp] theorem reply_pci (s : State) (h : Hdr) (st : Status) : (reply s h st).pci = s.pci := replyOnly_pci (replyOnly_finish s h.fn h.seq st {} 0 0)
@[simp] theorem reply_side (s : State) (h : Hdr) (st : Status) : (reply s h st).side = s.side := replyOnly_side (replyOnly_finish s h.fn h.seq st {} 0 0)
@[simp] theorem reply_pins (s : State) (h : Hdr) (st : Status) : (reply s h st).pins = s.pins := replyOnly_pins (replyOnly_finish s h.fn h.seq st {} 0 0)
@[simp] theorem reply_power (s : State) (h : Hdr) (st : Status) : (reply s h st).power = s.power := replyOnly_power (replyOnly_finish s h.fn h.seq st {} 0 0)
@[simp] theorem reply_seen (s : State) (h : Hdr) (st : Status) : (reply s h st).seen = s.seen := replyOnly_seen (replyOnly_finish s h.fn h.seq st {} 0 0)

/-! ### replyOk -/

@[simp] theorem replyOk_pending (s : State) (h : Hdr) (r0 r1 : Nat) : (replyOk s h r0 r1).pending = s.pending := replyOnly_pending (replyOnly_finish s h.fn h.seq .ok {} r0 r1)
@[simp] theorem replyOk_time (s : State) (h : Hdr) (r0 r1 : Nat) : (replyOk s h r0 r1).time = s.time := replyOnly_time (replyOnly_finish s h.fn h.seq .ok {} r0 r1)
@[simp] theorem replyOk_rst (s : State) (h : Hdr) (r0 r1 : Nat) : (replyOk s h r0 r1).rst = s.rst := replyOnly_rst (replyOnly_finish s h.fn h.seq .ok {} r0 r1)
@[simp] theorem replyOk_aon (s : State) (h : Hdr) (r0 r1 : Nat) : (replyOk s h r0 r1).aon = s.aon := replyOnly_aon (replyOnly_finish s h.fn h.seq .ok {} r0 r1)
@[simp] theorem replyOk_nv (s : State) (h : Hdr) (r0 r1 : Nat) : (replyOk s h r0 r1).nv = s.nv := replyOnly_nv (replyOnly_finish s h.fn h.seq .ok {} r0 r1)
@[simp] theorem replyOk_opts (s : State) (h : Hdr) (r0 r1 : Nat) : (replyOk s h r0 r1).opts = s.opts := replyOnly_opts (replyOnly_finish s h.fn h.seq .ok {} r0 r1)
@[simp] theorem replyOk_turn (s : State) (h : Hdr) (r0 r1 : Nat) : (replyOk s h r0 r1).turn = s.turn := replyOnly_turn (replyOnly_finish s h.fn h.seq .ok {} r0 r1)
@[simp] theorem replyOk_map (s : State) (h : Hdr) (r0 r1 : Nat) : (replyOk s h r0 r1).map = s.map := replyOnly_map (replyOnly_finish s h.fn h.seq .ok {} r0 r1)
@[simp] theorem replyOk_cores (s : State) (h : Hdr) (r0 r1 : Nat) : (replyOk s h r0 r1).cores = s.cores := replyOnly_cores (replyOnly_finish s h.fn h.seq .ok {} r0 r1)
@[simp] theorem replyOk_regions (s : State) (h : Hdr) (r0 r1 : Nat) : (replyOk s h r0 r1).regions = s.regions := replyOnly_regions (replyOnly_finish s h.fn h.seq .ok {} r0 r1)
@[simp] theorem replyOk_hubSense (s : State) (h : Hdr) (r0 r1 : Nat) : (replyOk s h r0 r1).hubSense = s.hubSense := replyOnly_hubSense (replyOnly_finish s h.fn h.seq .ok {} r0 r1)
@[simp] theorem replyOk_bandgap (s : State) (h : Hdr) (r0 r1 : Nat) : (replyOk s h r0 r1).bandgap = s.bandgap := replyOnly_bandgap (replyOnly_finish s h.fn h.seq .ok {} r0 r1)
@[simp] theorem replyOk_formes (s : State) (h : Hdr) (r0 r1 : Nat) : (replyOk s h r0 r1).formes = s.formes := replyOnly_formes (replyOnly_finish s h.fn h.seq .ok {} r0 r1)
@[simp] theorem replyOk_plates (s : State) (h : Hdr) (r0 r1 : Nat) : (replyOk s h r0 r1).plates = s.plates := replyOnly_plates (replyOnly_finish s h.fn h.seq .ok {} r0 r1)
@[simp] theorem replyOk_arr (s : State) (h : Hdr) (r0 r1 : Nat) : (replyOk s h r0 r1).arr = s.arr := replyOnly_arr (replyOnly_finish s h.fn h.seq .ok {} r0 r1)
@[simp] theorem replyOk_sched (s : State) (h : Hdr) (r0 r1 : Nat) : (replyOk s h r0 r1).sched = s.sched := replyOnly_sched (replyOnly_finish s h.fn h.seq .ok {} r0 r1)
@[simp] theorem replyOk_reqs (s : State) (h : Hdr) (r0 r1 : Nat) : (replyOk s h r0 r1).reqs = s.reqs := replyOnly_reqs (replyOnly_finish s h.fn h.seq .ok {} r0 r1)
@[simp] theorem replyOk_gens (s : State) (h : Hdr) (r0 r1 : Nat) : (replyOk s h r0 r1).gens = s.gens := replyOnly_gens (replyOnly_finish s h.fn h.seq .ok {} r0 r1)
@[simp] theorem replyOk_tenants (s : State) (h : Hdr) (r0 r1 : Nat) : (replyOk s h r0 r1).tenants = s.tenants := replyOnly_tenants (replyOnly_finish s h.fn h.seq .ok {} r0 r1)
@[simp] theorem replyOk_overlays (s : State) (h : Hdr) (r0 r1 : Nat) : (replyOk s h r0 r1).overlays = s.overlays := replyOnly_overlays (replyOnly_finish s h.fn h.seq .ok {} r0 r1)
@[simp] theorem replyOk_kv (s : State) (h : Hdr) (r0 r1 : Nat) : (replyOk s h r0 r1).kv = s.kv := replyOnly_kv (replyOnly_finish s h.fn h.seq .ok {} r0 r1)
@[simp] theorem replyOk_web (s : State) (h : Hdr) (r0 r1 : Nat) : (replyOk s h r0 r1).web = s.web := replyOnly_web (replyOnly_finish s h.fn h.seq .ok {} r0 r1)
@[simp] theorem replyOk_share (s : State) (h : Hdr) (r0 r1 : Nat) : (replyOk s h r0 r1).share = s.share := replyOnly_share (replyOnly_finish s h.fn h.seq .ok {} r0 r1)
@[simp] theorem replyOk_faults (s : State) (h : Hdr) (r0 r1 : Nat) : (replyOk s h r0 r1).faults = s.faults := replyOnly_faults (replyOnly_finish s h.fn h.seq .ok {} r0 r1)
@[simp] theorem replyOk_sec (s : State) (h : Hdr) (r0 r1 : Nat) : (replyOk s h r0 r1).sec = s.sec := replyOnly_sec (replyOnly_finish s h.fn h.seq .ok {} r0 r1)
@[simp] theorem replyOk_therm (s : State) (h : Hdr) (r0 r1 : Nat) : (replyOk s h r0 r1).therm = s.therm := replyOnly_therm (replyOnly_finish s h.fn h.seq .ok {} r0 r1)
@[simp] theorem replyOk_ql (s : State) (h : Hdr) (r0 r1 : Nat) : (replyOk s h r0 r1).ql = s.ql := replyOnly_ql (replyOnly_finish s h.fn h.seq .ok {} r0 r1)
@[simp] theorem replyOk_pci (s : State) (h : Hdr) (r0 r1 : Nat) : (replyOk s h r0 r1).pci = s.pci := replyOnly_pci (replyOnly_finish s h.fn h.seq .ok {} r0 r1)
@[simp] theorem replyOk_side (s : State) (h : Hdr) (r0 r1 : Nat) : (replyOk s h r0 r1).side = s.side := replyOnly_side (replyOnly_finish s h.fn h.seq .ok {} r0 r1)
@[simp] theorem replyOk_pins (s : State) (h : Hdr) (r0 r1 : Nat) : (replyOk s h r0 r1).pins = s.pins := replyOnly_pins (replyOnly_finish s h.fn h.seq .ok {} r0 r1)
@[simp] theorem replyOk_power (s : State) (h : Hdr) (r0 r1 : Nat) : (replyOk s h r0 r1).power = s.power := replyOnly_power (replyOnly_finish s h.fn h.seq .ok {} r0 r1)
@[simp] theorem replyOk_seen (s : State) (h : Hdr) (r0 r1 : Nat) : (replyOk s h r0 r1).seen = s.seen := replyOnly_seen (replyOnly_finish s h.fn h.seq .ok {} r0 r1)

/-! ### enqueue, entered -/

@[simp] theorem enqueue_pending (s : State) (h : Hdr) (p : CmdParams) : (enqueue s h p).pending = s.pending := by
  unfold enqueue; repeat' split
  all_goals rfl
@[simp] theorem enqueue_free (s : State) (h : Hdr) (p : CmdParams) : (enqueue s h p).free = s.free := by
  unfold enqueue; repeat' split
  all_goals rfl
@[simp] theorem enqueue_out (s : State) (h : Hdr) (p : CmdParams) : (enqueue s h p).out = s.out := by
  unfold enqueue; repeat' split
  all_goals rfl
@[simp] theorem enqueue_time (s : State) (h : Hdr) (p : CmdParams) : (enqueue s h p).time = s.time := by
  unfold enqueue; repeat' split
  all_goals rfl
@[simp] theorem enqueue_rst (s : State) (h : Hdr) (p : CmdParams) : (enqueue s h p).rst = s.rst := by
  unfold enqueue; repeat' split
  all_goals rfl
@[simp] theorem enqueue_aon (s : State) (h : Hdr) (p : CmdParams) : (enqueue s h p).aon = s.aon := by
  unfold enqueue; repeat' split
  all_goals rfl
@[simp] theorem enqueue_nv (s : State) (h : Hdr) (p : CmdParams) : (enqueue s h p).nv = s.nv := by
  unfold enqueue; repeat' split
  all_goals rfl
@[simp] theorem enqueue_opts (s : State) (h : Hdr) (p : CmdParams) : (enqueue s h p).opts = s.opts := by
  unfold enqueue; repeat' split
  all_goals rfl
@[simp] theorem enqueue_fns (s : State) (h : Hdr) (p : CmdParams) : (enqueue s h p).fns = s.fns := by
  unfold enqueue; repeat' split
  all_goals rfl
@[simp] theorem enqueue_turn (s : State) (h : Hdr) (p : CmdParams) : (enqueue s h p).turn = s.turn := by
  unfold enqueue; repeat' split
  all_goals rfl
@[simp] theorem enqueue_txns (s : State) (h : Hdr) (p : CmdParams) : (enqueue s h p).txns = s.txns := by
  unfold enqueue; repeat' split
  all_goals rfl
@[simp] theorem enqueue_map (s : State) (h : Hdr) (p : CmdParams) : (enqueue s h p).map = s.map := by
  unfold enqueue; repeat' split
  all_goals rfl
@[simp] theorem enqueue_cores (s : State) (h : Hdr) (p : CmdParams) : (enqueue s h p).cores = s.cores := by
  unfold enqueue; repeat' split
  all_goals rfl
@[simp] theorem enqueue_regions (s : State) (h : Hdr) (p : CmdParams) : (enqueue s h p).regions = s.regions := by
  unfold enqueue; repeat' split
  all_goals rfl
@[simp] theorem enqueue_hubSense (s : State) (h : Hdr) (p : CmdParams) : (enqueue s h p).hubSense = s.hubSense := by
  unfold enqueue; repeat' split
  all_goals rfl
@[simp] theorem enqueue_bandgap (s : State) (h : Hdr) (p : CmdParams) : (enqueue s h p).bandgap = s.bandgap := by
  unfold enqueue; repeat' split
  all_goals rfl
@[simp] theorem enqueue_formes (s : State) (h : Hdr) (p : CmdParams) : (enqueue s h p).formes = s.formes := by
  unfold enqueue; repeat' split
  all_goals rfl
@[simp] theorem enqueue_plates (s : State) (h : Hdr) (p : CmdParams) : (enqueue s h p).plates = s.plates := by
  unfold enqueue; repeat' split
  all_goals rfl
@[simp] theorem enqueue_arr (s : State) (h : Hdr) (p : CmdParams) : (enqueue s h p).arr = s.arr := by
  unfold enqueue; repeat' split
  all_goals rfl
@[simp] theorem enqueue_sched (s : State) (h : Hdr) (p : CmdParams) : (enqueue s h p).sched = s.sched := by
  unfold enqueue; repeat' split
  all_goals rfl
@[simp] theorem enqueue_reqs (s : State) (h : Hdr) (p : CmdParams) : (enqueue s h p).reqs = s.reqs := by
  unfold enqueue; repeat' split
  all_goals rfl
@[simp] theorem enqueue_gens (s : State) (h : Hdr) (p : CmdParams) : (enqueue s h p).gens = s.gens := by
  unfold enqueue; repeat' split
  all_goals rfl
@[simp] theorem enqueue_tenants (s : State) (h : Hdr) (p : CmdParams) : (enqueue s h p).tenants = s.tenants := by
  unfold enqueue; repeat' split
  all_goals rfl
@[simp] theorem enqueue_overlays (s : State) (h : Hdr) (p : CmdParams) : (enqueue s h p).overlays = s.overlays := by
  unfold enqueue; repeat' split
  all_goals rfl
@[simp] theorem enqueue_kv (s : State) (h : Hdr) (p : CmdParams) : (enqueue s h p).kv = s.kv := by
  unfold enqueue; repeat' split
  all_goals rfl
@[simp] theorem enqueue_web (s : State) (h : Hdr) (p : CmdParams) : (enqueue s h p).web = s.web := by
  unfold enqueue; repeat' split
  all_goals rfl
@[simp] theorem enqueue_share (s : State) (h : Hdr) (p : CmdParams) : (enqueue s h p).share = s.share := by
  unfold enqueue; repeat' split
  all_goals rfl
@[simp] theorem enqueue_faults (s : State) (h : Hdr) (p : CmdParams) : (enqueue s h p).faults = s.faults := by
  unfold enqueue; repeat' split
  all_goals rfl
@[simp] theorem enqueue_sec (s : State) (h : Hdr) (p : CmdParams) : (enqueue s h p).sec = s.sec := by
  unfold enqueue; repeat' split
  all_goals rfl
@[simp] theorem enqueue_therm (s : State) (h : Hdr) (p : CmdParams) : (enqueue s h p).therm = s.therm := by
  unfold enqueue; repeat' split
  all_goals rfl
@[simp] theorem enqueue_ql (s : State) (h : Hdr) (p : CmdParams) : (enqueue s h p).ql = s.ql := by
  unfold enqueue; repeat' split
  all_goals rfl
@[simp] theorem enqueue_pci (s : State) (h : Hdr) (p : CmdParams) : (enqueue s h p).pci = s.pci := by
  unfold enqueue; repeat' split
  all_goals rfl
@[simp] theorem enqueue_side (s : State) (h : Hdr) (p : CmdParams) : (enqueue s h p).side = s.side := by
  unfold enqueue; repeat' split
  all_goals rfl
@[simp] theorem enqueue_pins (s : State) (h : Hdr) (p : CmdParams) : (enqueue s h p).pins = s.pins := by
  unfold enqueue; repeat' split
  all_goals rfl
@[simp] theorem enqueue_power (s : State) (h : Hdr) (p : CmdParams) : (enqueue s h p).power = s.power := by
  unfold enqueue; repeat' split
  all_goals rfl
@[simp] theorem enqueue_seen (s : State) (h : Hdr) (p : CmdParams) : (enqueue s h p).seen = s.seen := by
  unfold enqueue; repeat' split
  all_goals rfl
@[simp] theorem entered_pending (h : Hdr) (p : CmdParams) (t : Nat) (s : State) : (entered h p t s).pending = s.pending := by
  simp [entered]
@[simp] theorem entered_free (h : Hdr) (p : CmdParams) (t : Nat) (s : State) : (entered h p t s).free = s.free := by
  simp [entered]
@[simp] theorem entered_out (h : Hdr) (p : CmdParams) (t : Nat) (s : State) : (entered h p t s).out = s.out := by
  simp [entered]
@[simp] theorem entered_time (h : Hdr) (p : CmdParams) (t : Nat) (s : State) : (entered h p t s).time = { s.time with base := max s.time.base t } := by
  simp [entered]
@[simp] theorem entered_rst (h : Hdr) (p : CmdParams) (t : Nat) (s : State) : (entered h p t s).rst = s.rst := by
  simp [entered]
@[simp] theorem entered_aon (h : Hdr) (p : CmdParams) (t : Nat) (s : State) : (entered h p t s).aon = s.aon := by
  simp [entered]
@[simp] theorem entered_nv (h : Hdr) (p : CmdParams) (t : Nat) (s : State) : (entered h p t s).nv = s.nv := by
  simp [entered]
@[simp] theorem entered_opts (h : Hdr) (p : CmdParams) (t : Nat) (s : State) : (entered h p t s).opts = s.opts := by
  simp [entered]
@[simp] theorem entered_fns (h : Hdr) (p : CmdParams) (t : Nat) (s : State) : (entered h p t s).fns = s.fns := by
  simp [entered]
@[simp] theorem entered_turn (h : Hdr) (p : CmdParams) (t : Nat) (s : State) : (entered h p t s).turn = s.turn := by
  simp [entered]
@[simp] theorem entered_txns (h : Hdr) (p : CmdParams) (t : Nat) (s : State) : (entered h p t s).txns = s.txns := by
  simp [entered]
@[simp] theorem entered_map (h : Hdr) (p : CmdParams) (t : Nat) (s : State) : (entered h p t s).map = s.map := by
  simp [entered]
@[simp] theorem entered_cores (h : Hdr) (p : CmdParams) (t : Nat) (s : State) : (entered h p t s).cores = s.cores := by
  simp [entered]
@[simp] theorem entered_regions (h : Hdr) (p : CmdParams) (t : Nat) (s : State) : (entered h p t s).regions = s.regions := by
  simp [entered]
@[simp] theorem entered_hubSense (h : Hdr) (p : CmdParams) (t : Nat) (s : State) : (entered h p t s).hubSense = s.hubSense := by
  simp [entered]
@[simp] theorem entered_bandgap (h : Hdr) (p : CmdParams) (t : Nat) (s : State) : (entered h p t s).bandgap = s.bandgap := by
  simp [entered]
@[simp] theorem entered_formes (h : Hdr) (p : CmdParams) (t : Nat) (s : State) : (entered h p t s).formes = s.formes := by
  simp [entered]
@[simp] theorem entered_plates (h : Hdr) (p : CmdParams) (t : Nat) (s : State) : (entered h p t s).plates = s.plates := by
  simp [entered]
@[simp] theorem entered_arr (h : Hdr) (p : CmdParams) (t : Nat) (s : State) : (entered h p t s).arr = s.arr := by
  simp [entered]
@[simp] theorem entered_sched (h : Hdr) (p : CmdParams) (t : Nat) (s : State) : (entered h p t s).sched = s.sched := by
  simp [entered]
@[simp] theorem entered_reqs (h : Hdr) (p : CmdParams) (t : Nat) (s : State) : (entered h p t s).reqs = s.reqs := by
  simp [entered]
@[simp] theorem entered_gens (h : Hdr) (p : CmdParams) (t : Nat) (s : State) : (entered h p t s).gens = s.gens := by
  simp [entered]
@[simp] theorem entered_tenants (h : Hdr) (p : CmdParams) (t : Nat) (s : State) : (entered h p t s).tenants = s.tenants := by
  simp [entered]
@[simp] theorem entered_overlays (h : Hdr) (p : CmdParams) (t : Nat) (s : State) : (entered h p t s).overlays = s.overlays := by
  simp [entered]
@[simp] theorem entered_kv (h : Hdr) (p : CmdParams) (t : Nat) (s : State) : (entered h p t s).kv = s.kv := by
  simp [entered]
@[simp] theorem entered_web (h : Hdr) (p : CmdParams) (t : Nat) (s : State) : (entered h p t s).web = s.web := by
  simp [entered]
@[simp] theorem entered_share (h : Hdr) (p : CmdParams) (t : Nat) (s : State) : (entered h p t s).share = s.share := by
  simp [entered]
@[simp] theorem entered_faults (h : Hdr) (p : CmdParams) (t : Nat) (s : State) : (entered h p t s).faults = s.faults := by
  simp [entered]
@[simp] theorem entered_sec (h : Hdr) (p : CmdParams) (t : Nat) (s : State) : (entered h p t s).sec = s.sec := by
  simp [entered]
@[simp] theorem entered_therm (h : Hdr) (p : CmdParams) (t : Nat) (s : State) : (entered h p t s).therm = s.therm := by
  simp [entered]
@[simp] theorem entered_ql (h : Hdr) (p : CmdParams) (t : Nat) (s : State) : (entered h p t s).ql = s.ql := by
  simp [entered]
@[simp] theorem entered_pci (h : Hdr) (p : CmdParams) (t : Nat) (s : State) : (entered h p t s).pci = s.pci := by
  simp [entered]
@[simp] theorem entered_side (h : Hdr) (p : CmdParams) (t : Nat) (s : State) : (entered h p t s).side = s.side := by
  simp [entered]
@[simp] theorem entered_pins (h : Hdr) (p : CmdParams) (t : Nat) (s : State) : (entered h p t s).pins = s.pins := by
  simp [entered]
@[simp] theorem entered_power (h : Hdr) (p : CmdParams) (t : Nat) (s : State) : (entered h p t s).power = s.power := by
  simp [entered]
@[simp] theorem entered_seen (h : Hdr) (p : CmdParams) (t : Nat) (s : State) : (entered h p t s).seen = if s.time.base / 1000000 < max s.time.base t / 1000000 then viewOf s else s.seen := by
  simp [entered]

end Sys2Proof.Machine
end

