-- ==== Sys2Proof/Laws/Commands.lean ====
section
/-! SUPPORT. How a host command runs once it is admitted: its body on the state in which it has entered the queue. -/

namespace Sys2Proof.Laws

open Sys2Proof.Machine Sys2Proof.Safety

/-- An admitted command runs its body. -/
theorem runCmd_admitted {h : Hdr} {p : CmdParams} {t : Nat} {s : State} (ha : admitted h p t s) (body : State → State) :
    runCmd h p t s body = .next (body (entered h p t s)) := by
  obtain ⟨h1, h2, h3⟩ := ha
  simp only [entered] at *
  simp [runCmd, onFn, startCmd, h1, h2, h3]

/-- A command that may start but fails a check is answered with the status. -/
theorem runCmd_refused {h : Hdr} {p : CmdParams} {t : Nat} {s : State} {st : Status} (h1 : h.fn < 256)
    (h2 : mayStart (entered h p t s) h p = true) (h3 : checkStatus (entered h p t s) h p = some st) (body : State → State) :
    runCmd h p t s body = .next (reply (entered h p t s) h st) := by
  simp only [entered] at *
  simp [runCmd, onFn, startCmd, h1, h2, h3]

/-- A command that may start has its entry in the queue. -/
theorem findCmd_mayStart {h : Hdr} {p : CmdParams} {s : State} (hm : mayStart s h p = true) :
    ∃ e, findCmd s h.fn h.seq = some e ∧ e.hdr = h ∧ e.par = p ∧ e.wait = .queued := by
  simp only [mayStart, Bool.and_eq_true, Option.any_eq_true] at hm
  obtain ⟨⟨_, e, he, hh⟩, _⟩ := hm
  simp at hh
  exact ⟨e, he, hh.1.1, hh.1.2, hh.2⟩

theorem find_modFirst (q : CmdEntry → Bool) (f : CmdEntry → CmdEntry) (l : List CmdEntry) (e : CmdEntry) (he : l.find? q = some e)
    (hq : q (f e) = true) : (modFirst q f l).find? q = some (f e) := by
  induction l with
  | nil => simp at he
  | cons a r ih =>
    by_cases ha : q a = true
    · simp [List.find?, ha] at he
      subst he
      simp [modFirst, ha, hq]
    · simp [List.find?, ha] at he
      simp [modFirst, ha, ih he]

/-- A command that begins to wait is found with its wait. -/
theorem findCmd_setWait {s : State} {fn seq : Nat} {w : Wait} {e : CmdEntry} (he : findCmd s fn seq = some e)
    (hw : ∀ r, w ≠ .replyRoom r) : findCmd (setWait s fn seq w) fn seq = some { e with wait := w, attempts := 0 } := by
  have hs : sameCmd fn seq e = true := List.find?_some he
  refine find_modFirst _ _ _ e he ?_
  simp only [sameCmd, Bool.and_eq_true] at hs ⊢
  refine ⟨hs.1, ?_⟩
  cases w <;> simp_all [entryDone, roomReply]

/-- The fields of a core's address name the core. -/
theorem coreKey_fields (ck : Nat) : coreKey (ck / 2560) (ck / 160 % 16) (ck % 160) = ck := by
  unfold coreKey regionKey; omega

/-- A tile of the module, named by the fields of its address, is one. -/
theorem onTile_fields {ck tile : Nat} (hc : ck < nCores) (ht : tile < 16) (s : State) :
    onTile (ck / 2560) (ck / 160 % 16) (ck % 160) tile s = .next s := by
  unfold nCores at hc
  unfold onTile
  rw [if_pos]; omega

end Sys2Proof.Laws
end

