-- ==== Sys2Proof/Laws/Memory.lean ====
section
/-! SUPPORT. Every operation on a memory keeps its canonical form. -/

namespace Sys2Proof.Laws

open Sys2Proof.Machine

theorem memory_wf_filter (m : List Host.Cell) (p : Host.Cell → Bool) (h : Memory.wf m = true) : Memory.wf (m.filter p) = true := by
  simp only [Memory.wf, Bool.and_eq_true, List.all_eq_true] at *
  exact ⟨rising_filter m p h.1, fun c hc => h.2 c (List.mem_filter.mp hc).1⟩

theorem memory_wf_foldl_mput {α : Type} (f : α → Nat) (g : α → Byte) (l : List α) (m : List Host.Cell) (h : Memory.wf m = true) :
    Memory.wf (l.foldl (fun m c => mput m (f c) (g c)) m) = true := by
  induction l generalizing m with
  | nil => exact h
  | cons c r ih => exact ih _ (memory_wf_mput m _ _ h)

theorem memory_wf_copyRange (src dst : List Host.Cell) (a b len : Nat) (h : Memory.wf dst = true) :
    Memory.wf (copyRange src dst a b len) = true :=
  memory_wf_foldl_mput _ _ _ _ (memory_wf_filter dst _ h)

theorem memory_wf_writeEntries (add : Bool) (b : Bank) (dest : Nat) (l : List Nat) (m : List Host.Cell) (h : Memory.wf m = true) :
    Memory.wf (writeEntries add b dest m l) = true := by
  induction l generalizing m with
  | nil => exact h
  | cons i r ih =>
    refine ih _ ?_
    exact memory_wf_mwrite _ _ _ h

theorem memory_wf_putSegment (m : List Host.Cell) (b base dest layer : Nat) (g : Segment) (h : Memory.wf m = true) :
    Memory.wf (putSegment m b base dest layer g) = true :=
  memory_wf_mwrite _ _ _ (memory_wf_mwrite _ _ _ (memory_wf_mwrite _ _ _ h))

theorem memory_wf_zeroSheet (m : List Host.Cell) (x : Nat) (h : Memory.wf m = true) : Memory.wf (zeroSheet m x) = true :=
  memory_wf_filter m _ h

theorem memory_wf_writeRow (s : State) (a : AttnRec) (layer : Nat) (p : PageSet) (i : Nat) (b : List Byte)
    (h : Memory.wf s.kv.hbm = true) : Memory.wf (writeRow s a layer p i b).kv.hbm = true := by
  unfold writeRow
  split
  · exact memory_wf_mwrite _ _ _ h
  · exact h

/-- What a row written to its page slot can change: the bytes of the page pool, and those only inside the slot. -/
theorem writeRow_frame (s : State) (a : AttnRec) (layer : Nat) (p : PageSet) (i : Nat) (b : List Byte) :
    writeRow s a layer p i b = { s with kv := { s.kv with hbm := (writeRow s a layer p i b).kv.hbm } }
    ∧ ∀ y, (∀ x, rowAddr a layer p i = some x → y < x ∨ x + b.length ≤ y) → mget (writeRow s a layer p i b).kv.hbm y = mget s.kv.hbm y := by
  unfold writeRow
  split
  · rename_i x hx
    exact ⟨rfl, fun y hy => mget_mwrite_outside _ _ _ _ (hy x hx)⟩
  · exact ⟨rfl, fun _ _ => rfl⟩

/-- Bytes of a sheet after zero has been written into it, and of every other sheet. -/
theorem mget_zeroSheet (m : List Host.Cell) (x y : Nat) : mget (zeroSheet m x) y = if y / 4096 = x then 0 else mget m y := by
  unfold mget tget zeroSheet
  have h := tfind_filter m (fun k => k / 4096 != x) y
  rw [h]
  by_cases e : y / 4096 = x
  · simp [e]
  · simp [e]

/-- No memory of the reset state lists a byte. -/
theorem reset_scratch (ck : Nat) : (coreOf State.reset ck).scratch = [] ∧ Memory.wf [] = true := ⟨rfl, rfl⟩
theorem reset_wideBuf (rk : Nat) : (regionOf State.reset rk).wideBuf = [] := rfl

end Sys2Proof.Laws
end

