-- ==== Sys2Proof/Tests/Slice0.lean ====
section
/-! SUPPORT. Small tests: ill-formed commands are refused by WellFormed, packets and check values of the spec, and for each statement
with hypotheses a state and operands that meet them (`wit_` with the statement's name). -/

-- One theorem after another: side by side they would each hold a thread's stack, and the whole compile would ask for 22 GiB.
set_option Elab.async false

namespace Sys2Proof.Tests

open Sys2Proof.Machine Sys2Proof.Safety

/-! ## Helpers -/

/-- A header of the physical function, for a packet of the largest length. -/
def hd : Hdr :=
  { fn := 0, tenant := 0xFFFF, seq := 1, txn := 0, arch := 1, version := 1, length := 257, irq := false, fence := false, quiet := false,
    resZero := true }

def hdT : Hdr := { hd with txn := 1 }

/-- In service, level 1 negotiated, CAL_SELF done. -/
def svc : State :=
  { State.reset with
    rst := { State.reset.rst with phase := .service, sources := [], loadDone := true, fresh := false, calDone := true },
    fns := [(0, { level := some 1 })], pins := {} }

def tx : Txn :=
  { id := 1, staged := [], idleSince := 0, committing := false, acceptedAt := 0, recordWritten := false, failed := [], reply := none }

/-- An open transaction with identifier 1 in a domain. -/
def svcT (d : Nat) : State := putTxn svc d (some tx)

/-- `admitted` as a computation. -/
def adm (h : Hdr) (p : CmdParams) (t : Nat) (s : State) : Bool :=
  decide (h.fn < 256) && mayStart (entered h p t s) h p && decide (checkStatus (entered h p t s) h p = none)

theorem adm_admitted {h : Hdr} {p : CmdParams} {t : Nat} {s : State} : adm h p t s = true ↔ admitted h p t s := by
  simp [adm, admitted, and_assoc]

/-- The state that a step answers. -/
def after (i : Instr) (s : State) : State := match exec i s with
  | .next u => u
  | .fault _ => s
  | .refused _ => s

/-! ## Ill-formed commands -/

theorem test_wf_function : (Instr.identify { hd with fn := 256 } 0 0).wf = false ∧ (Instr.identify { hd with fn := 255 } 0 0).wf = true := by decide
theorem test_wf_port : (Instr.flitAckTimeout 36 0).wf = false ∧ (Instr.flitAckTimeout 35 0).wf = true := by decide
theorem test_wf_region : (Instr.checkSummary 640 false 0).wf = false ∧ (Instr.checkSummary 639 false 0).wf = true := by decide
theorem test_wf_core : (Instr.testDue 102400 0).wf = false ∧ (Instr.testDue 102399 0).wf = true := by decide
theorem test_wf_plane : (Instr.writeBurst 2306867200 0 1 0).wf = false ∧ (Instr.writeBurst 2306867199 0 1 0).wf = true := by decide
theorem test_wf_tile : (Instr.planeSwitch 0 16 0 0).wf = false ∧ (Instr.planeSwitch 0 15 0 0).wf = true := by decide
theorem test_wf_bank : (Instr.bankFinalise 0 4 0).wf = false ∧ (Instr.bankFinalise 0 3 0).wf = true := by decide
theorem test_wf_timer : (Instr.etEdge 64 0).wf = false ∧ (Instr.etEdge 63 0).wf = true := by decide
theorem test_wf_domain : (Instr.txnExpired 4 0).wf = false ∧ (Instr.txnExpired 3 0).wf = true := by decide
theorem test_wf_converter : (Instr.hostSensePass 644 0 [] 0).wf = false ∧ (Instr.hostSensePass 643 0 [] 0).wf = true := by decide
theorem test_wf_slot : (Instr.routeTransfer 256 0 0).wf = false ∧ (Instr.keyx 0 256 none 0).wf = false := by decide
theorem test_wf_channel : (Instr.webSlot 4096 0).wf = false ∧ (Instr.webSlot 4095 0).wf = true := by decide
theorem test_wf_sheet : (Instr.sheetOverwrite 188743680 0).wf = false ∧ (Instr.sheetOverwrite 188743679 0).wf = true := by decide
theorem test_wf_crossing : (Instr.crossingReset (.stack 40) true 0).wf = false ∧ (Instr.crossingReset (.link 36) true 0).wf = false := by decide
theorem test_wf_virtual : (Instr.flrVf 0 0).wf = false ∧ (Instr.flrVf 1 0).wf = true := by decide

/-! ## Check values -/

/-- The addresses in the example after R19. -/
theorem test_address : logicalWord (.core 9 4 40) = 0x0207FF0094280000 ∧ physWord (.core 9 4 41) = 0x8207FF0094290000 := by decide +kernel

/-- The register block in the example of the host interface chapter. -/
theorem test_region_block : Off.region (16 * 9 + 4) = 0x194000 := by decide +kernel

/-- The event timer in the example before R427: edges at whole milliseconds, and the late arming write. -/
theorem test_timer :
    let s := { setTimer { svc with time := { svc.time with base := 12345700000 } } 5
        { period := 1000000, cmpLo := 0xDFE10280, en := true, periodic := true } with share := { timers := [(5, .inl 7)] } }
    let u := after (.etArm 5 2 12345700000) s
    let late := after (.etArm 5 2 12345999801) s
    (timerOf u 5).next = some 12346000000 ∧ (timerOf (after (.etEdge 5 12346000000) u) 5).next = some 12347000000
    ∧ (timerOf late 5).next = some 12347000000 ∧ (timerOf late 5).late = true := by decide +kernel

/-- The check value of CRC-32C over the nine digits, from the polynomial's catalogue (PRESUMED, log entry 7). -/
theorem test_crc32c : crc32c ([0x31, 0x32, 0x33, 0x34, 0x35, 0x36, 0x37, 0x38, 0x39].map (BitVec.ofNat 8)) = 0xE3069283 := by decide +kernel

/-! ## Witnesses: commands -/

def ent (p : CmdParams) (w : Wait) : CmdEntry := { hdr := hd, par := p, taken := 0, wait := w, attempts := 0 }

theorem wit_CommandCompletes :
    let s := { svc with cmdq := [ent .calSelf .calSelf] }
    let old : CmdEntry := { ent .calSelf (.replyRoom { (default : Reply) with fn := 0 }) with hdr := { hd with seq := 9 } }
    findCmd s 0 1 = some (ent .calSelf .calSelf) ∧ hd.quiet = false ∧ (ent .calSelf .calSelf).taken = 0
    ∧ replyFits { s with cmdq := [] } 0 = true ∧ (fnOf svc 0).store = [] ∧ replyRoom (fnOf svc 0) = false
    ∧ replyRoom { replyCfg := 0x26 } = true ∧ replyFits { s with cmdq := [old] } 0 = false := by decide +kernel

theorem wit_CommandsStart :
    let h := { hd with txn := 5 }
    (svc.cmdq = [] ∧ svc.rst.phase = .service ∧ svc.therm.stopping = none)
    ∧ (mayStart (entered h (.negotiate 1) 0 svc) h (.negotiate 1) = true
      ∧ checkStatus (entered h (.negotiate 1) 0 svc) h (.negotiate 1) = some .txnNotOpen)
    ∧ (mayStart (entered h (.optionSet []) 0 svc) h (.optionSet []) = true
      ∧ checkStatus (entered h (.optionSet []) 0 svc) h (.optionSet []) = some .txnNotOpen)
    ∧ (mayStart (entered h (.reqCancel 1) 0 svc) h (.reqCancel 1) = true
      ∧ checkStatus (entered h (.reqCancel 1) 0 svc) h (.reqCancel 1) = some .txnNotOpen) := by decide +kernel

theorem wit_LimpAcceptsFive :
    let s := { svc with rst := { svc.rst with phase := .limp } }
    hd.version = 1 ∧ (fnOf s 0).level = some hd.arch ∧ hd.resZero = true ∧ 16 + definedPayload .calSelf ≤ 16 * hd.length
    ∧ tenantStatus s hd .calSelf = none ∧ txnStatus s hd .calSelf = none ∧ fieldStatus s .calSelf = none
    ∧ tenantStatus s hd (.identify 0) = none ∧ txnStatus s hd (.identify 0) = none ∧ fieldStatus s (.identify 0) = none := by decide +kernel

def rep1 : Report :=
  { kind := 0, cause := .host, detail := 0, seq := 0, time := 0, phys := 0, logical := 0, step := 0, second := 0, count := 0, data := 0, entries := [] }

theorem wit_ControlCommandsComplete :
    let sr := { svc with faults := { reports := [rep1] } }
    let sp := { svc with sec := { proof := true } }
    let sc := { svc with sec := { confPresent := true } }
    adm hd (.identify 64) 0 svc = true ∧ adm hd (.negotiate 1) 0 svc = true
    ∧ (adm hd (.fenceReportGet 0 64) 0 sr = true ∧ min (64 / 64) (entered hd (.fenceReportGet 0 64) 0 sr).faults.reports.length ≠ 0)
    ∧ (adm hdT (.optionSet [⟨Off.fault, 0xFF0000, 0x200000⟩]) 0 (svcT 3) = true ∧ Nat.land 0xFF0000 (optMask Off.fault) = 0xFF0000)
    ∧ adm hd (.powerSet 500) 0 svc = true ∧ adm hd (.powerSet 3300) 0 svc = true ∧ adm hd (.powerSet 0) 0 svc = true
    ∧ adm hd (.resetWarm 0x5741524D) 0 svc = true
    ∧ (adm hd .proofEnter 0 svc = true ∧ (entered hd .proofEnter 0 svc).sec.confPresent = false)
    ∧ (adm hd .proofLeave 0 sp = true ∧ (entered hd .proofLeave 0 sp).sec.confPresent = false ∧ (entered hd .proofLeave 0 sp).sec.proof = true)
    ∧ adm hd .proofEnter 0 sc = true ∧ adm hd .proofLeave 0 sc = true := by decide +kernel

theorem wit_ResourcesComplete :
    let held := { svc with share := { timers := [(0, .inl 7)], pins := [(15, .inl 9)] } }
    (adm hd (.resourceAlloc 0 63 7) 0 svc = true ∧ resHolder svc 0 63 = none)
    ∧ (adm hd (.resourceAlloc 1 15 7) 0 svc = true ∧ resHolder svc 1 15 = none)
    ∧ (adm hd (.resourceFree 0 0) 0 held = true ∧ resHolder held 0 0 = some (.inl 7))
    ∧ (adm hd (.resourceAlloc 1 15 7) 0 held = true ∧ resHolder held 1 15 = some (.inl 9)) := by decide +kernel

theorem wit_TransactionsComplete :
    let idle := { svcT 2 with time := { base := 10000000000 } }
    adm hd (.txnBegin 0) 0 svc = true ∧ txnOf svc.txns 0 = none
    ∧ (adm hd (.txnBegin 3) 0 (svcT 3) = true ∧ txnOf (svcT 3).txns 3 = some tx)
    ∧ (adm hdT .txnCommit 0 (svcT 3) = true ∧ txnDomain (svcT 3) 1 = some 3 ∧ commitStatus (entered hdT .txnCommit 0 (svcT 3)) 3 tx = none)
    ∧ (adm hdT .txnCommit 0 (svcT 1) = true ∧ txnDomain (svcT 1) 1 = some 1 ∧ commitStatus (entered hdT .txnCommit 0 (svcT 1)) 1 tx = none)
    ∧ (adm hdT .txnRollback 0 (svcT 2) = true ∧ txnDomain (svcT 2) 1 = some 2)
    ∧ (txnOf idle.txns 2 = some tx ∧ tx.committing = false ∧ txnActive idle 1 = false ∧ idle.plates.load = none ∧ replyRoom (fnOf idle 0) = false ∧ idle.cmdq = []
      ∧ (fnOf idle 0).store.length < 4096 ∧ tx.idleSince + 10000000000 ≤ max idle.time.base 0)
    ∧ max (svcT 2).time.base 9999999999 < tx.idleSince + 10000000000 := by decide +kernel

/-- Address words of physical units. -/
def wCore : Nat := physWord (.core 0 0 0)
def wRegion : Nat := physWord (.region 39 15)
def wCal : Nat := physWord (.region 35 15)

theorem wit_UnitCommandsComplete :
    let sn := { svc with rst := { svc.rst with calDone := false } }
    (adm hd (.testRun wCore) 0 svc = true ∧ (namedUnit svc wCore).bind coreOfUnit = some 0)
    ∧ (adm hd (.fenceUnit wRegion) 0 svc = true ∧ namedUnit svc wRegion = some (.region 39 15))
    ∧ (adm hd .calSelf 0 sn = true ∧ sn.sched.step = none ∧ sn.reqs = [] ∧ sn.arr.desc = [])
    ∧ (adm hd (.calRecal wCal) 0 svc = true ∧ (namedUnit svc wCal).isSome ∧ namedRegions svc wCal = [575] ∧ namedRegions svc wRegion = [])
    ∧ (adm hd (.calDrift wCal) 0 svc = true)
    ∧ adm hd (.calRecal wCal) 0 sn = true ∧ adm hd (.calDrift wCal) 0 sn = true := by decide +kernel

/-- Address word of logical plane p of tile 0 of core 0. -/
def lp (p : Nat) : Nat := logicalWord (.plane 0 0 0 0 p)

def shard1 : Shard := { module := 0, planes := 1, payOff := 4032, payLen := 40000, nonce := 0, digest := 0, resZero := true }

/-- An image of one plane for module 0, signed with the publisher key 5. -/
def img1 : PlateImage :=
  { magic := 0x544C505A, arch := 1, version := 1, dual := false, resZero := true, imageId := 9, plateVersion := 2, shardCount := 1,
    imageLen := 44032, sigOff := 128, bindOff := 2176, shardOff := 3904, tableDigest := 0, totalPlanes := 1, keyId := digestOf (leBytes 56 5), sigOk := true, tableDigestOk := true,
    shards := [shard1], bindings := [0], unwrapOk := true, addrs := [(lp 0, 0)] }

def par1 : LoadParams := { source := 0, inPlace := false, peer := 0, addr := 0x100000, imageLen := 44032 }

def plate1 : Plate :=
  { imageId := 9, version := 2, keyId := 5, dual := false, shard := shard1, source := 0, peer := 0, addr := 0, modules := [0], planes := [0], twins := [] }

/-- A record of logical plane 0 with level 0 everywhere, 4-bit weights. -/
def rec1 : PlaneRecord :=
  { addr := lp 0, twin := 0, wmode := 3, width := 4, zeroPoint := 0, skimValid := 0, skimRow := [], skimShift := [], resZero := true,
    levels := [], envelope := [], skimW := [] }

/-- With the publisher's key registered. -/
def pub (s : State) : State := { s with nv := { s.nv with publishers := ⟨some [5], none, true⟩ } }
def withPlates (s : State) (p : PlateBlk) : State := { s with plates := p }

theorem wit_PlateCommandsComplete :
    let s := pub (svcT 1)
    let c := withPlates s { table := [plate1] }
    let d := withPlates s { claims := [(0, 0)], waiting := [(0, [⟨0, 0, 1, false⟩])], records := [(0, rec1)] }
    (adm hdT (.plateLoad par1) 0 s = true ∧ s.plates.draining = none ∧ s.plates.rewriting = false ∧ peerOk s 0 0 = true)
    ∧ (adm hdT (.plateRelease 9) 0 c = true ∧ c.plates.table.find? (fun q => q.imageId == 9) = some plate1)
    ∧ adm hdT (.formeLoad 255 64 0) 0 s = true ∧ adm hdT (.formeLoad 255 64 2147483648) 0 s = true ∧ adm hdT (.formeLoad 0 64 1) 0 s = true
    ∧ (adm hd (.plateSourceSet 9 0 0 64) 0 c = true ∧ c.plates.table.find? (fun q => q.imageId == 9) = some plate1 ∧ peerOk c 0 0 = true
      ∧ (0 ∈ plate1.planes ∧ 1 ∉ plate1.planes))
    ∧ (adm hdT (.plateDefectAccept (lp 0)) 0 d = true ∧ wordPlane (lp 0) = 0
      ∧ (spareAway (entered hdT (.plateDefectAccept (lp 0)) 0 d) 0 rec1).2 = some 1344) := by decide +kernel

/-- The load of img1, whose plane 0 is claimed. -/
def load1 : Load :=
  { fn := 0, seq := 1, par := par1, image := img1, part := 4, next := 0, last := none, written := [], attempts := 0, authenticated := false }
def loading1 (l : Load) : State :=
  { svcT 1 with
    plates := { load := some l, claims := [(0, 0)] }
    cmdq := [{ hdr := hdT, par := .plateLoad par1, taken := 0, wait := .load, attempts := 0 }] }

/-- Every other check passes once the publisher's key is known. -/
theorem image_passes (s : State) (p : LoadParams) (img : PlateImage) (h : headerStatus p img = none) (ht : tablesOk img = true)
    (hd : dualOnly s = false) (hp : img.keyId ∈ publisherIds s) (hs : img.sigOk = true) (he : s.plates.table = [])
    (hg : img.tableDigestOk = true) (ho : (ownShard s img).isNone = false) (hb : (s.nv.bindKey ∈ img.bindings && img.unwrapOk) = true) :
    imageStatus s p img = none := by
  simp [imageStatus, h, ht, hd, hp, hs, he, hg, ho, hb]

theorem pub_knows (s : State) : img1.keyId ∈ publisherIds (pub s) := List.mem_singleton.mpr rfl

/-- The binding block of img1: one entry, for the binding key 0. -/
theorem wit_PlateCommandsComplete_binding :
    let s := pub { loading1 { load1 with part := 3 } with plates := { load := some { load1 with part := 3 } } }
    let img := withBinding img1 [1] true [(lp 0, 0)]
    let s1 := setPlates (advance 5 s) (fun b => { b with load := some { load1 with image := img } })
    (findCmd s 0 1).any (fun e => e.wait == .load) = true ∧ s.therm.stopping = none ∧ s.plates.load = some { load1 with part := 3 }
    ∧ load1.fn = 0 ∧ load1.seq = 1 ∧ load1.authenticated = false ∧ claimAll s1 false (imagePlanes img) s.plates.claims = some [(0, 0)]
    ∧ imageStatus s1 par1 img = none := by
  refine ⟨by decide +kernel, by decide +kernel, rfl, rfl, rfl, rfl, by decide +kernel, ?_⟩
  exact image_passes _ _ _ (by decide +kernel) (by decide +kernel) (by decide +kernel) (List.mem_singleton.mpr rfl) rfl rfl rfl (by decide +kernel)
    (by decide +kernel)

theorem wit_PlateRollbackRefused :
    let s := pub svc
    let c := withPlates s { table := [{ plate1 with version := 3 }] }
    let e := withPlates s { table := [plate1] }
    (headerOk par1 img1 = true ∧ tablesOk img1 = true ∧ dualOnly c = false ∧ (ownShard c img1).isSome ∧ c.nv.bindKey ∈ img1.bindings)
    ∧ img1.keyId ∈ publisherIds c
    ∧ (∃ q ∈ c.plates.table, q.imageId = img1.imageId ∧ img1.plateVersion < q.version)
    ∧ (∀ q ∈ e.plates.table, q.imageId = img1.imageId → q.version ≤ img1.plateVersion) :=
  ⟨by decide +kernel, pub_knows svc, by decide +kernel, by decide +kernel⟩

def cfg1 : TenantCfg := ⟨true, false, 0, 0, 0, 0, 0, 0⟩
def tenants1 (slot : Nat) : Tbl Tenant := [(1, { slot := triOf slot, enabled := slot == 1 })]

theorem wit_TenantCommandsComplete :
    let a := { svc with tenants := tenants1 1 }
    let b := { svcT 0 with tenants := tenants1 1 }
    (adm hdT (.tenantSet 255 cfg1) 0 (svcT 0) = true ∧ tenantSetStatus (svcT 0) 255 cfg1 = none)
    ∧ (adm hd (.keyLoad 255) 0 svc = true ∧ tenantSlot svc 255 = 0)
    ∧ (adm hd (.tenantRemove 1) 0 a = true ∧ tenantSlot a 1 = 1)
    ∧ (adm hdT (.overlaySet 1 0 0 64 8192) 0 b = true ∧ tenantSlot b 1 ≠ 2)
    ∧ adm hdT (.overlaySet 1 0 0 64 0) 0 b = true
    ∧ (adm hd (.keyLoad 1) 0 a = true ∧ tenantSlot a 1 ≠ 0) := by decide +kernel

def token1 : DebugToken :=
  { magic := 0x4742445A, version := 1, scope := 4, serial := 0, challenge := 0, sigLen := 3124, resZero := true, sigOk := true }

theorem wit_SecurityCommandsComplete :
    let c := { svc with sec := { confPresent := true } }
    let one := pub svc
    let un := { pub svc with sec := { debugScope := some 4 } }
    let full := { svc with nv := { svc.nv with publishers := ⟨some (List.range 16), none, true⟩ } }
    let most := { svc with nv := { svc.nv with publishers := ⟨some (List.range 15), none, true⟩ }, sec := { debugScope := some 4 } }
    (adm hd (.keyRegister 7) 0 svc = true ∧ svc.sec.confPresent = false ∧ publisherKeys svc = [])
    ∧ (adm hd (.keyRegister 7) 0 un = true ∧ (publisherKeys un).length < 16 ∧ bitAt 4 2 = true)
    ∧ (adm hd (.keyRegister 7) 0 most = true ∧ (publisherKeys most).length = 15)
    ∧ (adm hd (.attest 3 64) 0 svc = true ∧ svc.nv.leafBlocks ≤ 4096 ∧ svc.nv.nextLeaf ≤ 1024 * (4096 - svc.nv.leafBlocks))
    ∧ (adm hd (.debugUnlock token1.scope) 0 svc = true ∧ tokenOk svc token1 = true)
    ∧ (adm hd (.keyRegister 7) 0 c = true) ∧ (adm hd (.keyRegister 7) 0 full = true ∧ 16 ≤ (publisherKeys full).length)
    ∧ (adm hd (.keyRegister 7) 0 one = true ∧ publisherKeys one ≠ [] ∧ one.sec.debugScope = none)
    ∧ (adm hd (.debugUnlock token1.scope) 0 c = true)
    ∧ (adm hd (.debugUnlock 4) 0 svc = true ∧ tokenOk svc { token1 with challenge := 1 } = false) := by decide +kernel

def sched1 : SchedRec :=
  { rowsMax := 8, chunk := 8, prefillCost := 0, outputKind := 0, scores := 0, draftMax := 0, vocab := 100, eosValid := 0, draftSlot := 0xFF,
    eos := [] }

def forme1 : FormeImage :=
  { magic := 0, arch := 1, version := 1, system := false, draft := false, resZero := true, parts := [], sched := sched1, web := 0, acc := [],
    layers := [], attn := [], groups := [], routes := [], paramLen := 0 }

def reqP : ReqParams :=
  { slot := 0, pinned := false, speculate := false, web := false, channel := 0, dclass := 0, maxTokens := 1, temperature := 0, topK := 0,
    topP := 0x3F800000, repPenalty := 0x3F800000, promptTokens := 2, promptAddr := 64, ringAddr := 64, ringBytes := 4096, deadline := 0 }

def req1 : Req :=
  { p := reqP, fn := 0, tenant := 1, order := 0, state := .queued, saved := .queued, history := [1, 2], done := 0, emitted := 0, age := 0,
    last := 0, counts := [], d := 0, rejectRun := 0, zeroSteps := 0, sets := [], tables := [], sealed := [], restarts := 0, horizon := 0,
    writeIdx := 0, readIdx := 0, waiting := [], cond := {}, endAs := [], silent := false, fillSeen := false, historySheets := 1, redo := 0 }

/-- Tenant 1 is enabled, its key ACTIVE, and a forme lies in slot 0. -/
def run : State :=
  { svc with tenants := tenants1 1, formes := [(0, { image := forme1, length := 0, layers := [], draining := false })] }

def hd1 : Hdr := { hd with tenant := 1 }

theorem wit_RequestCommandsComplete :
    let w := { run with cmdq := [{ hdr := hd1, par := .reqSubmit reqP, taken := 0, wait := .hostRead, attempts := 0 }] }
    let r := { run with reqs := [(0, req1)] }
    (adm hd1 (.reqSubmit reqP) 0 run = true ∧ submitStatus run reqP (ownerOf hd1) run.rst.calDone = none)
    ∧ ((findCmd w 0 1).any (fun e => e.hdr == hd1 && e.par == .reqSubmit reqP && e.wait == .hostRead) = true
      ∧ submitBad w reqP (ownerOf hd1) w.rst.calDone = none ∧ (formeOf w 0).isSome ∧ [1, 2].length = reqP.promptTokens
      ∧ ∀ x ∈ [1, 99], x < forme1.sched.vocab)
    ∧ (adm hd1 (.reqCancel (ridOf r 0)) 0 r = true ∧ reqOf r (ridIndex (ridOf r 0)) = some req1
      ∧ ridOf r (ridIndex (ridOf r 0)) = ridOf r 0 ∧ hdrTenant hd1 = some 1 ∧ req1.tenant = 1 ∧ req1.endAs = []
      ∧ ((findCmd (entered hd1 (.reqCancel (ridOf r 0)) 0 r) 0 1).map (·.taken)).getD 9 = 0) := by decide +kernel

theorem wit_HostAccessTimesOut :
    let w := fun n => { run with cmdq := [{ hdr := hd1, par := .reqSubmit reqP, taken := 0, wait := .hostRead, attempts := n }] }
    findCmd (w 2) 0 1 = some { hdr := hd1, par := .reqSubmit reqP, taken := 0, wait := .hostRead, attempts := 2 }
    ∧ findCmd (w 1) 0 1 = some { hdr := hd1, par := .reqSubmit reqP, taken := 0, wait := .hostRead, attempts := 1 }
    ∧ (w 0).therm.stopping = none ∧ hd1.fn = 0 ∧ hd1.seq = 1 := by decide +kernel

def webP : WebParams :=
  { channel := 4095, cadence := 1000, frameBytes := 20, fill := 0, dclass := 0, group := 0xFFFF, silenceAddr := 0, destAddr := 64, destBytes := 256 }

def chan1 : Channel :=
  { tenant := 1, fn := 0, p := webP, g := 1, t0 := 0, slot := 0, queue := [], data := 0, fills := 0, run := 0, filling := false, lastTokens := [],
    silence := none, bound := none, closing := false, restarted := false }

def withChan (s : State) (c : Channel) : State := { s with web := { channels := [(4095, c)] } }

theorem wit_WebCommandsComplete :
    let sil := { webP with fill := 1, silenceAddr := 64 }
    let c := withChan run chan1
    let g := { run with txns := (svcT 2).txns }
    (adm hd1 (.webOpen webP) 0 run = true ∧ tenantEnabled run (ownerOf hd1) = true ∧ webOpenStatus run webP = none)
    ∧ (adm hd1 (.webOpen sil) 0 run = true ∧ webOpenStatus run sil = none ∧ sil.silenceAddr ≠ 0)
    ∧ (adm hd1 (.webClose 4095 1) 0 c = true ∧ chanOf c 4095 = some chan1 ∧ webScope hd1 chan1 = true)
    ∧ adm hd1 (.webClose 4095 0) 0 c = true
    ∧ (adm hdT (.webGroup 1023 [0, 4095]) 0 g = true ∧ [0, 4095].Nodup ∧ (∀ m ∈ [0, 4095], m < 4096 ∧ inOtherGroup g 1023 m = false))
    ∧ (adm hdT (.webGroup 0 [0xFFFF]) 0 g = true ∧ inOtherGroup g 0 0xFFFF = false) := by decide +kernel

theorem wit_WebSlotWritesAFrame :
    let s := withChan { run with time := { base := 1000000 } } chan1
    let l := { s with opts := triOf [(Off.web, 0x00031408)] }
    (chanOf s 4095 = some chan1 ∧ chan1.p.group = 0xFFFF)
    ∧ max (0 : Nat) 999999 < slotTime { chan1 with slot := 1 } 1 ∧ slotTime { chan1 with slot := 1 } 1 ≤ max s.time.base 0
    ∧ ({ chan1 with queue := [([7], false)] }.queue = [([7], false)]) ∧ chan1.closing = false
    ∧ chan1.p.fill ≤ 1 ∧ fillLimit s = 0 ∧ fillLimit l = 3 ∧ { chan1 with run := 2 }.run < fillLimit l
    ∧ fillLimit l ≤ { chan1 with run := 3 }.run := by decide +kernel

/-- IDENTIFY with RESULT_ADDR 64 and SEQ 1, as R231 and R249 lay it out. -/
def packet1 : List Byte :=
  [0x01, 0x00, 0x11, 0x00, 0x02, 0x00, 0xFF, 0xFF, 0x01, 0x00, 0x00, 0x00, 0x00, 0x00, 0x00, 0x00,
   0x40, 0x00, 0x00, 0x00, 0x00, 0x00, 0x00, 0x00, 0x00, 0x00, 0x00, 0x00, 0x00, 0x00, 0x00, 0x00]

theorem test_packet : decodePacket 0 packet1 = ({ hd with length := 2 }, some (.identify 64)) := by decide +kernel

theorem wit_GalleyTakesPackets :
    let b := packet1
    hostUp svc = true ∧ barOpen svc 0 = true ∧ (fnOf svc 0).due = 0 ∧ (4 : Nat) ≠ (fnOf svc 0).frontier
    ∧ leAt b 4 2 = 2 ∧ b.length = 16 * leAt b 4 2 ∧ leAt b 8 4 = (fnOf svc 0).nextSeq ∧ 16 * leAt b 4 2 ≤ galleySize 0 - (fnOf svc 0).stored.length
    ∧ (leAt (List.replicate 16 0) 4 2 < 1 ∧ 257 < leAt (List.replicate 16 0xFF) 4 2)
    ∧ galleySize 255 - 65504 < 16 * 3 := by decide +kernel

theorem wit_PacketTakeQueuesTheCommand :
    let s := setFn svc 0 { fnOf svc 0 with stored := packet1 }
    let bad := setFn svc 0 { fnOf svc 0 with stored := 0xEE :: packet1.drop 1 }
    hostUp s = true ∧ s.cmdq.length < 1024 ∧ (rotation s).find? (takeable s) = some 0 ∧ completePacket (fnOf s 0) = some 32
    ∧ (decodePacket 0 ((fnOf s 0).stored.take 32)).2 = some (.identify 64)
    ∧ (rotation bad).find? (takeable bad) = some 0 ∧ (decodePacket 0 ((fnOf bad 0).stored.take 32)).2 = none
    ∧ replyRoom (fnOf bad 0) = false := by decide +kernel

theorem wit_GalleyResetAndReplyHead : hostUp svc = true ∧ barOpen svc 0 = true ∧ barOpen svc 255 = true ∧ (1 : W32).toNat % 2 = 1
    ∧ (2 : W32).toNat % 2 = 0 ∧ (fnOf svc 0).stored = []
    ∧ (let b : List Byte := [0, 0, 0, 0, 1, 0, 0, 0, 1, 0, 0, 0, 1, 0, 0, 0]
      storedHeaders b.length b = [b] ∧ txnDomain (svcT 3) (leAt b 12 2) = some 3) := by decide +kernel

theorem wit_RegisterWrites : hostUp svc = true ∧ barOpen svc 0 = true ∧ barOpen svc 1 = true ∧ ¬((4 : Nat) = 4 ∧ 2 % 4 = 0)
    ∧ ¬((4 : Nat) = 8 ∧ 2 % 8 = 0) ∧ ¬((8 : Nat) = 4) ∧ ¬((8 : Nat) = 8 ∧ 4 % 8 = 0) := by decide +kernel

theorem wit_EventTimers :
    let held := fun (x : Timer) => { setTimer svc 63 x with share := { timers := [(63, .inl 7)] } }
    (heldByHost (held { en := true }) 0 63 = true ∧ (timerOf (held { en := true }) 63).en = true)
    ∧ heldByHost (held {}) 0 63 = true ∧ (timerOf (held {}) 63).en = false
    ∧ (timerOf (held { en := true, periodic := true }) 63).periodic = true ∧ heldByHost svc 0 63 = false
    ∧ max (0 : Nat) 100 + 200 ≤ 300 ∧ 299 < max (0 : Nat) 100 + 200
    ∧ (timerOf (held { en := true, next := some 300 }) 63).next = some 300 := by decide +kernel

def acc1 : AccDesc :=
  { spillSlot := 3, destAddr := 16, park := false, dest := 1, last := true, resume := false, add := false, bank := 3, resZero := true }

def seg0 : Segment := { scales := [], clamps := [], skim := [], skimClamps := 0, skimValid := 0, eSeg := 0, elems := [] }
/-- One driven block whose elements are 0. -/
def seg1 : Segment := { seg0 with scales := [127], elems := [List.replicate 32 0] }

def strobe1 (g : Segment) : StrobeReq :=
  { core := 0, tile := 15, plane := 0, slot := 0, layer := 0, rid := some 0, bits := 4, fine := false, restrike := 0, rows := 32, seg := g,
    skimSlot := 0xFFFF, acc := acc1, groupCores := 1, ready := 0, edge := 0, badSheet := none }

def layer0 : LayerRec :=
  { layer := 0, maxRung := 3, baseRestrike := 0, inBits := 4, tau := 0x01F0, nearLimit := 4, tauA := 8, satLimit := 64, outFmt := 0, act := 0,
    stochastic := false, biasValid := false, clampValid := false, clamp := 0, outCols := 256, scaleOff := 0, biasOff := 0, firstGroup := 0,
    groupCount := 1, attn := 0xFFFF, scales := [], biases := [] }

/-- A group of one product: plane 0 of tile 15 of core 0, its input in the sheet at the start of scratch. -/
def group0 : Group :=
  { acc := acc1, layer := 0, expert := 0xFFFF, router := 0xFFFF,
    entries := [{ plane := logicalWord (.plane 0 0 0 15 0), run := 1, sheet := 0, segment := 0, skimSlot := 0xFFFF }] }

def strobeForme : Forme :=
  { image := { forme1 with layers := [layer0], groups := [group0] }, length := 0, layers := [], draining := false }

theorem wit_TileEngage :
    let p := { svc with sec := { proof := true } }
    let v : W32 := 0x80000000
    let ph : W32 := 0xC000057F
    let n := { p with formes := [(0, strobeForme)] }
    (svc.sec.proof = false ∧ p.sec.proof = true ∧ bitAt v.toNat 31 = true ∧ coreNamed p 0 = false ∧ logicalStack p (coreStack 0) ≠ none
      ∧ fld v.toNat 10 0 < 1344 ∧ (descOf p (planeKey (tileKey 0 0) (physPlane p (tileKey 0 0) 0))).state ∈ [1, 2]
      ∧ descGood (descOf p (planeKey (tileKey 0 0) (physPlane p (tileKey 0 0) 0))) = true)
    ∧ (bitAt ph.toNat 31 = true ∧ bitAt ph.toNat 30 = true ∧ fld ph.toNat 10 0 = 1407
      ∧ (descOf p (planeKey (tileKey 0 0) 1407)).state ∈ [1, 2, 3, 4] ∧ descGood (descOf p (planeKey (tileKey 0 0) 1407)) = true)
    ∧ coreNamed n 0 = true ∧ logicalStack p (coreStack 102399) = none
    ∧ (bitAt (0x80000540 : W32).toNat 30 = false ∧ 1344 ≤ fld (0x80000540 : W32).toNat 10 0)
    ∧ (bitAt (0xC0000580 : W32).toNat 30 = true ∧ 1408 ≤ fld (0xC0000580 : W32).toNat 10 0) := by decide +kernel

theorem wit_CheckBitTestMode :
    let w := fun (c : State → FaultBlk) => { svc with faults := c svc }
    let raw : W32 := 0x90000002
    let s := w (fun _ => { eccOffset := 4088 })
    let r := w (fun _ => { eccOffset := 4088, eccMem := [((2, 0, 4088), (5, 6))] })
    (s.rst.phase = .service ∧ bitAt raw.toNat 31 = true ∧ fld raw.toNat 3 0 = 2 ∧ fld raw.toNat 30 28 = 1 ∧ eccTarget s 2 = true)
    ∧ (fld (0xA0000002 : W32).toNat 30 28 = 2 ∧ aget r.faults.eccMem (eccKey r 2) = some (5, 6))
    ∧ fld (0xB0000002 : W32).toNat 30 28 = 3 := by decide +kernel

/-! ## Pages -/

/-- Rows of 1,672 bytes. -/
def attn1 : AttnRec :=
  { kvHeads := 8, qPerKv := 1, headDim := 128, keyFmt := 13, valFmt := 13, queryFmt := 0, mask := 0, scale := 0, window := 0,
    home := logicalWord (.region 0 0), layer := 0 }

/-- The first 512 positions of the example after R297: their 24 sets, of 7 and 14 sheets a page. -/
theorem test_pages :
    let s := { run with
      formes := [(0, { image := { forme1 with attn := [attn1] }, length := 0, layers := [], draining := false })]
      reqs := [(0, req1)] }
    rowBytes attn1 = 1672 ∧ ((takePages s 0 512 false []).bind (fun u => reqOf u 0)).map (fun q =>
        (q.sets.map (·.k), sumNat (q.sets.flatMap (fun p => p.pages.map (·.2.1)))))
      = some (List.replicate 16 4 ++ List.replicate 8 5, 224) := by decide +kernel

/-- One head of 32 elements: keys in BI4, values in BI8; 72 bytes a row. -/
def attn2 (mask : Nat) : AttnRec :=
  { kvHeads := 1, qPerKv := 1, headDim := 32, keyFmt := 11, valFmt := 15, queryFmt := 0, mask := mask, scale := 0x3F800000, window := 0,
    home := logicalWord (.region 0 0), layer := 0 }

/-- The layout of R284: row word, one key block, one value block, zeros up to 16 bytes; and R285 reads the values back. -/
theorem test_row :
    let keys : List W32 := 0x40E00000 :: List.replicate 31 0
    let vals : List W32 := List.replicate 31 0 ++ [0xC2FE0000]
    let row := (rowImage (attn2 0) 11 15 5 9 (List.replicate 64 none) keys vals).1
    row = [5, 0, 0, 1, 9, 0, 0, 0] ++ (127 :: 7 :: List.replicate 15 0) ++ (127 :: List.replicate 31 0 ++ [0x81]) ++ List.replicate 14 0
      ∧ rowHead (attn2 0) 11 15 0 row = ((keys, vals), false) := by decide +kernel

/-- One position sealed in a set of 16, whose page is sheet 5. -/
def set1 : PageSet := { k := 4, fmts := [(11, 15)], fill := 1, record := 9, pages := [(5, 1, 0)], draft := false }
def paged (mask : Nat) : State :=
  { run with
    formes := [(0, { image := { forme1 with attn := [attn2 mask] }, length := 0, layers := [], draining := false })]
    reqs := [(0, { req1 with sets := [set1] })] }

/-- R295: VALID, LOG2, KEY_FMT, VAL_FMT, FILL, RECORD. R296: the page of layer 0 at byte 8. -/
theorem test_set_entry : setEntry set1 = 0xA5F8004000000009 ∧ setRecord set1 = List.replicate 8 0 ++ [5, 0, 0, 0] := by decide +kernel

/-- R206: α × B(A x) = 2 × 3 and the steering vector 1 are added to 2, the scale 0.5 multiplies. -/
theorem test_overlay :
    let o : Overlay := { (default : Overlay) with kinds := 7, rank := 1, n := 1, m := 1, alpha := 0x40000000, a := [0x3F80], b := [0x3F80],
                                                  steer := [0x3F800000], scale := [0x3F000000] }
    overlayValue o (adapterInner o [0x40400000]) 0 (0x40000000, false) = (0x40900000, false) := by decide +kernel

/-! ## Witnesses: the block's own events -/

def ok {α : Type} (f : α → Bool) : Host.Outcome α Fault Refusal → Bool
  | .next u => f u
  | .fault _ => false
  | .refused _ => false

def goes (s : State) : Bool := ok (fun _ => true) (step s)

def phased (s : State) (p : Phase) : State := { s with rst := { s.rst with phase := p } }
def based (s : State) (t : Nat) : State := { s with time := { s.time with base := t } }
/-- Options loaded, with these words. -/
def opted (s : State) (l : Tbl W32) : State := { s with opts := triOf l }

theorem wit_StepsKeepCounters : aonWf svc ∧ leavesWf svc ∧ goes { svc with pending := [.modWarmN 0 5] } = true := by
  unfold aonWf leavesWf; decide +kernel

theorem wit_StepsKeepMemories : memoriesWf State.reset ∧ goes { State.reset with pending := [.por 5] } = true :=
  ⟨⟨fun ck => by rw [(Sys2Proof.Laws.reset_scratch ck).1]; rfl, fun rk => by rw [Sys2Proof.Laws.reset_wideBuf rk]; rfl, rfl⟩, by decide +kernel⟩

theorem wit_WellFormedCommandsGoOn : (Instr.webSlot 4095 0).wf = true := by decide +kernel

theorem wit_TimeLoLatchesHigh : (255 : Nat) < 256 := by decide

theorem wit_ColdResets :
    aonWf svc ∧ svc.rst.phase ≠ .inReset ∧ svc.rst.phase ≠ .latched ∧ svc.therm.stopping = none
    ∧ State.reset.rst.phase = .inReset ∧ .por ∈ State.reset.rst.sources ∧ .perst ∉ State.reset.rst.sources := by
  unfold aonWf; decide +kernel

/-- MOD_WARM_N enabled, a delay that ends at 100, the watchdog last served at 0. -/
def warmS : State :=
  { svc with aon := { svc.aon with rstCfg := 2 }, rst := { svc.rst with warmAt := some 100 } }

theorem wit_WarmResets : aonWf warmS ∧ warmS.txns.plate = none ∧ warmS.rst.phase ≠ .inReset ∧ warmS.rst.phase ≠ .latched
    ∧ warmS.therm.stopping = none ∧ warmPinEn warmS = true ∧ warmS.rst.warmAt = some 100 ∧ 100 ≤ max warmS.time.base 100
    ∧ firmwareRuns warmS = true ∧ warmS.rst.lastService + 500000000 ≤ max warmS.time.base 500000000 := by
  unfold aonWf; decide +kernel

theorem wit_ResetRelease :
    let s := State.reset
    let l := { s with aon := { s.aon with consec := 4 } }
    let w := { s with rst := { s.rst with cold := false } }
    let e := { s with nv := { s.nv with fw := [] } }
    (s.rst.phase = .inReset ∧ max s.time.base 999999 < s.rst.started + 1000000 ∧ s.rst.started + 1000000 ≤ max s.time.base 1000000)
    ∧ (s.rst.cold = true ∧ (s.nv.fw.find? (fun f => f.good && s.nv.svnMin ≤ f.svn)).isSome ∧ ¬(s.aon.consec = 4 ∧ s.aon.limp = false))
    ∧ (l.aon.consec = 4 ∧ l.aon.limp = false) ∧ (w.rst.cold = false ∧ ¬(w.aon.consec = 4 ∧ w.aon.limp = false))
    ∧ e.nv.fw.find? (fun f => f.good && e.nv.svnMin ≤ f.svn) = none := by decide +kernel

theorem wit_OptionLoad :
    let s := phased State.reset .loading
    (s.rst.phase = .loading ∧ (newest s.nv.gen).isSome ∧ s.nv.fuseMapOk = true ∧ hubFactoryOk s = true)
    ∧ svc.rst.phase ≠ .loading ∧ (State.reset.rst.phase = .inReset ∧ .por ∈ State.reset.rst.sources) ∧ .por ∉ svc.rst.sources := by
  decide +kernel

/-- A tick with MP0's work done and nobody silent. -/
def tick1 : TickInput :=
  { overruns := [(.hbm, 1), (.converter 639, 2)], bandgap := [], alive := [1, 2, 3], ringHeads := [], done := true, power := 900, power100 := 900, limited := 0 }

theorem wit_HousekeepingTick : firmwareRuns svc = true ∧ svc.rst.lastTick + 40000000 ≤ max svc.time.base 40000000
    ∧ max svc.time.base 39999999 < svc.rst.lastTick + 40000000 ∧ silentMp (heartbeats svc tick1.alive) = 0
    ∧ inService svc = true ∧ svc.rst.lastAge + 3600000000000 ≤ max svc.time.base 3600000000000
    ∧ max svc.time.base 3599999999999 < svc.rst.lastAge + 3600000000000 ∧ inService State.reset = false := by
  decide +kernel

def temp1 (v : Int) : TempReading := { sensor := .region 639 1, raw := 500, value := v, cata := false }

theorem wit_SensePasses : firmwareRuns svc = true ∧ svc.therm.stopping = none ∧ trips svc (temp1 1759) = false
    ∧ (∀ r ∈ [temp1 1759], trips svc r = false ∧ r.sensor = .region 639 1)
    ∧ svc.therm.lastFwPass + 2000000 ≤ max svc.time.base 2000000 ∧ max svc.time.base 1999999 < svc.therm.lastFwPass + 2000000 := by
  decide +kernel

/-- Hub converter 3 takes its passes from the module's edges, 100 ns after each. -/
def sensed : State := opted svc [(senseOff 643 0x180, 0x80000064)]

theorem wit_SensePasses_host :
    let b := { sensed with hubSense := [(3, { hostUntil := 5000 })] }
    triggered svc 643 = false ∧ triggered sensed 643 = true ∧ fld (senseTrig sensed 643) 15 0 = 100 ∧ (senseOf sensed 643).hostUntil ≤ 0
    ∧ 0 + fld (senseTrig sensed 643) 15 0 ≤ max sensed.time.base 100 ∧ max sensed.time.base 99 < 0 + fld (senseTrig sensed 643) 15 0
    ∧ triggered b 643 = true ∧ 4999 < (senseOf b 643).hostUntil := by
  decide +kernel

/-- A running step of forme slot 0 with one row of request 0. -/
def row1 : Row :=
  { rid := 0, slot := 0, n := 1, draft := 0, final := false, charged := true, web := false, tokens := [], accepted := 0, nan := false, cond := {},
    keyBits := 0, rung := 0, granted := false, withheld := false, sampled := false }

def step1 : Step :=
  { number := 5, began := 0, rows := [row1], owner := 256, waiting := [639], summaries := [], alarmed := [], cut := false, sealing := false,
    settled := false, tBase := 0, dT := 0, system := false }

def stepping (s : State) (k : Step) : State := { s with sched := { s.sched with step := some k } }

theorem wit_ThermalStops :
    let w := { svc with therm := { past := [(.region 639 1, [(0, 0)])] } }
    let st := { svc with therm := { stopping := some 0 } }
    (svc.rst.phase = .service ∧ (temp1 1760).sensor = .region 639 1 ∧ svc.therm.stopping = none
      ∧ predicted (takeReading (advance 5 svc) (temp1 1760)) (temp1 1760).sensor 1760 = false)
    ∧ (w.therm.stopping = none ∧ predicted (takeReading (advance 5000000 w) (temp1 1760)) (temp1 1760).sensor 1760 = true)
    ∧ (st.therm.stopping = some 0 ∧ st.sched.step = none ∧ max st.time.base 8000000 ≤ 0 + 8000000)
    ∧ (0 + 6000000 ≤ max (stepping st step1).time.base 6000000)
    ∧ ((stepping st step1).sched.step ≠ none ∧ max st.time.base 5999999 < 0 + 6000000)
    ∧ 0 + 10000000 ≤ max st.time.base 10000000 := by decide +kernel

theorem wit_ThermalLatchClears : (phased svc .latched).rst.phase = .latched
    ∧ (phased svc .latched).aon.latchAt + 10000000000 ≤ max (phased svc .latched).time.base 10000000000
    ∧ ¬((phased svc .latched).aon.latchAt + 10000000000 ≤ max (phased svc .latched).time.base 9999999999) := by decide +kernel

/-- The core has the forme of one product, and its input block 0 carries a scale code and elements. -/
def striking (code : Byte) (tiles : Tbl Tile) (desc : Tbl PlaneDesc) : State :=
  { setCore svc 0 { coreOf svc 0 with tiles := tiles, scratch := if code = 0 then [] else [(28, code), (60, 0x21)] } with
    formes := [(0, strobeForme)], arr := { svc.arr with desc := desc } }

def cmd1 : StrobeCmd :=
  { slot := 0, group := 0, entry := 0, index := 0, twin := false, rid := none, rows := 32, ready := 0, edge := 0, badSheet := none }

theorem wit_StrobesAndSwitches :
    let pk := planeKey (tileKey 0 15) 0
    let res := fun (s : State) => resolveStrobe (advance 5 s) cmd1
    let blocks := fun (s : State) => (res s).map (fun r => drivenBlocks r.1.seg r.1.rows)
    let quiet := striking 0 [(15, { engaged := some 0 })] []
    let loud := striking 127 [(15, { engaged := some 0 })] []
    let held := striking 127 [(15, { former := some 7 })] []
    let w := fun (n : Nat) => striking 127 [] [(pk, { descDefault svc 0 with state := n })]
    (resolveStrobe (advance 5 svc) cmd1 = none ∧ (res quiet).map (·.2) = some pk ∧ (res quiet).map (fun r => (r.1.core, r.1.tile, r.1.plane)) = some (0, 15, 0)
      ∧ blocks quiet = some [] ∧ blocks loud = some [0] ∧ (res loud).map (fun r => (r.1.bits, r.1.restrike, r.1.fine)) = some (4, 0, false))
    ∧ (coreUsable quiet 0 = true ∧ coreUsable State.reset 0 = false ∧ simultaneous quiet 0 1 = false ∧ physPlane quiet (tileKey 0 15) 0 = 0
      ∧ (descOf quiet pk).state = 1 ∧ (tileOf (coreOf quiet 0) 15).engaged = some 0 ∧ descGood (descOf quiet pk) = true)
    ∧ ((res held).isSome ∧ (tileOf (coreOf held 0) 15).former = some 7 ∧ formeState (descOf held (planeKey (tileKey 0 15) 7)) = true
      ∧ descGood (descOf held (planeKey (tileKey 0 15) 7)) = true)
    ∧ ((descOf (w 2) pk).state = 2 ∧ (descOf (w 3) pk).state = 3 ∧ (res (w 3)).isSome)
    ∧ (stepping loud step1).sched.step = some step1
    ∧ (resolveStrobe (advance 5 loud) { cmd1 with rid := some 0, badSheet := some 7 }).map (fun r => (r.1.rid, r.1.badSheet)) = some (some 0, some 7)
    ∧ 2 ≤ eventsWithin (advance 5 { loud with faults := { events := [(.none, 7, 1), (.none, 7, 2)] } }) .none 7 10000000000
    ∧ (simultaneous quiet 0 102401 = true ∧ regionLocked quiet 0 = false) := by decide +kernel

def heldP (skip : Bool) (cs : List Conv) : Held := { req := strobe1 seg1, phys := 0, convs := cs, skipped := skip }
def holding (h : Held) : State := setCore svc 0 { coreOf svc 0 with held := [h] }
/-- Conversions with every column over range. -/
def over1 : Conv := { codes := List.replicate 272 (511, true), drive := [], fine := false }

theorem wit_SkimProducts :
    let pk := planeKey (tileKey 0 15) 0
    let good := holding (heldP true [])
    let bad := holding (heldP false [over1])
    let d := descOf good pk
    let wrong := { holding (heldP true []) with arr := { svc.arr with desc := [(pk, { d with skimValid := 1 })] } }
    (coreOf svc 0).held = [] ∧ (coreOf good 0).held = [heldP true []] ∧ d.skimValid = 0
    ∧ (coreOf wrong 0).held = [heldP true []] ∧ (descOf wrong pk).skimValid ≠ 0 ∧ (strobe1 seg1).skimSlot = 0xFFFF
    ∧ (match checkStrobes (advance 9 bad) (coreOf bad 0) 0 15 pk (descOf bad pk) ((drivenRows (descOf bad pk) seg1 32).map (·.1)) 0x01F0 [over1] (none, 0) with
        | (some e, _) => e == .overrange
        | (none, _) => false) = true
    ∧ layerRec (advance 9 bad) 0 0 = none ∧ eventsWithin (advance 9 bad) .overrange 0 10000000000 = 0
    ∧ suspectOf (coreOf bad 0).groupFails 0 = none ∧ suspectOf [(0, allTiles), (1, allTiles), (2, allTiles), (3, allTiles)] 7 = some 64
    ∧ discards (advance 9 good) (heldP true []) pk = false ∧ (strobe1 seg1).core = 0 ∧ (strobe1 seg1).acc.resume = false
    ∧ discards (advance 9 { good with plates := { table := [{ plate1 with dual := true, twins := [(1, pk)] }] } }) { heldP true [] with other := some 1 } pk = true := by decide +kernel

def banked (a : AccDesc) : State := setCore svc 0 { coreOf svc 0 with banks := [(3, { desc := some a })] }

theorem wit_BanksFinalise :
    let f := { banked { acc1 with dest := 0 } with formes := [(0, strobeForme)] }
    (bankOf (coreOf (banked acc1) 0) 3).lanes = [] ∧ (bankOf (coreOf (banked acc1) 0) 3).width = 256
    ∧ (bankOf (coreOf svc 0) 3).desc = none ∧ (bankOf (coreOf (banked { acc1 with last := false }) 0) 3).desc = some { acc1 with last := false }
    ∧ (bankOf (coreOf (banked { acc1 with last := false, park := true }) 0) 3).desc = some { acc1 with last := false, park := true }
    ∧ (bankOf (coreOf (banked { acc1 with dest := 2 }) 0) 3).desc = some { acc1 with dest := 2 } ∧ acc1.last = true ∧ acc1.dest ≠ 0
    ∧ ((bankOf (coreOf f 0) 3).desc = some { acc1 with dest := 0 } ∧ layerRec f 0 0 = some layer0 ∧ layerRec (banked { acc1 with dest := 0 }) 0 0 = none) := by
  decide +kernel

/-- Forme slot 0 with a route from core 0 to core 1 of this module. -/
def route1 : Route := { src := logicalWord (.core 0 0 0), dst := logicalWord (.core 0 0 1), srcOff := 0, dstOff := 4096, sheets := 1, after := 0 }
def routed : State :=
  { run with
    formes := [(0, { image := { forme1 with routes := [route1] }, length := 0, layers := [], draining := false })]
    reqs := [(0, { req1 with p := { reqP with temperature := 0x80000000 } })] }

theorem wit_VectorAndRoutes :
    let s := stepping routed step1
    (reqOf s 0 = some { req1 with p := { reqP with temperature := 0x80000000 } } ∧ (0x80000000 : W32).toNat % 2 ^ 31 = 0 ∧ req1.counts = []
      ∧ s.sched.step = some step1)
    ∧ ((formeOf s 0).isSome ∧ ownCore s route1.src = some 0 ∧ ownCore s route1.dst = some 1 ∧ slotRuns s 0 = true
      ∧ layerFinal s 0 0 0 = true ∧ Memory.wf (coreOf s 0).scratch = true ∧ Memory.wf (coreOf s 1).scratch = true)
    ∧ slotRuns routed 0 = false
    ∧ (ownCore { s with ql := { s.ql with module := 1 } } (logicalWord (.core 0 0 1)) = some 1 ∧ ownCore s (2 * 2 ^ 40) = none ∧ vecCoreOk (.topMerge none none 1 []) = true)
    ∧ (reqOf (paged 0) 0 = some { req1 with sets := [set1] } ∧ attnOf (paged 0) 0 0 = some (attn2 0)
      ∧ coverSet 15 0 (setsOf { req1 with sets := [set1] } (draftSlot (paged 0) 0)) = some (set1, 15)
      ∧ rowAddr (attn2 0) 0 set1 15 = some (4096 * 5 + 72 * 15) ∧ attnStochastic (paged 0) 0 0 = false)
    ∧ (let rows := fun (m : Nat) =>
          visibleRows (paged m) 0 0 0 0 (visible (attn2 m) 0).1 (visible (attn2 m) 0).2 (attn2 m) (setsOf { req1 with sets := [set1] } false)
      (rows 0).map (·.pos) = [0] ∧ (rows 1).map (·.pos) = []
        ∧ (rows 0).all (fun r => !f32IsNan (f32Mul 0x3F800000 (dotF32 [0x3F800000] (rowHead (attn2 0) 11 15 0 r.bytes).1.1))) = true) := by
  decide +kernel

def words1 : DualWords := { sums := [], signed := [], window := [] }
def wait1 : DualWait := { primary := 0, secondary := 160, tile := 15, time := 0, own := words1 }
def waiting1 : State := { stepping svc step1 with faults := { dual := [wait1] } }

theorem wit_TwinsCompare :
    let f := fun (s : State) => s.faults.dual.find? (fun w => w.primary == 0 && w.secondary == 160 && w.tile == 15)
    let g := fun (s : State) (t : Nat) => s.faults.dual.find? (fun w => w.primary == 0 && w.secondary == 160 && w.time + 10000 ≤ max s.time.base t)
    f svc = none ∧ f waiting1 = some wait1 ∧ wordsDiffer waiting1 wait1.own words1 = false
    ∧ wordsDiffer waiting1 wait1.own { words1 with sums := [1000] } = true ∧ g waiting1 10000 = some wait1 ∧ g waiting1 9999 = none
    ∧ eventsWithin (advance 10000 waiting1) .checksum 0 10000000000 = 0
    ∧ eventsWithin (advance 10000 waiting1) .checksum (10 ^ 10 + nCores * 0 + 160) 10000000000 = 0 := by decide +kernel

def stat1 : ColStat := { lo := 10, hi := 500, sum := 0, sq := 0 }
def env1 : Envelope := { codeMin := 10, codeMax := 500, meanLo := -1, meanHi := 1, varMax := 1 }
/-- An envelope laid out as in R91: codes 10 to a maximum, means between -1 and 1, variance 1. -/
def envBytes (codeMax : Nat) : List Byte := leBytes 2 10 ++ leBytes 2 codeMax ++ leBytes 2 0xFFFF ++ leBytes 2 1 ++ leBytes 2 1

/-- Core 0 monitors plane 0 of tile 15, whose column 0 has an envelope in the core's scratch area. -/
def monitored (n : Nat) (codeMax : Nat) (x : ColStat) : State :=
  let c := coreOf svc 0
  setCore svc 0 { c with monPlane := some (15, 0), monCount := n, monSince := 1048576, monStats := [(0, x)],
                         scratch := mwrite c.scratch (4096 * c.envArea) (envBytes codeMax) }

theorem wit_MonitorWindows :
    let s := monitored 4096 500 stat1
    let env := fun (s : State) => envelopeOf (mread (coreOf s 0).scratch (4096 * (coreOf s 0).envArea + 16 * 0) 16)
    let far := { stat1 with sum := 4097 }
    ((coreOf svc 0).monPlane = none ∧ (coreOf (monitored 4095 500 stat1) 0).monCount < 4096)
    ∧ ((coreOf s 0).monPlane = some (15, 0) ∧ 4096 ≤ (coreOf s 0).monCount ∧ (coreOf s 0).monStats = [(0, stat1)] ∧ env s = env1
      ∧ codeAlarm env1 stat1 = false ∧ envelopeExcess 4096 env1 stat1 = false)
    ∧ (codeAlarm (env (monitored 4096 499 stat1)) stat1 = true ∧ eventsWithin (advance 5 s) .monitorAlarm 0 3600000000000 = 0)
    ∧ (codeAlarm (env (monitored 4096 500 far)) far = false ∧ envelopeExcess 4096 (env (monitored 4096 500 far)) far = true)
    ∧ (let m := { setCore svc 0 { coreOf svc 0 with monPhys := some 1 } with arr := { svc.arr with desc := [(1, { descDefault svc 1 with state := 2 })] } }
      (coreOf m 0).monPhys = some 1 ∧ (descOf m 1).state = 2)
    ∧ 1048576 ≤ (coreOf s 0).monSince := by decide +kernel

/-- Two planes of a committed plate are ALLOCATED, and the audit's plan of a period that began at 0 starts with them. -/
def rotating : State :=
  { svc with
    arr := { svc.arr with desc := [(0, { descDefault svc 0 with state := 2 }), (1, { descDefault svc 1 with state := 2 })] }
    plates := { table := [{ plate1 with planes := [0, 1] }], auditStart := some 0, auditPlan := [0, 1] } }

def audit1 : AuditSlot := { plane := 0, started := 0, xs := [(0, 20)], skim := [], y := [20], wmode := 0, wide := false, slot := 0, layer := 0 }
/-- A copy of 1-bit weights with one cell at a level (R37). -/
def copy1 (n : Nat) : AuditCopy :=
  { plane := 0, wmode := 0, zeroPoint := 0, skimValid := 0, skimShift := [], levels := [(0, n)], skimW := [] }
def auditedBy (a : AuditCopy) : State :=
  { setCore svc 0 { coreOf svc 0 with auditSlots := [(3, audit1)] } with plates := { auditSet := [a] } }
def audited : State := auditedBy (copy1 15)

theorem wit_Audits :
    (tfind (coreOf svc 0).auditSlots 3 = none ∧ tfind (coreOf audited 0).auditSlots 3 = some audit1 ∧ layerRec audited 0 0 = none)
    ∧ (auditCopyOf audited audit1 = some (copy1 15) ∧ referenceY (copy1 15) audit1 0 = 20
      ∧ auditCopyOf (auditedBy (copy1 0)) audit1 = some (copy1 0) ∧ auditCopyOf (auditedBy { copy1 0 with plane := 1 }) audit1 = none)
    ∧ 2 * (auditPeak [20] [20] * auditScale audit1) ≤ 8 * auditDen audit1
    ∧ 8 * auditDen audit1 < auditPeak [20] [referenceY (copy1 0) audit1 0] * auditScale audit1
    ∧ eventsWithin (advance 5 audited) .auditMismatch 0 3600000000000 = 0
    ∧ (descOf rotating 0).state = 2 ∧ tfind rotating.plates.writing 0 = none
    ∧ audit1.started + 50000 ≤ max audited.time.base 50000 ∧ max audited.time.base 49999 < audit1.started + 50000 := by decide +kernel

theorem wit_StepsSealAndEnd :
    let s := stepping svc step1
    let z := { step1 with waiting := [], sealing := true }
    let e := { z with settled := true }
    (s.sched.step = some step1 ∧ 639 ∈ step1.waiting ∧ step1.cut = false ∧ 638 ∉ step1.waiting)
    ∧ step1.sealing = false ∧ e.settled = true ∧ (z.cut = false ∧ { waiting1 with sched := s.sched }.faults.dual ≠ [])
    ∧ (z.sealing = true ∧ z.settled = false ∧ z.system = false ∧ (stepping svc z).faults.dual = [])
    ∧ { z with cut := true }.cut = true
    ∧ (boundaryReady (advance 5 s) step1 = false ∧ inService State.reset = false)
    ∧ (inService (stepping svc e) = true ∧ boundaryReady (advance 5 (stepping svc e)) e = true) := by decide +kernel

/-- Core tests enabled every 15 minutes, at most a minute late. -/
def tested : State := opted svc [(Off.testCfg, 0x80010001)]

theorem wit_CoreTests :
    let w := fun (c : Core) => setCore tested 92159 c
    let due := w { testDue := true }
    let bare := { due with arr := { due.arr with
      desc := (List.range 64).map (fun i => (planeKey (tileKey 92159 15) (1344 + i), { descDefault due 1344 with state := 4 })) } }
    let going := { w { testDue := true, testing := some 0 } with
      cmdq := [{ hdr := hd, par := .testRun 0, taken := 0, wait := .test 92159, attempts := 0 }] }
    (testEn tested = true ∧ testInterval tested = 900000000000 ∧ testDefer tested = 60000000000 ∧ coreFenced tested 92159 = false ∧ testable tested 92159 = true ∧ testable tested 102399 = false
      ∧ (coreOf due 92159).testDue = true ∧ (coreOf due 92159).testing = none ∧ inSlice (advance 5 due) 92159 = false
      ∧ testChance (advance 5 due) 92159 = true)
    ∧ ((∀ x, x < 16 → planesIn due (tileKey 92159 x) 3 ≠ []) ∧ patternReady due 92159 = true)
    ∧ (planesIn bare (tileKey 92159 15) 3 = [] ∧ bare.plates.testPlanes = [] ∧ (descOf bare (planeKey (tileKey 92159 15) 1343)).state = 1
      ∧ bare.plates.claims = [] ∧ bare.rst.loadDone = true)
    ∧ (testEn svc = false ∨ ∃ n, n < (coreOf tested 92159).testSince + testInterval tested)
    ∧ (coreOf going 92159).testing ≠ none
    ∧ going.cmdq.filter (fun x => x.wait == .test 92159)
        = [{ hdr := hd, par := .testRun 0, taken := 0, wait := .test 92159, attempts := 0 }] := by
  refine ⟨by decide +kernel, by decide +kernel, by decide +kernel, .inr ⟨0, by decide +kernel⟩, by decide +kernel, by decide +kernel⟩

def passing (rk : Nat) (p : Pass) : State := setRegion svc rk { regionOf svc rk with pass := some p }

theorem wit_RecalSlices :
    let p : Pass := { kind := 1 }
    let d : Pass := { kind := 1, slices := [(tileKey 92159 14, 0)] }
    let s := passing 575 p
    let e := setCore s 92159 { coreOf s 92159 with tiles := [(15, { engaged := some 7 })] }
    let o := setCore s 92159 { coreOf s 92159 with tiles := [(15, { former := some 7 })] }
    ((regionOf s (coreRegion 92159)).pass = some p ∧ passOver (advance 5 s) 575 p = false ∧ coreFenced s 92159 = false ∧ stackDriven s (coreStack 92159) = true
      ∧ (coreOf s 92159).testing = none ∧ sliceFree (advance 5 s) p 92159 100000 = true)
    ∧ (sliceFree (advance 99999 (passing 575 d)) d 92159 100000 = false ∧ sliceFree (advance 100000 (passing 575 d)) d 92159 100000 = true)
    ∧ ((regionOf e 575).pass = some p ∧ (tileOf (coreOf e 92159) 15).engaged = some 7)
    ∧ ((tileOf (coreOf o 92159) 15).former = some 7 ∧ (tileOf (coreOf (reengage (holdTile (advance 5 o) 92159 15) 92159 15) 92159) 15).engaged = some 7
      ∧ formeState (descOf o (planeKey (tileKey 92159 15) 7)) = true ∧ descGood (descOf o (planeKey (tileKey 92159 15) 7)) = true)
    ∧ ((tileOf (coreOf s 92159) 15).engaged = none ∧ lowestPlane s (tileKey 92159 15) = some 0
      ∧ descGood (descOf s (planeKey (tileKey 92159 15) 0)) = true)
    ∧ (descOf { s with rst := { s.rst with loadDone := false } } (planeKey (tileKey 92159 15) 0)).state = 0
    ∧ ([] : Tbl (Int × Int × Int)).all (wordOk s 0 92159) = true ∧ [((0 : Nat), ((40000 : Int), (0 : Int), (0 : Int)))].all (wordOk s 0 92159) = false
    ∧ (gainOk (2 ^ 18 + 15728) = true ∧ gainOk (2 ^ 18 + 15729) = false) := by decide +kernel

theorem wit_DriftAndSelfCalibration :
    let p : Pass := { kind := 2 }
    let gap := fun (g : Region) => setRegion svc 575 { g with ageGap := true }
    let tp := gap { pass := some { kind := 1 } }
    let dp := gap { pass := some { kind := 2 } }
    let e : CmdEntry := { hdr := hd, par := .calSelf, taken := 0, wait := .calSelf, attempts := 0 }
    let s := { passing 575 p with arr := { svc.arr with desc := [(planeKey (tileKey 92159 15) 7, { descDefault svc 7 with state := 2 })] } }
    let r : TrimResult := { conv := 67, gain := 0x200, offset := 0, dnl := [], failed := false }
    (driftDue svc 575 = false ∧ inService (gap {}) = true ∧ driftDue (gap {}) 575 = true ∧ (regionOf (gap {}) 575).wantDrift = false
      ∧ passRegion (gap {}) 575 = true ∧ passRegion svc 639 = false ∧ (regionOf (gap {}) 575).pass = none)
    ∧ ((regionOf tp 575).pass = some { kind := 1 } ∧ driftDue tp 575 = true) ∧ (regionOf dp 575).pass = some { kind := 2 }
    ∧ ((regionOf s (coreRegion 92159)).pass = some p ∧ passOver (advance 5 s) 575 p = false ∧ coreFenced s 92159 = false ∧ stackDriven s (coreStack 92159) = true
      ∧ (coreOf s 92159).testing = none ∧ (∀ n ∈ [7], (descOf s (planeKey (tileKey 92159 15) n)).state = 2)
      ∧ descGood (descOf s (planeKey (tileKey 92159 15) 7)) = true ∧ sliceFree (advance 5 s) p 92159 1000000 = true)
    ∧ svc.cmdq.find? (fun e => e.wait == Wait.calSelf) = none ∧ [e].find? (fun e => e.wait == Wait.calSelf) = some e
    ∧ (r.failed = false ∧ trimOk svc 92159 r = true) := by
  decide +kernel

theorem wit_BanksAndCalibrationComplete :
    let park := { acc1 with last := false, park := true }
    let p : Pass := { kind := 1, slices := [(tileKey 92159 14, 0)] }
    let d : Pass := { kind := 2 }
    let s := { passing 575 d with arr := { svc.arr with desc := [(planeKey (tileKey 92159 15) 1407, { descDefault svc 7 with state := 2 })] } }
    let due := setRegion svc 575 { ageGap := true }
    ((bankOf (coreOf (banked park) 0) 3).desc = some park ∧ park.last = false ∧ park.park = true)
    ∧ ((bankOf (coreOf (banked acc1) 0) 3).desc = some acc1 ∧ acc1.last = true ∧ acc1.dest ≠ 0)
    ∧ ((regionOf (passing 575 p) (coreRegion 92159)).pass = some p ∧ passOver (advance 5 (passing 575 p)) 575 p = false
      ∧ coreFenced svc 92159 = false ∧ stackDriven svc (coreStack 92159) = true ∧ tileKey 92159 15 ∉ p.slices.map (·.1)
      ∧ sliceFree (advance 100000 (passing 575 p)) p 92159 100000 = true ∧ (coreOf svc 92159).testing = none)
    ∧ (inService due = true ∧ driftDue due 575 = true ∧ (regionOf due 575).wantDrift = false ∧ passRegion due 575 = true
      ∧ (regionOf due 575).pass = none)
    ∧ ((regionOf s (coreRegion 92159)).pass = some d ∧ passOver (advance 5 s) 575 d = false ∧ sliceFree (advance 5 s) d 92159 1000000 = true
      ∧ (descOf s (planeKey (tileKey 92159 15) 1407)).state = 2)
    ∧ (∃ e ∈ [({ hdr := hd, par := .calSelf, taken := 0, wait := .calSelf, attempts := 0 } : CmdEntry)], e.wait = .calSelf) := by
  decide +kernel

theorem wit_TimeAndThermalComplete :
    let lo := setPort svc 35 { state := 2, use := 2 }
    let hi := setPort svc 35 { state := 2, use := 1 }
    let low := opted svc [(Off.ql, 0x80000000)]
    let v := { svc with time := { valid := true } }
    let st := { svc with therm := { stopping := some 0 } }
    ((portOf lo 35).state = 2 ∧ (portOf lo 35).use = 2 ∧ (portOf lo 35).syncAt + 100000 ≤ max lo.time.base 100000)
    ∧ ((portOf hi 35).state = 2 ∧ (portOf hi 35).use = 1 ∧ { hi.time with lastReply := 1 }.lastReply ≠ 0)
    ∧ (2 ≤ sysRole low ∧ low.time.lastReply + 10000000 ≤ max low.time.base 10000000)
    ∧ (v.time.valid = true ∧ v.rst.lastSync < max v.time.base 1000000 / 1000000 * 1000000)
    ∧ crossingOk (.link 35) = true
    ∧ (svc.rst.phase = .service ∧ svc.therm.stopping = none ∧ (temp1 1760).sensor = .region 639 1
      ∧ predicted (takeReading (advance 5 svc) (temp1 1760)) (temp1 1760).sensor 1760 = false)
    ∧ (st.therm.stopping = some 0 ∧ 0 + 10000000 ≤ max st.time.base 10000000) := by decide +kernel

/-! ### A plane record as its bytes -/

def zeros (n : Nat) : List Byte := List.replicate n 0

theorem row_zeros (row col n : Nat) : decodeLevelRow row col (zeros n) = [] := by
  induction n generalizing col with
  | zero => rfl
  | succ n ih => exact ih (col + 2)

theorem take_zeros (k n : Nat) : (zeros n).take k = zeros (min k n) := List.take_replicate
theorem drop_zeros (k n : Nat) : (zeros n).drop k = zeros (n - k) := List.drop_replicate

theorem levels_zeros (n row m : Nat) : decodeLevels n row (zeros m) = [] := by
  induction n generalizing row m with
  | zero => rfl
  | succ n ih => rw [decodeLevels, take_zeros, drop_zeros, row_zeros, ih, List.append_nil]

theorem zeroAt_zeros (n off k : Nat) : zeroAt (zeros n) off k = true := by
  rw [zeroAt, drop_zeros, take_zeros]; simp [zeros]

theorem envelopes_zeros (n col m : Nat) : decodeEnvelopes n col (zeros m) = [] := by
  induction n generalizing col m with
  | zero => rfl
  | succ n ih => rw [decodeEnvelopes, zeroAt_zeros, drop_zeros, ih]; rfl

theorem envelopesZero_zeros (n m : Nat) : envelopesZero n (zeros m) = true := by
  induction n generalizing m with
  | zero => rfl
  | succ n ih => rw [envelopesZero, zeroAt_zeros, drop_zeros, ih]; rfl

theorem weights_zeros (i n : Nat) : decodeWeights i (zeros n) = [] := by
  induction n generalizing i with
  | zero => rfl
  | succ n ih => exact ih (i + 1)

/-- The fields before the levels: logical plane 0, 4-bit weights. -/
def head1 : List Byte := leBytes 8 (lp 0) ++ zeros 8 ++ [3, 4] ++ zeros 30
/-- The whole record, with level 0 everywhere. -/
def bytes1 : List Byte := head1 ++ zeros 39936

def rec0 : PlaneRecord := { rec1 with skimRow := List.replicate 8 0, skimShift := List.replicate 8 0 }

theorem bytes1_tail (k : Nat) (h : 48 ≤ k) : bytes1.drop k = zeros (39984 - k) := by
  have l : head1.length = 48 := by decide +kernel
  rw [bytes1, List.drop_append, l, List.drop_eq_nil_of_le (by omega), List.nil_append, drop_zeros]
  congr 1; omega

theorem bytes1_decodes : bytes1.length = 39984 ∧ decodeRecord bytes1 = rec0 := by
  constructor
  · have l : head1.length = 48 := by decide +kernel
    rw [bytes1, List.length_append, l, zeros, List.length_replicate]
  · unfold decodeRecord recordZero
    rw [bytes1_tail 37936 (by omega), bytes1_tail 48 (by omega), bytes1_tail 33840 (by omega), take_zeros, take_zeros, levels_zeros,
      weights_zeros, envelopes_zeros, envelopesZero_zeros]
    decide +kernel

theorem rec0_ok : recordOk false none rec0 = true := by
  have h : ∀ row, rowOk rec0 row = true := by
    intro row
    have e : recLevel rec0 row = recLevel rec0 0 := rfl
    have n : recSkimRows rec0 = [] := rfl
    unfold rowOk
    rw [e, n, List.any_nil]
    decide +kernel
  unfold recordOk
  rw [List.all_eq_true.mpr (fun x _ => h x)]
  decide +kernel

theorem wit_Audits_rotation :
    (rotating.plates.auditStart = some 0 ∧ max rotating.time.base 5 < 0 + auditPeriodNs rotating
      ∧ rotating.plates.auditPlan = [0, 1] ∧ physPlaneKey rotating 0 = some 0 ∧ (descOf rotating 0).state = 2
      ∧ holdsCredit (settleDma (advance 5 rotating)) .audit = true ∧ sourceReads rotating 0 = true)
    ∧ 0 ∈ recPlanes (decodeRecord bytes1) ∧ recordOk ((decodeRecord bytes1).twin != 0) none (decodeRecord bytes1) = true := by
  rw [bytes1_decodes.2]
  exact ⟨by decide +kernel, by decide +kernel, rec0_ok⟩

/-- The shard of two planes. -/
def img2 : PlateImage := { img1 with keyId := 5, shards := [{ shard1 with planes := 2 }] }
/-- An image whose records' planes are not among those it names has no region to wait for. -/
def load2 : Load := { load1 with image := { img2 with addrs := [] } }

theorem wit_PlateLoads_record :
    let s := settleDma (settleClaims (advance 5 (loading1 load2)))
    let n := ((ownShard s load2.image).map (·.planes)).getD 0
    (loading1 load2).rst.loadDone = true ∧ s.plates.load = some load2 ∧ load2.part = 4 ∧ load2.authenticated = false
    ∧ fetched s (changeRegion s) .change = true ∧ n = 2 ∧ bytes1.length = 39984 ∧ recordOk load2.image.dual load2.last (decodeRecord bytes1) = true
    ∧ (∀ q ∈ recPlanes (decodeRecord bytes1), tfind s.plates.claims q ≠ none) ∧ (decodeRecord bytes1).twin = 0
    ∧ tfind s.plates.claims (wordPlane (decodeRecord bytes1).addr) = some 0
    ∧ digitalUsed s + digitalBytes (decodeRecord bytes1) ≤ digitalMax ∧ load2.next + 1 < n ∧ n ≤ { load2 with next := 1 }.next + 1
    ∧ ([] : List Byte).length ≠ 39984 := by
  rw [bytes1_decodes.2]
  refine ⟨by decide +kernel, by decide +kernel, rfl, rfl, by decide +kernel, by decide +kernel, bytes1_decodes.1, rec0_ok, ?_⟩
  decide +kernel

theorem wit_PlateLoads :
    let c := { svcT 1 with txns := { plate := some { tx with committing := true } } }
    let run : Load := { load1 with par := { par1 with inPlace := true }, image := { img1 with keyId := 5 }, digests := [7] }
    let ip := { svcT 1 with plates := { inplace := [run], rewriting := true, claims := [(0, 0)] } }
    let core : UnitId := .core 0 0 0
    let rf : State := { svc with map := { svc.map with refills := [{ unit := core, spare := some (.core 0 0 152), logical := 0, planes := [0], blocked := false }] } }
    let ps := settleDma (settleClaims (advance 5 svc))
    let rs := settleDma (settleClaims (advance 5 rf))
    let is := settleDma (settleClaims (advance 5 ip))
    (ps.plates.load = none ∧ ∀ l ∈ recPlanes rec1, refillOf ps l = none)
    ∧ (rs.plates.load = none ∧ (refillOf rs (wordPlane rec0.addr)).isSome ∧ holdsCredit rs (.refill core) = true
      ∧ sourceReads rs (wordPlane rec0.addr) = true)
    ∧ (load1.authenticated = false ∧ load1.attempts < 2 ∧ { load1 with part := 0 }.part < 4 ∧ 2 ≤ { load1 with attempts := 2 }.attempts)
    ∧ (svc.plates.load = none ∧ svc.plates.rewriting = false ∧ svc.map.refills = [])
    ∧ (c.txns.plate = some { tx with committing := true } ∧ changeWritten (advance 5 c) = true ∧ sysRole c = 0 ∧ c.plates.systemPrep = none)
    ∧ (svc.txns.plate = none ∧ changeWritten (advance 5 ip) = false) ∧ ps.plates.rewriting = false
    ∧ (is.plates.rewriting = true ∧ runsLeft is = some run ∧ holdsCredit is .rerun = true ∧ is.txns.plate = some tx
      ∧ loadTarget is (wordPlane rec0.addr) = some 0) := by decide +kernel

def defect1 : Defect := { row := 255, col := 263, level := 0, unstable := false }

theorem wit_PlaneWrites :
    let last := 22528 * nCores - 1
    let w := fun (r : PlaneRecord) => { svc with plates := { writing := [(last, some r)] } }
    let low : PlaneRecord := { rec1 with wmode := 2, width := 3 }
    let busy := setCore (w rec1) (planeCore last) { burstWait := 1255 }
    let q : Req := { req1 with p := { reqP with pinned := true }, state := .decode }
    let f : Forme := { image := forme1, length := 0, layers := [], draining := true }
    let dr := { svc with plates := { draining := some 0 }, formes := [(0, f)], reqs := [(0, q)] }
    let pin := { dr with txns := { plate := some { tx with committing := true } } }
    let z := fun (s : State) => fillSlots (settleClaims (advance 5 s))
    (svc.rst.loadDone = true ∧ canWrite (z svc) last = false ∧ canWrite (fillSlots (advance 5 (w rec1))) last = true ∧ last ∈ (z (w rec1)).plates.slots ∧ last ∈ (fillSlots (advance 5 (w rec1))).plates.slots
      ∧ tfind (z (w rec1)).plates.writing last = some (some rec1))
    ∧ (last ∈ (z (w low)).plates.slots ∧ tfind (z (w low)).plates.writing last = some (some low) ∧ defect1.col < 264 ∧ defect1.unstable = false ∧ low.wmode < 3
      ∧ (tileOf (coreOf (z (w low)) (planeCore last)) (tileOfPlane last)).stuck = []
      ∧ (tileOf (coreOf (z (w low)) (planeCore last)) (tileOfPlane last)).newStuck = [])
    ∧ (0 + 256 ≤ 256 ∧ 256 < 1 + 256) ∧ ((coreOf (w rec1) (planeCore last)).burstWait < 1255 ∧ (coreOf (w rec1) (planeCore last)).testing = none)
    ∧ 1255 ≤ (coreOf busy (planeCore last)).burstWait
    ∧ (dr.plates.draining = some 0 ∧ 0 + drainMax dr ≤ max dr.time.base (drainMax dr) ∧ max dr.time.base (drainMax dr - 1) < 0 + drainMax dr
      ∧ reqOf dr 0 = some q ∧ slotDraining dr q.p.slot = true ∧ q.state ≠ .held ∧ q.endAs = [])
    ∧ (pin.txns.plate = some { tx with committing := true } ∧ tx.acceptedAt + pinMax pin ≤ max pin.time.base (pinMax pin)
      ∧ max pin.time.base (pinMax pin - 1) < tx.acceptedAt + pinMax pin ∧ reqOf pin 0 = some q ∧ q.p.pinned = true) := by decide +kernel

def err1 (m : MemKind) (use : Bool) : MemError :=
  { mem := m, owner := 0, line := 0, inUse := use, shared := false, rids := [0], noSpare := false }

theorem wit_StoredData :
    let p2 := { svc with opts := triOf [(Off.fault, 0x80000000)], reqs := [(0, req1)] }
    let e := { err1 .scratch false with owner := physWord (unitOfCore 102399), noSpare := true }
    let w := { svc with kv := { overwrite := [(5, 2)], hbm := [(4096 * 6, 1)] } }
    (sheetTaken w 6 = false ∧ w.kv.overwrite.any (fun r => decide (r.1 ≤ 6 ∧ 6 < r.1 + r.2)) = true)
    ∧ aonWf svc ∧ (e.inUse = false ∧ e.noSpare = true ∧ e.mem = .scratch ∧ err1 .scratch true ≠ err1 .mpMemory true) ∧ firmwareRuns State.reset = false ∧ (firmwareRuns svc = true ∧ svc.therm.stopping = none ∧ p2Mode svc = false)
    ∧ (p2Mode p2 = true ∧ firmwareRuns p2 = true ∧ reqOf p2 0 = some req1 ∧ req1.endAs = [])
    ∧ (inService State.reset = false ∧ inService svc = true) ∧ ceRetire svc = 32
    ∧ ceRetire { svc with opts := triOf [(Off.fault, 0x00020000)] } = 2 := by
  unfold aonWf; decide +kernel

theorem wit_TenantsLeave :
    let w := fun (x : Tenant) => { svc with tenants := [(255, x)] }
    let rd := { w { removing := some 0 } with
      cmdq := [{ hdr := { hd with tenant := 255 }, par := .reqSubmit reqP, taken := 0, wait := .hostRead, attempts := 0 }] }
    let tdi := fun (s : State) => setFn s 255 { fnOf s 255 with tdi := 2 }
    let cf := tdi (w { slot := triOf 1, enabled := true, confidential := true })
    ((tenantOf svc 255).removing = none ∧ (tenantOf (w { removing := some 0, removeBoundary := true }) 255).removeBoundary = true)
    ∧ (tenantReads rd 255 ≠ [] ∧ max rd.time.base 1999999 < 0 + 2000000 ∧ 0 + 2000000 ≤ max rd.time.base 2000000)
    ∧ ((tenantOf (w { removing := some 0 }) 255).removing = some 0 ∧ tenantReads (w { removing := some 0 }) 255 = [])
    ∧ (fnOf svc 255).tdi ≠ 2 ∧ ((fnOf (tdi svc) 255).tdi = 2 ∧ (tenantOf (tdi svc) 255).confidential = false)
    ∧ ((fnOf cf 255).tdi = 2 ∧ (tenantOf cf 255).confidential = true ∧ tenantSlot cf 255 = 1) := by decide +kernel

/-- A module with this role and uplink 35 whose ports are enabled, with a peer key on port 35. -/
def linked (role : Nat) : State :=
  { opted svc [(Off.ql, BitVec.ofNat 32 (role * 2 ^ 30 + 35 * 2 ^ 24 + 0x00140200)), (Off.peerKey 35 0, 7)] with
    ql := { module := 1, present := [1] } }

def ident1 (role : Nat) : Ident :=
  { serial := 9, bindKey := 7, arch := 1, role := role, port := 0, module := 0, uplink := 0, nonce := 0, peerLink := false, assigned := 36 }

theorem wit_PortsTrain :
    let s := linked 2
    let w := fun (x : Port) => setPort s 35 x
    (mayTrain (advance 5 svc) 35 = false ∧ mayTrain (advance 5 s) 35 = true ∧ (portOf s 35).state = 0 ∧ (portOf s 35).use = 0)
    ∧ (portOf (w { state := 1, use := 1 }) 35).use ≠ 0 ∧ mayTrain (advance 5 (w { use := 1 })) 35 = true
    ∧ ((portOf (w { state := 1 }) 35).state = 1 ∧ (ident1 1).bindKey = peerKeyOf (w { state := 1 }) 35
      ∧ pairing (advance 5 (w { state := 1 })) 35 (ident1 1) = some 1 ∧ pairing (advance 5 (w { state := 1 })) 35 (ident1 3) = none
      ∧ { ident1 1 with bindKey := 8 }.bindKey ≠ peerKeyOf (w { state := 1 }) 35)
    ∧ (inService s = true ∧ bitAt (2 : W32).toNat 1 = true ∧ bitAt (1 : W32).toNat 1 = false)
    ∧ ((portOf (w { state := 2 }) 35).lastRx + 10000 ≤ max s.time.base 10000 ∧ max s.time.base 9999 < (portOf (w { state := 2 }) 35).lastRx + 10000)
    ∧ (bitAt (portOf (w { state := 2, lanes := 12 }) 35).lanes 3 = true ∧ bitAt (portOf (w { state := 2, lanes := 12 }) 35).lanes 0 = false)
    ∧ (isManager (linked 1) = true ∧ (portOf (setPort (linked 1) 35 { state := 2, use := 2, peer := 36 }) 35).peer ≠ (linked 1).ql.module) := by
  decide +kernel

def flit1 : Flit :=
  { cls := 1, typ := 0, tkey := false, last := true, isNull := false, nak := false, src := 2, dest := 1, tenant := 5, epoch := 0, seq := 65535,
    ack := 0, credits := [], ctr := 0, payload := [], crcOk := true, tagOk := true }

/-- A step of a system forme whose one sheet comes from module 2 into core 1. -/
def receiving : State :=
  { stepping (linked 2) { step1 with system := true } with
    formes := [(0, { image := { forme1 with system := true, routes := [{ route1 with src := 2 * 2 ^ 40 }] }, length := 0, layers := [], draining := false })]
    reqs := [(0, req1)] }

theorem wit_FlitsAndKeys_sheets :
    routeSlots receiving 2 = [(0, 1, 4096)] ∧ tget 0 receiving.ql.arrived 2 = 0 ∧ runsForme receiving row1 0 = true
    ∧ leNat ((([] : List Byte).drop 4096).take 4) = crc32c (([] : List Byte).take 4096)
    ∧ leNat ((([1] : List Byte).drop 4096).take 4) ≠ crc32c (([1] : List Byte).take 4096)
    ∧ flit1.cls = 1 ∧ flit1.last = true ∧ { flit1 with cls := 0 }.cls ≠ 1 ∧ { flit1 with last := false }.last = false := by decide +kernel

theorem wit_FlitsAndKeys :
    let w := fun (x : Port) => setPort (linked 2) 35 x
    let up : Port := { state := 2, expect := 65535 }
    let s := w { up with replay := [flit1], kex := [(255, 0)] }
    let a := { s with tenants := [(255, { slot := triOf 1 })] }
    ((portOf (linked 2) 35).state ≠ 2 ∧ (portOf s 35).state = 2 ∧ flit1.seq = (portOf s 35).expect)
    ∧ tenantDrop s { flit1 with tkey := true } = true ∧ (tenantDrop s flit1 = false ∧ flit1.dest = s.ql.module)
    ∧ ((portOf s 35).replay ≠ [] ∧ (portOf s 35).lastTx + 4000 ≤ max s.time.base 4000 ∧ max s.time.base 3999 < (portOf s 35).lastTx + 4000
      ∧ (portOf s 35).replays < 7 ∧ 7 ≤ (portOf (w { up with replay := [flit1], replays := 7 }) 35).replays)
    ∧ (tenantSlot s 255 ≠ 1 ∧ tenantSlot a 255 = 1)
    ∧ (tfind (portOf s 35).kex 255 = some 0 ∧ max s.time.base 99999 < 0 + 100000 ∧ 0 + 100000 ≤ max s.time.base 100000) := by decide +kernel

theorem wit_TimeBases :
    let lo := setPort (linked 1) 35 { state := 2, use := 2 }
    let hi := setPort (linked 3) 35 { state := 2, use := 1 }
    let later := { hi with time := { lastReply := 1 } }
    let v := { svc with time := { valid := true } }
    ((portOf lo 35).state = 2 ∧ (portOf lo 35).use = 2 ∧ (portOf lo 35).syncAt + 100000 ≤ max lo.time.base 100000)
    ∧ ((portOf hi 35).state = 2 ∧ (portOf hi 35).use = 1 ∧ hi.time.lastReply = 0 ∧ hi.rst.cold = true ∧ sysRole hi = 3
      ∧ (8 * ((3 - 0) - (1 - 0)) : Int) ≠ 0)
    ∧ later.time.lastReply ≠ 0 ∧ (8 * ((0 - 0) - (0 - 0)) : Int) = 0
    ∧ (sysRole svc < 2 ∧ hi.time.lastReply + 10000000 ≤ max hi.time.base 10000000 ∧ max hi.time.base 9999999 < hi.time.lastReply + 10000000)
    ∧ (svc.time.valid = false ∨ max svc.time.base 999999 / 1000000 * 1000000 ≤ svc.rst.lastSync)
    ∧ (v.time.valid = true ∧ v.rst.lastSync < max v.time.base 1000000 / 1000000 * 1000000)
    ∧ (crossingOk (.link 35) = true ∧ crossingOk (.link 36) = false) := by decide +kernel

def report1 : SealReport := { module := 2, step := 5, withheld := [], freeSheets := 10 }
def sysStep : Step := { step1 with system := true, waiting := [], sealing := true, settled := true }
def group1 : Group :=
  { acc := acc1, layer := 0, expert := 0, router := 0, entries := [{ plane := 2 * 2 ^ 40, run := 0, sheet := 0, segment := 0, skimSlot := 0xFFFF }] }

/-- Slot 0 of a system whose forme also runs on module 2. -/
def sysForme (role : Nat) : State :=
  { stepping (linked role) sysStep with
    formes := [(0, { image := { forme1 with system := true, groups := [group1] }, length := 0, layers := [], draining := false })]
    reqs := [(0, req1)] }

theorem wit_SystemMessages :
    let w := linked 2
    let m := linked 1
    let s := sysForme 1
    let prep := { w with txns := { plate := some tx }, plates := { table := [] } }
    (inService State.reset = false ∧ sysRole svc < 2 ∧ inService w = true ∧ sysRole w = 2)
    ∧ (inService m = true ∧ sysRole m = 1 ∧ report1.module ∉ m.ql.absent ∧ 36 ∈ { m.ql with absent := [36] }.absent)
    ∧ (s.sched.step = some sysStep ∧ sysStep.system = true ∧ sysStep.settled = true ∧ s.ql.named = none
      ∧ stepModules (advance 5 s) sysStep = [2] ∧ report1.step = sysStep.number)
    ∧ (max s.time.base (sealTimeoutNs s) ≥ 0 + sealTimeoutNs s ∧ { s.ql with sealAt := some 0 }.sealAt = some 0)
    ∧ (sysStep.cut = false ∧ (sysForme 2).sched.step = some sysStep)
    ∧ (prep.plates.systemPrep = none ∧ prep.txns.plate = some tx ∧ tx.committing = false ∧ commitStatus (advance 5 prep) 1 tx = none)
    ∧ { prep.plates with systemPrep := some (7, false) }.systemPrep = some (7, false)
    ∧ (uplink w = 35 ∧ firmwareRuns w = true ∧ w.therm.stopping = none ∧ w.ql.module = 1) ∧ (2 : Nat) ≠ m.ql.module ∧ sysRole svc = 0 := by
  decide +kernel

theorem wit_FunctionResets :
    let s := { svc with reqs := [(0, { req1 with fn := 0 })], txns := { options := some tx, stream := some { tx with committing := true } } }
    let d := setFn svc 255 { fnOf svc 255 with d3hot := true }
    let p := setFn svc 255 { fnOf svc 255 with pendingMsg := [15] }
    (hostUp State.reset = false ∧ hostUp s = true ∧ reqOf s 0 = some { req1 with fn := 0 } ∧ txnOf s.txns 3 = some tx
      ∧ txnOf s.txns 2 = some { tx with committing := true })
    ∧ ((fnOf svc 255).d3hot = false ∧ (fnOf d 255).d3hot = true)
    ∧ ((fnOf p 255).d3hot = false ∧ (fnOf p 255).funcMask = false ∧ 15 < vectorsOf 255 ∧ 15 ∈ (fnOf p 255).pendingMsg) := by decide +kernel

theorem wit_Sideband :
    let sp := { svc with pci := { svc.pci with spdm := true } }
    let f := fun (x : FnBlk) => setFn sp 255 x
    let u := { svc with side := { svc.side with fwState := 1 } }
    (hostUp State.reset = false ∧ hostUp svc = true ∧ svc.pci.spdm = false ∧ sp.pci.spdm = true)
    ∧ ((fnOf (f { ide := true }) 255).ide = true ∧ (fnOf sp 255).ide = false ∧ (fnOf sp 255).tdi = 0
      ∧ (fnOf (f { tdi := 1 }) 255).tdi = 1)
    ∧ (sidebandUp State.reset = false ∧ sidebandUp svc = true ∧ firmwareRuns State.reset = false ∧ firmwareRuns svc = true)
    ∧ { svc.side with event := true }.event = true ∧ u.side.fwState = 1 ∧ svc.side.fwState ≠ 1 := by decide +kernel

end Sys2Proof.Tests
end

/-! The image checks of a plate load (R191, R192): the order in which `imageStatus` makes them, and the version check. -/
namespace Sys2Proof.Proofs

open Sys2Proof.Machine

section ImageChecks

variable {s : State} {p : LoadParams} {img : PlateImage}

theorem headerStatus_eq_none (hm : img.magic = 0x544C505A) (ha : img.arch = 1) (hv : img.version = 1)
    (hh : headerOk p img = true) : headerStatus p img = none := by
  simp [headerStatus, hm, ha, hv, hh]

/-- The plate table holds a committed plate of the same IMAGE_ID and a higher PLATE_VERSION (R192). -/
def NewerCommitted (s : State) (img : PlateImage) : Prop :=
  ∃ q ∈ s.plates.table, q.imageId = img.imageId ∧ img.plateVersion < q.version

theorem any_newer_iff_newerCommitted :
    s.plates.table.any (fun e => e.imageId == img.imageId && decide (img.plateVersion < e.version)) = true
      ↔ NewerCommitted s img := by
  simp [NewerCommitted]

theorem not_newerCommitted_iff :
    ¬ NewerCommitted s img ↔ ∀ q ∈ s.plates.table, q.imageId = img.imageId → q.version ≤ img.plateVersion := by
  simp [NewerCommitted]

/-- The checks that R191 makes before it looks at the plate table all pass. -/
structure EarlyChecksPass (s : State) (p : LoadParams) (img : PlateImage) : Prop where
  header : headerStatus p img = none
  tables : tablesOk img = true
  dual : dualOnly s = true → img.dual = true
  publisher : img.keyId ∈ publisherIds s
  signature : img.sigOk = true

/-- The checks that R191 makes after the plate table all pass. -/
structure LateChecksPass (s : State) (img : PlateImage) : Prop where
  tableDigest : img.tableDigestOk = true
  shard : (ownShard s img).isSome
  bound : s.nv.bindKey ∈ img.bindings
  unwraps : img.unwrapOk = true

/-- An image that reaches the plate table and meets a newer plate there is refused, whatever the later checks would say. -/
theorem imageStatus_of_newerCommitted (he : EarlyChecksPass s p img) (hn : NewerCommitted s img) :
    imageStatus s p img = some .plateRollback := by
  obtain ⟨hh, ht, hd, hp, hs⟩ := he
  have hany := any_newer_iff_newerCommitted.mpr hn
  simpa [imageStatus, hh, ht, hp, hs, hany] using hd

theorem imageStatus_of_not_newerCommitted (he : EarlyChecksPass s p img) (hn : ¬ NewerCommitted s img)
    (hl : LateChecksPass s img) : imageStatus s p img = none := by
  obtain ⟨hh, ht, hd, hp, hs⟩ := he
  obtain ⟨hg, ho, hb, hu⟩ := hl
  have hany := mt any_newer_iff_newerCommitted.mp hn
  have hshard : (ownShard s img).isNone = false := by simpa [← Option.not_isSome] using ho
  simpa [imageStatus, hh, ht, hp, hs, hany, hg, hshard, hb, hu] using hd

end ImageChecks

/-- Settles O12: once the checks before it pass, the plate table alone decides between PLATE_ROLLBACK and the later checks. -/
theorem plateRollbackRefused : Obligations.PlateRollbackRefused := by
  unfold Obligations.PlateRollbackRefused
  intro s p img hm ha hv hh ht hd hp hs
  have early : EarlyChecksPass s p img := ⟨headerStatus_eq_none hm ha hv hh, ht, hd, hp, hs⟩
  constructor
  · exact imageStatus_of_newerCommitted early
  · intro hle hg ho hb hu
    exact imageStatus_of_not_newerCommitted early (not_newerCommitted_iff.mpr hle) ⟨hg, ho, hb, hu⟩

end Sys2Proof.Proofs


/-! The checks of R232 on a command of the physical function, and what a limp start leaves of them (R248). -/
namespace Sys2Proof.Proofs

open Sys2Proof.Machine

section CommandChecks

variable {s : State} {h : Hdr} {p : CmdParams}

/-- The commands that a limp start accepts are those with the five opcodes R248 names. -/
theorem limpOk_iff_opcodeOf : limpOk p = true ↔ opcodeOf p = 0x0001 ∨ opcodeOf p = 0x0002 ∨ opcodeOf p = 0x0003
    ∨ opcodeOf p = 0x0054 ∨ opcodeOf p = 0x0014 := by
  cases p <;> simp [limpOk, opcodeOf]

/-- R381 denies commands to virtual functions only. -/
theorem confDenied_physicalFunction : confDenied s 0 = false := by
  simp [confDenied]

/-- Steps 2 to 6 of R232 pass for a command of the physical function: its version and level, its issuer, its LENGTH and its reserved fields. -/
structure HeaderChecksPass (s : State) (h : Hdr) (p : CmdParams) : Prop where
  physical : h.fn = 0
  version : h.version = 1
  level : (fnOf s 0).level = some h.arch
  reserved : h.resZero = true
  length : 16 + definedPayload p ≤ 16 * h.length

/-- Once the header's and the tenant's checks pass, the limp refusal decides before the transaction and the fields. -/
theorem checkStatus_of_headerChecksPass (hh : HeaderChecksPass s h p) (ht : tenantStatus s h p = none) :
    checkStatus s h p = if s.rst.phase = .limp ∧ limpOk p = false then some .optionsUnloaded
      else (txnStatus s h p).or (fieldStatus s p) := by
  obtain ⟨hfn, hversion, hlevel, hreserved, hlength⟩ := hh
  have hcovers : lengthCovers h.length p = true := by simpa [lengthCovers] using hlength
  have hissuer : ¬ (h.fn ≠ 0 ∧ (!anyIssuer p) = true ∨ confDenied s h.fn = true) := by
    simp [hfn, confDenied_physicalFunction]
  unfold checkStatus
  rw [if_neg hissuer]
  cases htxn : txnStatus s h p <;> simp [hfn, hversion, hlevel, hreserved, hcovers, ht]

/-- A limp start refuses every command outside its five opcodes, whatever the later checks would say. -/
theorem checkStatus_of_limp_refused (hlimp : s.rst.phase = .limp) (hh : HeaderChecksPass s h p)
    (ht : tenantStatus s h p = none) (hp : limpOk p = false) : checkStatus s h p = some .optionsUnloaded := by
  rw [checkStatus_of_headerChecksPass hh ht, if_pos ⟨hlimp, hp⟩]

/-- A command that a limp start takes is answered by the transaction's and the fields' checks, as in service. -/
theorem checkStatus_of_limpOk (hh : HeaderChecksPass s h p) (ht : tenantStatus s h p = none) (hp : limpOk p = true) :
    checkStatus s h p = (txnStatus s h p).or (fieldStatus s p) := by
  rw [checkStatus_of_headerChecksPass hh ht, if_neg (by simp [hp])]

end CommandChecks

/-- Settles O6: among the checks of R232 only the limp refusal is left to decide, and it lets the five opcodes of R248 through. -/
theorem limpAcceptsFive : Obligations.LimpAcceptsFive := by
  unfold Obligations.LimpAcceptsFive
  intro h p s hlimp hfn hversion hlevel hreserved hlength htenant htxn hfield
  have header : HeaderChecksPass s h p := ⟨hfn, hversion, hlevel, hreserved, hlength⟩
  simp only [← limpOk_iff_opcodeOf]
  split
  case isTrue accepted => simp [checkStatus_of_limpOk header htenant accepted, htxn, hfield]
  case isFalse refused => exact checkStatus_of_limp_refused hlimp header htenant (by simpa using refused)

end Sys2Proof.Proofs


/-! The THERM latch (R412): when it clears, what its clearing keeps, and which pins it gives back. -/
namespace Sys2Proof.Proofs

open Sys2Proof.Machine

section Pins

theorem aget_adel {α β : Type} [DecidableEq α] (l : List (α × β)) (k k' : α) :
    aget (adel l k) k' = if k' = k then none else aget l k' := by
  induction l with
  | nil => simp [adel, aget]
  | cons e r ih =>
    obtain ⟨a, b⟩ := e
    by_cases ha : a = k <;> by_cases hk : a = k' <;> simp_all [adel, aget]

@[simp] theorem pinLevel_release (s : State) (p q : Pin) :
    pinLevel (release s p) q = if q = p then none else pinLevel s q :=
  aget_adel s.pins.driven p q

end Pins

section SafetyUsers

/-- All that a safety user can change when it gives its pins back (R345, R346). -/
def PinsAndShareOnly (s u : State) : Prop := u = { s with pins := u.pins, share := u.share }

variable {s u : State}

theorem PinsAndShareOnly.release (h : PinsAndShareOnly s u) (p : Pin) : PinsAndShareOnly s (release u p) := by
  unfold PinsAndShareOnly at *
  rw [h]
  rfl

theorem PinsAndShareOnly.setRes (h : PinsAndShareOnly s u) (kind i : Nat) (x : Option (Nat ⊕ Nat)) :
    PinsAndShareOnly s (setRes u kind i x) := by
  unfold PinsAndShareOnly at *
  rw [h]
  rfl

theorem pinsAndShareOnly_releaseSafety (s : State) (user : Nat) : PinsAndShareOnly s (releaseSafety s user) := by
  have pins : PinsAndShareOnly s ((safetyHolds s 1 user).foldl (fun x n => release x (.gpio n)) s) :=
    List.foldlRecOn _ _ rfl fun _ h n _ => h.release (.gpio n)
  exact List.foldlRecOn _ _ pins fun _ h i _ => h.setRes 1 i none

@[simp] theorem releaseSafety_rst (s : State) (user : Nat) : (releaseSafety s user).rst = s.rst := by
  rw [pinsAndShareOnly_releaseSafety s user]

@[simp] theorem releaseSafety_aon (s : State) (user : Nat) : (releaseSafety s user).aon = s.aon := by
  rw [pinsAndShareOnly_releaseSafety s user]

end SafetyUsers

section Latch

theorem exec_thermLatchClear (byPin : Bool) (low t : Nat) (s : State) :
    exec (.thermLatchClear byPin low t) s = .next (latchClearOp (advance t s) byPin low) := rfl

/-- What R412 asks for: 1 s without input power, or THERM_CLR_N low for 10 ms no earlier than 10 s after the latch was set. -/
def LatchMayClear (s : State) (byPin : Bool) (low : Nat) : Prop :=
  if byPin then 10000000 ≤ low ∧ s.aon.latchAt + 10000000000 ≤ now s else 1000000000 ≤ low

variable {s : State} {byPin : Bool} {low : Nat}

theorem latchClearOp_of_mayClear (hp : s.rst.phase = .latched) (hc : LatchMayClear s byPin low) :
    latchClearOp s byPin low = dropLatch s := by
  cases byPin <;> simp_all [LatchMayClear, latchClearOp]

theorem latchClearOp_of_not_mayClear (hc : ¬ LatchMayClear s byPin low) : latchClearOp s byPin low = s := by
  cases byPin <;> simp_all [LatchMayClear, latchClearOp]

/-- Once the latch is gone the module is in a cold reset that begins now. -/
theorem dropLatch_rst (s : State) :
    (dropLatch s).rst = { s.rst with phase := .inReset, started := now s, cold := true } := by
  simp [dropLatch]

/-- The always-on domain keeps all but the latch and its pin: the record of the stop stays. -/
theorem dropLatch_aon (s : State) : (dropLatch s).aon = { s.aon with thermLatch := false, latchPin := none } := by
  simp [dropLatch]

theorem pinLevel_dropLatch (s : State) {p : Pin} (hp : p = .regulators ∨ p = .feedEn ∨ p = .ledFault) :
    pinLevel (dropLatch s) p = none := by
  rcases hp with rfl | rfl | rfl <;> simp [dropLatch]

end Latch

/-- Settles O34: R412's condition alone decides between giving the latch up and nothing but the passing of time. -/
theorem thermalLatchClears : Obligations.ThermalLatchClears := by
  unfold Obligations.ThermalLatchClears
  intro byPin low t s hlatched
  rw [exec_thermLatchClear]
  constructor
  · intro hclear
    rw [latchClearOp_of_mayClear (s := advance t s) hlatched hclear]
    refine ⟨_, rfl, ?_⟩
    simp [dropLatch_rst, dropLatch_aon, pinLevel_dropLatch, now]
  · intro hkeep
    rw [latchClearOp_of_not_mayClear (s := advance t s) hkeep]

end Sys2Proof.Proofs


/-! HUB_TIME_LO and HUB_TIME_HI (R425): what a read of the low word sends and latches, and which functions' high words it leaves. -/
namespace Sys2Proof.Proofs

open Sys2Proof.Machine

section TimeReads

variable {fn : Nat}

theorem exec_timeLoRead (t : Nat) (s : State) (hfn : fn < 256) :
    exec (.timeLoRead fn t) s = .next (timeLoReadOp (advance t s) fn) :=
  if_pos hfn

/-- HUB_TIME_HI, at offset 0x04, reads as the word latched for the reading function. -/
theorem readTime_timeHi (s : State) (g : Nat) : readTime s g 0x04 = (tget 0 s.time.latch g).toNat := rfl

@[simp] theorem timeLoReadOp_out (s : State) :
    (timeLoReadOp s fn).out = s.out ++ [.readValue fn (BitVec.ofNat 32 (now s))] := rfl

@[simp] theorem timeLoReadOp_latch (s : State) :
    (timeLoReadOp s fn).time.latch = tset 0 s.time.latch fn (BitVec.ofNat 32 (now s / 2 ^ 32)) := rfl

theorem timeLoReadOp_frame (s : State) :
    timeLoReadOp s fn = { s with out := (timeLoReadOp s fn).out,
                                 time := { s.time with latch := (timeLoReadOp s fn).time.latch } } := rfl

theorem readTime_timeHi_timeLoReadOp_same (s : State) :
    readTime (timeLoReadOp s fn) fn 0x04 = now s / 2 ^ 32 % 2 ^ 32 := by
  rw [readTime_timeHi, timeLoReadOp_latch, tget_tset_same, BitVec.toNat_ofNat]

theorem readTime_timeHi_timeLoReadOp_ne (s : State) {g : Nat} (hg : g ≠ fn) :
    readTime (timeLoReadOp s fn) g 0x04 = readTime s g 0x04 := by
  rw [readTime_timeHi, timeLoReadOp_latch, tget_tset_ne _ _ _ hg, readTime_timeHi]

end TimeReads

/-- Settles O23: the read happens once time has moved on to `t`, and the latch table keeps one high word per function. -/
theorem timeLoLatchesHigh : Obligations.TimeLoLatchesHigh := by
  unfold Obligations.TimeLoLatchesHigh
  intro fn t s hfn
  have sent : (timeLoReadOp (advance t s) fn).out = s.out ++ [.readValue fn (BitVec.ofNat 32 (max s.time.base t))] :=
    timeLoReadOp_out (advance t s)
  have latched : readTime (timeLoReadOp (advance t s) fn) fn 0x04 = max s.time.base t / 2 ^ 32 % 2 ^ 32 :=
    readTime_timeHi_timeLoReadOp_same (advance t s)
  have others : ∀ g, g ≠ fn → readTime (timeLoReadOp (advance t s) fn) g 0x04 = readTime s g 0x04 :=
    fun _ hg => readTime_timeHi_timeLoReadOp_ne (advance t s) hg
  exact ⟨_, exec_timeLoRead t s hfn, sent, latched, others, timeLoReadOp_frame (advance t s)⟩

end Sys2Proof.Proofs

/-! What a reply changes: the record of its function, the idle time of its transaction and the outward writes. -/
namespace Sys2Proof.Proofs

open Sys2Proof.Machine Sys2Proof.Safety

/-! ### The idle time of a transaction -/

theorem touchTxn_fns (s : State) (id : Nat) : (touchTxn s id).fns = s.fns := by
  unfold touchTxn
  split <;> rfl

theorem touchTxn_out (s : State) (id : Nat) : (touchTxn s id).out = s.out := by
  unfold touchTxn
  split <;> rfl

theorem touchTxn_cmdq (s : State) (id : Nat) : (touchTxn s id).cmdq = s.cmdq := by
  unfold touchTxn
  split <;> rfl

theorem fnOf_touchTxn (s : State) (id fn : Nat) : fnOf (touchTxn s id) fn = fnOf s fn := by
  unfold fnOf
  rw [touchTxn_fns]

/-- Transactions that agree but for their idle times. -/
def SameTxns (x y : TxnBlk) : Prop :=
  y.nextId = x.nextId ∧ ∀ d, (txnOf y d).map (fun e => { e with idleSince := 0 }) = (txnOf x d).map (fun e => { e with idleSince := 0 })

theorem SameTxns.refl (x : TxnBlk) : SameTxns x x := ⟨rfl, fun _ => rfl⟩

/-- A domain above 3 reads as domain 3. -/
theorem txnOf_of_three_le (x : TxnBlk) {d : Nat} (h : 3 ≤ d) : txnOf x d = txnOf x 3 := by
  obtain ⟨n, rfl⟩ := Nat.exists_eq_add_of_le' h
  rfl

theorem txnOf_setTxn_touched (x : TxnBlk) {d : Nat} (hd : d ≤ 3) (i e : Nat) :
    (txnOf (setTxn x d ((txnOf x d).map (fun y => { y with idleSince := i }))) e).map (fun y => { y with idleSince := 0 })
      = (txnOf x e).map (fun y => { y with idleSince := 0 }) := by
  have low : ∀ e ≤ 3, (txnOf (setTxn x d ((txnOf x d).map (fun y => { y with idleSince := i }))) e).map (fun y => { y with idleSince := 0 })
      = (txnOf x e).map (fun y => { y with idleSince := 0 }) := by
    intro e he
    by_cases h : e = d
    · subst h
      rw [txnOf_setTxn, Option.map_map]
      rfl
    · rw [txnOf_setTxn_ne x d e _ hd he h]
  rcases Nat.le_total e 3 with h | h
  · exact low e h
  · rw [txnOf_of_three_le _ h, txnOf_of_three_le _ h]
    exact low 3 (Nat.le_refl 3)

theorem setTxn_nextId (x : TxnBlk) (d : Nat) (v : Option Txn) : (setTxn x d v).nextId = x.nextId := by
  unfold setTxn
  split <;> rfl

theorem sameTxns_touchTxn (s : State) (id : Nat) : SameTxns s.txns (touchTxn s id).txns := by
  unfold touchTxn
  split
  next d hd =>
    have h3 : d ≤ 3 := by
      unfold txnDomain at hd
      split at hd
      · simp at hd
      · have := List.mem_range.mp (List.mem_of_find?_eq_some hd)
        omega
    exact ⟨setTxn_nextId _ _ _, fun e => txnOf_setTxn_touched _ h3 _ e⟩
  next => exact SameTxns.refl _

/-! ### The record of a function -/

/-- What a reply may change of its function's record. -/
def ReplyRecord (f g : FnBlk) : Prop :=
  g = { f with tail := g.tail, ringPhase := g.ringPhase, store := g.store, latSum := g.latSum, latNum := g.latNum, pendingMsg := g.pendingMsg }

/-- What a reply of function `fn` may change of the state, and how many outward writes it makes. -/
structure ReplyChange (fn : Nat) (s u : State) : Prop where
  others : ∀ f, f ≠ fn → fnOf u f = fnOf s f
  record : ReplyRecord (fnOf s fn) (fnOf u fn)
  outs : ∃ o, u.out = s.out ++ o ∧ o.length ≤ 2
  txns : SameTxns s.txns u.txns

theorem ReplyChange.of_fns_out {fn : Nat} {s u : State} (hf : u.fns = s.fns) (ho : u.out = s.out) (ht : SameTxns s.txns u.txns) :
    ReplyChange fn s u := by
  have h : ∀ f, fnOf u f = fnOf s f := fun f => by unfold fnOf; rw [hf]
  refine ⟨fun f _ => h f, ?_, ⟨[], by simp [ho]⟩, ht⟩
  rw [h]
  rfl

/-- Only the record of the function is written, and its ring is not. -/
theorem ReplyChange.of_setFn {fn : Nat} {s u : State} {g : FnBlk} (hu : u.fns = (setFn s fn g).fns) (hg : ReplyRecord (fnOf s fn) g)
    (ho : ∃ o, u.out = s.out ++ o ∧ o.length ≤ 2) (ht : SameTxns s.txns u.txns) : ReplyChange fn s u := by
  have h : ∀ f, fnOf u f = fnOf (setFn s fn g) f := fun f => by unfold fnOf; rw [hu]
  refine ⟨fun f hf => ?_, ?_, ho, ht⟩
  · rw [h, fnOf_setFn_ne _ _ hf]
  · rwa [h, fnOf_setFn]

/-- A message either goes out or is kept in the record of its function. -/
theorem sendMsix_cases (s : State) (fn v : Nat) :
    sendMsix s fn v = s ∨ sendMsix s fn v = emit s (.msix fn v)
      ∨ sendMsix s fn v = setFn s fn { fnOf s fn with pendingMsg := addOnce (fnOf s fn).pendingMsg v } := by
  unfold sendMsix
  dsimp only
  split
  · exact .inl rfl
  · split
    · exact .inr (.inr rfl)
    · exact .inr (.inl rfl)

/-- The record of the function after its reply was written into the ring at the tail. -/
def ringRecord (s : State) (r : Reply) : FnBlk :=
  let f := countTime (fnOf s r.fn) (replyTime s r)
  let next := (f.tail + 1) % replyEntries f
  { f with tail := next, ringPhase := if next = 0 then !f.ringPhase else f.ringPhase }

/-- What a written reply leaves: its bytes are out, the ring's tail has moved, and perhaps a message is out or waits. -/
theorem writeReply_effect (s0 : State) (r : Reply) :
    let s := if r.taken.isSome then touchTxn s0 r.txn else s0
    let f := countTime (fnOf s r.fn) (replyTime s r)
    let u := writeReply s0 r
    u.cmdq = s.cmdq ∧ u.txns = s.txns
      ∧ (∃ p, (∀ k, k ≠ r.fn → fnOf u k = fnOf s k) ∧ fnOf u r.fn = { ringRecord s r with pendingMsg := p })
      ∧ ∃ m, u.out = s.out ++ (.hostWrite r.fn (replyBase f + 32 * f.tail) (replyBytes (timedReply s r) f.ringPhase)) :: m ∧ m.length ≤ 1 := by
  intro s f u
  obtain ⟨w, hw⟩ : ∃ w, w = setFn (hostWrite s r.fn (replyBase f + 32 * f.tail) (replyBytes (timedReply s r) f.ringPhase)) r.fn
      (ringRecord s r) := ⟨_, rfl⟩
  have hu : u = w ∨ u = sendMsix w r.fn (replyVector f) := by
    rw [hw]
    show (if r.irq then _ else _) = _ ∨ (if r.irq then _ else _) = _
    split
    · exact .inr rfl
    · exact .inl rfl
  have hfn : fnOf w r.fn = ringRecord s r := by rw [hw, fnOf_setFn]
  have hne : ∀ k, k ≠ r.fn → fnOf w k = fnOf s k := fun k hk => by
    rw [hw, fnOf_setFn_ne _ _ hk]
    rfl
  have hcq : w.cmdq = s.cmdq := by rw [hw]; rfl
  have htx : w.txns = s.txns := by rw [hw]; rfl
  have hout : w.out = s.out ++ [.hostWrite r.fn (replyBase f + 32 * f.tail) (replyBytes (timedReply s r) f.ringPhase)] := by rw [hw]; rfl
  have hcases : u = w ∨ u = emit w (.msix r.fn (replyVector f))
      ∨ u = setFn w r.fn { fnOf w r.fn with pendingMsg := addOnce (fnOf w r.fn).pendingMsg (replyVector f) } := by
    rcases hu with h | h
    · exact .inl h
    · rcases sendMsix_cases w r.fn (replyVector f) with g | g | g
      · exact .inl (h.trans g)
      · exact .inr (.inl (h.trans g))
      · exact .inr (.inr (h.trans g))
  clear_value u
  rcases hcases with rfl | rfl | rfl
  · exact ⟨hcq, htx, ⟨(ringRecord s r).pendingMsg, hne, hfn⟩, [], hout, Nat.zero_le _⟩
  · refine ⟨hcq, htx, ⟨(ringRecord s r).pendingMsg, hne, hfn⟩, [.msix r.fn (replyVector f)], ?_, Nat.le_refl _⟩
    rw [emit_out, hout, List.append_assoc]
    rfl
  · refine ⟨hcq, htx, ⟨addOnce (ringRecord s r).pendingMsg (replyVector f), fun k hk => ?_, ?_⟩, [], hout, Nat.zero_le _⟩
    · rw [fnOf_setFn_ne _ _ hk, hne k hk]
    · rw [fnOf_setFn, hfn]

theorem replyRecord_countTime (f : FnBlk) (n : Option Nat) : ReplyRecord f (countTime f n) := by
  cases n <;> rfl

theorem replyRecord_ringRecord (s : State) (r : Reply) (p : List Nat) :
    ReplyRecord (fnOf s r.fn) { ringRecord s r with pendingMsg := p } := by
  unfold ringRecord
  cases replyTime s r <;> rfl

theorem replyChange_writeReply (s : State) (r : Reply) : ReplyChange r.fn s (writeReply s r) := by
  have hs : ∀ c : Bool, SameTxns s.txns (if c then touchTxn s r.txn else s).txns ∧ (if c then touchTxn s r.txn else s).out = s.out
      ∧ ∀ k, fnOf (if c then touchTxn s r.txn else s) k = fnOf s k := by
    intro c
    cases c
    · exact ⟨SameTxns.refl _, rfl, fun _ => rfl⟩
    · exact ⟨sameTxns_touchTxn _ _, touchTxn_out _ _, fun k => fnOf_touchTxn _ _ k⟩
  obtain ⟨hts, hos, hfs⟩ := hs r.taken.isSome
  obtain ⟨_, htx, ⟨p, hne, hfn⟩, m, hout, hm⟩ := writeReply_effect s r
  refine ⟨fun f hf => (hne f hf).trans (hfs f), ?_, ⟨_, hout.trans (by rw [hos]), by simpa using hm⟩, htx ▸ hts⟩
  rw [hfn, ← hfs]
  exact replyRecord_ringRecord _ _ _

theorem replyChange_pushReply (s : State) (r : Reply) : ReplyChange r.fn s (pushReply s r) := by
  unfold pushReply
  dsimp only
  split
  · exact replyChange_writeReply s r
  · exact .of_setFn (g := { fnOf s r.fn with store := (fnOf s r.fn).store ++ [r] }) rfl rfl ⟨[], by simp⟩ (SameTxns.refl _)

theorem replyChange_finish (s : State) (fn seq : Nat) (st : Status) (c : Cond) (r0 r1 : Nat) :
    ReplyChange fn s (finish s fn seq st c r0 r1) := by
  unfold finish
  split
  · exact .of_fns_out rfl rfl (SameTxns.refl _)
  next e he =>
    dsimp only
    split
    · refine .of_setFn (g := countTime (fnOf s fn) (some (now s - e.taken))) ?_ (replyRecord_countTime _ _) ⟨[], ?_⟩
        (sameTxns_touchTxn { s with cmdq := s.cmdq.eraseP (sameCmd fn seq) } _)
      · simp only [modFn, setFn, fnOf_touchTxn, touchTxn_fns]
        rfl
      · simp [modFn, touchTxn_out]
    · split
      · have h := replyChange_pushReply (drawn { s with cmdq := s.cmdq.eraseP (sameCmd fn seq) })
          { fn := fn, seq := seq, opcode := opcodeOf e.par, status := st, cond := c, txn := e.hdr.txn,
            source := 1 + drawNat { s with cmdq := s.cmdq.eraseP (sameCmd fn seq) } % 3, r0 := r0, r1 := r1, irq := e.hdr.irq,
            taken := some e.taken }
        exact ⟨h.others, h.record, h.outs, h.txns⟩
      · exact .of_fns_out rfl rfl (SameTxns.refl _)

/-- Settles O3: a reply is written, stored or kept with its command, and each of these changes only what `ReplyChange` names. -/
theorem replyFrame : Obligations.ReplyFrame := by
  intro s fn seq st c r0 r1 u
  have h : ReplyChange fn s u := replyChange_finish s fn seq st c r0 r1
  obtain ⟨hid, hidle⟩ := h.txns
  exact ⟨replyOnly_finish s fn seq st c r0 r1, h.others, h.record, h.outs, hid, hidle⟩

/-- Settles O4: the three ends of `finish`, for a quiet command, a reply that fits and one that finds no room. -/
theorem commandCompletes : Obligations.CommandCompletes := by
  intro s fn seq st c r0 r1 e he u f left dt
  have hu : u = finish s fn seq st c r0 r1 := rfl
  clear_value u
  rw [finish, he] at hu
  dsimp only at hu
  constructor
  · intro hq
    rw [if_pos (by simpa using hq)] at hu
    rw [hu]
    refine ⟨touchTxn_cmdq _ _, ?_, ?_, ?_⟩
    · simp [modFn, touchTxn_out]
    · rw [modFn_eq, fnOf_setFn, fnOf_touchTxn]
      rfl
    · rw [modFn_eq, fnOf_setFn, fnOf_touchTxn]
      rfl
  · intro hq
    rw [if_neg (by simpa using hq)] at hu
    refine ⟨1 + drawNat { s with cmdq := left } % 3, by omega, by omega, ?_⟩
    extract_lets r written
    split
    next hfit =>
      rw [if_pos (show replyFits (drawn { s with cmdq := s.cmdq.eraseP (sameCmd fn seq) }) fn = true from hfit)] at hu
      split
      next hroom =>
        have hw : u = writeReply (drawn { s with cmdq := left }) r := by
          rw [hu, pushReply]
          exact if_pos hroom
        obtain ⟨hcq, _, ⟨p, _, hfn⟩, m, hout, _⟩ := writeReply_effect (drawn { s with cmdq := left }) r
        rw [← hw] at hcq hfn hout
        have hf : fnOf (touchTxn (drawn { s with cmdq := left }) r.txn) r.fn = f := fnOf_touchTxn _ _ _
        have htime : (touchTxn (drawn { s with cmdq := left }) r.txn).time = s.time := replyOnly_time (replyOnly_touchTxn _ _)
        have ht : replyTime (touchTxn (drawn { s with cmdq := left }) r.txn) r = some dt := by
          simp only [replyTime, now, htime]
          rfl
        have htimed : timedReply (touchTxn (drawn { s with cmdq := left }) r.txn) r = written := by
          simp only [timedReply, ht, hf]
          rfl
        rw [if_pos (show r.taken.isSome = true from rfl)] at hcq hfn hout
        simp only [ringRecord, hf, ht] at hfn
        rw [hf, ht, htimed] at hout
        refine ⟨hcq.trans (touchTxn_cmdq _ _), ?_, ?_, ?_, ?_⟩
        · rw [hout]
          simp [countTime, r, f, replyBase]
        all_goals
          rw [show fnOf u fn = fnOf u r.fn from rfl, hfn]
          rfl
      next hroom =>
        have hw : u = setFn (drawn { s with cmdq := left }) fn { f with store := f.store ++ [r] } := by
          rw [hu, pushReply]
          exact if_neg hroom
        rw [hw]
        exact ⟨rfl, rfl, by rw [fnOf_setFn]⟩
    next hfit =>
      rw [if_neg (show ¬replyFits (drawn { s with cmdq := s.cmdq.eraseP (sameCmd fn seq) }) fn = true from hfit)] at hu
      rw [hu]
      exact ⟨rfl, rfl, rfl, rfl⟩

end Sys2Proof.Proofs

/-! How a command enters the queue and starts, and how a host access is tried again. -/
namespace Sys2Proof.Proofs

open Sys2Proof.Machine Sys2Proof.Safety Sys2Proof.Laws

/-- What every step of a fold leaves as it is, the fold does. -/
theorem foldl_unchanged {σ α β : Type} {f : σ → α → σ} (g : σ → β) (hf : ∀ s a, g (f s a) = g s) (l : List α) (s : σ) : g (l.foldl f s) = g s := by
  induction l generalizing s with
  | nil => rfl
  | cons a r ih => exact (ih (f s a)).trans (hf s a)

/-- A command that enters the queue changes the time and the queue alone. -/
theorem entered_eq (h : Hdr) (p : CmdParams) (t : Nat) (s : State) :
    entered h p t s = { advance t s with cmdq := (entered h p t s).cmdq } := by
  unfold entered enqueue
  split
  · rfl
  · split <;> rfl

/-- A command that completes, by what its operation makes of the state. -/
theorem next_congr {u v : State} (h : u = v) : (.next u : Host.Outcome State Fault Refusal) = .next v := congrArg _ h

/-- Settles O1: the queue's front is the only thing that `step` looks at. -/
theorem stepRunsFront : Obligations.StepRunsFront := fun _ _ _ => rfl

/-- A strobe whose operand names forme slot 256, which `Instr.wf` does not allow. -/
def strayStrobe : StrobeCmd :=
  { slot := 256, group := 0, entry := 0, index := 0, twin := false, rid := none, rows := 0, ready := 0,
    edge := 0, badSheet := none }

/-- A strobe is executed whatever its slot: no check of the operand stands before `strobeOp`. -/
theorem exec_strobe (r : StrobeCmd) (t : Nat) (s : State) : exec (.strobe r t) s = .next (strobeOp (advance t s) r) := rfl

/-- Refutes O2: STROBE with slot 256 is ill-formed, yet it completes in the reset state (and in every other). -/
theorem not_wellFormedCommandsGoOn : ¬ Obligations.WellFormedCommandsGoOn := by
  intro h
  have hwf : (Instr.strobe strayStrobe 0).wf = false := by decide
  have hf := (h (.strobe strayStrobe 0) State.reset).2 hwf
  rw [exec_strobe] at hf
  exact absurd hf (by simp)

/-- With nothing queued, in service or after a limp start, the queue holds the command alone. -/
theorem entered_cmdq_of_nil {h : Hdr} {p : CmdParams} {t : Nat} {s : State} (hq : s.cmdq = []) (hs : startsNow s p = true) :
    (entered h p t s).cmdq = [{ hdr := h, par := p, taken := max s.time.base t, wait := .queued, attempts := 0 }] := by
  have hs' : startsNow (advance t s) p = true := hs
  have hq' : (advance t s).cmdq = [] := hq
  have hfind : findCmd (advance t s) h.fn h.seq = none := by rw [findCmd, hq', List.find?_nil]
  simp only [entered, enqueue, hfind, hq', hs']
  rfl

theorem startsNow_of_service {s : State} (p : CmdParams) (hp : s.rst.phase = .service) (hs : s.therm.stopping = none) :
    startsNow s p = true := by
  simp [startsNow, hp, hs]

/-- A command that is alone in the queue may start when its kind starts at all. -/
theorem mayStart_of_alone {h : Hdr} {p : CmdParams} {s : State} {e : CmdEntry} (hq : s.cmdq = [e]) (hh : e.hdr = h) (hp : e.par = p)
    (hw : e.wait = .queued) (hs : startsNow s p = true) : mayStart s h p = true := by
  have hsame : sameCmd h.fn h.seq e = true := by simp [sameCmd, entryDone, roomReply, hh, hw]
  simp [mayStart, findCmd, earlierThan, hq, hsame, hs, hh, hp, hw]

/-- Settles O5: the queue's rule for an empty queue, and `runCmd_refused` for the three commands. -/
theorem commandsStart : Obligations.CommandsStart := by
  refine ⟨fun h p t s hq hp hs => ?_, fun h level es rid t st s hfn => ?_⟩
  · have hc := entered_cmdq_of_nil (h := h) (t := t) hq (startsNow_of_service p hp hs)
    refine ⟨hc, mayStart_of_alone hc rfl rfl rfl (startsNow_of_service p ?_ ?_)⟩
    · simpa using hp
    · simpa using hs
  · exact ⟨fun hm hst => runCmd_refused hfn hm hst _, fun hm hst => runCmd_refused hfn hm hst _, fun hm hst => runCmd_refused hfn hm hst _⟩

/-- Settles O16: the third failure answers the command, an earlier one counts in its entry and reads again. -/
theorem hostAccessTimesOut : Obligations.HostAccessTimesOut := by
  intro fn seq t e p s hfn hstop hfind hf hseq hwait hpar
  have hfind' : findCmd (advance t s) fn seq = some e := hfind
  have hacc : accessing (advance t s) e = true := by simp [accessing, hstop, hwait]
  have hexec : exec (.hostAccessTimeout fn seq t) s = .next (accessTimeoutOp (advance t s) fn seq) := if_pos hfn
  rw [hexec]
  simp only [accessTimeoutOp, hfind', hacc]
  constructor
  · intro h2
    rw [if_neg (by simp), if_pos (by omega), reply, hf, hseq]
  · intro h2
    rw [if_neg (by simp), if_neg (by omega), show readOf e.par = some (p.promptAddr, 4 * p.promptTokens) by rw [hpar]; rfl]
    refine ⟨_, { e with attempts := e.attempts + 1 }, rfl, ?_, rfl, rfl, rfl⟩
    have hsame : sameCmd fn seq e = true := List.find?_some hfind
    exact find_modFirst _ _ _ e hfind hsame

end Sys2Proof.Proofs

/-! The galley, the taking of a packet and the reply ring's head. -/
namespace Sys2Proof.Proofs

open Sys2Proof.Machine Sys2Proof.Safety

/-! ### A write of the galley -/

theorem exec_galleyWrite {fn : Nat} (hfn : fn < 256) (off t : Nat) (b : List Byte) (s : State) :
    exec (.galleyWrite fn off b t) s = .next (galleyWriteOp (advance t s) fn off b) := if_pos hfn

/-- A write at the frontier of an open galley. -/
theorem galleyWriteOp_frontier {s : State} {fn : Nat} (b : List Byte) (hu : hostUp s = true) (hb : barOpen s fn = true) :
    galleyWriteOp s fn (fnOf s fn).frontier b = setFn s fn (galleyBytes fn (b.length + 1) (fnOf s fn) b) := by
  simp [galleyWriteOp, hu, hb]

/-- A write at any other offset. -/
theorem galleyWriteOp_elsewhere {s : State} {fn off : Nat} (b : List Byte) (h : off ≠ (fnOf s fn).frontier) : galleyWriteOp s fn off b = s := by
  simp [galleyWriteOp, h]

/-- A header that faults: with `g` for want of room, else for its length or its SEQ. -/
theorem galleyBytes_fault {fn fuel : Nat} {f : FnBlk} {b : List Byte} {g : Bool} (hd : f.due = 0) (hb : 16 ≤ b.length)
    (hh : headerFault fn f b = some g) :
    galleyBytes fn (fuel + 1) f b
      = if g then { f with overrun := true, droppedSeq := leAt b 8 4 } else { f with header := true, droppedSeq := leAt b 8 4 } := by
  have hne : b ≠ [] := List.ne_nil_of_length_pos (by omega)
  have hdue : ¬f.due ≠ 0 := by simpa using hd
  have hlen : ¬b.length < 16 := by omega
  refine (if_neg hne).trans ((if_neg hdue).trans ((if_neg hlen).trans ?_))
  rw [hh]
  cases g <;> rfl

/-- One whole packet whose header is good. -/
theorem galleyBytes_packet {fn fuel : Nat} {f : FnBlk} {b : List Byte} (hd : f.due = 0) (hb : b.length = 16 * leAt b 4 2) (h1 : 1 ≤ leAt b 4 2)
    (hh : headerFault fn f b = none) :
    galleyBytes fn (fuel + 1) f b = { f with stored := f.stored ++ b, frontier := (f.frontier + 16 * leAt b 4 2) % galleySize fn,
                                             nextSeq := (f.nextSeq + 1) % 2 ^ 32 } := by
  have hne : b ≠ [] := List.ne_nil_of_length_pos (by omega)
  have hdue : ¬f.due ≠ 0 := by simpa using hd
  have hlen : ¬b.length < 16 := by omega
  have hdrop : b.drop (16 * leAt b 4 2) = [] := List.drop_eq_nil_of_le (by omega)
  have htake : b.take (16 * leAt b 4 2) = b := List.take_of_length_le (by omega)
  have hnil : ∀ g : FnBlk, galleyBytes fn fuel g [] = g := fun g => by cases fuel <;> rfl
  refine (if_neg hne).trans ((if_neg hdue).trans ((if_neg hlen).trans ?_))
  rw [hh]
  dsimp only
  rw [hdrop, htake, hnil, acceptBytes, ← hb, Nat.sub_self]
  dsimp only
  rw [← hd]

/-- Settles O19: the frontier decides whether a write is looked at, and its header what becomes of it. -/
theorem galleyTakesPackets : Obligations.GalleyTakesPackets := by
  intro fn off t b s hfn hup hbar hdue f n
  have hup' : hostUp (advance t s) = true := hup
  have hbar' : barOpen (advance t s) fn = true := hbar
  have hlook : ∀ g, headerFault fn f b = some g → 16 ≤ b.length →
      exec (.galleyWrite fn f.frontier b t) s = .next (setFn (advance t s) fn
        (if g then { f with overrun := true, droppedSeq := leAt b 8 4 } else { f with header := true, droppedSeq := leAt b 8 4 })) := by
    intro g hg hb
    rw [exec_galleyWrite hfn]
    exact next_congr ((galleyWriteOp_frontier b hup' hbar').trans (congrArg _ (galleyBytes_fault (f := f) hdue hb hg)))
  refine ⟨fun hoff => ?_, fun hoff h1 h257 hb hseq hroom => ?_, fun hoff hb hbad => ?_, fun hoff hb h1 h257 hseq hroom => ?_⟩
  · exact (exec_galleyWrite hfn ..).trans (congrArg _ (galleyWriteOp_elsewhere b hoff))
  · subst hoff
    rw [exec_galleyWrite hfn]
    refine congrArg _ ((galleyWriteOp_frontier b hup' hbar').trans (congrArg _ (galleyBytes_packet hdue hb h1 ?_)))
    have hok : ¬(leAt b 4 2 < 1 ∨ 257 < leAt b 4 2 ∨ leAt b 8 4 ≠ f.nextSeq) := by
      rintro (h | h | h)
      · exact absurd h1 (Nat.not_le.mpr h)
      · exact absurd h257 (Nat.not_le.mpr h)
      · exact h hseq
    exact (if_neg hok).trans (if_neg (Nat.not_lt.mpr hroom))
  · subst hoff
    exact hlook false (if_pos hbad) hb
  · subst hoff
    have hok : ¬(leAt b 4 2 < 1 ∨ 257 < leAt b 4 2 ∨ leAt b 8 4 ≠ f.nextSeq) := by
      rintro (h | h | h)
      · exact absurd h1 (Nat.not_le.mpr h)
      · exact absurd h257 (Nat.not_le.mpr h)
      · exact h hseq
    exact hlook true ((if_neg hok).trans (if_pos hroom)) hb

/-! ### The taking of a packet -/

theorem writeMirror_cases (s : State) (fn : Nat) : writeMirror s fn = s ∨ ∃ o, writeMirror s fn = emit s o := by
  unfold writeMirror
  dsimp only
  split
  · exact .inr ⟨_, rfl⟩
  · exact .inl rfl

@[simp] theorem writeMirror_fns (s : State) (fn : Nat) : (writeMirror s fn).fns = s.fns := by
  rcases writeMirror_cases s fn with h | ⟨o, h⟩ <;> rw [h]
  rfl

@[simp] theorem fnOf_writeMirror (s : State) (fn g : Nat) : fnOf (writeMirror s fn) g = fnOf s g := by
  unfold fnOf
  rw [writeMirror_fns]

@[simp] theorem writeMirror_cmdq (s : State) (fn : Nat) : (writeMirror s fn).cmdq = s.cmdq := by
  rcases writeMirror_cases s fn with h | ⟨o, h⟩ <;> rw [h]
  rfl

@[simp] theorem writeMirror_turn (s : State) (fn : Nat) : (writeMirror s fn).turn = s.turn := by
  rcases writeMirror_cases s fn with h | ⟨o, h⟩ <;> rw [h]
  rfl

theorem mem_writeMirror_out {s : State} {fn : Nat} {o : Out} (h : o ∈ s.out) : o ∈ (writeMirror s fn).out := by
  rcases writeMirror_cases s fn with e | ⟨p, e⟩ <;> rw [e]
  · exact h
  · exact List.mem_append_left _ h

@[simp] theorem pushReply_cmdq (s : State) (r : Reply) : (pushReply s r).cmdq = s.cmdq := by
  unfold pushReply
  dsimp only
  split
  · obtain ⟨h, _⟩ := writeReply_effect s r
    rw [h]
    split
    · exact touchTxn_cmdq _ _
    · rfl
  · rfl

/-- With no record waiting and room in the ring, a reply goes out. -/
theorem pushReply_of_room {s : State} {r : Reply} (he : (fnOf s r.fn).store = []) (hr : replyRoom (fnOf s r.fn) = true) :
    ∃ r' : Reply, r'.status = r.status ∧ r'.seq = r.seq
      ∧ (.hostWrite r.fn (replyBase (fnOf s r.fn) + 32 * (fnOf s r.fn).tail) (replyBytes r' (fnOf s r.fn).ringPhase)) ∈ (pushReply s r).out := by
  have hpush : pushReply s r = writeReply s r := if_pos ⟨he, hr⟩
  obtain ⟨_, _, _, m, hout, _⟩ := writeReply_effect s r
  have hf : ∀ (g : FnBlk) (n : Option Nat), replyBase (countTime g n) = replyBase g ∧ (countTime g n).tail = g.tail
      ∧ (countTime g n).ringPhase = g.ringPhase := fun g n => by cases n <;> exact ⟨rfl, rfl, rfl⟩
  have hs : fnOf (if r.taken.isSome then touchTxn s r.txn else s) r.fn = fnOf s r.fn := by
    split
    · exact fnOf_touchTxn _ _ _
    · rfl
  obtain ⟨hbase, htail, hphase⟩ := hf (fnOf s r.fn) (replyTime (if r.taken.isSome then touchTxn s r.txn else s) r)
  rw [hs, hbase, htail, hphase] at hout
  refine ⟨timedReply (if r.taken.isSome then touchTxn s r.txn else s) r, rfl, rfl, ?_⟩
  rw [hpush, hout]
  exact List.mem_append_right _ (List.mem_cons_self ..)

/-- The state after the first packet of function `fn` has left its galley. -/
def packetTaken (s : State) (fn : Nat) : State :=
  let f := fnOf s fn
  let n := (completePacket f).getD 0
  { setFn s fn { f with stored := f.stored.drop n, consume := (f.consume + n) % galleySize fn } with turn := (fn + 1) % 256 }

/-- The packet that is taken next. -/
def nextPacket (s : State) (fn : Nat) : List Byte := (fnOf s fn).stored.take ((completePacket (fnOf s fn)).getD 0)

/-- The reply to a packet with header `hd` and an unknown opcode. -/
def unknownReply (s : State) (fn : Nat) (hd : Hdr) : Reply :=
  { fn := fn, seq := hd.seq, opcode := leAt (fnOf s fn).stored 0 2, status := .opcodeUnknown, cond := {}, txn := hd.txn,
    source := 1 + drawNat (packetTaken s fn) % 3, r0 := 0, r1 := 0, irq := hd.irq, taken := some (now s) }

theorem packetTakeOp_of_command {s : State} {fn : Nat} {hd : Hdr} {p : CmdParams} (hu : hostUp s = true) (hq : s.cmdq.length < 1024)
    (hr : (rotation s).find? (takeable s) = some fn) (hdec : decodePacket fn (nextPacket s fn) = (hd, some p)) :
    packetTakeOp s = writeMirror { packetTaken s fn with
      cmdq := s.cmdq ++ [{ hdr := hd, par := p, taken := now s, wait := .queued, attempts := 0 }] } fn := by
  have hc : (hostUp s && s.cmdq.length < queueMaxCmds) = true := by simp [hu, queueMaxCmds, hq]
  unfold nextPacket at hdec
  unfold packetTakeOp
  rw [if_pos hc, hr]
  simp only [hdec]
  rfl

theorem packetTakeOp_of_unknown {s : State} {fn : Nat} {hd : Hdr} (hu : hostUp s = true) (hq : s.cmdq.length < 1024)
    (hr : (rotation s).find? (takeable s) = some fn) (hdec : decodePacket fn (nextPacket s fn) = (hd, none)) :
    packetTakeOp s = writeMirror (pushReply (drawn (packetTaken s fn)) (unknownReply s fn hd)) fn := by
  have hc : (hostUp s && s.cmdq.length < queueMaxCmds) = true := by simp [hu, queueMaxCmds, hq]
  unfold nextPacket at hdec
  unfold packetTakeOp
  rw [if_pos hc, hr]
  simp only [hdec]
  rfl

theorem packetTakeOp_of_full {s : State} (hq : 1024 ≤ s.cmdq.length) : packetTakeOp s = s := by
  have hn : ¬s.cmdq.length < queueMaxCmds := Nat.not_lt.mpr hq
  have hc : ¬(hostUp s && s.cmdq.length < queueMaxCmds) = true := by simp [hn]
  rw [packetTakeOp, if_neg hc]

/-- Settles O20: the cases of `packetTakeOp`, by what the packet decodes to. -/
theorem packetTakeQueuesTheCommand : Obligations.PacketTakeQueuesTheCommand := by
  intro t s hup
  have hup' : hostUp (advance t s) = true := hup
  have hexec : exec (.packetTake t) s = .next (packetTakeOp (advance t s)) := rfl
  refine ⟨?_, ?_, fun hq => ?_⟩
  · intro fn hd p hq hr f n hdec
    have htake := packetTakeOp_of_command (s := advance t s) hup' hq hr hdec
    refine ⟨_, hexec.trans (congrArg _ htake), ?_, ?_, fun g hg => ?_, ?_⟩
    · rw [writeMirror_cmdq]
      rfl
    · rw [fnOf_writeMirror]
      exact fnOf_setFn _ _ _
    · rw [fnOf_writeMirror]
      exact fnOf_setFn_ne _ _ hg
    · rw [writeMirror_turn]
      rfl
  · intro fn hd hq hr f n hdec
    have htake := packetTakeOp_of_unknown (s := advance t s) hup' hq hr hdec
    have hfn : fnOf (drawn (packetTaken (advance t s) fn)) fn = { f with stored := f.stored.drop n, consume := (f.consume + n) % galleySize fn } :=
      fnOf_setFn _ _ _
    refine ⟨_, hexec.trans (congrArg _ htake), ?_, ?_, fun hroom => ?_, fun hroom hstore => ?_⟩
    · rw [writeMirror_cmdq, pushReply_cmdq]
      rfl
    · have hrec := (replyChange_pushReply (drawn (packetTaken (advance t s) fn)) (unknownReply (advance t s) fn hd)).record
      rw [fnOf_writeMirror]
      refine (congrArg FnBlk.stored hrec).trans ?_
      exact (congrArg FnBlk.stored hfn)
    · refine ⟨unknownReply (advance t s) fn hd, ?_, rfl, rfl, rfl⟩
      have hno : ¬((fnOf (drawn (packetTaken (advance t s) fn)) fn).store = [] ∧ replyRoom (fnOf (drawn (packetTaken (advance t s) fn)) fn)
          = true) := by
        rw [hfn]
        exact fun h => absurd (show replyRoom f = true from h.2) (by simp [hroom])
      have hpush : pushReply (drawn (packetTaken (advance t s) fn)) (unknownReply (advance t s) fn hd)
          = setFn (drawn (packetTaken (advance t s) fn)) fn { fnOf (drawn (packetTaken (advance t s) fn)) fn with
              store := (fnOf (drawn (packetTaken (advance t s) fn)) fn).store ++ [unknownReply (advance t s) fn hd] } := if_neg hno
      rw [fnOf_writeMirror, hpush, fnOf_setFn, hfn]
    · have hs : (fnOf (drawn (packetTaken (advance t s) fn)) (unknownReply (advance t s) fn hd).fn).store = [] := by
        rw [show (unknownReply (advance t s) fn hd).fn = fn from rfl, hfn]
        exact hstore
      have hr' : replyRoom (fnOf (drawn (packetTaken (advance t s) fn)) (unknownReply (advance t s) fn hd).fn) = true := by
        rw [show (unknownReply (advance t s) fn hd).fn = fn from rfl, hfn]
        exact hroom
      obtain ⟨r', hst, hseq, hmem⟩ := pushReply_of_room hs hr'
      rw [show (unknownReply (advance t s) fn hd).fn = fn from rfl, hfn] at hmem
      exact ⟨r', hst, hseq, mem_writeMirror_out hmem⟩
  · rw [hexec, packetTakeOp_of_full (s := advance t s) hq]

/-! ### The galley reset -/

theorem SameTxns.trans {x y z : TxnBlk} (h : SameTxns x y) (g : SameTxns y z) : SameTxns x z :=
  ⟨g.1.trans h.1, fun d => (g.2 d).trans (h.2 d)⟩

/-- The identity of a transaction does not depend on its idle time, so the domain it stands in does not either. -/
theorem txnDomain_of_sameTxns {s u : State} (h : SameTxns s.txns u.txns) (id : Nat) : txnDomain u id = txnDomain s id := by
  have hany : ∀ d, (txnOf u.txns d).any (·.id == id) = (txnOf s.txns d).any (·.id == id) := by
    intro d
    have hd := congrArg (Option.any fun x : Txn => x.id == id) (h.2 d)
    simpa [Option.any_map, Function.comp_def] using hd
  unfold txnDomain
  simp only [hany]

/-- Touching transactions changes nothing but the transactions. -/
theorem touchTxns_eq (ids : List Nat) (s : State) :
    ids.foldl touchTxn s = { s with txns := (ids.foldl touchTxn s).txns } ∧ SameTxns s.txns (ids.foldl touchTxn s).txns := by
  induction ids generalizing s with
  | nil => exact ⟨rfl, SameTxns.refl _⟩
  | cons i r ih =>
    have h1 : touchTxn s i = { s with txns := (touchTxn s i).txns } := by
      unfold touchTxn
      split <;> rfl
    obtain ⟨h2, h3⟩ := ih (touchTxn s i)
    refine ⟨?_, (sameTxns_touchTxn s i).trans h3⟩
    rw [List.foldl_cons]
    refine h2.trans ?_
    rw [h1]

theorem txnDomain_le {s : State} {id d : Nat} (h : txnDomain s id = some d) : d ≤ 3 := by
  unfold txnDomain at h
  split at h
  · simp at h
  · have := List.mem_range.mp (List.mem_of_find?_eq_some h)
    omega

/-- The transaction in domain `d` was used just now. -/
def UsedNow (s : State) (d : Nat) : Prop := (txnOf s.txns d).map (·.idleSince) = some (now s)

theorem usedNow_touchTxn_self {s : State} {id d : Nat} (h : txnDomain s id = some d) : UsedNow (touchTxn s id) d := by
  have hany : (txnOf s.txns d).any (·.id == id) = true := by
    unfold txnDomain at h
    split at h
    · simp at h
    · exact List.find?_some (p := fun d => (txnOf s.txns d).any (·.id == id)) h
  obtain ⟨x, hx, _⟩ := Option.any_eq_true _ _ |>.mp hany
  have ht : touchTxn s id = putTxn s d ((txnOf s.txns d).map (fun x => { x with idleSince := now s })) := by
    unfold touchTxn
    rw [h]
  rw [UsedNow, ht, putTxn_txns, txnOf_setTxn, hx]
  rfl

theorem UsedNow.touchTxn {s : State} {d : Nat} (h : UsedNow s d) (hd : d ≤ 3) (id : Nat) : UsedNow (touchTxn s id) d := by
  cases he : txnDomain s id with
  | none =>
    have ht : Machine.touchTxn s id = s := by
      unfold Machine.touchTxn
      rw [he]
    rwa [ht]
  | some e =>
    by_cases hde : d = e
    · subst hde
      exact usedNow_touchTxn_self he
    · have ht : Machine.touchTxn s id = putTxn s e ((txnOf s.txns e).map (fun x => { x with idleSince := now s })) := by
        unfold Machine.touchTxn
        rw [he]
      rw [UsedNow, ht, putTxn_txns, txnOf_setTxn_ne _ _ _ _ (txnDomain_le he) hd hde]
      exact h

theorem UsedNow.touchTxns {s : State} {d : Nat} (h : UsedNow s d) (hd : d ≤ 3) (ids : List Nat) : UsedNow (ids.foldl Machine.touchTxn s) d := by
  induction ids generalizing s with
  | nil => exact h
  | cons i r ih => exact ih (h.touchTxn hd i)

theorem usedNow_touchTxns_mem {s : State} {id d : Nat} {ids : List Nat} (hm : id ∈ ids) (h : txnDomain s id = some d) :
    UsedNow (ids.foldl touchTxn s) d := by
  induction ids generalizing s with
  | nil => simp at hm
  | cons i r ih =>
    rw [List.foldl_cons]
    rcases List.mem_cons.mp hm with e | e
    · exact e ▸ (usedNow_touchTxn_self h).touchTxns (txnDomain_le h) r
    · exact ih e (by rwa [txnDomain_of_sameTxns (sameTxns_touchTxn s i)])

/-! ### The reply ring's head -/

theorem ReplyRecord.trans {f g k : FnBlk} (h : ReplyRecord f g) (j : ReplyRecord g k) : ReplyRecord f k := by
  unfold ReplyRecord at *
  rw [j, h]

/-- A reply leaves the record of every function as a reply may. -/
theorem ReplyChange.recordOf {fn : Nat} {s u : State} (h : ReplyChange fn s u) (g : Nat) : ReplyRecord (fnOf s g) (fnOf u g) := by
  by_cases hg : g = fn
  · exact hg ▸ h.record
  · rw [h.others g hg]
    rfl

theorem replyRecord_modFn {s : State} {fn : Nat} {f : FnBlk → FnBlk} (h : ReplyRecord (fnOf s fn) (f (fnOf s fn))) :
    ReplyRecord (fnOf s fn) (fnOf (modFn s fn f) fn) := by
  rwa [modFn_eq, fnOf_setFn]

theorem replyRecord_drainReplies (s : State) (fn : Nat) (rs : List Reply) : ReplyRecord (fnOf s fn) (fnOf (drainReplies s fn rs) fn) := by
  induction rs generalizing s with
  | nil => exact replyRecord_modFn rfl
  | cons r rs ih =>
    rw [drainReplies]
    split
    · exact ((replyChange_writeReply s r).recordOf fn).trans (ih _)
    · exact replyRecord_modFn rfl

theorem replyRecord_pumpWaiting (s : State) (fn : Nat) (es : List CmdEntry) : ReplyRecord (fnOf s fn) (fnOf (pumpWaiting s fn es) fn) := by
  induction es generalizing s with
  | nil => rfl
  | cons e es ih =>
    rw [pumpWaiting]
    split
    · split
      · exact ((replyChange_pushReply { s with cmdq := s.cmdq.erase e } _).recordOf fn).trans (ih _)
      · exact ih _
    · exact ih _

theorem replyRecord_pumpReplies (s : State) (fn : Nat) : ReplyRecord (fnOf s fn) (fnOf (pumpReplies s fn) fn) :=
  ((replyRecord_drainReplies ..).trans (replyRecord_pumpWaiting ..)).trans (replyRecord_drainReplies ..)

/-- Replies move into the ring until none is left or it is full. -/
theorem drainReplies_stops (s : State) (fn : Nat) (rs : List Reply) :
    (fnOf (drainReplies s fn rs) fn).store = [] ∨ replyRoom (fnOf (drainReplies s fn rs) fn) = false := by
  induction rs generalizing s with
  | nil =>
    rw [drainReplies, modFn_eq, fnOf_setFn]
    exact .inl rfl
  | cons r rs ih =>
    rw [drainReplies]
    split
    · exact ih _
    next hfull =>
      rw [modFn_eq, fnOf_setFn]
      exact .inr (Bool.eq_false_iff.mpr hfull)

theorem pumpReplies_stops (s : State) (fn : Nat) :
    (fnOf (pumpReplies s fn) fn).store = [] ∨ replyRoom (fnOf (pumpReplies s fn) fn) = false := drainReplies_stops ..

theorem bitAt_zero (n : Nat) : bitAt n 0 = decide (n % 2 = 1) := by
  simp [bitAt, beq_eq_decide]

/-- Settles O21: a galley reset touches transactions, and the pump that follows a write of the head stops where it says. -/
theorem galleyResetAndReplyHead : Obligations.GalleyResetAndReplyHead := by
  intro fn t v s hfn hup hbar
  have hup' : hostUp (advance t s) = true := hup
  have hbar' : barOpen (advance t s) fn = true := hbar
  have hreset : exec (.galleyReset fn v t) s = .next (if bitAt v.toNat 0 then dropGalley (advance t s) fn else advance t s) := by
    refine (if_pos hfn).trans ?_
    rw [hup', hbar', Bool.true_and, Bool.true_and]
  refine ⟨fun hv => ?_, fun hv => ?_, ?_⟩
  · rw [bitAt_zero, if_pos (by simpa using hv)] at hreset
    obtain ⟨heq, hsame⟩ := touchTxns_eq
      (if fn = 0 then (storedHeaders (fnOf s fn).stored.length (fnOf s fn).stored).map (fun h => leAt h 12 2) else [])
      (modFn (advance t s) fn resetGalley)
    refine ⟨_, hreset, heq, hsame.1, hsame.2, fun h => ?_, fun b hb d h0 hd => ?_⟩
    · have hnil : (if fn = 0 then (storedHeaders (fnOf s fn).stored.length (fnOf s fn).stored).map (fun h => leAt h 12 2) else []) = [] := by
        split
        next h0 =>
          rcases h with h | h
          · exact absurd h0 h
          · rw [h]
            rfl
        next => rfl
      show (List.foldl touchTxn _ _).txns = _
      rw [show (fnOf (advance t s) fn) = fnOf s fn from rfl, hnil]
      rfl
    · subst h0
      have hd' : txnDomain (modFn (advance t s) 0 resetGalley) (leAt b 12 2) = some d := hd
      exact (usedNow_touchTxns_mem (List.mem_map_of_mem (f := fun h => leAt h 12 2) hb) hd').trans
        (congrArg (fun x => some (now x)) (touchTxns_eq _ _).1)
  · rw [bitAt_zero, if_neg (by simp [hv])] at hreset
    exact hreset
  · have hexec : exec (.replyHeadWrite fn v t) s
        = .next (pumpReplies (modFn (advance t s) fn (fun f => { f with head := fld v.toNat 15 0 })) fn) := by
      refine (if_pos hfn).trans ?_
      rw [hup', hbar']
      rfl
    have hrec := replyRecord_pumpReplies (modFn (advance t s) fn (fun f => { f with head := fld v.toNat 15 0 })) fn
    have hf : fnOf (modFn (advance t s) fn (fun f => { f with head := fld v.toNat 15 0 })) fn
        = { fnOf s fn with head := fld v.toNat 15 0 } := fnOf_setFn _ _ _
    refine ⟨_, hexec, (congrArg FnBlk.head hrec).trans ?_, pumpReplies_stops _ _, (congrArg FnBlk.stored hrec).trans ?_⟩
    · rw [hf]
      simp [fld]
    · rw [hf]

end Sys2Proof.Proofs

/-! Register writes, event timers, the engagement of a plane in proof mode, and check-bit test mode. -/
namespace Sys2Proof.Proofs

open Sys2Proof.Machine Sys2Proof.Safety

/-! ### Registers of the command block -/

/-- A write of one word that is aligned. -/
theorem exec_registerWrite_four {fn off : Nat} (v t : Nat) {s : State} (hfn : fn < 256) (hu : hostUp s = true) (hb : barOpen s fn = true)
    (ho : off % 4 = 0) : exec (.registerWrite fn off 4 v t) s = .next (bar0Write4 (advance t s) fn off (v % 2 ^ 32)) := by
  have hg : ¬((!hostUp (advance t s)) || (!barOpen (advance t s) fn)) = true := by
    rw [show hostUp (advance t s) = true from hu, show barOpen (advance t s) fn = true from hb]
    decide
  exact (if_pos hfn).trans (congrArg _ ((if_neg hg).trans (if_pos ⟨rfl, ho⟩)))

/-- Eight aligned bytes act as two words, the low address first. -/
theorem exec_registerWrite_eight {fn off : Nat} (v t : Nat) {s : State} (hfn : fn < 256) (hu : hostUp s = true) (hb : barOpen s fn = true)
    (ho : off % 8 = 0) : exec (.registerWrite fn off 8 v t) s
      = .next (bar0Write4 (bar0Write4 (advance t s) fn off (v % 2 ^ 32)) fn (off + 4) (v / 2 ^ 32 % 2 ^ 32)) := by
  have hg : ¬((!hostUp (advance t s)) || (!barOpen (advance t s) fn)) = true := by
    rw [show hostUp (advance t s) = true from hu, show barOpen (advance t s) fn = true from hb]
    decide
  exact (if_pos hfn).trans (congrArg _ ((if_neg hg).trans ((if_neg (by simp)).trans (if_pos ⟨rfl, ho⟩))))

/-- Where a function's command block begins: BAR0 + 0x1000 of the physical function, BAR0 of a virtual one. -/
def cmdBase (fn : Nat) : Nat := if fn = 0 then 0x1000 else 0

theorem bar0Write4_cmd (s : State) (fn o v : Nat) (ho : o < 0x800) : bar0Write4 s fn (cmdBase fn + o) v = writeCmd s fn o v := by
  by_cases h : fn = 0
  · subst h
    have hdiv : (0x1000 + o) / 0x1000 = 1 := by omega
    have hmod : (0x1000 + o) % 0x1000 = o := by omega
    simp only [bar0Write4, cmdBase, writePf, if_pos, hdiv, hmod]
  · rw [cmdBase, if_neg h, Nat.zero_add, bar0Write4, if_neg h, if_pos ho]

/-- The command block reads as it stands, after a limp start too. -/
theorem bar0Read_cmd (s : State) (fn o : Nat) (ho : o < 0x800) : bar0Read s fn (cmdBase fn + o) = readCmd s fn o := by
  by_cases h : fn = 0
  · subst h
    have hdiv : (0x1000 + o) / 0x1000 = 1 := by omega
    have hmod : (0x1000 + o) % 0x1000 = o := by omega
    have hkeep : limpKeeps (0x1000 + o) = true := by
      have : 0x1000 + o < 0x2000 := by omega
      simp [limpKeeps, this]
    have hview : limpView s (0x1000 + o) = s := by simp [limpView, hkeep]
    simp only [bar0Read, cmdBase, readPf, if_pos, hdiv, hmod, hview]
  · rw [cmdBase, if_neg h, Nat.zero_add, bar0Read, if_neg h, if_pos ho]

/-- What is written of a field reads back. -/
theorem rw_toNat {mask : Nat} (hm : mask < 2 ^ 32) (v : Nat) : (rw mask v).toNat = Nat.land v mask := by
  rw [rw, BitVec.toNat_ofNat]
  exact Nat.mod_eq_of_lt (Nat.lt_of_le_of_lt Nat.and_le_right hm)

theorem clearCounts_getD (l : List Nat) (v i : Nat) :
    ((List.range l.length).map (fun i => if bitAt v i then 0 else l.getD i 0)).getD i 0 = if bitAt v i then 0 else l.getD i 0 := by
  rcases Nat.lt_or_ge i l.length with h | h
  · simp [List.getD, h]
  · simp [List.getD, h]

/-- Settles O22: the words of the command block, by their offsets, and the three copies of the counters. -/
theorem registerWrites : Obligations.RegisterWrites := by
  intro fn off size v t s hfn hup hbar base
  have hbase : base = cmdBase fn := rfl
  have h4 : ∀ o, o < 0x800 → o % 4 = 0 →
      exec (.registerWrite fn (base + o) 4 v t) s = .next (writeCmd (advance t s) fn o (v % 2 ^ 32)) := by
    intro o ho hal
    have hal' : (base + o) % 4 = 0 := by
      rw [hbase, cmdBase]
      split <;> omega
    rw [exec_registerWrite_four v t hfn hup hbar hal', hbase, bar0Write4_cmd _ _ _ _ ho]
  have h8 : exec (.registerWrite fn (base + 0x10) 8 v t) s
      = .next (writeCmd (writeCmd (advance t s) fn 0x10 (v % 2 ^ 32)) fn 0x14 (v / 2 ^ 32 % 2 ^ 32)) := by
    have hal : (base + 0x10) % 8 = 0 := by
      rw [hbase, cmdBase]
      split <;> omega
    rw [exec_registerWrite_eight v t hfn hup hbar hal, hbase, bar0Write4_cmd _ _ _ _ (by omega), Nat.add_assoc,
      bar0Write4_cmd _ _ _ _ (by omega)]
  clear_value base
  subst hbase
  refine ⟨fun hs4 hs8 => ?_, h4 0x04 (by omega) (by omega), ⟨_, h4 0x30 (by omega) (by omega), ?_, ?_⟩, ⟨_, h8, ?_, ?_⟩,
    fun w => ⟨clearCounts (advance t s) w.toNat, next_congr (if_pos hup), fun i => ?_, rfl⟩⟩
  · have hg : ¬((!hostUp (advance t s)) || (!barOpen (advance t s) fn)) = true := by
      rw [show hostUp (advance t s) = true from hup, show barOpen (advance t s) fn = true from hbar]
      decide
    exact (if_pos hfn).trans (congrArg _ ((if_neg hg).trans ((if_neg hs4).trans (if_neg hs8))))
  · rw [bar0Read_cmd _ _ _ (by omega)]
    refine (congrArg (fun f : FnBlk => f.cmdCfg.toNat) (fnOf_setFn _ _ _)).trans ?_
    refine (rw_toNat (by decide) _).trans ?_
    have := Nat.and_two_pow_sub_one_eq_mod (v % 2 ^ 32) 16
    have hland : Nat.land (v % 2 ^ 32) 0xFFFF = v % 2 ^ 32 % 2 ^ 16 := this
    rw [hland]
    omega
  · exact congrArg (setFn (advance t s) fn) (fnOf_setFn _ _ _).symm
  · rw [bar0Read_cmd _ _ _ (by omega)]
    refine (congrArg (fun f : FnBlk => f.mirrorLo.toNat) (fnOf_setFn _ _ _)).trans ?_
    refine (congrArg (fun f : FnBlk => f.mirrorLo.toNat) (fnOf_setFn _ _ _)).trans ?_
    exact rw_toNat (by decide) _
  · rw [bar0Read_cmd _ _ _ (by omega)]
    refine (congrArg (fun f : FnBlk => f.mirrorHi.toNat) (fnOf_setFn _ _ _)).trans ?_
    refine (rw_toNat (by decide) _).trans ?_
    have hland : Nat.land (v / 2 ^ 32 % 2 ^ 32) 0xFFFFFFFF = v / 2 ^ 32 % 2 ^ 32 % 2 ^ 32 := Nat.and_two_pow_sub_one_eq_mod _ 32
    rw [hland, Nat.mod_mod]
  · exact ⟨clearCounts_getD _ _ _, clearCounts_getD _ _ _, clearCounts_getD _ _ _⟩

/-! ### Event timers -/

theorem timerPeriod_pos (x : Timer) : 0 < timerPeriod x := by
  unfold timerPeriod
  omega

/-- The first edge of a periodic timer that is late is the first of its periods at least 200 ns ahead. -/
theorem firstEdge_late_periodic {x : Timer} {cmp t : Nat} (hc : cmp < t + 200) (hp : x.periodic = true) :
    ∃ k, firstEdge x cmp t = (cmp + k * timerPeriod x, true) ∧ t + 200 ≤ cmp + k * timerPeriod x
      ∧ cmp + k * timerPeriod x < t + 200 + timerPeriod x := by
  have hP := timerPeriod_pos x
  refine ⟨(t + 200 - cmp + timerPeriod x - 1) / timerPeriod x, ?_, ?_, ?_⟩
  · rw [firstEdge, if_neg (by omega), if_pos hp]
  · have h := Nat.lt_div_mul_add (a := t + 200 - cmp + timerPeriod x - 1) hP
    omega
  · have h := Nat.div_mul_le_self (t + 200 - cmp + timerPeriod x - 1) (timerPeriod x)
    omega

/-- Settles O24: the arms of `firstEdge`, and the edge of a timer by whether it is periodic. -/
theorem eventTimers : Obligations.EventTimers := by
  intro n t hi s hn x cmp
  have harm : exec (.etArm n hi t) s = .next (etArmOp (advance t s) n hi) := if_pos hn
  have hedge : exec (.etEdge n t) s = .next (etEdgeOp (advance t s) n) := if_pos hn
  have hstart : heldByHost s 0 n = true → x.en = true → etArmOp (advance t s) n hi = setTimer (advance t s) n
      { x with cmpHi := hi, next := some (firstEdge { x with cmpHi := hi } cmp (max s.time.base t)).1,
               late := x.late || (firstEdge { x with cmpHi := hi } cmp (max s.time.base t)).2 } := fun hh he => by
    have hh' : ¬(!heldByHost (advance t s) 0 n) = true := by
      rw [show heldByHost (advance t s) 0 n = true from hh]
      decide
    have he' : ({ timerOf (advance t s) n with cmpHi := hi } : Timer).en = true := he
    exact (if_neg hh').trans (if_pos he')
  refine ⟨fun hh he hc => ?_, fun hh he hc hp => ?_, fun hh he hc hp => ?_, fun hh he => ?_, fun hh => ?_, fun e hx he hle hp => ?_,
    fun e hx he hle hp => ?_⟩
  · rw [harm, hstart hh he, firstEdge, if_pos hc, Bool.or_false]
  · have hp' : ¬x.periodic = true := by simp [hp]
    rw [harm, hstart hh he, firstEdge, if_neg (by omega), if_neg hp', Bool.or_true]
  · obtain ⟨k, hk, hge, hlt⟩ := firstEdge_late_periodic (x := { x with cmpHi := hi }) hc hp
    refine ⟨_, _, k, harm.trans (congrArg _ (hstart hh he)), ?_, rfl, hge, hlt⟩
    rw [timerOf_setTimer, hk, Bool.or_true]
    rfl
  · have hh' : ¬(!heldByHost (advance t s) 0 n) = true := by
      rw [show heldByHost (advance t s) 0 n = true from hh]
      decide
    have he' : ¬({ timerOf (advance t s) n with cmpHi := hi } : Timer).en = true := by
      rw [show ({ timerOf (advance t s) n with cmpHi := hi } : Timer).en = false from he]
      decide
    exact harm.trans (next_congr ((if_neg hh').trans (if_neg he')))
  · have hh' : (!heldByHost (advance t s) 0 n) = true := by
      rw [show heldByHost (advance t s) 0 n = false from hh]
      decide
    exact harm.trans (next_congr (if_pos hh'))
  all_goals
    have hx' : (timerOf (advance t s) n).next = some e := hx
    have hc : ((timerOf (advance t s) n).en && decide (e ≤ now (advance t s))) = true := by
      rw [show (timerOf (advance t s) n).en = true from he]
      exact decide_eq_true hle
    have hper : (timerOf (advance t s) n).periodic = x.periodic := rfl
    rw [hedge]
    simp only [etEdgeOp, hx', hc, hper, hp, if_pos]
    rfl

/-! ### The engagement of a plane -/

theorem foldl_min_mem (b : Nat) (l : List Nat) : l.foldl min b ∈ b :: l := by
  induction l generalizing b with
  | nil => simp
  | cons a r ih =>
    rcases List.mem_cons.mp (ih (min b a)) with h | h
    · rw [List.foldl_cons, h]
      rcases Nat.le_total b a with hab | hab
      · simp [Nat.min_eq_left hab]
      · simp [Nat.min_eq_right hab]
    · exact List.mem_cons_of_mem _ (List.mem_cons_of_mem _ h)

theorem le_foldl_max (l : List (Nat × Nat)) (t : Nat) : t ≤ l.foldl (fun m e => max m e.2) t ∧ ∀ e ∈ l, e.2 ≤ l.foldl (fun m e => max m e.2) t := by
  induction l generalizing t with
  | nil => simp
  | cons a r ih =>
    obtain ⟨h1, h2⟩ := ih (max t a.2)
    rw [List.foldl_cons]
    exact ⟨by omega, List.forall_mem_cons.mpr ⟨by omega, h2⟩⟩

/-- An activity that begins at `firstFit` begins no sooner than asked and overlaps nothing of the list. -/
theorem firstFit_spec {span : Nat → Nat × Nat} (hspan : ∀ b, b ≤ (span b).1) (t : Nat) (l : List (Nat × Nat)) :
    t ≤ firstFit span t l ∧ ∀ e ∈ l, (span (firstFit span t l)).2 ≤ e.1 ∨ e.2 ≤ (span (firstFit span t l)).1 := by
  unfold firstFit
  split
  next =>
    obtain ⟨h1, h2⟩ := le_foldl_max l t
    exact ⟨h1, fun e he => .inr (Nat.le_trans (h2 e he) (hspan _))⟩
  next b r hbr =>
    have hmem := foldl_min_mem b r
    rw [← hbr, List.mem_filter] at hmem
    obtain ⟨hfrom, hfit⟩ := hmem
    refine ⟨?_, fun e he => ?_⟩
    · rcases List.mem_cons.mp hfrom with h | h
      · exact Nat.le_of_eq h.symm
      · obtain ⟨e, _, he⟩ := List.mem_map.mp h
        omega
    · simpa using List.all_eq_true.mp hfit e he

/-- When a switch of a tile starts, the tile is free and no other tile of the core switches. -/
theorem tileReady_spec (s : State) (c : Core) (t : Nat) :
    max (now s) (tileOf c t).freeAt ≤ tileReady s c t ∧ ∀ w ∈ c.switches, tileReady s c t + 120 ≤ w.1 ∨ w.2 ≤ tileReady s c t :=
  firstFit_spec (span := fun b => (b, b + 120)) (fun _ => Nat.le_refl _) _ _

theorem coreOf_engage_same (s : State) (ck t p : Nat) (proof : Bool) :
    let b := tileReady s (coreOf s ck) t
    let u := engage s ck t p proof
    (tileOf (coreOf u ck) t).engaged = some p ∧ (tileOf (coreOf u ck) t).proofEngaged = proof ∧ (tileOf (coreOf u ck) t).freeAt = b + 120
      ∧ (2, b, b + 120) ∈ (tileOf (coreOf u ck) t).work ∧ (b, b + 120) ∈ (coreOf u ck).switches
      ∧ ∀ x, x ≠ t → tileOf (coreOf u ck) x = tileOf (coreOf s ck) x := by
  intro b u
  have hu : coreOf u ck = _ := coreOf_setCore s ck _
  rw [hu]
  have hx : ∀ (c : Core) (g : Tile → Tile), tileOf (modTile c t g) t = g (tileOf c t) := fun c g => tileOf_setTile _ _ _
  refine ⟨?_, ?_, ?_, ?_, ?_, fun x hxt => tileOf_setTile_ne _ _ hxt⟩
  · rw [hx]
    rfl
  · rw [hx]
  · rw [hx]
  · rw [hx]
    exact List.mem_append_right _ (List.mem_singleton.mpr rfl)
  · exact List.mem_append_right _ (List.mem_singleton.mpr rfl)

theorem coreOf_engage_ne (s : State) {ck j : Nat} (t p : Nat) (proof : Bool) (h : j ≠ ck) : coreOf (engage s ck t p proof) j = coreOf s j :=
  coreOf_setCore_ne s _ h

theorem exec_tileEngage {ck tile : Nat} (hc : ck < nCores) (ht : tile < 16) (v : W32) (t : Nat) (s : State) :
    exec (.tileEngage ck tile v t) s = .next (tileEngageOp (advance t s) ck tile v.toNat) := if_pos ⟨hc, ht⟩

/-- Outside proof mode, without VALID, or in a stack without a logical stack, the write is taken for nothing. -/
theorem tileEngageOp_idle {s : State} {ck tile w : Nat} (h : s.sec.proof = false ∨ logicalStack s (coreStack ck) = none) :
    tileEngageOp s ck tile w = s := by
  have hg : ((!s.sec.proof) || (!bitAt w 31) || (!stackDriven s (coreStack ck))) = true := by
    rcases h with h | h <;> simp [h, stackDriven]
  rw [tileEngageOp, if_pos hg]

/-- In proof mode, with VALID and a logical stack, the core and the plane decide. -/
theorem tileEngageOp_live {s : State} {ck tile w : Nat} (hp : s.sec.proof = true) (hv : bitAt w 31 = true)
    (hl : logicalStack s (coreStack ck) ≠ none) :
    tileEngageOp s ck tile w =
      if coreNamed s ck then modCore s ck (fun c => { c with proofRefused := true })
      else
        let n := fld w 10 0
        let p := if bitAt w 30 then n else physPlane s (tileKey ck tile) n
        if (if bitAt w 30 then 1408 else 1344) ≤ n then s
        else
          let d := descOf s (planeKey (tileKey ck tile) p)
          let ok : Bool := d.state = 1 || d.state = 2 || (bitAt w 30 && (d.state = 3 || d.state = 4))
          if !ok then s
          else if descGood d = false then rejectDescriptor s (planeKey (tileKey ck tile) p)
          else engage s ck tile p true := by
  have hd : stackDriven s (coreStack ck) = true := Option.isSome_iff_ne_none.mpr hl
  have hg : ¬((!s.sec.proof) || (!bitAt w 31) || (!stackDriven s (coreStack ck))) = true := by simp [hp, hv, hd]
  rw [tileEngageOp, if_neg hg]

/-- Settles O25: the guards of `tileEngageOp` one by one, and `engage` at their end. -/
theorem tileEngage : Obligations.TileEngage := by
  intro ck tile t v s hck htile
  rw [exec_tileEngage hck htile]
  refine ⟨fun h => congrArg _ (tileEngageOp_idle h), fun hp hv hl hn => ?_, fun hn hbig => ?_, ?_⟩
  · rw [tileEngageOp_live (s := advance t s) hp hv hl, if_pos (show coreNamed (advance t s) ck = true from hn)]
    rfl
  · have hn' : ¬coreNamed (advance t s) ck = true := by
      rw [show coreNamed (advance t s) ck = false from hn]
      decide
    refine next_congr ?_
    rw [tileEngageOp]
    split
    · rfl
    · exact if_pos hbig
  · intro hp hv hl hn n p hlt hstate hgood
    have hn' : ¬coreNamed (advance t s) ck = true := by
      rw [show coreNamed (advance t s) ck = false from hn]
      decide
    have hok : ((descOf s (planeKey (tileKey ck tile) p)).state = 1 || (descOf s (planeKey (tileKey ck tile) p)).state = 2
        || (bitAt v.toNat 30 && ((descOf s (planeKey (tileKey ck tile) p)).state = 3 || (descOf s (planeKey (tileKey ck tile) p)).state = 4)) : Bool)
        = true := by
      cases hb : bitAt v.toNat 30 <;> rw [hb] at hstate <;> simp at hstate ⊢ <;> omega
    have hlive : tileEngageOp (advance t s) ck tile v.toNat = engage (advance t s) ck tile p true := by
      rw [tileEngageOp_live (s := advance t s) hp hv hl, if_neg hn']
      refine (if_neg (Nat.not_le.mpr hlt)).trans ?_
      refine (if_neg ?_).trans (if_neg ?_)
      · show ¬(!_) = true
        rw [Bool.not_eq_true', Bool.not_eq_false]
        exact hok
      · show ¬descGood (descOf s (planeKey (tileKey ck tile) p)) = false
        rw [hgood]
        decide
    obtain ⟨heng, hproof, hfree, hwork, hsw, hoth⟩ := coreOf_engage_same (advance t s) ck tile p true
    obtain ⟨hready, hclear⟩ := tileReady_spec (advance t s) (coreOf s ck) tile
    have hready' : max (max s.time.base t) (tileOf (coreOf s ck) tile).freeAt ≤ tileReady (advance t s) (coreOf s ck) tile := hready
    refine ⟨_, congrArg _ hlive, heng, hproof, ⟨_, ?_, ?_, hwork, hfree, hsw, hclear⟩, hoth, fun j hj => coreOf_engage_ne _ _ _ _ hj⟩
    · exact Nat.le_trans (Nat.le_max_left _ _) hready'
    · exact Nat.le_trans (Nat.le_max_right _ _) hready'

/-! ### Check-bit test mode -/

theorem aget_aset_same {α β : Type} [DecidableEq α] (l : List (α × β)) (k : α) (v : β) : aget (aset l k v) k = some v := by
  induction l with
  | nil => simp [aset, aget]
  | cons e r ih =>
    rw [aset]
    split
    · simp [aget]
    next h => rw [aget, if_neg h, ih]

/-- The state in which the operation of a write with GO runs. -/
def eccStarted (s : State) (w : Nat) : State := setFaults s (fun f => { f with eccCtrl := BitVec.ofNat 32 (Nat.land w 0x70FF000F) })

theorem eccRow_refused {s : State} {w op : Nat} (run : State → Nat → State) (hp : s.rst.phase = .service) (hgo : bitAt w 31 = true)
    (ho : fld w 30 28 = op) (hc : s.sec.confPresent = true) :
    eccRow s w op run = setFaults (eccStarted s w) (fun f => { f with eccRefused := true }) := by
  have hg : (inService s && bitAt w 31 && fld w 30 28 == op) = true := by simp [inService, hp, hgo, ho]
  rw [eccRow, if_pos hg]
  exact if_pos (by simp [confPresent, hc])

theorem eccRow_runs {s : State} {w op : Nat} (run : State → Nat → State) (hp : s.rst.phase = .service) (hgo : bitAt w 31 = true)
    (ho : fld w 30 28 = op) (hc : s.sec.confPresent = false) (ht : eccTarget s (fld w 3 0) = true) :
    eccRow s w op run = run (eccStarted s w) w := by
  have hg : (inService s && bitAt w 31 && fld w 30 28 == op) = true := by simp [inService, hp, hgo, ho]
  have ht' : eccTarget (eccStarted s w) (fld w 3 0) = true := ht
  rw [eccRow, if_pos hg]
  exact if_neg (by rw [confPresent, hc]; simpa [eccStarted] using ht')

/-- A word that was written is read without free values. -/
theorem eccWord_of_some {s : State} {k : Nat × Nat × Nat} {x : Nat × Nat} (h : aget s.faults.eccMem k = some x) : eccWord s k = (x, s) := by
  rw [eccWord, h]

/-- Settles O26: the guards of a write with GO, then each operation on the word it names. -/
theorem checkBitTestMode : Obligations.CheckBitTestMode := by
  intro v t s hp hgo mem key data
  have hp' : (advance t s).rst.phase = .service := hp
  refine ⟨fun hc ht ho => ⟨_, next_congr (eccRow_runs eccRawWriteOp hp' hgo ho hc ht), aget_aset_same _ _ _, rfl⟩,
    fun d c hc ht ho hk => ⟨_, next_congr (eccRow_runs eccRawReadOp hp' hgo ho hc ht), ?_⟩,
    fun d hc ht ho hk => ⟨_, next_congr (eccRow_runs eccDecodedReadOp hp' hgo ho hc ht), ?_⟩,
    fun hc ho => ⟨_, next_congr (eccRow_refused eccRawWriteOp hp' hgo ho hc), rfl, rfl⟩⟩
  · have hw : eccWord (eccStarted (advance t s) v.toNat) (eccKey (eccStarted (advance t s) v.toNat) (fld v.toNat 3 0))
        = ((d, c), eccStarted (advance t s) v.toNat) := eccWord_of_some hk
    rw [eccRawReadOp, hw]
    exact ⟨rfl, rfl, rfl, rfl, rfl⟩
  · have hw : eccWord (eccStarted (advance t s) v.toNat) (eccKey (eccStarted (advance t s) v.toNat) (fld v.toNat 3 0))
        = ((d, Config.checkBits d % 256), eccStarted (advance t s) v.toNat) := eccWord_of_some hk
    rw [eccDecodedReadOp, hw]
    have hdec : ∀ n, eccDecode d (Config.checkBits d % 256) n = (d, false, false) := fun n => if_pos rfl
    dsimp only
    rw [hdec]
    exact ⟨rfl, rfl, rfl, rfl, Nat.xor_self _, rfl⟩

end Sys2Proof.Proofs

/-! The control commands, resources and transactions. -/
namespace Sys2Proof.Proofs

open Sys2Proof.Machine Sys2Proof.Safety Sys2Proof.Laws

/-! ### Control commands -/

theorem coreOf_mapCores {s : State} {f : Nat → Core → Core} (hf : ∀ k, f k {} = {}) (k : Nat) : coreOf (mapCores s f) k = f k (coreOf s k) :=
  tget_tmap ({} : Core) f s.cores k (hf k)

theorem leaveProof_proof (s : State) : (leaveProof s).sec.proof = false := by
  unfold leaveProof
  split
  · rfl
  next h => exact Bool.eq_false_iff.mpr h

theorem coreOf_leaveProof {s : State} (h : s.sec.proof = true) (ck : Nat) : coreOf (leaveProof s) ck = clearProof (coreOf s ck) := by
  unfold leaveProof
  rw [if_pos h]
  exact coreOf_mapCores (f := fun _ c => clearProof c) (fun _ => rfl) ck

/-- The core's record does not depend on replies. -/
theorem coreOf_replyOk (s : State) (h : Hdr) (r0 r1 ck : Nat) : coreOf (replyOk s h r0 r1) ck = coreOf s ck := by
  unfold coreOf
  rw [replyOk_cores]

/-- Settles O7: each control command runs its body on the state in which it has entered the queue. -/
theorem controlCommandsComplete : Obligations.ControlCommandsComplete := by
  intro h t s
  refine ⟨fun a ha => runCmd_admitted ha _, fun ha => runCmd_admitted ha _, ?_, ?_, fun b ha => ?_, fun k ha => ?_, ?_, ?_, fun hc ha => ?_,
    fun hc ha => ?_⟩
  · intro a n ha s1 k hk
    refine (runCmd_admitted ha _).trans (next_congr ?_)
    have hk' : ¬min (n / 64) (entered h (.fenceReportGet a n) t s).faults.reports.length = 0 := hk
    unfold reportGetOp
    dsimp only
    rw [if_neg hk']
    rfl
  · intro off m v ha hm s1
    refine (runCmd_admitted ha _).trans (next_congr ?_)
    have hok : [(⟨off, m, v⟩ : OptEntry)].all optEntryOk = true := by
      rw [List.all_cons, List.all_nil, Bool.and_true]
      exact beq_iff_eq.mpr hm
    unfold optionSetOp
    rw [if_pos hok]
    rfl
  · obtain ⟨e, he, hh, hp, _⟩ := findCmd_mayStart ha.2.1
    refine ⟨_, runCmd_admitted ha _, rfl, rfl, ⟨_, findCmd_setWait (w := .boundary) he (by simp), rfl⟩, rfl⟩
  · intro u
    refine (runCmd_admitted ha _).trans (next_congr ?_)
    have hnow : now (entered h (.resetWarm k) t s) = max s.time.base t := by rw [now, entered_time]
    unfold resetWarmOp
    rw [hnow]
  · intro ha hc s1
    refine (runCmd_admitted ha _).trans (next_congr (if_neg ?_))
    simpa [confPresent] using hc
  · intro ha hc
    have hop : proofLeaveOp h (entered h .proofLeave t s) = replyOk (leaveProof (entered h .proofLeave t s)) h 0 0 :=
      if_neg (by simpa [confPresent] using hc)
    refine ⟨_, (runCmd_admitted ha _).trans (next_congr hop), ?_, fun hp ck => ?_⟩
    · rw [replyOk_sec]
      exact leaveProof_proof _
    · rw [coreOf_replyOk, coreOf_leaveProof hp]
      exact ⟨rfl, rfl, rfl, rfl⟩
  · exact (runCmd_admitted ha _).trans (next_congr (if_pos (by simpa [confPresent] using hc)))
  · exact (runCmd_admitted ha _).trans (next_congr (if_pos (by simpa [confPresent] using hc)))

/-! ### Resources -/

/-- The holder of every resource of a kind after one of them changes hands. -/
theorem resHolder_setRes (s : State) (kind i j : Nat) (x : Option (Nat ⊕ Nat)) :
    resHolder (setRes s kind i x) kind j = if j = i then x else resHolder s kind j := by
  by_cases hk : kind = 0
  · subst hk
    cases x with
    | none => exact tfind_tdel _ _ _
    | some v => exact tfind_tput _ _ _ _
  · have hr : ∀ u : State, resTable u kind = u.share.pins := fun u => if_neg hk
    unfold resHolder
    rw [hr, hr]
    unfold setRes
    dsimp only
    rw [if_neg hk]
    cases x with
    | none => exact tfind_tdel _ _ _
    | some v => exact tfind_tput _ _ _ _

theorem resHolder_of_share {s u : State} (h : u.share = s.share) (kind j : Nat) : resHolder u kind j = resHolder s kind j := by
  unfold resHolder resTable
  rw [h]

theorem timerOf_of_time {s u : State} (h : u.time = s.time) (n : Nat) : timerOf u n = timerOf s n := by
  unfold timerOf
  rw [h]

theorem allocOp_free (h : Hdr) (tag : Nat) {s : State} {kind i : Nat} (hi : i ≠ 0xFF) (hfree : resHolder s kind i = none) :
    allocOp h kind i tag s
      = replyOk (setRes (if kind = 0 then setTimer s i { timerOf s i with edges := 0 } else s) kind i (some (.inl tag))) h i 0 := by
  unfold allocOp
  simp only [if_neg hi, hfree]

/-- Settles O8: the holder the table has decides, and `setRes` writes it. -/
theorem resourcesComplete : Obligations.ResourcesComplete := by
  intro h kind i tag t s hkind
  refine ⟨fun ha hi hfree => ?_, fun ha hheld => ?_, fun x ha hi hheld hx => ?_⟩
  · have hfree' : resHolder (entered h (.resourceAlloc kind i tag) t s) kind i = none :=
      (resHolder_of_share (entered_share ..) kind i).trans hfree
    have hop := allocOp_free h tag hi hfree'
    refine ⟨_, (runCmd_admitted ha _).trans (next_congr hop), ?_, fun j hj => ?_, fun hk => ?_⟩
    · rw [resHolder_of_share (replyOk_share ..), resHolder_setRes, if_pos rfl]
    · rw [resHolder_of_share (replyOk_share ..), resHolder_setRes, if_neg hj]
      refine resHolder_of_share ?_ kind j
      split
      · rw [setTimer_share, entered_share]
      · rw [entered_share]
    · rw [timerOf_of_time (replyOk_time ..), if_pos hk]
      exact congrArg Timer.edges (timerOf_setTimer _ _ _)
  · have hheld' : heldByHost (entered h (.resourceFree kind i) t s) kind i = true := by
      rw [heldByHost, resHolder_of_share (entered_share ..) kind i, hheld]
    have hop := (runCmd_admitted ha (freeOp h kind i)).trans (next_congr (if_pos hheld'))
    refine ⟨_, hop, ?_, fun j hj => ?_⟩
    · rw [resHolder_of_share (replyOk_share ..), resHolder_setRes, if_pos rfl]
    · rw [resHolder_of_share (replyOk_share ..), resHolder_setRes, if_neg hj, resHolder_of_share (entered_share ..)]
  · have hheld' : resHolder (entered h (.resourceAlloc kind i tag) t s) kind i = some x :=
      (resHolder_of_share (entered_share ..) kind i).trans hheld
    refine (runCmd_admitted ha _).trans (next_congr ?_)
    unfold allocOp
    simp only [if_neg hi, hheld', if_neg hx]
    rfl

/-! ### Transactions -/

/-- A reply leaves the transactions, but for idle times. -/
theorem sameTxns_finish (s : State) (fn seq : Nat) (st : Status) (c : Cond) (r0 r1 : Nat) : SameTxns s.txns (finish s fn seq st c r0 r1).txns :=
  (replyChange_finish s fn seq st c r0 r1).txns

theorem SameTxns.none {x y : TxnBlk} (h : SameTxns x y) {d : Nat} (hd : txnOf x d = none) : txnOf y d = none := by
  have h2 := h.2 d
  rw [hd, Option.map_none] at h2
  exact Option.map_eq_none_iff.mp h2

theorem SameTxns.some {x y : TxnBlk} (h : SameTxns x y) {d : Nat} {e : Txn} (hd : txnOf x d = some e) :
    ∃ i, txnOf y d = some { e with idleSince := i } := by
  have h2 := h.2 d
  rw [hd, Option.map_some] at h2
  obtain ⟨e', he, hee⟩ := Option.map_eq_some_iff.mp h2
  refine ⟨e'.idleSince, he.trans (congrArg _ ?_)⟩
  cases e'
  cases e
  simp_all

/-- The transaction that TXN_BEGIN opens. -/
def openedTxn (s : State) : Txn :=
  { id := pickTxn s 4 s.txns.nextId, staged := [], idleSince := now s, committing := false, acceptedAt := 0, recordWritten := false,
    failed := [], reply := none }

theorem sameTxns_txnBeginOp (h : Hdr) {s : State} {d : Nat} (hd : ¬(txnOf s.txns d).isSome = true) :
    SameTxns (setTxn { s.txns with nextId := if (openedTxn s).id = 0xFFFF then 1 else (openedTxn s).id + 1 } d (some (openedTxn s)))
      (txnBeginOp h d s).txns := by
  unfold txnBeginOp
  rw [if_neg hd]
  refine SameTxns.trans ?_ (sameTxns_finish _ h.fn h.seq .ok {} _ 0)
  rcases d with _ | _ | _ | d <;> exact SameTxns.refl _

/-- Discarding a transaction leaves its domain free. -/
theorem txnOf_distribute (s : State) (d : Nat) : txnOf (distribute s d).txns d = none := by
  unfold distribute
  split
  next h => exact h
  next x h => exact txnOf_setTxn _ _ _

theorem sendControl_frame (s : State) (k m : Nat) (l : List Nat) :
    (sendControl s k m l).fns = s.fns ∧ (sendControl s k m l).txns = s.txns ∧ (sendControl s k m l).sched = s.sched := by
  unfold sendControl
  repeat' split
  all_goals exact ⟨rfl, rfl, rfl⟩

theorem sendControls_frame (k : Nat) (l ms : List Nat) (s : State) :
    (ms.foldl (fun y m => sendControl y k m l) s).fns = s.fns ∧ (ms.foldl (fun y m => sendControl y k m l) s).txns = s.txns := by
  induction ms generalizing s with
  | nil => exact ⟨rfl, rfl⟩
  | cons m r ih =>
    obtain ⟨hf, ht, _⟩ := sendControl_frame s k m l
    obtain ⟨hf', ht'⟩ := ih (sendControl s k m l)
    exact ⟨hf'.trans hf, ht'.trans ht⟩

theorem sendPrep_frame (s : State) (x : Txn) : (sendPrep s x).fns = s.fns ∧ (sendPrep s x).txns = s.txns := by
  unfold sendPrep
  dsimp only
  split
  · exact sendControls_frame _ _ _ _
  · exact ⟨rfl, rfl⟩

theorem startDrain_frame (s : State) : (startDrain s).fns = s.fns ∧ (startDrain s).txns = s.txns := by
  unfold startDrain
  split <;> exact ⟨rfl, rfl⟩

theorem freeTarget_frame (s : State) (pk : Nat) : (freeTarget s pk).fns = s.fns ∧ (freeTarget s pk).cmdq = s.cmdq := by
  unfold freeTarget
  dsimp only
  split <;> exact ⟨rfl, rfl⟩

theorem dropClaims_frame (s : State) (ls : List Nat) : (dropClaims s ls).fns = s.fns ∧ (dropClaims s ls).cmdq = s.cmdq := by
  have hfold : ∀ (ts : List Nat) (u : State), (ts.foldl freeTarget u).fns = u.fns ∧ (ts.foldl freeTarget u).cmdq = u.cmdq := by
    intro ts
    induction ts with
    | nil => exact fun _ => ⟨rfl, rfl⟩
    | cons p r ih =>
      intro u
      obtain ⟨hf, hc⟩ := freeTarget_frame u p
      obtain ⟨hf', hc'⟩ := ih (freeTarget u p)
      exact ⟨hf'.trans hf, hc'.trans hc⟩
  exact hfold _ s

/-- Discarding a transaction that no command of the queue uses, and no plate load, leaves the functions' records. -/
theorem distribute_frame {s : State} {d : Nat} (hq : s.cmdq = []) (hl : d = 1 → s.plates.load = none) :
    (distribute s d).fns = s.fns ∧ (distribute s d).cmdq = [] := by
  unfold distribute
  split
  · exact ⟨rfl, hq⟩
  next x hx =>
    have hload : (if d = 1 then failLoad s .txnNotOpen else s) = s := by
      split
      next h1 => rw [failLoad, hl h1]
      next => rfl
    have hstop : stopCommands s x.id = s := by rw [stopCommands, hq, List.filter_nil, List.foldl_nil]
    dsimp only
    rw [hload, hstop]
    split
    · obtain ⟨hf, hc⟩ := dropClaims_frame s (s.plates.claims.map (·.1))
      exact ⟨hf, hc.trans hq⟩
    · exact ⟨rfl, hq⟩

theorem sameTxns_unsolicited (s : State) (op : Nat) (st : Status) (txn seq r0 r1 : Nat) :
    SameTxns s.txns (unsolicited s op st txn seq r0 r1).txns := by
  unfold unsolicited
  dsimp only
  split
  · exact (replyChange_pushReply s _).txns
  · exact SameTxns.refl _

/-- The unsolicited reply `r` of a module that cannot write it into the ring joins the store. -/
theorem unsolicited_store {s : State} {op : Nat} {st : Status} {txn seq r0 r1 : Nat} (hroom : replyRoom (fnOf s 0) = false) (hq : s.cmdq = [])
    (hlen : (fnOf s 0).store.length < 4096) :
    ∃ r, (fnOf (unsolicited s op st txn seq r0 r1) 0).store = (fnOf s 0).store ++ [r] ∧ r.status = st ∧ r.txn = txn
      ∧ r.cond = { unsolicited := true } ∧ r.opcode = op := by
  have hfit : replyFits s 0 = true := by
    have hlen' : (fnOf s 0).store.length < storeMax := hlen
    simp [replyFits, hlen', hq]
  refine ⟨{ fn := 0, seq := seq, opcode := op, status := st, cond := { unsolicited := true }, txn := txn, source := 0, r0 := r0, r1 := r1,
            irq := true }, ?_, rfl, rfl, rfl, rfl⟩
  unfold unsolicited
  dsimp only
  rw [if_pos hfit]
  have hno : ¬((fnOf s 0).store = [] ∧ replyRoom (fnOf s 0) = true) := by simp [hroom]
  refine (congrArg (fun u => (fnOf u 0).store) (if_neg hno)).trans ?_
  exact congrArg FnBlk.store (fnOf_setFn _ _ _)

/-- Settles O9: begin, commit, rollback and expiry write the domain's transaction; replies touch its idle time alone. -/
theorem transactionsComplete : Obligations.TransactionsComplete := by
  intro h t s
  refine ⟨fun d ha hd => ?_, fun d x ha hd => ?_, fun d x ha hdom hd hst => ?_, fun d ha hdom => ?_, fun d x hlt hd hc hact hload hidle => ?_,
    fun d x hlt hd hno => ?_⟩
  · have hnone : ¬(txnOf (entered h (.txnBegin d) t s).txns d).isSome = true := by
      rw [entered_txns, hd]
      decide
    obtain ⟨i, hi⟩ := (sameTxns_txnBeginOp h hnone).some (txnOf_setTxn _ _ _)
    exact ⟨_, _, runCmd_admitted ha _, hi, rfl, rfl⟩
  · have hsome : (txnOf (entered h (.txnBegin d) t s).txns d).isSome = true := by
      rw [entered_txns, hd]
      rfl
    exact (runCmd_admitted ha (txnBeginOp h d)).trans (next_congr (if_pos hsome))
  · have hdom' : txnDomain (entered h .txnCommit t s) h.txn = some d := by
      unfold txnDomain at hdom ⊢
      rwa [entered_txns]
    have hd' : txnOf (entered h .txnCommit t s).txns d = some x := by rwa [entered_txns]
    have hnow : now (entered h .txnCommit t s) = max s.time.base t := by rw [now, entered_time]
    have hop := runCmd_admitted ha (txnCommitOp h)
    unfold txnCommitOp at hop
    simp only [hdom', hd', hst, hnow] at hop
    refine ⟨_, hop, rfl, ?_, ?_, fun h1 => ?_⟩
    · refine Eq.trans (congrArg (fun y => txnOf y d) ?_) (txnOf_setTxn (entered h .txnCommit t s).txns d _)
      rw [wantBoundary, setSched_txns]
      split
      · rw [(sendPrep_frame _ x).2, (startDrain_frame _).2]
        rfl
      · rfl
    · rw [wantBoundary, setSched_fns]
      split
      · rw [(sendPrep_frame _ x).1, (startDrain_frame _).1, setWait_fns, putTxn_fns, entered_fns]
      · rw [setWait_fns, putTxn_fns, entered_fns]
    · rw [if_neg h1, wantBoundary, setSched_out, setWait_out, putTxn_out, entered_out]
  · have hdom' : txnDomain (entered h .txnRollback t s) h.txn = some d := by
      unfold txnDomain at hdom ⊢
      rwa [entered_txns]
    have hop := runCmd_admitted ha (txnRollbackOp h)
    unfold txnRollbackOp at hop
    simp only [hdom'] at hop
    exact ⟨_, hop, (sameTxns_finish _ _ _ _ _ _ _).none (txnOf_distribute _ _)⟩
  · have hexp : expiredNow (advance t s) d = true := by
      have hd' : txnOf (advance t s).txns d = some x := hd
      have hact' : txnActive (advance t s) x.id = false := hact
      have hload' : (d == 1 && (advance t s).plates.load.isSome) = false := by
        by_cases h1 : d = 1
        · rw [show (advance t s).plates.load = none from hload h1]
          simp
        · simp [h1]
      have hidle' : x.idleSince + tenSeconds ≤ now (advance t s) := hidle
      simp only [expiredNow, hd', hc, hact', hload', hidle']
      rfl
    have hexec : exec (.txnExpired d t) s = .next (unsolicited (distribute (advance t s) d) 0x0022 .txnExpired x.id 0 0 0) := by
      refine (if_pos hlt).trans (next_congr ((if_pos hexp).trans ?_))
      rw [show txnOf (advance t s).txns d = some x from hd]
      rfl
    refine ⟨_, hexec, (sameTxns_unsolicited _ _ _ _ _ _ _).none (txnOf_distribute _ _), fun hroom hq hlen => ?_⟩
    obtain ⟨hf, hcq⟩ := distribute_frame (s := advance t s) (d := d) hq hload
    have hfn : fnOf (distribute (advance t s) d) 0 = fnOf s 0 := by
      unfold fnOf
      rw [hf]
      rfl
    obtain ⟨r, hr, hst, htxn, hcond, hopc⟩ := unsolicited_store (s := distribute (advance t s) d) (op := 0x0022) (st := .txnExpired)
      (txn := x.id) (seq := 0) (r0 := 0) (r1 := 0) (by rw [hfn, hroom]) hcq (by rw [hfn]; exact hlen)
    exact ⟨r, by rw [hr, hfn], hst, htxn, hcond, hopc⟩
  · have hexp : ¬expiredNow (advance t s) d = true := by
      have hd' : txnOf (advance t s).txns d = some x := hd
      simp only [expiredNow, hd', Bool.not_eq_true]
      rcases hno with hc | hact | hidle
      · simp [hc]
      · rw [show txnActive (advance t s) x.id = true from hact]
        simp
      · have hidle' : ¬x.idleSince + tenSeconds ≤ now (advance t s) := Nat.not_le.mpr hidle
        simp [hidle']
    exact (if_pos hlt).trans (next_congr (if_neg hexp))

end Sys2Proof.Proofs

/-! The unit, tenant, request and web commands. -/
namespace Sys2Proof.Proofs

open Sys2Proof.Machine Sys2Proof.Safety Sys2Proof.Laws

/-! ### Unit commands -/

/-- A module in service whose region map gives physical region 20 to logical region 0 of stack 0; a stack has sixteen. -/
def strayRegionState : State :=
  { State.reset with
    rst := { State.reset.rst with phase := .service }
    map := { State.reset.map with regionMap := [(0, some 20)] }
    fns := [(0, { level := some 1 })] }

/-- A command of the physical function that passes the checks of its header. -/
def plainHdr : Hdr :=
  { fn := 0, tenant := 0xFFFF, seq := 1, txn := 0, arch := 1, version := 1, length := 64, irq := false, fence := false, quiet := false,
    resZero := true }

/-- The logical address of region 0 of stack 0 of the receiving module (R18). -/
def firstRegionWord : Nat := 3 * 2 ^ 56 + 0x7FF * 2 ^ 40

/-- Refutes O10: FENCE_UNIT of a region whose map names physical region 20 fences region 4 of the next stack, whose key is the same. -/
theorem not_unitCommandsComplete : ¬ Obligations.UnitCommandsComplete := by
  intro hall
  have hadm : admitted plainHdr (.fenceUnit firstRegionWord) 0 strayRegionState := ⟨by decide, by decide, by decide⟩
  have hnamed : namedUnit strayRegionState firstRegionWord = some (.region 0 20) := by decide
  have hnot : unitFenced (fenceUnitCmd plainHdr firstRegionWord (entered plainHdr (.fenceUnit firstRegionWord) 0 strayRegionState)) (.region 0 20)
      = false := by decide
  obtain ⟨u, hu, hf, _⟩ := (hall plainHdr firstRegionWord 0 strayRegionState).2.1 _ hadm hnamed
  have hnext := hu.symm.trans (runCmd_admitted hadm (fenceUnitCmd plainHdr firstRegionWord))
  have hfenced := hf (by simp) (by simp)
  rw [Host.Outcome.next.inj hnext, hnot] at hfenced
  exact Bool.false_ne_true hfenced

/-! ### Tenant, key and overlay commands -/

theorem tenantOf_of_tenants {s u : State} (h : u.tenants = s.tenants) (n : Nat) : tenantOf u n = tenantOf s n := by
  unfold tenantOf
  rw [h]

theorem tenantSlot_of_tenants {s u : State} (h : u.tenants = s.tenants) (n : Nat) : tenantSlot u n = tenantSlot s n := by
  unfold tenantSlot
  rw [tenantOf_of_tenants h]

theorem startKex_tenants (s : State) (slot p : Nat) : (startKex s slot p).tenants = s.tenants := rfl

theorem kexAll_tenants (s : State) (slot : Nat) : (kexAll s slot).tenants = s.tenants :=
  foldl_unchanged State.tenants (fun s p => startKex_tenants s slot p) _ s

theorem broadcast_frame (s : State) (k : Nat) (l : List Nat) :
    (broadcast s k l).tenants = s.tenants ∧ (broadcast s k l).cmdq = s.cmdq := by
  have h : ∀ (u : State) (m : Nat), (sendControl u k m l).tenants = u.tenants ∧ (sendControl u k m l).cmdq = u.cmdq := by
    intro u m
    unfold sendControl
    repeat' split
    all_goals exact ⟨rfl, rfl⟩
  exact ⟨foldl_unchanged State.tenants (fun u m => (h u m).1) _ s, foldl_unchanged State.cmdq (fun u m => (h u m).2) _ s⟩

theorem cutStep_frame (s : State) : (cutStep s).tenants = s.tenants ∧ (cutStep s).cmdq = s.cmdq := by
  unfold cutStep
  split
  · split
    · exact ⟨rfl, rfl⟩
    · dsimp only
      split
      · exact broadcast_frame _ _ _
      · exact ⟨rfl, rfl⟩
  · exact ⟨rfl, rfl⟩

theorem dropSubkeys_frame (s : State) (slot : Nat) : (dropSubkeys s slot).tenants = s.tenants ∧ (dropSubkeys s slot).cmdq = s.cmdq :=
  ⟨foldl_unchanged State.tenants (by intros; rfl) _ s, foldl_unchanged State.cmdq (by intros; rfl) _ s⟩

theorem beginRemove_cmdq (s : State) (n : Nat) : (beginRemove s n).cmdq = s.cmdq :=
  ((dropSubkeys_frame _ _).2.trans (cutStep_frame _).2).trans rfl

/-- A tenant whose removal begins is RETIRING and disabled from now on; no other changes. -/
theorem tenantOf_beginRemove (s : State) (n m : Nat) :
    tenantOf (beginRemove s n) m
      = if m = n then { tenantOf s n with slot := triOf 2, enabled := false, removing := some (now s), removeBoundary := true } else tenantOf s m := by
  have ht : (beginRemove s n).tenants = (setTenant s n { tenantOf s n with
      slot := triOf 2, enabled := false, removing := some (now s), removeBoundary := true }).tenants :=
    ((dropSubkeys_frame _ _).1.trans (cutStep_frame _).1).trans rfl
  rw [tenantOf_of_tenants ht]
  split
  next h => rw [h, tenantOf_setTenant]
  next h => rw [tenantOf_setTenant_ne _ _ h]

/-- Settles O13: the guards of each tenant command, then what it stages or writes. -/
theorem tenantCommandsComplete : Obligations.TenantCommandsComplete := by
  intro h n t s
  have hslot : ∀ p, tenantSlot (entered h p t s) n = tenantSlot s n := fun p => tenantSlot_of_tenants (entered_tenants ..) n
  refine ⟨fun cfg ha hst => ?_, fun e ha hn hs => ?_, fun ha hn hs => ?_, fun slot layer a len ha hn hs hl => ?_, fun slot layer a ha hn hs => ?_,
    fun k ha hn hs => ?_, fun ha hn hs => ?_⟩
  · have hst' : tenantSetStatus (entered h (.tenantSet n cfg) t s) n cfg = none := by
      rw [entered_eq]
      exact hst
    refine (runCmd_admitted ha _).trans (next_congr ?_)
    rw [tenantSetOp, hst']
  · have hop : keyLoadOp h n (some e) (entered h (.keyLoad n) t s) = replyOk (kexAll (modTenant (entered h (.keyLoad n) t s) n
        (fun x => { x with slot := triOf 1, epoch := e % 256 })) n) h 0 0 :=
      (if_neg (Nat.not_le.mpr hn)).trans (if_neg (by rw [hslot, hs]; decide))
    refine ⟨_, (runCmd_admitted ha _).trans (next_congr hop), ?_, fun m hm => ?_⟩
    · rw [tenantOf_of_tenants ((replyOk_tenants ..).trans (kexAll_tenants _ _)), modTenant, tenantOf_setTenant,
        tenantOf_of_tenants (entered_tenants ..)]
      rfl
    · rw [tenantOf_of_tenants ((replyOk_tenants ..).trans (kexAll_tenants _ _)), modTenant, tenantOf_setTenant_ne _ _ hm,
        tenantOf_of_tenants (entered_tenants ..)]
  · have hop : tenantRemoveOp h n (entered h (.tenantRemove n) t s)
        = setWait (modTenant (beginRemove (entered h (.tenantRemove n) t s) n) n (fun x => { x with removeFns := x.removeFns ++ [(h.fn, h.seq)] }))
            h.fn h.seq .removal :=
      (if_neg (Nat.not_le.mpr hn)).trans (if_neg (by rw [hslot, hs]; decide))
    have hself : tenantOf (setWait (modTenant (beginRemove (entered h (.tenantRemove n) t s) n) n
        (fun x => { x with removeFns := x.removeFns ++ [(h.fn, h.seq)] })) h.fn h.seq .removal) n
        = { tenantOf (beginRemove (entered h (.tenantRemove n) t s) n) n with
            removeFns := (tenantOf (beginRemove (entered h (.tenantRemove n) t s) n) n).removeFns ++ [(h.fn, h.seq)] } := tenantOf_setTenant _ _ _
    rw [tenantOf_beginRemove, if_pos rfl] at hself
    obtain ⟨e, he, _⟩ := findCmd_mayStart ha.2.1
    refine ⟨_, (runCmd_admitted ha _).trans (next_congr hop), ?_, ?_, ?_, fun m hm => ?_, ⟨_, findCmd_setWait (e := e) ?_ (by simp), rfl⟩⟩
    · rw [tenantSlot, hself]
      rfl
    · rw [hself]
    · rw [hself, now, entered_time]
    · refine (tenantOf_setTenant_ne _ _ hm).trans ?_
      rw [tenantOf_beginRemove, if_neg hm, tenantOf_of_tenants (entered_tenants ..)]
    · have hq : (modTenant (beginRemove (entered h (.tenantRemove n) t s) n) n
          (fun x => { x with removeFns := x.removeFns ++ [(h.fn, h.seq)] })).cmdq = (entered h (.tenantRemove n) t s).cmdq := beginRemove_cmdq _ _
      rw [findCmd, hq]
      exact he
  · refine (runCmd_admitted ha _).trans (next_congr ((if_neg ?_).trans (if_neg hl)))
    rintro (hbig | h2)
    · exact Nat.not_le.mpr hn hbig
    · exact hs ((hslot _).symm.trans h2)
  · refine ⟨_, _, (runCmd_admitted ha _).trans (next_congr ((if_neg ?_).trans (if_pos rfl))), rfl⟩
    rintro (hbig | h2)
    · exact Nat.not_le.mpr hn hbig
    · exact hs ((hslot _).symm.trans h2)
  · exact (runCmd_admitted ha _).trans (next_congr ((if_neg (Nat.not_le.mpr hn)).trans (if_pos (by rw [hslot]; exact hs))))
  · exact (runCmd_admitted ha _).trans (next_congr ((if_neg (Nat.not_le.mpr hn)).trans (if_neg (by rw [hslot, hs]; decide))))

/-! ### Requests -/

theorem reqOf_of_reqs {s u : State} (h : u.reqs = s.reqs) (i : Nat) : reqOf u i = reqOf s i := by
  unfold reqOf
  rw [h]

theorem modChan_reqs (s : State) (w : Nat) (g : Channel → Channel) : (modChan s w g).reqs = s.reqs := by
  unfold modChan
  split <;> rfl

/-- A prompt that has come with words of the vocabulary: the request takes the lowest free index. -/
theorem reqs_submitRead {h : Hdr} {p : ReqParams} {words : List Nat} {f : Forme} {s : State} (hb : submitBad s p (ownerOf h) (calDone s) = none)
    (hf : formeOf s p.slot = some f) (hl : words.length = p.promptTokens) (hv : ∀ x ∈ words, x < f.image.sched.vocab) :
    (submitRead h p words s).reqs = (setReq s (freeIndex 0 s.reqs) (newReq s h.fn (ownerOf h) p words f.image)).reqs := by
  have hok : words.length = p.promptTokens ∧ words.all (· < f.image.sched.vocab) = true :=
    ⟨hl, List.all_eq_true.mpr fun x hx => decide_eq_true (hv x hx)⟩
  simp only [submitRead, hb, hf, if_pos hok, replyOk_reqs]
  split
  · rw [modChan_reqs]
    rfl
  · rfl

theorem markEndAt_of_reqOf {s : State} {i : Nat} {q : Req} (st : Status) (n : Nat) (hq : reqOf s i = some q) :
    reqOf (markEndAt s i st n) i = some { q with endAs := addOnce q.endAs (st, n) } := by
  refine (reqOf_of_reqs (setSched_reqs ..) i).trans ?_
  rw [modReq, hq]
  exact reqOf_setReq _ _ _

theorem modReq_frame (s : State) (i : Nat) (g : Req → Req) :
    (modReq s i g).cmdq = s.cmdq ∧ (modReq s i g).out = s.out ∧ (modReq s i g).web = s.web := by
  unfold modReq
  split <;> exact ⟨rfl, rfl, rfl⟩

theorem markEndAt_frame (s : State) (i : Nat) (st : Status) (n : Nat) :
    (markEndAt s i st n).cmdq = s.cmdq ∧ (markEndAt s i st n).out = s.out ∧ (markEndAt s i st n).web = s.web := modReq_frame s i _

/-- A command that enters the queue reads no prompt yet. -/
theorem submitsReading_entered (h : Hdr) (p : CmdParams) (t : Nat) (s : State) : submitsReading (entered h p t s) = submitsReading s := by
  unfold submitsReading entered enqueue
  split
  · rfl
  · split
    · rw [List.filterMap_append]
      exact List.append_nil _
    · rfl

/-- What the check of REQ_SUBMIT looks at: the request itself, the table, the prompts in reading and the tenants. -/
theorem submitStatus_congr {s u : State} {p : ReqParams} {n : Nat} {b : Bool} (hb : submitBad u p n b = submitBad s p n b)
    (hr : submitsReading u = submitsReading s) (hq : u.reqs = s.reqs) (ht : u.tenants = s.tenants) :
    submitStatus u p n b = submitStatus s p n b := by
  have hused : tableUsed u = tableUsed s := by rw [tableUsed, tableUsed, hq, hr]
  have hreqs : tenantReqs u = tenantReqs s := by
    funext m
    rw [tenantReqs, tenantReqs, hq, hr]
  have hothers : reservedOthers u n = reservedOthers s n := by rw [reservedOthers, reservedOthers, ht, hreqs]
  have hshare : shareOk u n = shareOk s n := by rw [shareOk, shareOk, hused, hreqs, hothers, tenantOf_of_tenants ht]
  have hheld : historyHeld u = historyHeld s := by rw [historyHeld, historyHeld, hq, hr]
  have hback : keptBack u n = keptBack s n := by rw [keptBack, keptBack, hothers]
  rw [submitStatus, submitStatus, hb, hshare, hheld, hback]

/-- Settles O15: the read of the prompt, the request it becomes, and the mark that REQ_CANCEL leaves. -/
theorem requestCommandsComplete : Obligations.RequestCommandsComplete := by
  intro h t s
  refine ⟨fun p ha hst => ?_, ?_, ?_⟩
  · have hbad : submitBad (entered h (.reqSubmit p) t s) p (ownerOf h) s.rst.calDone = submitBad s p (ownerOf h) s.rst.calDone := by
      rw [entered_eq]
      rfl
    have hst' : submitStatus (entered h (.reqSubmit p) t s) p (ownerOf h) (calDone (entered h (.reqSubmit p) t s)) = none := by
      rw [calDone, entered_rst, submitStatus_congr hbad (submitsReading_entered ..) (entered_reqs ..) (entered_tenants ..)]
      exact hst
    refine (runCmd_admitted ha _).trans (next_congr ?_)
    rw [submitOp, hst']
  · intro p words f e hfn hstop hfind hh hpar hwait hbad hf hlen hvoc i
    have hfind' : findCmd (advance t s) h.fn h.seq = some e := hfind
    have hop : readCompleteOp (advance t s) h.fn h.seq (.prompt words) = submitRead h p words (advance t s) := by
      have hstop' : ¬(advance t s).therm.stopping.isSome = true := by
        rw [show (advance t s).therm.stopping = none from hstop]
        decide
      have hw : (e.wait == Wait.hostRead) = true := beq_iff_eq.mpr hwait
      simp only [readCompleteOp, hfind', if_neg hstop', if_pos hw, continueRead, hpar, hh]
    have hreqs := reqs_submitRead (h := h) (s := advance t s) (p := p) (words := words) hbad hf hlen hvoc
    refine ⟨_, newReq (advance t s) h.fn (ownerOf h) p words f.image, (if_pos hfn).trans (next_congr hop), ?_, rfl, rfl, rfl, rfl, rfl, rfl, rfl, ?_,
      fun j hj => ?_⟩
    · exact (reqOf_of_reqs hreqs _).trans (reqOf_setReq _ _ _)
    · have hcond : ((p.pinned && flipPending (advance t s)) || slotDraining (advance t s) p.slot) = true
          ↔ ((p.pinned = true ∧ flipPending s = true) ∨ slotDraining s p.slot = true) := by
        rw [Bool.or_eq_true, Bool.and_eq_true]
        exact Iff.rfl
      exact if_congr hcond rfl rfl
    · exact (reqOf_of_reqs hreqs _).trans (reqOf_setReq_ne _ _ hj)
  · intro rid q ha hq hrid hscope hend taken
    have hq' : reqOf (entered h (.reqCancel rid) t s) (ridIndex rid) = some q := (reqOf_of_reqs (entered_reqs ..) _).trans hq
    have hrid' : ridOf (entered h (.reqCancel rid) t s) (ridIndex rid) = rid := by
      rw [entered_eq]
      exact hrid
    have hnow : now (entered h (.reqCancel rid) t s) = max s.time.base t := by rw [now, entered_time]
    have hfrom : ∀ n, endFrom (entered h (.reqCancel rid) t s) n = endFrom s n := fun n => by
      rw [entered_eq]
      rfl
    have hop : cancelOp h rid (entered h (.reqCancel rid) t s)
        = setWait (markEndAt (entered h (.reqCancel rid) t s) (ridIndex rid) .cancelled (endFrom s taken)) h.fn h.seq (.cancel (ridIndex rid)) := by
      unfold cancelOp
      dsimp only
      rw [hq']
      refine (if_neg ?_).trans ?_
      · rintro (h1 | h2)
        · exact h1 hrid'
        · cases hn : hdrTenant h with
          | none => simp [hn] at h2
          | some n => simp [hn, hscope n hn] at h2
      · rw [hnow, hfrom]
    obtain ⟨e, he, _⟩ := findCmd_mayStart ha.2.1
    refine ⟨_, (runCmd_admitted ha _).trans (next_congr hop), ?_, ⟨_, findCmd_setWait (e := e) ?_ (by simp), rfl⟩, rfl⟩
    · refine (markEndAt_of_reqOf .cancelled (endFrom s taken) hq').trans ?_
      rw [hend]
      rfl
    · rw [findCmd, (markEndAt_frame _ _ _ _).1]
      exact he

/-! ### Web channels -/

theorem chanOf_of_web {s u : State} (h : u.web = s.web) (w : Nat) : chanOf u w = chanOf s w := by
  unfold chanOf
  rw [h]

theorem cancelBound_frame (s : State) (c : Channel) :
    (cancelBound s c).cmdq = s.cmdq ∧ (cancelBound s c).out = s.out ∧ (cancelBound s c).web = s.web := by
  unfold cancelBound
  split
  · exact markEndAt_frame _ _ _ _
  · exact ⟨rfl, rfl, rfl⟩

/-- The end frame of a channel is written, and the channel is gone. -/
theorem endFrame_effect (s : State) (w : Nat) (c : Channel) (st : Status) (asFill : Bool) :
    (endFrame s w c st asFill).out = s.out ++ [.hostWrite c.fn (c.p.destAddr + c.slot % (c.p.destBytes / frameStride c.g) * frameStride c.g)
        (frameOf c.slot 3 0 c.g c.data [])]
      ∧ chanOf (endFrame s w c st asFill) w = none ∧ ∀ v, v ≠ w → chanOf (endFrame s w c st asFill) v = chanOf s v := by
  have hmark : ∀ (u : State) (rid : Nat) (g : Req → Req), (markEnd (modReq u rid g) rid st).out = u.out
      ∧ (markEnd (modReq u rid g) rid st).web = u.web := fun u rid g => by
    obtain ⟨_, ho, hw⟩ := markEndAt_frame (modReq u rid g) rid st (nextBoundary (modReq u rid g))
    obtain ⟨_, ho', hw'⟩ := modReq_frame u rid g
    exact ⟨ho.trans ho', hw.trans hw'⟩
  have hclose : ∀ u : State, u.web.channels = (writeFrame s w c 3 0 []).web.channels →
      chanOf (closeChan u w) w = none ∧ ∀ v, v ≠ w → chanOf (closeChan u w) v = chanOf s v := fun u hu => by
    refine ⟨tfind_tdel_same _ _, fun v hv => ?_⟩
    have hdel : chanOf (closeChan u w) v = tfind (tdel u.web.channels w) v := rfl
    rw [hdel, tfind_tdel, if_neg hv, hu]
    exact chanOf_setChan_ne (hostWrite s c.fn _ _) _ hv
  unfold endFrame
  cases c.bound with
  | none =>
    refine ⟨?_, hclose _ ?_⟩
    · cases asFill <;> rfl
    · cases asFill <;> rfl
  | some rid =>
    obtain ⟨ho, hw⟩ := hmark (writeFrame s w c 3 0 []) rid (fun r => { r with fillSeen := r.fillSeen || st = .deadlineExpired })
    have hw' : (markEnd (modReq (writeFrame s w c 3 0 []) rid (fun r => { r with fillSeen := r.fillSeen || st = .deadlineExpired })) rid
        st).web.channels = (writeFrame s w c 3 0 []).web.channels := congrArg WebBlk.channels hw
    refine ⟨?_, hclose _ ?_⟩
    · cases asFill
      · exact ho.trans rfl
      · exact ho.trans rfl
    · cases asFill
      · exact hw'
      · exact hw'

/-- A reply adds to the outward writes. -/
theorem mem_finish_out {s : State} {o : Out} (ho : o ∈ s.out) (fn seq : Nat) (st : Status) (c : Cond) (r0 r1 : Nat) :
    o ∈ (finish s fn seq st c r0 r1).out := by
  obtain ⟨l, hl, _⟩ := (replyChange_finish s fn seq st c r0 r1).outs
  rw [hl]
  exact List.mem_append_left _ ho

/-- Settles O17: the channel that WEB_OPEN opens, and the two modes of WEB_CLOSE. -/
theorem webCommandsComplete : Obligations.WebCommandsComplete := by
  intro h t s
  have hopen : ∀ p, admitted h (.webOpen p) t s → tenantEnabled s (ownerOf h) = true → webOpenStatus s p = none →
      webOpenOp h p (entered h (.webOpen p) t s) =
        if p.silenceAddr = 0 then replyOk (openChannel (entered h (.webOpen p) t s) h.fn (ownerOf h) p none).1 h
            (openChannel (entered h (.webOpen p) t s) h.fn (ownerOf h) p none).2 0
        else setWait (emit (entered h (.webOpen p) t s) (.hostRead h.fn p.silenceAddr (4 * webG p))) h.fn h.seq .hostRead := by
    intro p ha hen hst
    have hen' : ¬(!tenantEnabled (entered h (.webOpen p) t s) (ownerOf h)) = true := by
      have he : tenantEnabled (entered h (.webOpen p) t s) (ownerOf h) = true := by
        rw [entered_eq]
        exact hen
      simp [he]
    have hst' : webOpenStatus (entered h (.webOpen p) t s) p = none := by
      rw [entered_eq]
      exact hst
    unfold webOpenOp
    rw [if_neg hen', hst']
  have hchan : ∀ p w, chanOf (entered h p t s) w = chanOf s w := fun p w => chanOf_of_web (entered_web ..) w
  refine ⟨fun p ha hen hst hz => ?_, fun p ha hen hst hz => ?_, fun w c ha hc hsc => ?_, fun w c ha hc hsc => ?_, fun g ms ha hg hms hin => ?_⟩
  · have hop := (hopen p ha hen hst).trans (if_pos hz)
    refine ⟨_, _, (runCmd_admitted ha _).trans (next_congr hop), (chanOf_of_web (replyOk_web ..) _).trans (chanOf_setChan _ _ _), rfl, rfl, rfl, rfl,
      rfl, rfl, rfl, rfl, fun w hw => ?_⟩
    exact ((chanOf_of_web (replyOk_web ..) _).trans (chanOf_setChan_ne _ _ hw)).trans (hchan _ _)
  · exact (runCmd_admitted ha _).trans (next_congr ((hopen p ha hen hst).trans (if_neg hz)))
  · have hc' : chanOf (entered h (.webClose w 1) t s) w = some c := (hchan _ _).trans hc
    have hop : webCloseOp h w 1 (entered h (.webClose w 1) t s)
        = replyOk (endFrame (entered h (.webClose w 1) t s) w { c with queue := [] } .cancelled false) h c.data c.fills := by
      unfold webCloseOp
      rw [hc']
      exact (if_neg (by simp [hsc])).trans (if_pos rfl)
    obtain ⟨hout, hgone, hothers⟩ := endFrame_effect (entered h (.webClose w 1) t s) w { c with queue := [] } .cancelled false
    refine ⟨_, (runCmd_admitted ha _).trans (next_congr hop), (chanOf_of_web (replyOk_web ..) _).trans hgone, fun v hv => ?_, ?_⟩
    · exact ((chanOf_of_web (replyOk_web ..) _).trans (hothers v hv)).trans (hchan _ _)
    · refine mem_finish_out ?_ _ _ _ _ _ _
      rw [hout]
      exact List.mem_append_right _ (List.mem_singleton.mpr rfl)
  · have hc' : chanOf (entered h (.webClose w 0) t s) w = some c := (hchan _ _).trans hc
    have hop : webCloseOp h w 0 (entered h (.webClose w 0) t s)
        = setWait (setChan (cancelBound (entered h (.webClose w 0) t s) c) w { c with queue := [], closing := true }) h.fn h.seq (.webClose w) := by
      unfold webCloseOp
      rw [hc']
      exact (if_neg (by simp [hsc])).trans (if_neg (by decide))
    obtain ⟨hq, ho, _⟩ := cancelBound_frame (entered h (.webClose w 0) t s) c
    obtain ⟨e, he, _⟩ := findCmd_mayStart ha.2.1
    refine ⟨_, (runCmd_admitted ha _).trans (next_congr hop), chanOf_setChan _ _ _, ⟨_, findCmd_setWait (e := e) ?_ (by simp), rfl⟩, ?_⟩
    · have hq' : (setChan (cancelBound (entered h (.webClose w 0) t s) c) w { c with queue := [], closing := true }).cmdq
          = (entered h (.webClose w 0) t s).cmdq := hq
      rw [findCmd, hq']
      exact he
    · exact ho.trans (entered_out ..)
  · have hin' : ¬ms.any (inOtherGroup (entered h (.webGroup g ms) t s) g) = true := by
      have hnone : ms.any (inOtherGroup s g) = false := by simpa using hin
      have heq : inOtherGroup (entered h (.webGroup g ms) t s) g = inOtherGroup s g := by
        rw [entered_eq]
        rfl
      rw [heq, hnone]
      decide
    have hok : g < 1024 ∧ (dissolves ms = true ∨ (ms.all (· < channelsMax) = true ∧ ms.Nodup)) := by
      refine ⟨hg, ?_⟩
      rcases hms with h1 | ⟨hnd, hlt⟩
      · exact .inl (beq_iff_eq.mpr h1)
      · exact .inr ⟨List.all_eq_true.mpr fun m hm => decide_eq_true (hlt m hm), hnd⟩
    exact (runCmd_admitted ha _).trans (next_congr ((if_pos hok).trans (if_neg hin')))

end Sys2Proof.Proofs
/-! # The slots of the web's channels -/
namespace Sys2Proof.Proofs

open Sys2Proof.Machine Sys2Proof.Safety Sys2Proof.Laws

theorem exec_webSlot {w : Nat} (hw : w < 4096) (t : Nat) (s : State) : exec (.webSlot w t) s = .next (webSlotOp (advance t s) w) :=
  if_pos hw

theorem webSlotOp_early {s : State} {w : Nat} {c : Channel} (hc : chanOf s w = some c) (h : now s < slotTime c c.slot) :
    webSlotOp s w = s := by
  unfold webSlotOp
  rw [hc]
  exact if_pos h

theorem webSlotOp_alone {s : State} {w : Nat} {c : Channel} (hc : chanOf s w = some c) (h : slotTime c c.slot ≤ now s)
    (hg : c.p.group = 0xFFFF) : webSlotOp s w = slotAlone s w c := by
  unfold webSlotOp
  rw [hc]
  exact (if_neg (Nat.not_lt.mpr h)).trans (if_pos hg)

theorem modChan_of_some {s : State} {w : Nat} {c : Channel} (g : Channel → Channel) (h : chanOf s w = some c) :
    modChan s w g = setChan s w (g c) := by
  unfold modChan
  rw [h]

theorem chanOf_writeFrame (s : State) (w : Nat) (c : Channel) (kind flags : Nat) (tokens : List Nat) :
    chanOf (writeFrame s w c kind flags tokens) w = some { c with slot := c.slot + 1 } := chanOf_setChan _ _ _

/-- A channel whose queue has a head writes it as a data frame. -/
theorem writeData_effect (s : State) (w : Nat) {c : Channel} {tokens : List Nat} {after : Bool} {q : List (List Nat × Bool)}
    (hq : c.queue = (tokens, after) :: q) :
    chanOf (writeData s w c) w
        = some { c with slot := c.slot + 1, queue := q, data := c.data + 1, run := 0, filling := false, lastTokens := tokens }
      ∧ (writeData s w c).out = (writeFrame s w c 0 (2 * b2n after) tokens).out := by
  have hw : writeData s w c = setChan (writeFrame s w c 0 (2 * b2n after) tokens) w
      { c with slot := c.slot + 1, queue := q, data := c.data + 1, run := 0, filling := false, lastTokens := tokens } := by
    unfold writeData
    rw [hq]
    exact modChan_of_some _ (chanOf_writeFrame ..)
  rw [hw]
  exact ⟨chanOf_setChan _ _ _, rfl⟩

/-- What a fill frame carries under FILL 0 and under FILL 1. -/
def fillTokens (c : Channel) : List Nat :=
  if c.p.fill = 0 then (if c.data = 0 then c.silence.getD (List.replicate c.g 0) else c.lastTokens)
  else c.silence.getD (List.replicate c.g 0)

theorem fillTokens_repeats {c : Channel} (hf : c.p.fill = 0) (hd : c.data ≠ 0) : fillTokens c = c.lastTokens :=
  (if_pos hf).trans (if_neg hd)

/-- Below the limit, and under FILL 0 or 1, an empty channel writes a fill frame. -/
theorem fillFrame_effect {s : State} (w : Nat) {c : Channel} (hf : c.p.fill ≠ 2) (hl : ¬(fillLimit s ≠ 0 ∧ fillLimit s ≤ c.run)) :
    chanOf (fillFrame s w c false) w = some { c with slot := c.slot + 1, fills := satAdd 32 c.fills 1, run := c.run + 1, filling := true }
      ∧ (fillFrame s w c false).out = (writeFrame s w c (if c.p.fill = 0 then 1 else 2) 0 (fillTokens c)).out := by
  unfold fillFrame
  rw [if_neg hl, if_neg hf]
  dsimp only
  rw [modChan_of_some _ (chanOf_writeFrame ..)]
  cases c.bound with
  | none => exact ⟨chanOf_setChan _ _ _, rfl⟩
  | some rid =>
    refine ⟨(chanOf_of_web (modReq_frame _ rid _).2.2 w).trans (chanOf_setChan _ _ _), (modReq_frame _ rid _).2.1⟩

theorem finish_web (s : State) (fn seq : Nat) (st : Status) (c : Cond) (r0 r1 : Nat) : (finish s fn seq st c r0 r1).web = s.web := by
  simp

/-- A channel that closes writes its end frame and is gone, and the commands that wait for it are answered. -/
theorem closeNow_effect (s : State) (w : Nat) (c : Channel) :
    chanOf (closeNow s w c) w = none ∧ ∀ o ∈ (endFrame s w c .cancelled false).out, o ∈ (closeNow s w c).out := by
  unfold closeNow
  refine ⟨?_, fun o ho => ?_⟩
  · exact (chanOf_of_web (foldl_unchanged State.web (fun x e => finish_web ..) _ _) w).trans (endFrame_effect ..).2.1
  · refine List.foldlRecOn (motive := fun x : State => o ∈ x.out) _ _ ho (fun x hx e _ => mem_finish_out hx ..)

/-- Settles O18: a case per frame that `slotAlone` can write. -/
theorem webSlotWritesAFrame : Obligations.WebSlotWritesAFrame := by
  intro w t c s hw hc hg addr
  have hlive : chanOf (advance t s) w = some c := hc
  refine ⟨fun h => (exec_webSlot hw t s).trans (next_congr (webSlotOp_early hlive h)), fun h => ?_⟩
  have hrun : ∀ {v}, slotAlone (advance t s) w c = v → exec (.webSlot w t) s = .next v := fun hv =>
    (exec_webSlot hw t s).trans (next_congr ((webSlotOp_alone hlive h hg).trans hv))
  refine ⟨fun tokens after q hcl hq => ?_, fun hcl hq hf hl => ?_, fun hend => ?_⟩
  · obtain ⟨hch, hout⟩ := writeData_effect (advance t s) w hq
    refine ⟨_, hrun ?_, hch, hout.trans ?_⟩
    · unfold slotAlone
      rw [if_neg (by simp [hcl]), if_pos (by simp [hq])]
    · cases after <;> rfl
  · obtain ⟨hch, hout⟩ := fillFrame_effect (s := advance t s) w (c := c) (by omega) (show ¬(fillLimit s ≠ 0 ∧ fillLimit s ≤ c.run) by omega)
    refine ⟨_, fillTokens c, hrun ?_, hch, hout, fillTokens_repeats⟩
    unfold slotAlone
    rw [if_neg (by simp [hcl]), if_neg (by simp [hq])]
  · have hframe : ∀ st asFill, chanOf (endFrame (advance t s) w c st asFill) w = none
        ∧ .hostWrite c.fn addr (frameOf c.slot 3 0 c.g c.data []) ∈ (endFrame (advance t s) w c st asFill).out := fun st asFill => by
      obtain ⟨hout, hgone, _⟩ := endFrame_effect (advance t s) w c st asFill
      refine ⟨hgone, ?_⟩
      rw [hout]
      exact List.mem_append_right _ (List.mem_singleton.mpr rfl)
    by_cases hcl : c.closing = true
    · obtain ⟨hgone, hmem⟩ := closeNow_effect (advance t s) w c
      exact ⟨_, hrun (if_pos hcl), hgone, hmem _ (hframe .cancelled false).2⟩
    · obtain ⟨hq, hfill⟩ := hend.resolve_left hcl
      have hslot : slotAlone (advance t s) w c = fillFrame (advance t s) w c false := (if_neg hcl).trans (if_neg (by simp [hq]))
      by_cases hl : fillLimit s ≠ 0 ∧ fillLimit s ≤ c.run
      · exact ⟨_, hrun (hslot.trans (if_pos hl)), hframe _ _⟩
      · exact ⟨_, hrun (hslot.trans ((if_neg hl).trans (if_pos (hfill.resolve_right hl)))), hframe _ _⟩

end Sys2Proof.Proofs
/-! # What a fence changes: the fence map, the reports, the step's alarms and the writes of refills -/
namespace Sys2Proof.Proofs

open Sys2Proof.Machine Sys2Proof.Safety Sys2Proof.Laws

/-- The state without the parts that fencing a unit changes. -/
def besidesFence (s : State) : State :=
  { s with
    map := { s.map with fenced := ⟨[], [], []⟩, refills := [], withdrawn := [] }
    faults := { s.faults with reports := [], nextReport := 0, added := false, lost := 0, late := 0, openLate := [], lateNow := [] }
    sched := { s.sched with step := s.sched.step.map (fun k => { k with alarmed := [] }) }
    plates := { s.plates with writing := [] } }

@[simp] theorem besidesFence_markFenced (s : State) (u : UnitId) : besidesFence (markFenced s u) = besidesFence s := rfl

@[simp] theorem besidesFence_failOutstanding (s : State) (u : UnitId) : besidesFence (failOutstanding s u) = besidesFence s := by
  unfold failOutstanding
  cases hk : s.sched.step with
  | none => rfl
  | some k =>
    unfold besidesFence
    rw [hk]
    rfl

@[simp] theorem besidesFence_leaveUnit (s : State) (u : UnitId) : besidesFence (leaveUnit s u) = besidesFence s := rfl

@[simp] theorem besidesFence_assignSpares (rs : List Refill) (s : State) : besidesFence (assignSpares s rs) = besidesFence s := by
  induction rs generalizing s with
  | nil => rfl
  | cons r rs ih => exact ih _

@[simp] theorem besidesFence_reassign (s : State) (u : UnitId) : besidesFence (reassign s u) = besidesFence s :=
  besidesFence_assignSpares _ _

@[simp] theorem besidesFence_addReport (s : State) (r : Report) : besidesFence (addReport s r) = besidesFence s := by
  unfold addReport
  split <;> rfl

@[simp] theorem besidesFence_fenceOne (s : State) (u : UnitId) (cause : Cause) (detail : Nat) :
    besidesFence (fenceOne s u cause detail) = besidesFence s := by
  unfold fenceOne
  split
  · rfl
  · have hleft : besidesFence (leaveUnit (failOutstanding (markFenced s u) u) u) = besidesFence s := by simp
    simp only [besidesFence_addReport, besidesFence_reassign]
    split
    · exact hleft
    · exact hleft

@[simp] theorem besidesFence_fenceStack (s : State) (ps : Nat) (cause : Cause) (detail : Nat) :
    besidesFence (fenceStack s ps cause detail) = besidesFence s :=
  (show besidesFence (withdrawHalf _ ps) = besidesFence _ from rfl).trans (besidesFence_fenceOne ..)

@[simp] theorem besidesFence_fenceRegion (s : State) (rk : Nat) (cause : Cause) (detail : Nat) :
    besidesFence (fenceRegion s rk cause detail) = besidesFence s := by
  unfold fenceRegion
  dsimp only
  split
  · exact (besidesFence_fenceStack ..).trans (besidesFence_fenceOne ..)
  · exact besidesFence_fenceOne ..

@[simp] theorem besidesFence_fenceCore (s : State) (ck : Nat) (cause : Cause) (detail : Nat) :
    besidesFence (fenceCore s ck cause detail) = besidesFence s := by
  unfold fenceCore
  dsimp only
  split
  · exact (besidesFence_fenceRegion ..).trans (besidesFence_fenceOne ..)
  · exact besidesFence_fenceOne ..

@[simp] theorem besidesFence_lateFault (s : State) (u : UnitId) (cause : Cause) (delta : Nat) :
    besidesFence (lateFault s u cause delta) = besidesFence s := by
  have hfaults : ∀ (x : State) (n : Nat), besidesFence (setFaults x (fun f => { f with late := n })) = besidesFence x := fun _ _ => rfl
  have hopen : ∀ (x : State) (l : List UnitId) (m : List (UnitId × Cause × Nat)),
      besidesFence (setFaults x (fun f => { f with openLate := f.openLate ++ l, lateNow := f.lateNow ++ m })) = besidesFence x :=
    fun _ _ _ => rfl
  unfold lateFault alarm
  dsimp only
  split
  · exact (besidesFence_failOutstanding ..).trans (hfaults ..)
  · exact (hopen ..).trans ((besidesFence_failOutstanding ..).trans (hfaults ..))

/-! ## Retiring a plane changes its descriptor besides -/

/-- The state without the parts that fencing any unit changes: retiring a plane writes descriptors. -/
def besidesRetire (s : State) : State := { besidesFence s with arr := { s.arr with desc := [] } }

theorem besidesRetire_of_besidesFence {s u : State} (h : besidesFence u = besidesFence s) : besidesRetire u = besidesRetire s := by
  have ha : u.arr = s.arr := (congrArg State.arr h : _)
  unfold besidesRetire
  rw [h, ha]

@[simp] theorem besidesRetire_setDescState (s : State) (pk st : Nat) : besidesRetire (setDescState s pk st) = besidesRetire s := rfl

@[simp] theorem besidesRetire_retirePlane (s : State) (pk : Nat) (cause : Cause) : besidesRetire (retirePlane s pk cause) = besidesRetire s := by
  have hmap : ∀ (x : State) (l : List Refill), besidesRetire { x with map := { x.map with refills := l } } = besidesRetire x := fun _ _ => rfl
  have hreport : ∀ (x : State) (r : Report), besidesRetire (addReport x r) = besidesRetire x := fun x r =>
    besidesRetire_of_besidesFence (besidesFence_addReport x r)
  have hcore : ∀ x : State, besidesRetire (fenceCore (markFenced x (unitOfTile (planeTile pk))) (planeCore pk) cause 0) = besidesRetire x :=
    fun x => besidesRetire_of_besidesFence ((besidesFence_fenceCore ..).trans (besidesFence_markFenced ..))
  unfold retirePlane
  extract_lets tk s1 s2 s3
  have h2 : besidesRetire s2 = besidesRetire s := by
    dsimp only [s2]
    split
    · exact (hmap _ _).trans ((besidesRetire_setDescState ..).trans (besidesRetire_setDescState ..))
    · exact besidesRetire_setDescState ..
  have h3 : besidesRetire s3 = besidesRetire s := (hreport ..).trans h2
  split
  · exact (hcore s3).trans h3
  · exact h3

@[simp] theorem besidesRetire_fenceUnitOp (s : State) (u : UnitId) (cause : Cause) (detail : Nat) :
    besidesRetire (fenceUnitOp s u cause detail) = besidesRetire s := by
  cases u with
  | module => rfl
  | stack p => exact besidesRetire_of_besidesFence (besidesFence_fenceStack s p cause detail)
  | region p g => exact besidesRetire_of_besidesFence (besidesFence_fenceRegion s (regionKey p g) cause detail)
  | core p g c => exact besidesRetire_of_besidesFence (besidesFence_fenceCore s (coreKey p g c) cause detail)
  | tile p g c t => exact
      besidesRetire_of_besidesFence ((besidesFence_fenceCore _ (coreKey p g c) cause detail).trans (besidesFence_markFenced s (.tile p g c t)))
  | plane p g c t n => exact besidesRetire_retirePlane s (planeKey (tileKey (coreKey p g c) t) n) cause

@[simp] theorem besidesRetire_fenceFor (s : State) (u : UnitId) (cause : Cause) (detail : Nat) :
    besidesRetire (fenceFor s u cause detail) = besidesRetire s := by
  unfold fenceFor
  split
  · rfl
  · dsimp only
    split
    · exact (besidesRetire_of_besidesFence (besidesFence_lateFault ..)).trans (besidesRetire_fenceUnitOp ..)
    · exact besidesRetire_fenceUnitOp ..

/-! ## A fenced unit stays fenced -/

theorem mem_addOnce {α : Type} [DecidableEq α] {l : List α} {x y : α} : y ∈ addOnce l x ↔ y = x ∨ y ∈ l := by
  unfold addOnce
  split
  next h => exact ⟨Or.inr, fun hy => hy.elim (fun e => e ▸ h) id⟩
  next => simp [or_comm]

/-- A unit is fenced when two copies of the fence map name it. -/
theorem mem_fencedUnits {s : State} {u : UnitId} :
    u ∈ fencedUnits s ↔ (u ∈ s.map.fenced.a ∧ (u ∈ s.map.fenced.b ∨ u ∈ s.map.fenced.c)) ∨ (u ∈ s.map.fenced.b ∧ u ∈ s.map.fenced.c) := by
  unfold fencedUnits
  simp only [List.mem_append, List.mem_filter, Bool.or_eq_true, Bool.and_eq_true, decide_eq_true_eq]
  tauto

theorem mem_fencedUnits_of_fenced {s u : State} (h : u.map.fenced = s.map.fenced) {v : UnitId} (hv : v ∈ fencedUnits s) : v ∈ fencedUnits u := by
  rw [mem_fencedUnits] at hv ⊢
  rw [h]
  exact hv

theorem mem_fencedUnits_markFenced {s : State} {u v : UnitId} (h : v = u ∨ v ∈ fencedUnits s) : v ∈ fencedUnits (markFenced s u) := by
  have hm : (markFenced s u).map.fenced = ⟨addOnce s.map.fenced.a u, addOnce s.map.fenced.b u, addOnce s.map.fenced.c u⟩ := rfl
  rw [mem_fencedUnits, hm]
  simp only [mem_addOnce]
  rcases h with rfl | h
  · exact Or.inl ⟨Or.inl rfl, Or.inl (Or.inl rfl)⟩
  · rw [mem_fencedUnits] at h
    tauto

theorem failOutstanding_map (s : State) (u : UnitId) : (failOutstanding s u).map = s.map := by
  unfold failOutstanding
  split <;> rfl

theorem assignSpares_fenced (rs : List Refill) (s : State) : (assignSpares s rs).map.fenced = s.map.fenced := by
  induction rs generalizing s with
  | nil => rfl
  | cons r rs ih => exact ih _

theorem addReport_map (s : State) (r : Report) : (addReport s r).map = s.map := by
  unfold addReport
  split <;> rfl

theorem mem_fencedUnits_fenceOne {s : State} {u v : UnitId} (cause : Cause) (detail : Nat) (h : v = u ∨ v ∈ fencedUnits s) :
    v ∈ fencedUnits (fenceOne s u cause detail) := by
  unfold fenceOne
  split
  next hu => exact h.elim (fun e => e ▸ hu) id
  next =>
    refine mem_fencedUnits_of_fenced ?_ (mem_fencedUnits_markFenced h)
    rw [addReport_map]
    refine (assignSpares_fenced ..).trans ?_
    have hleft : (leaveUnit (failOutstanding (markFenced s u) u) u).map.fenced = (markFenced s u).map.fenced :=
      (congrArg MapBlk.fenced (failOutstanding_map (markFenced s u) u) : _)
    dsimp only
    split
    · exact hleft
    · exact hleft

theorem mem_fencedUnits_fenceStack {s : State} {v : UnitId} (ps : Nat) (cause : Cause) (detail : Nat) (h : v ∈ fencedUnits s) :
    v ∈ fencedUnits (fenceStack s ps cause detail) :=
  mem_fencedUnits_of_fenced (s := fenceOne s (.stack ps) cause detail) rfl (mem_fencedUnits_fenceOne cause detail (Or.inr h))

theorem mem_fencedUnits_fenceRegion {s : State} {v : UnitId} (rk : Nat) (cause : Cause) (detail : Nat)
    (h : v = unitOfRegion rk ∨ v ∈ fencedUnits s) : v ∈ fencedUnits (fenceRegion s rk cause detail) := by
  have hone := mem_fencedUnits_fenceOne cause detail h
  unfold fenceRegion
  dsimp only
  split
  · exact mem_fencedUnits_fenceStack _ _ _ hone
  · exact hone

theorem mem_fencedUnits_fenceCore {s : State} {v : UnitId} (ck : Nat) (cause : Cause) (detail : Nat)
    (h : v = unitOfCore ck ∨ v ∈ fencedUnits s) : v ∈ fencedUnits (fenceCore s ck cause detail) := by
  have hone := mem_fencedUnits_fenceOne cause detail h
  unfold fenceCore
  dsimp only
  split
  · exact mem_fencedUnits_fenceRegion _ _ _ (Or.inr hone)
  · exact hone

theorem lateFault_map (s : State) (u : UnitId) (cause : Cause) (delta : Nat) : (lateFault s u cause delta).map = s.map := by
  unfold lateFault alarm
  dsimp only
  split
  · exact failOutstanding_map ..
  · exact failOutstanding_map (setFaults s (fun f => { f with late := satAdd 32 f.late 1 })) u

/-- A core that is to be fenced is fenced. -/
theorem unitFenced_fenceFor_core (s : State) (ck : Nat) (cause : Cause) (detail : Nat) :
    unitFenced (fenceFor s (unitOfCore ck) cause detail) (unitOfCore ck) = true := by
  unfold fenceFor
  split
  next h => exact h
  next =>
    have hop : fenceUnitOp s (unitOfCore ck) cause detail = fenceCore s ck cause detail :=
      congrArg (fenceCore s · cause detail) (coreKey_fields ck)
    have hmem : unitOfCore ck ∈ fencedUnits (fenceUnitOp s (unitOfCore ck) cause detail) := by
      rw [hop]
      exact mem_fencedUnits_fenceCore ck cause detail (Or.inl rfl)
    unfold unitFenced
    refine Bool.or_eq_true_iff.mpr (Or.inl (decide_eq_true ?_))
    dsimp only
    split
    · exact mem_fencedUnits_of_fenced (congrArg MapBlk.fenced (lateFault_map ..)) hmem
    · exact hmem

end Sys2Proof.Proofs
/-! # The plate and forme commands -/
namespace Sys2Proof.Proofs

open Sys2Proof.Machine Sys2Proof.Safety Sys2Proof.Laws

/-! ## Retiring the plane that waits -/

theorem fenceCore_frame (s : State) (ck : Nat) (cause : Cause) (detail : Nat) :
    (fenceCore s ck cause detail).plates.waiting = s.plates.waiting ∧ (fenceCore s ck cause detail).plates.nSpare = s.plates.nSpare
      ∧ (fenceCore s ck cause detail).cmdq = s.cmdq := by
  have h := besidesFence_fenceCore s ck cause detail
  exact ⟨(congrArg (fun x : State => x.plates.waiting) h : _), (congrArg (fun x : State => x.plates.nSpare) h : _),
    (congrArg State.cmdq h : _)⟩

theorem exists_modFirst {p q : CmdEntry → Bool} {f : CmdEntry → CmdEntry} (hf : ∀ a, q a = true → q (f a) = true) {l : List CmdEntry}
    (h : ∃ a ∈ l, q a = true) : ∃ a ∈ modFirst p f l, q a = true := by
  induction l with
  | nil => exact h
  | cons b r ih =>
    unfold modFirst
    simp only [List.mem_cons, exists_eq_or_imp] at h
    by_cases hb : p b = true
    · rw [if_pos hb]
      simp only [List.mem_cons, exists_eq_or_imp]
      exact h.imp (hf b) id
    · rw [if_neg hb]
      simp only [List.mem_cons, exists_eq_or_imp]
      exact h.imp id ih

/-- A command is still found when some command begins to wait. -/
theorem findCmd_setWait_any {s : State} (g n : Nat) {w : Wait} (hw : ∀ r, w ≠ .replyRoom r) {fn seq : Nat}
    (h : ∃ e, findCmd s fn seq = some e) : ∃ e, findCmd (setWait s g n w) fn seq = some e := by
  simp only [findCmd, ← Option.isSome_iff_exists, List.find?_isSome] at h ⊢
  refine exists_modFirst (fun e he => ?_) h
  simp only [sameCmd, Bool.and_eq_true] at he ⊢
  refine ⟨he.1, ?_⟩
  cases w <;> simp_all [entryDone, roomReply]

theorem moveDefectWait_some_eq (s : State) (pk sp : Nat) :
    moveDefectWait s pk (some sp)
      = (s.cmdq.filter (fun e => e.wait == .defect pk)).foldl (fun x e => setWait x e.hdr.fn e.hdr.seq (.defect sp)) s := rfl

theorem moveDefectWait_plates (s : State) (pk sp : Nat) : (moveDefectWait s pk (some sp)).plates = s.plates := by
  rw [moveDefectWait_some_eq]
  exact foldl_unchanged State.plates (by intros; rfl) _ s

/-- A command that waits for a plane written in place of a retired one is still found. -/
theorem findCmd_moveDefectWait {s : State} (pk sp : Nat) {fn seq : Nat} (h : ∃ e, findCmd s fn seq = some e) :
    ∃ e, findCmd (moveDefectWait s pk (some sp)) fn seq = some e := by
  rw [moveDefectWait_some_eq]
  exact List.foldlRecOn (motive := fun x => ∃ e, findCmd x fn seq = some e) _ _ h
    (fun x hx c _ => findCmd_setWait_any _ _ (by simp) hx)

/-- Retiring a plane that waits queues its record for the spare plane. -/
theorem spareAway_effect {s : State} {pk sp : Nat} {r : PlaneRecord} (h : (spareAway s pk r).2 = some sp) :
    tfind (spareAway s pk r).1.plates.writing sp = some (some r) ∧ tfind (spareAway s pk r).1.plates.waiting pk = none
      ∧ (spareAway s pk r).1.plates.nSpare = satAdd 8 s.plates.nSpare 1
      ∧ ∀ fn seq, (∃ e, findCmd s fn seq = some e) → ∃ e, findCmd (spareAway s pk r).1 fn seq = some e := by
  have hwrite : ∀ u : State, u.plates.waiting = tdel s.plates.waiting pk → u.plates.nSpare = satAdd 8 s.plates.nSpare 1 →
      u.cmdq = s.cmdq → let v := beginWrite (moveDefectWait u pk (some sp)) sp (some r)
      tfind v.plates.writing sp = some (some r) ∧ tfind v.plates.waiting pk = none ∧ v.plates.nSpare = satAdd 8 s.plates.nSpare 1
        ∧ ∀ fn seq, (∃ e, findCmd s fn seq = some e) → ∃ e, findCmd v fn seq = some e := by
    intro u hw hn hq v
    have hp := moveDefectWait_plates u pk sp
    refine ⟨tfind_tput_same _ _ _, ?_, ?_, fun fn seq he => ?_⟩
    · have hv : v.plates.waiting = (moveDefectWait u pk (some sp)).plates.waiting := rfl
      rw [hv, hp, hw]
      exact tfind_tdel_same _ _
    · have hv : v.plates.nSpare = (moveDefectWait u pk (some sp)).plates.nSpare := rfl
      rw [hv, hp, hn]
    · refine findCmd_moveDefectWait (s := u) pk sp ?_
      unfold findCmd
      rw [hq]
      exact he
  revert h
  unfold spareAway
  dsimp only
  split
  · intro h
    cases h
  · intro h
    injection h with h
    subst h
    split
    all_goals
      split
      · obtain ⟨h1, h2, h3⟩ := fenceCore_frame (markFenced _ (unitOfTile (planeTile pk))) (planeCore pk) .none 0
        exact hwrite _ h1 h2 h3
      · exact hwrite _ rfl rfl rfl

/-! ## Settling the DMA credits -/

/-- The state without what settling the DMA credits changes: the regions, the free outward writes, the working area and the write slots. -/
def besidesCredits (s : State) : State :=
  { s with regions := [], out := [], plates := { s.plates with wants := [], slots := [], area := [] } }

theorem besidesCredits_fillSlots (s : State) : besidesCredits (fillSlots s) = besidesCredits s := rfl

theorem besidesCredits_settleArea (s : State) (want : List DmaUser) : besidesCredits (settleArea s want) = besidesCredits s := by
  have harea : ∀ (x : State) (l : List DmaUser), besidesCredits (setPlates x (fun b => { b with area := l })) = besidesCredits x :=
    fun _ _ => rfl
  have hwants : ∀ (x : State) (l : List Nat), besidesCredits (setPlates x (fun b => { b with wants := l })) = besidesCredits x :=
    fun _ _ => rfl
  exact (harea _ _).trans ((besidesCredits_fillSlots _).trans (hwants _ _))

theorem besidesCredits_settleDma (s : State) : besidesCredits (settleDma s) = besidesCredits s := by
  have hread : ∀ (x : State) (b : Bool) (ld : Load) (n : Nat), besidesCredits x = besidesCredits s →
      besidesCredits (if b = true then sendRecordRead x ld n else x) = besidesCredits s := fun x b ld n hx => by
    cases b <;> exact hx
  have hregs : ∀ (want : List DmaUser) (f : Nat → Region → Region) (rs : List Nat),
      besidesCredits (rs.foldl (fun y rk => modRegion y rk (f rk)) (settleArea s want)) = besidesCredits s := fun want f rs =>
    (foldl_unchanged besidesCredits (by intros; rfl) rs _).trans (besidesCredits_settleArea s want)
  unfold settleDma
  dsimp only
  split
  · split
    · exact hread _ _ _ _ (hread _ _ _ _ (hregs ..))
    · exact hread _ _ _ _ (hregs ..)
  · split
    · exact hread _ _ _ _ (hregs ..)
    · exact hregs ..

/-- Asking for a part of an image leaves the plates but for the working area and the write slots. -/
theorem readPart_frame (s : State) (ld : Load) :
    (readPart s ld).plates = { s.plates with wants := (readPart s ld).plates.wants, slots := (readPart s ld).plates.slots,
                                             area := (readPart s ld).plates.area }
      ∧ (readPart s ld).arr = s.arr := by
  unfold readPart
  split
  · have h := besidesCredits_settleDma (endTransfer s .change)
    refine ⟨?_, (congrArg State.arr h : _)⟩
    have hp : ({ (settleDma (endTransfer s .change)).plates with wants := [], slots := [], area := [] } : PlateBlk)
        = { s.plates with wants := [], slots := [], area := [] } := congrArg State.plates h
    generalize (settleDma (endTransfer s .change)).plates = b at hp ⊢
    generalize s.plates = c at hp ⊢
    cases b
    cases c
    simp only [PlateBlk.mk.injEq] at hp ⊢
    grind
  · exact ⟨rfl, rfl⟩

/-- An image's first part is asked for from its source. -/
theorem readPart_first {s : State} {ld : Load} (hl : s.plates.load = some ld) (hp : ld.part = 0) :
    readPart s ld = emit s (.sourceRead (sourceOf ld.par) ld.par.addr) := by
  have hnone : changeRegion s = none := by
    unfold changeRegion changeRecord
    rw [hl]
    simp [hp]
  have haddr : partAddr s ld.par ld.image ld.part ld.next = ld.par.addr := by rw [hp]; rfl
  unfold readPart
  rw [hnone, haddr]
  exact if_neg (by simp)

/-- The load that PLATE_LOAD begins. -/
def newLoad (h : Hdr) (p : LoadParams) : Load :=
  { fn := h.fn, seq := h.seq, par := p, image := default, part := 0, next := 0, last := none, written := [], attempts := 0,
    authenticated := false }

/-- The last part before the payload starts the payload. -/
theorem imagePartOp_binding (s : State) {ld : Load} (hp : ld.part = 3) (bytes : List Byte) (ok : Bool) (addrs : List (Nat × Nat)) :
    imagePartOp s ld (.binding bytes ok addrs)
      = startPayload (setPlates s (fun b => { b with load := some { ld with image := withBinding ld.image bytes ok addrs, part := 4, attempts := 0 } }))
          { ld with image := withBinding ld.image bytes ok addrs, part := 4, attempts := 0 } := by
  cases ld
  subst hp
  rfl

/-- A payload whose image passes and whose planes are found claims them and asks for the first record. -/
theorem startPayload_claims {s : State} {ld : Load} {m : Tbl Nat} (hi : imageStatus s ld.par ld.image = none)
    (hm : claimAll s ld.par.inPlace (imagePlanes ld.image) s.plates.claims = some m) :
    startPayload s ld = readPart (setPlates (noteFailed s ld.image.imageId none) (fun b =>
        { b with claims := m, load := some ld, loadPlanes := imagePlanes ld.image })) ld := by
  unfold startPayload
  rw [hi]
  dsimp only
  rw [hm]

/-- Settles O11: the DMA credits that a load settles leave the plates but for the slots, and retiring a plane keeps its command. -/
theorem plateCommandsComplete : Obligations.PlateCommandsComplete := by
  intro h t s
  refine ⟨fun p ha hd hr hp => ?_, fun e ld bytes ok addrs m hfn hth he hw hl hlf hls hpart hauth => ?_, fun id p ha hp => ?_, fun slot a ha => ?_,
    fun slot a n ha hn _ => ?_, fun id so peer a p ha hp hok => ?_, fun w pk r sp left ha hpk hleft hr hsp => ?_⟩
  · intro s1
    have hop : plateLoadOp h p s1
        = setWait (emit (setPlates s1 (fun b => { b with load := some (newLoad h p), progress := 0, loadPlanes := [] }))
            (.sourceRead (sourceOf p) p.addr)) h.fn h.seq .load := by
      unfold plateLoadOp
      have hbusy : ¬(s1.plates.draining.isSome || s1.plates.rewriting) = true := by simp [s1, hd, hr]
      have hpeer : ¬(!peerOk s1 p.source p.peer) = true := by
        have hq : s1.ql = s.ql := entered_ql h (.plateLoad p) t s
        unfold peerOk at hp ⊢
        rw [hq, hp]
        decide
      rw [if_neg hbusy, if_neg hpeer]
      exact congrArg (setWait · h.fn h.seq .load) (readPart_first rfl rfl)
    obtain ⟨e, he, _⟩ := findCmd_mayStart ha.2.1
    exact ⟨_, _, (runCmd_admitted ha _).trans (next_congr hop), rfl, rfl, rfl, rfl, rfl, rfl, rfl, ⟨_, findCmd_setWait (e := e) he (by simp), rfl⟩, rfl⟩
  · intro ld1 s1 hi hm
    have hop : readCompleteOp (advance t s) h.fn h.seq (.binding bytes ok addrs) = startPayload s1 ld1 := by
      have he' : findCmd (advance t s) h.fn h.seq = some e := he
      have hl' : (advance t s).plates.load = some ld := hl
      unfold readCompleteOp
      rw [he']
      dsimp only
      rw [if_neg (show ¬(advance t s).therm.stopping.isSome = true from by rw [show (advance t s).therm.stopping = none from hth]; decide),
        if_neg (by simp [hw]), hl']
      dsimp only
      rw [if_pos (by simp [hw, hlf, hls])]
      exact imagePartOp_binding _ hpart ..
    obtain ⟨hpl, harr⟩ := readPart_frame (setPlates (noteFailed s1 ld1.image.imageId none) (fun b =>
        { b with claims := m, load := some ld1, loadPlanes := imagePlanes ld1.image })) ld1
    exact ⟨_, (if_pos hfn).trans (next_congr (hop.trans (startPayload_claims hi hm))), hpl, harr⟩
  · have hc : committedPlate (entered h (.plateRelease id) t s) id = some p := by
      unfold committedPlate
      rw [entered_plates]
      exact hp
    refine (runCmd_admitted ha _).trans (next_congr ?_)
    unfold plateReleaseOp
    rw [hc]
  · exact (runCmd_admitted ha _).trans (next_congr (if_pos rfl))
  · exact (runCmd_admitted ha _).trans (next_congr (if_neg hn))
  · have hc : committedPlate (entered h (.plateSourceSet id so peer a) t s) id = some p := by
      unfold committedPlate
      rw [entered_plates]
      exact hp
    have hgo : ¬((committedPlate (entered h (.plateSourceSet id so peer a) t s) id).isNone
        || !peerOk (entered h (.plateSourceSet id so peer a) t s) so peer) = true := by
      have hpeer : peerOk (entered h (.plateSourceSet id so peer a) t s) so peer = true := by
        unfold peerOk at hok ⊢
        rw [entered_ql]
        exact hok
      rw [hc, hpeer]
      simp
    refine ⟨_, (runCmd_admitted ha _).trans (next_congr (if_neg hgo)), ?_, ?_⟩
    · rw [replyOk_plates]
      exact congrArg (fun b : PlateBlk => { b with table := b.table.map (fun q : Plate =>
        if q.imageId = id then { q with source := so, peer := peer, addr := a } else q) }) (entered_plates ..)
    · rw [replyOk_map, hc]
      exact congrArg (fun b : MapBlk => { b with refills := b.refills.map (fun r : Refill =>
        if r.planes.any (· ∈ p.planes) then { r with blocked := false, attempts := 0 } else r) }) (entered_map ..)
  · obtain ⟨hwr, hwait, hns, hfind⟩ := spareAway_effect hsp
    have hop : defectAcceptOp h w (entered h (.plateDefectAccept w) t s)
        = setWait (spareAway (entered h (.plateDefectAccept w) t s) pk r).1 h.fn h.seq (.defect sp) := by
      unfold defectAcceptOp
      rw [entered_plates, hpk]
      dsimp only
      rw [hleft, hr]
      dsimp only
      generalize spareAway (entered h (.plateDefectAccept w) t s) pk r = x at hsp ⊢
      obtain ⟨s1, o⟩ := x
      subst hsp
      rfl
    obtain ⟨e, he, _⟩ := findCmd_mayStart ha.2.1
    obtain ⟨e', he'⟩ := hfind h.fn h.seq ⟨e, he⟩
    rw [entered_plates] at hns
    have hpl : ∀ x : State, (setWait x h.fn h.seq (.defect sp)).plates = x.plates := fun _ => rfl
    refine ⟨_, (runCmd_admitted ha _).trans (next_congr hop), ?_⟩
    rw [hpl]
    exact ⟨hwr, hwait, hns, _, findCmd_setWait (e := e') he' (by simp), rfl⟩

end Sys2Proof.Proofs
/-! # Resets: what a cold and a warm reset reach -/
namespace Sys2Proof.Proofs

open Sys2Proof.Machine Sys2Proof.Safety Sys2Proof.Laws

/-! ## Ending a plate change leaves the non-volatile, always-on and reset state -/

/-- What outlasts the end of a plate change: flash, the always-on domain, the reset state and the time. -/
def lasting (s : State) : FlashBlk × AonBlk × RstBlk × TimeBlk := (s.nv, s.aon, s.rst, s.time)

theorem lasting_finish (s : State) (fn seq : Nat) (st : Status) (c : Cond) (r0 r1 : Nat) : lasting (finish s fn seq st c r0 r1) = lasting s := by
  simp [lasting]

theorem lasting_freeTarget (s : State) (pk : Nat) : lasting (freeTarget s pk) = lasting s := by
  unfold freeTarget
  dsimp only
  split <;> rfl

theorem lasting_freeTargets (ls : List Nat) (s : State) : lasting (ls.foldl freeTarget s) = lasting s :=
  foldl_unchanged lasting lasting_freeTarget ls s

theorem lasting_dropClaims (s : State) (ls : List Nat) : lasting (dropClaims s ls) = lasting s :=
  lasting_freeTargets _ s

theorem lasting_failLoad (s : State) (st : Status) : lasting (failLoad s st) = lasting s := by
  unfold failLoad
  split
  · rfl
  next ld _ =>
    refine (lasting_finish ..).trans ?_
    have hnote : ∀ (u : State) (b : Prop) [Decidable b] (i : Nat), lasting (if b then u else noteFailed u i (some st)) = lasting u := fun u b _ i => by
      split <;> rfl
    refine (hnote ..).trans ?_
    have hclaims : ∀ (u v : State) (b : Bool), lasting v = lasting u → lasting u = lasting s →
        lasting (setPlates (if b = true then u else v) (fun b => { b with load := none })) = lasting s := fun u v b h hu => by
      cases b
      · exact h.trans hu
      · exact hu
    exact hclaims _ _ _ (lasting_dropClaims (endTransfer s .change) _) rfl

theorem lasting_stopCommands (s : State) (id : Nat) : lasting (stopCommands s id) = lasting s :=
  foldl_unchanged lasting (fun _ _ => lasting_finish ..) _ s

theorem lasting_setPlates (s : State) (f : PlateBlk → PlateBlk) : lasting (setPlates s f) = lasting s := rfl

theorem lasting_closeTxn (s : State) (d : Nat) (v : Option Txn) : lasting (releaseHeld (putTxn s d v)) = lasting s := rfl

theorem lasting_distribute (s : State) (d : Nat) : lasting (distribute s d) = lasting s := by
  unfold distribute
  split
  · rfl
  next x _ =>
    have hload : lasting (stopCommands (if d = 1 then failLoad s .txnNotOpen else s) x.id) = lasting s := by
      refine (lasting_stopCommands ..).trans ?_
      split
      · exact lasting_failLoad ..
      · rfl
    refine (lasting_closeTxn ..).trans ?_
    generalize stopCommands (if d = 1 then failLoad s .txnNotOpen else s) x.id = u at hload ⊢
    split
    · exact (lasting_setPlates ..).trans ((lasting_dropClaims ..).trans hload)
    · exact hload

theorem lasting_endChange (s : State) (st : Status) : lasting (endChange s st) = lasting s := by
  unfold endChange
  split
  · rfl
  next x _ =>
    have hend : ∀ (u : State) (l : Tbl Forme), lasting (releaseHeld (putTxn { u with formes := l } 1 none)) = lasting u := fun _ _ => rfl
    have hdone := fun (f : PlateBlk → PlateBlk) (l : List Nat) (g : Tbl Forme) =>
      (hend (setPlates (dropClaims s l) f) g).trans ((lasting_setPlates ..).trans (lasting_dropClaims s l))
    dsimp only
    split
    · exact (lasting_finish ..).trans (hdone ..)
    · exact hdone ..

theorem lasting_resetPlates (cold : Bool) (s : State) : lasting (resetPlates cold s) = lasting s := by
  have hfree : ∀ u : State, lasting u = lasting s →
      lasting ((u.plates.writing.map (fun (e : Nat × Option PlaneRecord) => e.1) ++ u.plates.testPlanes).foldl freeTarget u) = lasting s :=
    fun u hu => (lasting_freeTargets _ u).trans hu
  unfold resetPlates
  dsimp only
  split
  · exact hfree _ rfl
  · split
    · exact hfree _ rfl
    · split
      · exact hfree _ (lasting_endChange ..)
      · exact hfree _ (lasting_distribute ..)

/-! ## The start of a reset -/

/-- The state that a reset counts, before what it reaches is reset. -/
def countedReset (s : State) (x : Src) : State := countReset (if s.rst.phase = .loading then countAbort s else s) x

/-- The state of a reset that has just started, without its pins. -/
def startedReset (s : State) (x : Src) : State :=
  let s3 := reach (!isWarm x) (countedReset s x)
  { s3 with
    rst := { s3.rst with phase := .inReset, sources := [x], started := now s, warmAt := none, cold := !isWarm x,
                         fresh := !isWarm x || s.rst.fresh },
    aon := { s3.aon with sources := [x], limp := s.rst.phase = .limp, vbkLost := false } }

theorem beginReset_starts {s : State} {x : Src} (hr : s.rst.phase ≠ .inReset) (hl : s.rst.phase ≠ .latched) (hs : s.therm.stopping = none) :
    beginReset s x = setPins (startedReset s x) (resetPinList (startedReset s x) (!isWarm x) (uplinkOf s)) := by
  unfold beginReset
  simp only [hr, hl, hs, or_self, false_and, Option.isSome_none, Bool.false_eq_true, and_false, if_false, decide_false, Bool.false_and,
    Bool.or_false]
  rfl

/-- A further source joins a reset in progress. -/
theorem beginReset_joins {s : State} {x : Src} (hr : s.rst.phase = .inReset) (hx : x ∉ s.rst.sources) :
    (beginReset s x).rst.sources = s.rst.sources ++ [x] ∧ (beginReset s x).rst.started = s.rst.started
      ∧ (beginReset s x).rst.phase = .inReset := by
  unfold beginReset
  simp [hr, hx, setPins, addOnce]

theorem bumpAt_getD {l : List Nat} {i j : Nat} (hl : l.length = 7) (hj : j < 7) :
    (bumpAt l i).getD j 0 = if j = i then min (l.getD j 0 + 1) 65535 else l.getD j 0 := by
  unfold bumpAt
  rw [List.getD_eq_getElem _ _ (by simpa [hl] using hj)]
  simp [satAdd]

theorem lasting_setOpts (l : List Nat) (f g : Nat → Nat) (s : State) : lasting (l.foldl (fun y i => setOpt y (f i) (g i)) s) = lasting s :=
  foldl_unchanged lasting (by intros; rfl) l s

theorem lasting_coldOptions (s : State) : lasting (coldOptions s) = lasting s := by
  unfold coldOptions
  dsimp only
  split
  · rfl
  · exact foldl_unchanged lasting (by intros; exact lasting_setOpts _ _ _ _) _ (setOpt { s with opts := ⟨[], [], []⟩ } Off.ql _)

theorem lasting_coldPart (cold : Bool) (s : State) :
    lasting (if cold = true then coldOptions (resetPlates cold s) else resetPlates cold s) = lasting s := by
  split
  · exact (lasting_coldOptions _).trans (lasting_resetPlates ..)
  · exact lasting_resetPlates ..

/-- A reset does not move the time. -/
theorem reach_base (cold : Bool) (s : State) : (reach cold s).time.base = s.time.base := by
  have h := congrArg (fun x => x.2.2.2.base) (lasting_coldPart cold s)
  cases cold <;> exact h

/-- What a reset reaches is neither flash nor the always-on domain. -/
theorem reach_lasting (cold : Bool) (s : State) :
    (reach cold s).nv = s.nv ∧ (reach cold s).aon = s.aon ∧ (reach cold s).rst.calDone = (!cold && s.rst.calDone) := by
  have h := lasting_coldPart cold s
  refine ⟨(congrArg Prod.fst h : _), (congrArg (fun x => x.2.1) h : _), ?_⟩
  have hc := congrArg (fun x => x.2.2.1.calDone) h
  exact congrArg (fun b => !cold && b) hc

theorem mem_of_tfind {α : Type} {m : Tbl α} {k : Nat} {v : α} (h : tfind m k = some v) : (k, v) ∈ m := by
  induction m with
  | nil => cases h
  | cons e r ih =>
    obtain ⟨k', w⟩ := e
    unfold tfind at h
    split at h
    next hk =>
      cases h
      exact hk ▸ List.mem_cons_self
    next => exact List.mem_cons_of_mem _ (ih h)

theorem tget_of_forall {α : Type} {d : α} {m : Tbl α} {p : α → Prop} (hd : p d) (h : ∀ e ∈ m, p e.2) (k : Nat) : p (tget d m k) := by
  unfold tget
  cases hf : tfind m k with
  | none => exact hd
  | some v => exact h (k, v) (mem_of_tfind hf)

/-- No tile has an engaged plane after a reset. -/
theorem reach_engaged (cold : Bool) (s : State) (ck tile : Nat) : (tileOf (coreOf (reach cold s) ck) tile).engaged = none := by
  have hcore : (coreOf (reach cold s) ck).tiles = [] := by
    refine tget_of_forall (p := fun c : Core => c.tiles = []) rfl (fun e he => ?_) ck
    obtain ⟨c, _, rfl⟩ := List.mem_map.mp (List.mem_filter.mp he).1
    cases cold <;> rfl
  unfold tileOf
  rw [hcore]
  rfl

/-- What a cold reset does not reach of the blocks it empties by filtering: nothing. -/
theorem filter_map_default {α β : Type} [DecidableEq β] (d : β) (f : α → Nat) (l : List α) :
    (l.map (fun e => (f e, d))).filter (fun e => decide (e.2 ≠ d)) = [] := by
  simp [List.filter_eq_nil_iff]

theorem coldOptions_plates (s : State) : (coldOptions s).plates = s.plates ∧ (coldOptions s).formes = s.formes := by
  have h : (fun x : State => (x.plates, x.formes)) (coldOptions s) = (s.plates, s.formes) := by
    unfold coldOptions
    dsimp only
    split
    · rfl
    next r _ =>
      exact foldl_unchanged (fun x : State => (x.plates, x.formes)) (fun x e =>
        foldl_unchanged (fun y : State => (y.plates, y.formes)) (by intros; rfl) (List.range 8) x) r.peerKeys
        (setOpt { s with opts := ⟨[], [], []⟩ } Off.ql _)
  exact ⟨congrArg Prod.fst h, congrArg Prod.snd h⟩

/-- A cold reset empties every block that it reaches. -/
theorem reach_cold {cold : Bool} (hc : cold = true) (s : State) :
    (reach cold s).fns = [] ∧ (reach cold s).tenants = [] ∧ (reach cold s).formes = [] ∧ (reach cold s).plates = {} ∧ (reach cold s).kv = {} := by
  subst hc
  obtain ⟨hp, hf⟩ := coldOptions_plates (resetPlates true s)
  exact ⟨filter_map_default _ _ _, rfl, hf, hp, rfl⟩

/-! ## The cold sources -/

theorem countedReset_frame (s : State) (x : Src) :
    (countedReset s x).nv = s.nv ∧ (countedReset s x).aon.thermLatch = s.aon.thermLatch ∧ (countedReset s x).aon.errorLog = s.aon.errorLog
      ∧ (countedReset s x).rst = s.rst ∧ (countedReset s x).aon.totalAborts
          = (if s.rst.phase = .loading then min (s.aon.totalAborts + 1) 65535 else s.aon.totalAborts)
      ∧ (countedReset s x).aon.counts = ⟨bumpAt s.aon.counts.a (srcCode x), bumpAt s.aon.counts.b (srcCode x), bumpAt s.aon.counts.c (srcCode x)⟩ := by
  unfold countedReset
  split <;> exact ⟨rfl, rfl, rfl, rfl, rfl, rfl⟩

/-- Settles O27: a cold source joins a reset in progress or starts one, which counts it and reaches everything but flash and the
always-on domain. -/
theorem coldResets : Obligations.ColdResets := by
  intro x t s hx
  have hexec : exec (if x = .por then .por t else .perst t) s = .next (beginReset (advance t s) x) := by
    rcases hx with rfl | rfl <;> rfl
  have hcold : isWarm x = false := by rcases hx with rfl | rfl <;> rfl
  rw [hexec]
  refine ⟨fun hr hmem => next_congr (if_pos ⟨Or.inl hr, hmem⟩), fun hr hmem => ?_, fun ha hr hl hst => ?_⟩
  · exact ⟨_, rfl, beginReset_joins (s := advance t s) hr hmem⟩
  · refine ⟨_, rfl, ?_⟩
    rw [beginReset_starts (s := advance t s) hr hl hst]
    have hc : (!isWarm x) = true := by rw [hcold]; rfl
    obtain ⟨⟨hla, hlb, hlc⟩, _⟩ := ha
    obtain ⟨hnv, htl, hlog, _, hab, hcnt⟩ := countedReset_frame (advance t s) x
    obtain ⟨hnv', haon, hcal⟩ := reach_lasting (!isWarm x) (countedReset (advance t s) x)
    obtain ⟨hfns, hten, hfor, hpl, hkv⟩ := reach_cold hc (countedReset (advance t s) x)
    have hcounts : ∀ i, i < 7 → (reach (!isWarm x) (countedReset (advance t s) x)).aon.counts.a.getD i 0
          = (if i = srcCode x then min (s.aon.counts.a.getD i 0 + 1) 65535 else s.aon.counts.a.getD i 0)
        ∧ (reach (!isWarm x) (countedReset (advance t s) x)).aon.counts.b.getD i 0
          = (if i = srcCode x then min (s.aon.counts.b.getD i 0 + 1) 65535 else s.aon.counts.b.getD i 0)
        ∧ (reach (!isWarm x) (countedReset (advance t s) x)).aon.counts.c.getD i 0
          = (if i = srcCode x then min (s.aon.counts.c.getD i 0 + 1) 65535 else s.aon.counts.c.getD i 0) := fun i hi => by
      rw [haon, hcnt]
      exact ⟨bumpAt_getD hla hi, bumpAt_getD hlb hi, bumpAt_getD hlc hi⟩
    rw [← haon] at htl hlog hab
    exact ⟨rfl, rfl, rfl, rfl, hcounts, hab, hnv'.trans hnv, htl, hlog, rfl, rfl, hfns, hten, hfor, rfl, rfl, hkv, rfl, hpl, rfl,
      hcal.trans (by rw [hc]; rfl), fun ck tile => reach_engaged _ _ ck tile, rfl, rfl⟩

/-! ## The warm sources -/

/-- The parts of the state that a warm reset takes over, in part or whole. -/
def warmParts (s : State) : TimeBlk × KvBlk × Tbl FnBlk × Tbl Tenant := (s.time, s.kv, s.fns, s.tenants)

/-- A resident forme after a warm reset: it is laid out anew. -/
def relaid (f : Nat × Forme) : Nat × Forme := (f.1, { f.2 with draining := false, layers := [] })

/-- With no plate transaction open, a warm reset only frees the planes being written. -/
theorem resetPlates_quiet {s : State} (h : s.txns.plate = none) :
    warmParts (resetPlates false s) = warmParts s
      ∧ (resetPlates false s).formes = s.formes.map relaid := by
  have htarget : ∀ (x : State) (pk : Nat), (warmParts (freeTarget x pk), (freeTarget x pk).formes) = (warmParts x, x.formes) := fun x pk => by
    unfold freeTarget
    dsimp only
    split <;> rfl
  have hfree : ∀ (x : State) (l : List Nat), (warmParts (l.foldl freeTarget x), (l.foldl freeTarget x).formes) = (warmParts x, x.formes) :=
    fun x l => foldl_unchanged (fun y : State => (warmParts y, y.formes)) htarget l x
  unfold resetPlates
  dsimp only
  split
  · have hq := hfree { s with cmdq := [] } (s.plates.writing.map (fun (e : Nat × Option PlaneRecord) => e.1) ++ s.plates.testPlanes)
    exact ⟨congrArg Prod.fst hq, congrArg (List.map relaid) (congrArg Prod.snd hq)⟩
  next x hx => exact absurd (h.symm.trans hx) (by simp)

theorem reach_warm {cold : Bool} {s : State} (hc : cold = false) (h : s.txns.plate = none) :
    (reach cold s).time.base = s.time.base ∧ (reach cold s).time.valid = s.time.valid ∧ (reach cold s).kv.hbm = s.kv.hbm
      ∧ (reach cold s).formes = s.formes.map relaid
      ∧ (reach cold s).fns = (s.fns.map (fun e => (e.1, resetFn false e.2))).filter (fun e => decide (e.2 ≠ ({} : FnBlk)))
      ∧ (reach cold s).tenants = resetTenants false s := by
  subst hc
  obtain ⟨hp, hf⟩ := resetPlates_quiet h
  have htime : (resetPlates false s).time = s.time := congrArg Prod.fst hp
  have hkv : (resetPlates false s).kv = s.kv := congrArg (fun x => x.2.1) hp
  have hfns : (resetPlates false s).fns = s.fns := congrArg (fun x => x.2.2.1) hp
  have hten : (resetPlates false s).tenants = s.tenants := congrArg (fun x => x.2.2.2) hp
  have hreach : (reach false s).fns
      = ((resetPlates false s).fns.map (fun e => (e.1, resetFn false e.2))).filter (fun e => decide (e.2 ≠ ({} : FnBlk))) := rfl
  refine ⟨(congrArg TimeBlk.base htime : _), (congrArg TimeBlk.valid htime : _), (congrArg KvBlk.hbm hkv : _), hf, hreach.trans (by rw [hfns]), ?_⟩
  have hslot : ∀ n, tenantSlot (resetPlates false s) n = tenantSlot s n := tenantSlot_of_tenants hten
  have hr : (reach false s).tenants = resetTenants false (resetPlates false s) := rfl
  rw [hr]
  unfold resetTenants
  simp only [hslot, hten]

/-- A tenant that was not RETIRING and enabled stays enabled in its slot; a RETIRING one is gone. -/
theorem resetTenants_spec (s : State) :
    (∀ e ∈ s.tenants, tenantSlot s e.1 ≠ 2 → e.2.enabled = true → ∃ y ∈ resetTenants false s, y.1 = e.1 ∧ y.2.slot = e.2.slot
        ∧ y.2.cfg = e.2.cfg ∧ y.2.enabled = true ∧ y.2.confidential = e.2.confidential ∧ y.2.epoch = e.2.epoch)
      ∧ ∀ n, tenantSlot s n = 2 → tget ({} : Tenant) (resetTenants false s) n = {} := by
  have hmem : ∀ e ∈ s.tenants, tenantSlot s e.1 ≠ 2 → e.2.enabled = true →
      (e.1, ({ slot := e.2.slot, cfg := e.2.cfg, enabled := e.2.enabled, confidential := e.2.confidential, epoch := e.2.epoch } : Tenant))
        ∈ resetTenants false s := fun e he hslot hen => by
    have hne : ({ slot := e.2.slot, cfg := e.2.cfg, enabled := e.2.enabled, confidential := e.2.confidential, epoch := e.2.epoch } : Tenant) ≠ {} :=
      fun h => by simpa [hen] using congrArg Tenant.enabled h
    exact List.mem_filter.mpr ⟨List.mem_map.mpr ⟨e, List.mem_filter.mpr ⟨he, by simpa using hslot⟩, rfl⟩, decide_eq_true hne⟩
  refine ⟨fun e he hslot hen => ⟨_, hmem e he hslot hen, rfl, rfl, rfl, hen, rfl, rfl⟩, fun n hn => ?_⟩
  unfold tget
  cases hf : tfind (resetTenants false s) n with
  | none => rfl
  | some v =>
    obtain ⟨e, he, heq⟩ := List.mem_map.mp (List.mem_filter.mp (mem_of_tfind hf)).1
    have hkey : e.1 = n := congrArg Prod.fst heq
    exact absurd hn (by simpa [hkey] using (List.mem_filter.mp he).2)

/-- The MSI-X table of a function outlasts a warm reset. -/
theorem resetFns_msix {fns : Tbl FnBlk} {e : Nat × FnBlk} (he : e ∈ fns) (hm : e.2.msixTable ≠ []) :
    ∃ f ∈ (fns.map (fun e => (e.1, resetFn false e.2))).filter (fun e => decide (e.2 ≠ ({} : FnBlk))),
      f.1 = e.1 ∧ f.2.msixTable = e.2.msixTable ∧ f.2.unmasked = e.2.unmasked := by
  have hne : resetFn false e.2 ≠ {} := fun h => hm (congrArg FnBlk.msixTable h : _)
  exact ⟨_, List.mem_filter.mpr ⟨List.mem_map.mpr ⟨e, he, rfl⟩, by simpa using hne⟩, rfl, rfl, rfl⟩

/-- Settles O28: each warm source makes the same reset, and the watchdog notes the silent processor besides. -/
theorem warmResets : Obligations.WarmResets := by
  intro i x t s ha htx hr hl hst hsrc
  have hwarm : isWarm x = true := by
    rcases hsrc with ⟨_, _, _, _, rfl⟩ | ⟨_, _, _, _, rfl⟩ | ⟨_, _, _, rfl⟩ <;> rfl
  have hreq : requestReset (advance t s) x
      = setPins (startedReset (advance t s) x) (resetPinList (startedReset (advance t s) x) (!isWarm x) (uplinkOf (advance t s))) := by
    unfold requestReset
    rw [show (advance t s).therm.stopping = none from hst]
    exact (if_neg (by simp)).trans (beginReset_starts (s := advance t s) hr hl hst)
  have hexec : ∃ mp, exec i s = .next { requestReset (advance t s) x with aon := { (requestReset (advance t s) x).aon with wdtMp := mp } }
      ∧ (i = .watchdogExpiry t → mp = silentMp s) := by
    rcases hsrc with ⟨low, rfl, hlow, hen, rfl⟩ | ⟨a, rfl, hat, hle, rfl⟩ | ⟨rfl, hrun, hle, rfl⟩
    · exact ⟨(requestReset (advance t s) .warm).aon.wdtMp, next_congr (if_pos ⟨hlow, hen⟩), fun h => nomatch h⟩
    · refine ⟨(requestReset (advance t s) .warm).aon.wdtMp, next_congr ?_, fun h => nomatch h⟩
      unfold warmDelayOp
      rw [show (advance t s).rst.warmAt = some a from hat]
      exact if_pos hle
    · exact ⟨silentMp s, next_congr (if_pos (Bool.and_eq_true_iff.mpr ⟨hrun, decide_eq_true hle⟩)), fun _ => rfl⟩
  obtain ⟨mp, hexec, hmp⟩ := hexec
  have hc : (!isWarm x) = false := by rw [hwarm]; rfl
  have htx' : (countedReset (advance t s) x).txns.plate = none := by
    unfold countedReset
    split <;> exact htx
  have hpart : warmParts (countedReset (advance t s) x) = warmParts (advance t s) ∧ (countedReset (advance t s) x).formes = s.formes := by
    unfold countedReset
    split <;> exact ⟨rfl, rfl⟩
  obtain ⟨hwp, hformes⟩ := hpart
  obtain ⟨⟨hla, hlb, hlc⟩, _⟩ := ha
  obtain ⟨hnv, _, _, hrst, _, hcnt⟩ := countedReset_frame (advance t s) x
  obtain ⟨hnv', haon, hcal⟩ := reach_lasting (!isWarm x) (countedReset (advance t s) x)
  obtain ⟨hbase, hvalid, hhbm, hform, hfns, hten⟩ := reach_warm hc htx'
  obtain ⟨hkeep, hgone⟩ := resetTenants_spec (countedReset (advance t s) x)
  rw [hreq] at hexec
  have hpl : (reach (!isWarm x) (countedReset (advance t s) x)).plates = {} := by
    rw [hc]
    rfl
  have htime : (countedReset (advance t s) x).time = (advance t s).time := congrArg Prod.fst hwp
  have hkv : (countedReset (advance t s) x).kv = s.kv := congrArg (fun y => y.2.1) hwp
  have hfn : (countedReset (advance t s) x).fns = s.fns := congrArg (fun y => y.2.2.1) hwp
  have htens : (countedReset (advance t s) x).tenants = s.tenants := congrArg (fun y => y.2.2.2) hwp
  refine ⟨_, hexec, rfl, rfl, hbase.trans (congrArg TimeBlk.base htime), (hvalid.trans (congrArg TimeBlk.valid htime)).trans rfl, fun j hj => ?_,
    hnv'.trans hnv, hcal.trans (by rw [hwarm, hrst]; rfl), hhbm.trans (congrArg KvBlk.hbm hkv), ?_, rfl, rfl, rfl, hpl, fun e he hm => ?_,
    fun e he hsl hen => ?_, fun n hn => ?_, fun ck tile => reach_engaged _ _ ck tile, hmp⟩
  · have hgoal : ((reach (!isWarm x) (countedReset (advance t s) x)).aon.counts.a.getD j 0)
        = (if j = srcCode x then min (s.aon.counts.a.getD j 0 + 1) 65535 else s.aon.counts.a.getD j 0) := by
      rw [haon, hcnt]
      exact bumpAt_getD hla hj
    exact hgoal
  · have himg : (reach (!isWarm x) (countedReset (advance t s) x)).formes.map (fun f => (f.1, f.2.image))
        = s.formes.map (fun f => (f.1, f.2.image)) := by
      rw [hform, hformes, List.map_map]
      exact List.map_congr_left (fun _ _ => rfl)
    exact himg
  · rw [hfn] at hfns
    obtain ⟨f, hf, hrest⟩ := resetFns_msix he hm
    have hf' : f ∈ (reach (!isWarm x) (countedReset (advance t s) x)).fns := by
      rw [hfns]
      exact hf
    exact ⟨f, hf', hrest⟩
  · obtain ⟨y, hy, hrest⟩ := hkeep e (htens.symm ▸ he) (fun h => hsl ((tenantSlot_of_tenants htens e.1).symm.trans h)) hen
    have hy' : y ∈ (reach (!isWarm x) (countedReset (advance t s) x)).tenants := by
      rw [hten]
      exact hy
    exact ⟨y, hy', hrest⟩
  · have hn' : tenantSlot (countedReset (advance t s) x) n = 2 := (tenantSlot_of_tenants htens n).trans hn
    have hgoal := hgone n hn'
    rw [← hten] at hgoal
    exact hgoal

end Sys2Proof.Proofs
/-! # The release of a reset and the start of service -/
namespace Sys2Proof.Proofs

open Sys2Proof.Machine Sys2Proof.Safety Sys2Proof.Laws

theorem aget_aset_ne {α β : Type} [DecidableEq α] (l : List (α × β)) {k k' : α} (v : β) (h : k' ≠ k) : aget (aset l k v) k' = aget l k' := by
  induction l with
  | nil => exact if_neg (Ne.symm h)
  | cons e r ih =>
    obtain ⟨a, b⟩ := e
    unfold aset
    by_cases ha : a = k
    · rw [if_pos ha]
      subst ha
      exact (if_neg (Ne.symm h)).trans (if_neg (Ne.symm h)).symm
    · rw [if_neg ha]
      unfold aget
      rw [ih]

theorem pinLevel_drive_same (s : State) (p : Pin) (l : Bool) : pinLevel (drive s p l) p = some l := aget_aset_same _ _ _

theorem pinLevel_drive_ne (s : State) {p q : Pin} (l : Bool) (h : q ≠ p) : pinLevel (drive s p l) q = pinLevel s q := aget_aset_ne _ _ h

/-! ## RESET_RELEASE -/

/-- The state of a release before firmware is taken: the pins released, the link trained and the time base restarted after a cold reset. -/
def releasedState (s : State) (width rate : Nat) : State :=
  let s1 := release (release s .modRst) .arrayDrivers
  let s2 := if s.rst.cold then { drive s1 .fanPwm true with pci := { s1.pci with width := width, rate := rate } } else drive s1 .fanPwm true
  let s3 := { s2 with
    time := if s.rst.cold then { s2.time with base := 0 } else s2.time,
    aon := { s2.aon with unpowered := s2.aon.unpowered.map (fun n => if Src.por ∈ s2.rst.sources then n + (now s - s.rst.started) else n) } }
  let s4 := newChallenge (nextBlock s3)
  { s4 with rst := { s4.rst with started := now s4, mpStart := now s4, lastService := now s4, lastTick := now s4, lastSync := now s4 } }

/-- What firmware does once it has a slot. -/
def firmwareStarts (s : State) (f : FwSlot) : State :=
  let s6 := { s with nv := { s.nv with fwActive := f } }
  if s6.aon.consec = 4 ∧ !s6.aon.limp then limpStart s6
  else { s6 with rst := { s6.rst with phase := .loading }, aon := { s6.aon with limp := false } }

/-- The parts of the state that decide how service starts. -/
def bootParts (s : State) : FwSlot × List FwSlot × Nat × Nat × Bool × List (Pin × Bool) × Nat × Nat × Nat :=
  (s.nv.fwActive, s.nv.fw, s.nv.svnMin, s.aon.consec, s.aon.limp, s.pins.driven, s.time.base, s.pci.width, s.pci.rate)

theorem bootParts_newChallenge_nextBlock (s : State) : bootParts (newChallenge (nextBlock s)) = bootParts s := by
  unfold nextBlock
  split <;> rfl

theorem bootParts_releasedState (s : State) (width rate : Nat) :
    bootParts (releasedState s width rate)
      = (s.nv.fwActive, s.nv.fw, s.nv.svnMin, s.aon.consec, s.aon.limp, aset (adel (adel s.pins.driven .modRst) .arrayDrivers) .fanPwm true,
         if s.rst.cold = true then 0 else s.time.base, if s.rst.cold = true then width else s.pci.width,
         if s.rst.cold = true then rate else s.pci.rate) := by
  have hstart : ∀ u : State, bootParts { u with
      rst := { u.rst with started := now u, mpStart := now u, lastService := now u, lastTick := now u, lastSync := now u } } = bootParts u :=
    fun _ => rfl
  unfold releasedState
  refine (hstart _).trans ((bootParts_newChallenge_nextBlock _).trans ?_)
  cases s.rst.cold <;> rfl

/-- The pins and counters of a release, each by its name. -/
structure Released (s u : State) (width rate : Nat) : Prop where
  fwActive : u.nv.fwActive = s.nv.fwActive
  fw : u.nv.fw = s.nv.fw
  svnMin : u.nv.svnMin = s.nv.svnMin
  consec : u.aon.consec = s.aon.consec
  limp : u.aon.limp = s.aon.limp
  modRst : pinLevel u .modRst = none
  arrayDrivers : pinLevel u .arrayDrivers = none
  base : u.time.base = if s.rst.cold = true then 0 else s.time.base
  width : u.pci.width = if s.rst.cold = true then width else s.pci.width
  rate : u.pci.rate = if s.rst.cold = true then rate else s.pci.rate

theorem released_releasedState (s : State) (width rate : Nat) : Released s (releasedState s width rate) width rate := by
  have h := bootParts_releasedState s width rate
  simp only [bootParts, Prod.mk.injEq] at h
  obtain ⟨h1, h2, h3, h4, h5, h6, h7, h8, h9⟩ := h
  refine ⟨h1, h2, h3, h4, h5, ?_, ?_, h7, h8, h9⟩
  · unfold pinLevel
    rw [h6, aget_aset_ne _ _ (by simp), aget_adel, aget_adel]
    rfl
  · unfold pinLevel
    rw [h6, aget_aset_ne _ _ (by simp), aget_adel]
    rfl

theorem goOn_of_released {s : State} (hp : s.rst.phase = .inReset) (ht : s.rst.started + 1000000 ≤ now s) :
    ¬(s.rst.phase ≠ .inReset ∨ now s < s.rst.started + 1000000) := by
  rintro (h | h)
  · exact h hp
  · exact absurd ht (Nat.not_le.mpr h)

/-- After the stretch a release takes the firmware slot that there is, and starts it. -/
theorem releaseOp_some {s : State} {width rate : Nat} (hp : s.rst.phase = .inReset) (ht : s.rst.started + 1000000 ≤ now s) {f : FwSlot}
    (hf : (if s.rst.cold = true then goodFirmware (releasedState s width rate) else some (releasedState s width rate).nv.fwActive) = some f) :
    releaseOp s width rate = firmwareStarts (releasedState s width rate) f := by
  unfold releaseOp
  rw [if_neg (goOn_of_released hp ht)]
  extract_lets cold off s1 driven pci s2 time aon s3 s4 rst s5 rst5 nv5
  have h5 : s5 = releasedState s width rate := rfl
  have hr : rst5 = s5.rst := rfl
  have hn : nv5 = s5.nv := rfl
  clear_value rst5 nv5 s5
  subst hr hn h5
  split
  next h => exact absurd (h.symm.trans hf) (by simp)
  next g h =>
    cases (h.symm.trans hf)
    rfl

/-- Without a slot that verifies nothing starts. -/
theorem releaseOp_none {s : State} {width rate : Nat} (hp : s.rst.phase = .inReset) (ht : s.rst.started + 1000000 ≤ now s)
    (hc : s.rst.cold = true) (hf : goodFirmware (releasedState s width rate) = none) : (releaseOp s width rate).rst.phase = .noFirmware := by
  unfold releaseOp
  rw [if_neg (goOn_of_released hp ht)]
  dsimp only
  split
  · rfl
  next g h => exact absurd (h.symm.trans ((if_pos hc).trans hf)) (by simp)

theorem firmwareStarts_loads {s : State} {f : FwSlot} (h : ¬(s.aon.consec = 4 ∧ s.aon.limp = false)) :
    firmwareStarts s f = { s with nv := { s.nv with fwActive := f }, rst := { s.rst with phase := .loading }, aon := { s.aon with limp := false } } :=
  if_neg (by simpa using h)

theorem firmwareStarts_limps {s : State} {f : FwSlot} (hc : s.aon.consec = 4) (hl : s.aon.limp = false) :
    firmwareStarts s f = limpStart { s with nv := { s.nv with fwActive := f } } :=
  if_pos ⟨hc, by simp [hl]⟩

/-- A limp start shows itself and leaves flash, the time base and the other pins. -/
theorem limpStart_frame (s : State) :
    (limpStart s).rst.phase = .limp ∧ (limpStart s).aon.limp = true ∧ pinLevel (limpStart s) .ledFault = some false
      ∧ (∀ p, p ≠ .ledFault → p ≠ .smbAlert → pinLevel (limpStart s) p = pinLevel s p) ∧ (limpStart s).nv = s.nv
      ∧ (limpStart s).time = s.time ∧ (limpStart s).pci = s.pci := by
  refine ⟨rfl, rfl, ?_, fun p h1 h2 => ?_, rfl, rfl, rfl⟩
  · exact (pinLevel_drive_ne _ _ (by simp)).trans (pinLevel_drive_same _ _ _)
  · exact (pinLevel_drive_ne _ _ h2).trans (pinLevel_drive_ne _ _ h1)

/-- Settles O29: what the release of a reset leaves, and what firmware starts with. -/
theorem resetRelease : Obligations.ResetRelease := by
  intro width rate t s hp
  have hrel := released_releasedState (advance t s) width rate
  have hfind : ∀ o, s.nv.fw.find? (fun f => f.good && s.nv.svnMin ≤ f.svn) = o → goodFirmware (releasedState (advance t s) width rate) = o := by
    intro o ho
    unfold goodFirmware
    rw [hrel.fw, hrel.svnMin]
    exact ho
  refine ⟨fun ht => next_congr (if_pos (Or.inr ht)), fun f ht hc hf => ?_, fun ht hc hf => ?_, fun ht hc hnl => ?_⟩
  · refine ⟨_, next_congr (releaseOp_some (s := advance t s) hp ht ((if_pos hc).trans (hfind _ hf))), ?_⟩
    have hbase : (releasedState (advance t s) width rate).time.base = 0 := hrel.base.trans (if_pos hc)
    have hwidth : (releasedState (advance t s) width rate).pci.width = width := hrel.width.trans (if_pos hc)
    have hrate : (releasedState (advance t s) width rate).pci.rate = rate := hrel.rate.trans (if_pos hc)
    have hcons : (releasedState (advance t s) width rate).aon.consec = s.aon.consec := hrel.consec
    have hlimp : (releasedState (advance t s) width rate).aon.limp = s.aon.limp := hrel.limp
    by_cases h4 : s.aon.consec = 4 ∧ s.aon.limp = false
    · rw [firmwareStarts_limps (hcons.trans h4.1) (hlimp.trans h4.2)]
      obtain ⟨hph, hl, hled, hpin, hnv, htm, hpci⟩ := limpStart_frame { releasedState (advance t s) width rate with
        nv := { (releasedState (advance t s) width rate).nv with fwActive := f } }
      rw [hpin _ (by simp) (by simp), hpin _ (by simp) (by simp), hnv, htm, hpci]
      exact ⟨hbase, rfl, hwidth, hrate, hrel.modRst, hrel.arrayDrivers, hrel.svnMin, hrel.fw, fun h => absurd h4 h, fun _ _ => ⟨hph, hl, hled⟩⟩
    · rw [firmwareStarts_loads (by rw [hcons, hlimp]; exact h4)]
      exact ⟨hbase, rfl, hwidth, hrate, hrel.modRst, hrel.arrayDrivers, hrel.svnMin, hrel.fw, fun _ => ⟨rfl, rfl⟩, fun h h' => absurd ⟨h, h'⟩ h4⟩
  · exact ⟨_, rfl, releaseOp_none (s := advance t s) hp ht hc (hfind _ hf)⟩
  · have hc' : ¬(advance t s).rst.cold = true := by rw [show (advance t s).rst.cold = false from hc]; decide
    refine ⟨_, next_congr (releaseOp_some (s := advance t s) hp ht (if_neg hc')), ?_⟩
    have hnl' : ¬((releasedState (advance t s) width rate).aon.consec = 4 ∧ (releasedState (advance t s) width rate).aon.limp = false) := by
      rw [hrel.consec, hrel.limp]
      exact hnl
    rw [firmwareStarts_loads hnl']
    exact ⟨hrel.base.trans (if_neg hc'), hrel.fwActive, rfl, hrel.modRst⟩

/-! ## VBK_LOSS and OPTION_LOAD_COMPLETE -/

/-- A failed option load counts an abort and leaves flash. -/
theorem loadFails_frame (s : State) :
    (loadFails s).aon.totalAborts = min (s.aon.totalAborts + 1) 65535 ∧ (loadFails s).aon.consec = min 4 (s.aon.consec + 1)
      ∧ (loadFails s).rst.phase = (if 3 ≤ s.aon.consec then .limp else s.rst.phase) ∧ (loadFails s).nv = s.nv := by
  have h4 : (countAbort s).aon.consec = 4 ↔ 3 ≤ s.aon.consec := by
    have hc : (countAbort s).aon.consec = min 4 (s.aon.consec + 1) := rfl
    omega
  unfold loadFails
  dsimp only
  by_cases h : 3 ≤ s.aon.consec
  · rw [if_pos (h4.mpr h), if_pos h]
    exact ⟨rfl, rfl, rfl, rfl⟩
  · rw [if_neg (fun hc => h (h4.mp hc)), if_neg h]
    exact ⟨rfl, rfl, rfl, rfl⟩

/-- What the generation record sets and the start of service takes over. -/
def recordParts (s : State) : Nat × List Plate × Nat := (s.nv.svnMin, s.plates.table, s.plates.epoch)

theorem recordParts_of_besidesRetire {s u : State} (h : besidesRetire u = besidesRetire s) : recordParts u = recordParts s :=
  (congrArg recordParts h : _)

theorem recordParts_fenceFor (s : State) (u : UnitId) (cause : Cause) (detail : Nat) : recordParts (fenceFor s u cause detail) = recordParts s :=
  recordParts_of_besidesRetire (besidesRetire_fenceFor s u cause detail)

theorem recordParts_checkTrims (s : State) : recordParts (checkTrims s) = recordParts s :=
  foldl_unchanged recordParts (fun _ _ => recordParts_fenceFor ..) _ s

theorem recordParts_retireLocation (s : State) (e : MemError) (detail : Nat) : recordParts (retireLocation s e detail) = recordParts s := by
  have hreport : ∀ (x : State) (r : Report), recordParts (addReport x r) = recordParts x := fun x r =>
    recordParts_of_besidesRetire (besidesRetire_of_besidesFence (besidesFence_addReport x r))
  have hcell : recordParts (retireCell s e detail) = recordParts s := by
    refine (hreport ..).trans ?_
    split
    · dsimp only
      split <;> rfl
    · rfl
  have hcore : ∀ (x : State) (ck : Nat), recordParts (fenceCore x ck .none 0) = recordParts x := fun x ck =>
    recordParts_of_besidesRetire (besidesRetire_of_besidesFence (besidesFence_fenceCore x ck .none 0))
  have hbank : ∀ x : State, recordParts (exhaustBank x e) = recordParts x := fun x => by
    unfold exhaustBank
    split
    · rfl
    · rfl
    · rfl
    · split
      next p g _ => exact recordParts_of_besidesRetire (besidesRetire_of_besidesFence (besidesFence_fenceRegion x (regionKey p g) .none 0))
      next p g c _ => exact hcore x (coreKey p g c)
      next p g c _ _ => exact hcore x (coreKey p g c)
      next p g c _ _ _ => exact hcore x (coreKey p g c)
      next => rfl
  unfold retireLocation
  split
  · exact (hbank _).trans hcell
  · exact hcell

theorem recordParts_startDrift (s : State) (rk : Nat) : recordParts (startDrift s rk) = recordParts s := by
  unfold startDrift
  split <;> rfl

theorem recordParts_gapAll (s : State) : recordParts (gapAll s) = recordParts s :=
  foldl_unchanged recordParts (fun x r => (recordParts_startDrift (modRegion x r (fun g => { g with ageGap := true })) r).trans rfl) _ s

theorem recordParts_ageAll (s : State) (dt : Nat) : recordParts (ageAll s dt) = recordParts s := by
  unfold ageAll
  split
  · rfl
  · exact foldl_unchanged recordParts (by intros; rfl) _ s

theorem recordParts_creditUnpowered (s : State) : recordParts (creditUnpowered s) = recordParts s := by
  have haon : ∀ (x : State) (n : Option Nat), recordParts { x with aon := { x.aon with unpowered := n } } = recordParts x := fun _ _ => rfl
  unfold creditUnpowered
  refine (haon _ _).trans ?_
  split
  · exact recordParts_ageAll ..
  · exact recordParts_gapAll ..

/-- Writing one core per entry of a table leaves the record's parts. -/
theorem recordParts_modCores {α : Type} (l : List α) (k : α → Nat) (f : α → Core → Core) (s : State) :
    recordParts (l.foldl (fun x e => modCore x (k e) (f e)) s) = recordParts s :=
  foldl_unchanged recordParts (by intros; rfl) l s

theorem recordParts_modRegions {α : Type} (l : List α) (k : α → Nat) (f : α → Region → Region) (s : State) :
    recordParts (l.foldl (fun x e => modRegion x (k e) (f e)) s) = recordParts s :=
  foldl_unchanged recordParts (by intros; rfl) l s

theorem recordParts_loadFactory (s : State) : recordParts (loadFactory s) = recordParts s := by
  unfold loadFactory
  dsimp only
  split
  · exact (recordParts_modCores ..).trans ((recordParts_modCores ..).trans (recordParts_modCores ..))
  · exact recordParts_modCores ..

theorem recordParts_loadField (s : State) : recordParts (loadField s) = recordParts s := by
  unfold loadField
  split
  · exact (recordParts_gapAll _).trans (recordParts_loadFactory s)
  · refine (recordParts_modCores ..).trans ?_
    split
    · exact (recordParts_modRegions ..).trans (recordParts_loadFactory s)
    · exact recordParts_loadFactory s

theorem recordParts_restartRefills (s : State) :
    recordParts (restartRefills s) = recordParts s := by
  unfold restartRefills
  refine Eq.trans (b := recordParts (s.map.refills.foldl _ s)) rfl (foldl_unchanged recordParts (fun x r => ?_) _ s)
  split <;> rfl

theorem keepMoves_plates (m : Tbl Nat) (s : State) : (keepMoves m s).plates = s.plates ∧ (keepMoves m s).nv = s.nv := by
  have h : (fun x : State => (x.plates, x.nv)) (keepMoves m s) = (s.plates, s.nv) := by
    refine foldl_unchanged (fun x : State => (x.plates, x.nv)) (fun x e => ?_) m s
    dsimp only
    split
    · split <;> rfl
    · rfl
  exact ⟨congrArg Prod.fst h, congrArg Prod.snd h⟩

/-- The load of a generation record takes its plates and its epoch. -/
theorem recordParts_loadGen (s : State) (g : GenRecord) : recordParts (loadGen s g) = (s.nv.svnMin, g.plates, g.epoch) := by
  have hset : ∀ x : State, x.nv = s.nv →
      recordParts (setPlates x (fun b => { b with table := g.plates, epoch := g.epoch, incomplete := g.incomplete }))
        = (s.nv.svnMin, g.plates, g.epoch) := fun x hx => congrArg (fun n : FlashBlk => (n.svnMin, g.plates, g.epoch)) hx
  unfold loadGen
  exact (recordParts_modCores ..).trans ((recordParts_restartRefills _).trans (hset _ (keepMoves_plates ..).2))

theorem recordParts_washdown (s : State) (rs : List Nat) (owner : Nat) :
    recordParts (washdown s rs owner) = recordParts s ∧ (washdown s rs owner).aon = s.aon := by
  have h : (fun x : State => (recordParts x, x.aon)) (washdown s rs owner) = (recordParts s, s.aon) := by
    unfold washdown
    refine Eq.trans (b := (fun x : State => (recordParts x, x.aon))
      (rs.foldl (fun x r => washRegion x owner r) (mapCores s (fun k c => if coreRegion k ∈ rs then washCore c else c)))) rfl ?_
    exact foldl_unchanged (fun x : State => (recordParts x, x.aon)) (by intros; rfl) rs _
  exact ⟨congrArg Prod.fst h, congrArg Prod.snd h⟩

/-- Naming the cores' monitored planes leaves the state but for the cores. -/
theorem monitorAll_frame (s : State) :
    (monitorAll s).rst = s.rst ∧ (monitorAll s).aon = s.aon ∧ (monitorAll s).time = s.time ∧ (monitorAll s).nv = s.nv
      ∧ (monitorAll s).plates = s.plates ∧ (monitorAll s).pins = s.pins := by
  have h : (fun x : State => (x.rst, x.aon, x.time, x.nv, x.plates, x.pins)) (monitorAll s) = (s.rst, s.aon, s.time, s.nv, s.plates, s.pins) :=
    foldl_unchanged (fun x : State => (x.rst, x.aon, x.time, x.nv, x.plates, x.pins)) (by intros; rfl) _ s
  simpa using h

theorem retireLogged_frame (s : State) : recordParts (retireLogged s) = recordParts s ∧ (retireLogged s).aon.errorLog = [] := by
  have h : recordParts (s.aon.errorLog.foldl (fun x e => retireLocation x e 16) s) = recordParts s :=
    foldl_unchanged recordParts (fun _ _ => recordParts_retireLocation ..) _ s
  exact ⟨h, rfl⟩

/-- What the start of service leaves of a loaded record. -/
structure InService (s u : State) : Prop where
  phase : u.rst.phase = .service
  loadDone : u.rst.loadDone = true
  table : u.plates.table = s.plates.table
  epoch : u.plates.epoch = s.plates.epoch
  consec : u.aon.consec = 0
  limp : u.aon.limp = false
  errorLog : u.aon.errorLog = []
  valid : u.time.valid = true
  svnMin : s.nv.svnMin ≤ u.nv.svnMin

theorem InService.release {s u : State} (h : InService s u) (n : Nat) : InService s (release u (.qlFault n)) :=
  ⟨h.phase, h.loadDone, h.table, h.epoch, h.consec, h.limp, h.errorLog, h.valid, h.svnMin⟩

theorem InService.monitorAll {s u : State} (h : InService s u) : InService s (monitorAll u) := by
  obtain ⟨hrst, haon, htime, hnv, hpl, _⟩ := monitorAll_frame u
  obtain ⟨h1, h2, h3, h4, h5, h6, h7, h8, h9⟩ := h
  constructor
  · rw [hrst, h1]
  · rw [hrst, h2]
  · rw [hpl, h3]
  · rw [hpl, h4]
  · rw [haon, h5]
  · rw [haon, h6]
  · rw [haon, h7]
  · rw [htime, h8]
  · rw [hnv]
    exact h9

/-- The power LED and the feed are driven, and the free pages shown. -/
theorem InService.powered {s u : State} (h : InService s u) (f : KvBlk → KvBlk) :
    InService s (setKv (drive (drive u .ledPwr false) .feedEn true) f)
      ∧ pinLevel (setKv (drive (drive u .ledPwr false) .feedEn true) f) .feedEn = some true :=
  ⟨⟨h.phase, h.loadDone, h.table, h.epoch, h.consec, h.limp, h.errorLog, h.valid, h.svnMin⟩, pinLevel_drive_same ..⟩

/-- The moment service starts, with the record's parts as `s` has them. -/
theorem inService_settled {s x : State} {n : FlashBlk} (hparts : recordParts x = recordParts s) (hlog : x.aon.errorLog = [])
    (hn : x.nv.svnMin ≤ n.svnMin) :
    InService s (settlePresence { x with
      rst := { x.rst with phase := .service, loadDone := true, fresh := false, lastAge := now x }, aon := { x.aon with consec := 0, limp := false },
      time := { x.time with valid := true }, nv := n }) := by
  simp only [recordParts, Prod.mk.injEq] at hparts
  obtain ⟨hsvn, htab, hep⟩ := hparts
  exact ⟨rfl, rfl, htab, hep, rfl, rfl, hlog, rfl, hsvn ▸ hn⟩

theorem enterService_inService (s : State) : InService s (enterService s) ∧ pinLevel (enterService s) .feedEn = some true := by
  unfold enterService
  extract_lets s1 s2 s3 rst3 aon3 time3 nv3 s4 s5
  have h1 : recordParts s1 = recordParts s :=
    (recordParts_checkTrims _).trans ((recordParts_creditUnpowered _).trans (recordParts_loadField s))
  obtain ⟨hl, hlog⟩ := retireLogged_frame s1
  have h2 : recordParts s2 = recordParts s := hl.trans h1
  have h3 : recordParts s3 = recordParts s ∧ s3.aon.errorLog = [] := by
    dsimp only [s3]
    split
    · exact ⟨h2, hlog⟩
    · obtain ⟨hw, haon⟩ := recordParts_washdown s2 (listedRegions s2) sharedOwner
      exact ⟨hw.trans h2, (congrArg AonBlk.errorLog haon).trans hlog⟩
  obtain ⟨h3, hlog⟩ := h3
  have h4 : InService s s4 := by
    refine inService_settled h3 hlog ?_
    split
    · exact Nat.le_max_left _ _
    · exact Nat.le_refl _
  clear_value s4
  obtain ⟨h5, hfeed⟩ := h4.monitorAll.powered (fun k => { k with freeShown := kvFree s4, reserveShort := decide (kvPool s4 < reserveSum s4) })
  have hs5 : s5 = setKv (drive (drive (Machine.monitorAll s4) .ledPwr false) .feedEn true)
      (fun k => { k with freeShown := kvFree s4, reserveShort := decide (kvPool s4 < reserveSum s4) }) := rfl
  rw [← hs5] at h5 hfeed
  clear_value s5
  split
  · exact ⟨h5.release _, (pinLevel_release _ _ _).trans hfeed⟩
  · exact ⟨h5, hfeed⟩

theorem dropLatch_frame (s : State) : (dropLatch s).nv = s.nv ∧ (dropLatch s).arr = s.arr := by
  unfold dropLatch
  rw [pinsAndShareOnly_releaseSafety s 3]
  exact ⟨rfl, rfl⟩

/-- Settles O30: an option load that passes enters service, one that fails counts an abort, and VBK_LOSS clears the always-on domain. -/
theorem optionLoad : Obligations.OptionLoad := by
  intro ok t s
  refine ⟨fun g hp hg hok hfuse hhub => ?_, fun hp hbad => ?_, fun hp => next_congr (if_pos hp), fun hp hpor => ?_,
    fun hpor => next_congr (if_neg (fun h => hpor h.2))⟩
  · have hop : loadCompleteOp (advance t s) ok = enterService (loadGen { advance t s with rst := { s.rst with loadDone := true } } g) := by
      unfold loadCompleteOp
      rw [if_neg (show ¬(advance t s).rst.phase ≠ .loading from fun h => h hp), show newest (advance t s).nv.gen = some g from hg]
      exact if_pos (by
        rw [hok, show (advance t s).nv.fuseMapOk = true from hfuse, show hubFactoryOk (advance t s) = true from hhub]
        rfl)
    obtain ⟨hin, hfeed⟩ := enterService_inService (loadGen { advance t s with rst := { s.rst with loadDone := true } } g)
    have hrec := recordParts_loadGen { advance t s with rst := { s.rst with loadDone := true } } g
    simp only [recordParts, Prod.mk.injEq] at hrec
    obtain ⟨hsvn, htab, hep⟩ := hrec
    exact ⟨_, next_congr hop, hin.phase, hin.loadDone, hin.table.trans htab, hin.epoch.trans hep, hin.consec, hin.limp, hin.errorLog, hin.valid,
      hfeed, (Nat.le_of_eq hsvn.symm).trans hin.svnMin⟩
  · have hop : loadCompleteOp (advance t s) ok = loadFails (advance t s) := by
      unfold loadCompleteOp
      rw [if_neg (show ¬(advance t s).rst.phase ≠ .loading from fun h => h hp)]
      split
      · rfl
      next g hg =>
        refine if_neg (fun h => ?_)
        simp only [Bool.and_eq_true] at h
        rcases hbad with hb | hb | hb | hb
        · exact absurd (hb.symm.trans hg) (by simp)
        · simp [hb] at h
        · exact absurd (hb.symm.trans h.1.2) (by simp)
        · exact absurd (hb.symm.trans h.2) (by simp)
    obtain ⟨h1, h2, h3, h4⟩ := loadFails_frame (advance t s)
    refine ⟨_, next_congr hop, h1, h2, h3.trans ?_, h4⟩
    rw [show (advance t s).rst.phase = .loading from hp]
    rfl
  · obtain ⟨hnv, harr⟩ := dropLatch_frame (advance t s)
    refine ⟨_, next_congr (if_pos ⟨hp, hpor⟩), rfl, rfl, rfl, rfl, rfl, rfl, rfl, ?_, ?_⟩
    · split
      · exact hnv
      · rfl
    · split
      · exact harr
      · rfl

end Sys2Proof.Proofs
/-! # The housekeeping tick -/
namespace Sys2Proof.Proofs

open Sys2Proof.Machine Sys2Proof.Safety Sys2Proof.Laws

/-- A module on which a hub sensor has failed, and whose event timers for a thermal stop are all allocated to the host. -/
def brokenHubState : State :=
  { State.reset with
    rst := { State.reset.rst with phase := .limp }
    therm := { temps := [(.hub 0, 0)], badRun := [(.hub 0, 3)] }
    time := { State.reset.time with timers := [(63, { en := true })] }
    share := { State.reset.share with timers := [(60, .inl 0), (61, .inl 0), (62, .inl 0), (63, .inl 0)] } }

/-- A tick without overruns, at which nothing is reported. -/
def quietTick : TickInput :=
  { overruns := [], bandgap := [], alive := [1, 2, 3], ringHeads := [], done := true, power := 0, power100 := 0, limited := 0 }

/-- The tick that finds the hub sensor broken begins the orderly stop (R410), which pre-empts event timer 63 (R345). -/
theorem brokenHub_stops_timer :
    firmwareRuns brokenHubState = true ∧ brokenHubState.rst.lastTick + 40000000 ≤ max brokenHubState.time.base 40000000
      ∧ (housekeepingOp (advance 40000000 brokenHubState) quietTick).time.timers = [] := by
  decide

/-- Refutes O31: a tick with no overruns may begin a thermal stop, and the timer that this takes from the host is stopped, so that the time
block does not stay as it was. -/
theorem not_housekeepingTick : ¬ Obligations.HousekeepingTick := by
  unfold Obligations.HousekeepingTick
  intro h
  obtain ⟨hrun, hdue, hnone⟩ := brokenHub_stops_timer
  obtain ⟨u, hu, _, _, _, _, _, _, htime, _⟩ := (h quietTick 40000000 brokenHubState hrun).1 hdue
  have hop : u = housekeepingOp (advance 40000000 brokenHubState) quietTick := by
    injection hu with hu
    exact hu.symm
  have hkept := congrArg TimeBlk.timers (htime rfl)
  rw [hop, hnone] at hkept
  exact absurd hkept (by decide)

end Sys2Proof.Proofs
/-! # The sense passes -/
namespace Sys2Proof.Proofs

open Sys2Proof.Machine Sys2Proof.Safety Sys2Proof.Laws

theorem replyOnly_unsolicited (s : State) (op : Nat) (st : Status) (txn seq r0 r1 : Nat) :
    ReplyOnly s (unsolicited s op st txn seq r0 r1) := by
  unfold unsolicited
  dsimp only
  split
  · exact replyOnly_pushReply s _
  · rfl

/-! ## The monitor -/

/-- What the monitor works with: the readings, the stop, the last pass, the phase and the limit of the HBM4 stacks. -/
def watchParts (s : State) : List (Sensor × Int) × Option Nat × Nat × Phase × Nat :=
  (s.therm.temps, s.therm.stopping, s.therm.lastFwPass, s.rst.phase, s.nv.hbmLimit)

theorem watchParts_of_replyOnly {s u : State} (h : ReplyOnly s u) : watchParts u = watchParts s := by
  rw [h]
  rfl

theorem watchParts_takeSafety (s : State) (kind user : Nat) : watchParts (takeSafety s kind user).1 = watchParts s := by
  unfold takeSafety
  split
  · rfl
  · split
    · rfl
    · refine (watchParts_of_replyOnly (replyOnly_unsolicited ..)).trans ?_
      dsimp only
      split <;> rfl

theorem watchParts_eventMsg (s : State) (bit : Nat) : watchParts (eventMsg s bit) = watchParts s := by
  unfold eventMsg sendMsix
  dsimp only
  repeat' split
  all_goals rfl

theorem watchParts_releaseSafety (s : State) (user : Nat) : watchParts (releaseSafety s user) = watchParts s := by
  rw [pinsAndShareOnly_releaseSafety s user]
  rfl

theorem watchParts_followAlert (s : State) : watchParts (followAlert s) = watchParts s := by
  have hdrive : ∀ (x : State × Option Nat) (l : Bool), watchParts (driveSafety x l) = watchParts x.1 := fun x l => by
    unfold driveSafety
    split <;> rfl
  have halert : ∀ (x : State) (a : Bool), watchParts (setTherm x (fun b => { b with alert := a })) = watchParts x := fun _ _ => rfl
  have hevent : ∀ x : State, watchParts (pldmEvent x) = watchParts x := fun _ => rfl
  unfold followAlert
  dsimp only
  split
  · rfl
  · split
    · exact (watchParts_eventMsg ..).trans ((hevent _).trans ((halert ..).trans ((hdrive ..).trans (watchParts_takeSafety ..))))
    · split
      · exact (halert ..).trans (watchParts_releaseSafety ..)
      · rfl

theorem watchParts_showTemps (s : State) : watchParts (showTemps s) = watchParts s := by
  unfold showTemps
  split <;> rfl

theorem watchParts_followBroken (s : State) (x : Sensor) : watchParts (followBroken s x) = watchParts s := by
  unfold followBroken
  repeat' split
  all_goals rfl

/-- A reading enters the table of readings; nothing else that the monitor works with changes. -/
theorem watchParts_takeReading (s : State) (r : TempReading) :
    watchParts (takeReading s r)
      = (aset s.therm.temps r.sensor r.value, s.therm.stopping, s.therm.lastFwPass, s.rst.phase, s.nv.hbmLimit) := by
  have hnote : ∀ (x : State) (k : Nat) (v : Int), watchParts (notePassTemp x k v) = watchParts x := fun x k v => by
    unfold notePassTemp
    split <;> rfl
  unfold takeReading
  refine (watchParts_followBroken ..).trans ?_
  split
  · exact hnote ..
  · rfl

theorem takeReadings_others (l : List TempReading) (s : State) :
    (watchParts (l.foldl takeReading s)).2 = (watchParts s).2 :=
  foldl_unchanged (fun x : State => (watchParts x).2) (fun x r => (congrArg Prod.snd (watchParts_takeReading x r)).trans rfl) l s

theorem takeReadings_of_notMem {x : Sensor} (l : List TempReading) (s : State) (h : ∀ q ∈ l, q.sensor ≠ x) :
    aget (l.foldl takeReading s).therm.temps x = aget s.therm.temps x := by
  induction l generalizing s with
  | nil => rfl
  | cons a l ih =>
    have ha : (takeReading s a).therm.temps = aset s.therm.temps a.sensor a.value := congrArg Prod.fst (watchParts_takeReading s a)
    refine (ih (takeReading s a) (fun q hq => h q (List.mem_cons_of_mem _ hq))).trans ?_
    rw [ha]
    exact aget_aset_ne _ _ (Ne.symm (h a List.mem_cons_self))

/-- Every sensor of a pass shows its last reading of the pass. -/
theorem takeReadings_shows (l : List TempReading) (s : State) :
    ∀ r ∈ l, ∃ q ∈ l, q.sensor = r.sensor ∧ aget (l.foldl takeReading s).therm.temps r.sensor = some q.value := by
  induction l generalizing s with
  | nil => exact fun _ h => nomatch h
  | cons a l ih =>
    intro r hr
    by_cases hex : ∃ q ∈ l, q.sensor = r.sensor
    · obtain ⟨q, hq, hs⟩ := hex
      obtain ⟨p, hp, hps, hv⟩ := ih (takeReading s a) q hq
      exact ⟨p, List.mem_cons_of_mem _ hp, hps.trans hs, hs ▸ hv⟩
    · have hra : r = a := (List.mem_cons.mp hr).resolve_right (fun h => hex ⟨r, h, rfl⟩)
      have ha : (takeReading s a).therm.temps = aset s.therm.temps a.sensor a.value := congrArg Prod.fst (watchParts_takeReading s a)
      refine ⟨a, List.mem_cons_self, hra ▸ rfl, ?_⟩
      rw [hra]
      refine (takeReadings_of_notMem l (takeReading s a) (fun q hq hs => hex ⟨q, hq, hra ▸ hs⟩)).trans ?_
      rw [ha]
      exact aget_aset_same _ _ _

/-- A reading below its level of a sensor that is not the hub's trips nothing. -/
theorem tripOn_below {s : State} {r : TempReading} (h : trips s r = false) (hh : ∀ j, r.sensor ≠ .hub j) : tripOn s r = s := by
  unfold tripOn
  split
  · rfl
  · dsimp only
    split
    next j hj => exact absurd hj (hh j)
    · rw [h]
      rfl

theorem trips_of_hbmLimit {s u : State} (h : u.nv.hbmLimit = s.nv.hbmLimit) (r : TempReading) : trips u r = trips s r := by
  unfold trips hbmLevel
  rw [h]

/-- With no reading at its level and no stop, a pass of the monitor only takes its readings. -/
theorem monitorTemps_below {s : State} {temps : List TempReading} (hst : s.therm.stopping = none)
    (h : ∀ r ∈ temps, trips s r = false ∧ ∀ j, r.sensor ≠ .hub j) :
    watchParts (monitorTemps s temps) = watchParts (temps.foldl takeReading s) := by
  have h1 : watchParts (showTemps (followAlert (temps.foldl takeReading s))) = watchParts (temps.foldl takeReading s) :=
    (watchParts_showTemps _).trans (watchParts_followAlert _)
  have hlim : (showTemps (followAlert (temps.foldl takeReading s))).nv.hbmLimit = s.nv.hbmLimit :=
    (congrArg (fun x => x.2.2.2.2) h1).trans (congrArg (fun x => x.2.2.2) (takeReadings_others temps s))
  have hstop : (showTemps (followAlert (temps.foldl takeReading s))).therm.stopping = none :=
    (congrArg (fun x => x.2.1) h1).trans ((congrArg (fun x => x.1) (takeReadings_others temps s)).trans hst)
  have htrip : ∀ (l : List TempReading), (∀ r ∈ l, r ∈ temps) →
      l.foldl tripOn (showTemps (followAlert (temps.foldl takeReading s))) = showTemps (followAlert (temps.foldl takeReading s)) := by
    intro l
    induction l with
    | nil => exact fun _ => rfl
    | cons a l ih =>
      intro hl
      obtain ⟨ht, hh⟩ := h a (hl a List.mem_cons_self)
      rw [List.foldl_cons, tripOn_below ((trips_of_hbmLimit hlim a).trans ht) hh]
      exact ih (fun r hr => hl r (List.mem_cons_of_mem _ hr))
  have hcut : mustCut (showTemps (followAlert (temps.foldl takeReading s))) = false := by
    unfold mustCut
    rw [hstop]
  unfold monitorTemps
  dsimp only
  rw [htrip temps (fun _ h => h), hcut]
  exact h1

theorem watchParts_takeSense (s : State) (rs : List SenseResult) : watchParts (takeSense s rs) = watchParts s := by
  have hmod : ∀ (x : State) (c : Nat) (f : Sense → Sense), watchParts (modSense x c f) = watchParts x := fun x c f => by
    unfold modSense
    split <;> rfl
  have hresult : ∀ (x : State) (r : SenseResult), watchParts (senseResult x r) = watchParts x := fun x r => by
    unfold senseResult
    dsimp only
    split
    · rfl
    · exact hmod ..
  have hbusy : ∀ (x : State) (c : Nat), watchParts (fwPassBusy x c) = watchParts x := fun x c => by
    unfold fwPassBusy
    dsimp only
    split <;> exact hmod ..
  unfold takeSense
  exact (foldl_unchanged watchParts (fun x c => (hbusy ..).trans (hmod ..)) _ _).trans (foldl_unchanged watchParts hresult _ s)

/-- The pass of the monitor that both commands make. -/
theorem sensePass_below {s : State} (rs : List SenseResult) {temps : List TempReading} (hst : s.therm.stopping = none)
    (h : ∀ r ∈ temps, trips s r = false ∧ ∀ j, r.sensor ≠ .hub j) :
    let u := monitorTemps (setTherm (takeSense s rs) (fun b => { b with lastFwPass := now s })) temps
    u.therm.lastFwPass = now s ∧ u.therm.stopping = none ∧ u.rst.phase = s.rst.phase
      ∧ ∀ r ∈ temps, ∃ q ∈ temps, q.sensor = r.sensor ∧ aget u.therm.temps r.sensor = some q.value := by
  intro u
  have hsense := watchParts_takeSense s rs
  have hlim : (setTherm (takeSense s rs) (fun b => { b with lastFwPass := now s })).nv.hbmLimit = s.nv.hbmLimit :=
    congrArg (fun x => x.2.2.2.2) hsense
  have hstop : (setTherm (takeSense s rs) (fun b => { b with lastFwPass := now s })).therm.stopping = none :=
    (congrArg (fun x => x.2.1) hsense).trans hst
  have hphase : (setTherm (takeSense s rs) (fun b => { b with lastFwPass := now s })).rst.phase = s.rst.phase :=
    congrArg (fun x => x.2.2.2.1) hsense
  have hparts : watchParts u = watchParts (temps.foldl takeReading (setTherm (takeSense s rs) (fun b => { b with lastFwPass := now s }))) :=
    monitorTemps_below hstop (fun r hr => ⟨(trips_of_hbmLimit hlim r).trans (h r hr).1, (h r hr).2⟩)
  have hothers := takeReadings_others temps (setTherm (takeSense s rs) (fun b => { b with lastFwPass := now s }))
  have hall := (congrArg Prod.snd hparts).trans hothers
  refine ⟨congrArg (fun x => x.2.1) hall, (congrArg (fun x => x.1) hall).trans hstop, (congrArg (fun x => x.2.2.1) hall).trans hphase, fun r hr => ?_⟩
  obtain ⟨q, hq, hs, hv⟩ := takeReadings_shows temps (setTherm (takeSense s rs) (fun b => { b with lastFwPass := now s })) r hr
  have htemps : u.therm.temps
      = (temps.foldl takeReading (setTherm (takeSense s rs) (fun b => { b with lastFwPass := now s }))).therm.temps := congrArg Prod.fst hparts
  exact ⟨q, hq, hs, htemps ▸ hv⟩

/-! ## Host passes -/

theorem senseOf_modSense (s : State) (conv : Nat) (f : Sense → Sense) : senseOf (modSense s conv f) conv = f (senseOf s conv) := by
  unfold senseOf modSense
  by_cases h : conv < 640
  · rw [if_pos h, if_pos h, if_pos h, modRegion_eq, regionOf_setRegion]
  · rw [if_neg h, if_neg h, if_neg h]
    exact tget_tset_same _ _ _ _

theorem senseResult_miss (s : State) (r : SenseResult) : (senseOf (senseResult s r) r.conv).miss = (senseOf s r.conv).miss := by
  unfold senseResult
  dsimp only
  split
  · rfl
  · rw [senseOf_modSense]

theorem passDoneSense_miss (s : State) (conv : Nat) : (senseOf (passDoneSense s conv true) conv).miss = (senseOf s conv).miss := by
  unfold passDoneSense
  dsimp only
  rw [senseOf_modSense, if_pos rfl]
  split <;> rfl

/-- The results of a pass of one converter count no missed trigger. -/
theorem senseResults_miss {conv : Nat} (l : List SenseResult) (s : State) (h : ∀ r ∈ l, r.conv = conv) :
    (senseOf (l.foldl senseResult s) conv).miss = (senseOf s conv).miss := by
  induction l generalizing s with
  | nil => rfl
  | cons a l ih =>
    have ha : a.conv = conv := h a List.mem_cons_self
    refine (ih (senseResult s a) (fun r hr => h r (List.mem_cons_of_mem _ hr))).trans ?_
    rw [← ha]
    exact senseResult_miss s a

/-- A pass that runs: from the end of its delay, for the time of its entries. -/
def hostPassRun (s : State) (conv edge : Nat) (rs : List SenseResult) : State :=
  modSense (passDoneSense ((rs.filter (fun r => r.conv == conv && 16 ≤ r.entry)).foldl senseResult s) conv true) conv
    (fun q => { q with hostFrom := edge + fld (senseTrig s conv) 15 0, hostUntil := edge + fld (senseTrig s conv) 15 0 + passNs s conv true })

theorem hostPassOp_runs {s : State} {conv edge : Nat} (rs : List SenseResult) (ht : triggered s conv = true)
    (hb : (senseOf s conv).hostUntil ≤ edge) (hd : edge + fld (senseTrig s conv) 15 0 ≤ now s) :
    hostPassOp s conv edge rs = hostPassRun s conv edge rs :=
  (if_neg (by simp [ht])).trans ((if_neg (Nat.not_lt.mpr hb)).trans (if_neg (Nat.not_lt.mpr hd)))

theorem hostPassRun_miss (s : State) (conv edge : Nat) (rs : List SenseResult) :
    (senseOf (hostPassRun s conv edge rs) conv).miss = (senseOf s conv).miss := by
  have hmine : ∀ r ∈ rs.filter (fun r => r.conv == conv && 16 ≤ r.entry), r.conv = conv := fun r hr => by
    have := (List.mem_filter.mp hr).2
    simp only [Bool.and_eq_true, beq_iff_eq] at this
    exact this.1
  unfold hostPassRun
  rw [senseOf_modSense]
  exact (passDoneSense_miss _ conv).trans (senseResults_miss _ s hmine)

/-- Settles O32: below its levels the monitor takes readings alone; a host pass is missed, waits or runs. -/
theorem sensePasses : Obligations.SensePasses := by
  intro temps rs t s
  refine ⟨fun hrun hst htemps => ?_, fun conv edge hconv => ?_⟩
  · obtain ⟨hlast, hstop, hphase, htaken⟩ := sensePass_below (s := advance t s) rs hst htemps
    have hgo : ¬(!firmwareRuns (advance t s)) = true := by rw [show firmwareRuns (advance t s) = true from hrun]; decide
    have hup : ¬(s.rst.phase = .inReset ∨ s.rst.phase = .latched) := by
      rintro (h | h) <;> simp [firmwareRuns, h] at hrun
    refine ⟨⟨_, next_congr (if_neg hgo), hlast, hstop, hphase, htaken⟩, fun hdue => ⟨_, next_congr (if_neg ?_), hlast, hstop, htaken⟩,
      fun hearly => next_congr (if_pos (Or.inr (Or.inr hearly)))⟩
    rintro (h | h | h)
    · exact hup (Or.inl h)
    · exact hup (Or.inr h)
    · exact absurd hdue (Nat.not_le.mpr h)
  · intro n q delay
    have hexec : exec (.hostSensePass conv edge rs t) s = .next (hostPassOp (advance t s) conv edge rs) := if_pos hconv
    rw [hexec]
    have htrig : triggered (advance t s) conv = triggered s conv := rfl
    refine ⟨fun hno => next_congr (if_pos (by simp [htrig, hno])), fun hyes hbusy => ?_, fun hyes hfree hearly => ?_, fun hyes hfree hdue => ?_⟩
    · refine ⟨_, next_congr ((if_neg (by simp [htrig, hyes])).trans (if_pos hbusy)), ?_⟩
      exact (senseOf_modSense (advance t s) conv _).trans rfl
    · exact next_congr ((if_neg (by simp [htrig, hyes])).trans ((if_neg (Nat.not_lt.mpr hfree)).trans (if_pos hearly)))
    · refine ⟨_, next_congr (hostPassOp_runs (s := advance t s) rs hyes hfree hdue), ?_⟩
      have hq : senseOf (hostPassRun (advance t s) conv edge rs) conv = _ := senseOf_modSense _ conv _
      exact ⟨congrArg Sense.hostFrom hq, congrArg Sense.hostUntil hq, hostPassRun_miss (advance t s) conv edge rs⟩

end Sys2Proof.Proofs
/-! # Skim products: what a product leaves in its core and in its bank -/
namespace Sys2Proof.Proofs

open Sys2Proof.Machine Sys2Proof.Safety Sys2Proof.Laws

/-! ## Banks -/

/-- What entering a product into bank `b` of core `ck` may change: that bank, counters of the core, spill slots and parked marks. -/
structure BankWrite (ck b : Nat) (s u : State) : Prop where
  state : u = { s with cores := u.cores, regions := u.regions }
  others : ∀ j, j ≠ ck → coreOf u j = { coreOf s j with parked := (coreOf u j).parked }
  core : coreOf u ck = { coreOf s ck with banks := (coreOf u ck).banks, parked := (coreOf u ck).parked, accSat := (coreOf u ck).accSat,
                                          spills := (coreOf u ck).spills }
  banks : ∀ n, n ≠ b → bankOf (coreOf u ck) n = bankOf (coreOf s ck) n

theorem BankWrite.refl (ck b : Nat) (s : State) : BankWrite ck b s s := ⟨rfl, fun _ _ => rfl, rfl, fun _ _ => rfl⟩

theorem BankWrite.trans {ck b : Nat} {s u v : State} (h : BankWrite ck b s u) (g : BankWrite ck b u v) : BankWrite ck b s v := by
  refine ⟨g.state.trans ?_, fun j hj => (g.others j hj).trans ?_, g.core.trans ?_, fun n hn => (g.banks n hn).trans (h.banks n hn)⟩
  · rw [h.state]
  · rw [h.others j hj]
  · rw [h.core]

theorem coreOf_of_cores {s u : State} (h : u.cores = s.cores) (j : Nat) : coreOf u j = coreOf s j := by
  unfold coreOf
  rw [h]

theorem bankOf_setBank (c : Core) (b : Nat) (x : Bank) : bankOf (setBank c b x) b = x := tget_tset_same _ _ _ _

theorem bankOf_setBank_ne (c : Core) {b n : Nat} (x : Bank) (h : n ≠ b) : bankOf (setBank c b x) n = bankOf c n := tget_tset_ne _ _ _ h

/-- A state whose cores are those of `s` but for core `ck`. -/
theorem coreOf_written {s u : State} {ck : Nat} {c : Core} (h : u.cores = (setCore s ck c).cores) :
    coreOf u ck = c ∧ ∀ j, j ≠ ck → coreOf u j = coreOf s j :=
  ⟨(coreOf_of_cores h ck).trans (coreOf_setCore ..), fun _ hj => (coreOf_of_cores h _).trans (coreOf_setCore_ne _ _ hj)⟩

/-- Writing one bank of a core, and counters, is such a change; so is any change of the regions. -/
theorem BankWrite.of_core {ck b : Nat} {s u : State} {c : Core} {x : Bank} (hs : u = { s with cores := u.cores, regions := u.regions })
    (hu : u.cores = (setCore s ck c).cores) (hb : c.banks = (setBank (coreOf s ck) b x).banks)
    (hc : c = { coreOf s ck with banks := c.banks, parked := c.parked, accSat := c.accSat, spills := c.spills }) : BankWrite ck b s u := by
  obtain ⟨hsame, hne⟩ := coreOf_written hu
  refine ⟨hs, fun j hj => ?_, ?_, fun m hm => ?_⟩
  · rw [hne j hj]
  · rw [hsame]
    exact hc
  · rw [hsame]
    unfold bankOf
    rw [hb]
    exact bankOf_setBank_ne _ _ hm

theorem BankWrite.unpark (ck b : Nat) (s : State) (g : Region) (slot : Nat) : BankWrite ck b s (unpark s g slot) := by
  have hmod : ∀ (k p : Nat), BankWrite ck b s (modCore s k (fun c => { c with parked := p })) := fun k p => by
    refine ⟨rfl, fun j hj => ?_, ?_, fun n _ => ?_⟩
    · by_cases h : j = k
      · subst h
        rw [modCore_eq, coreOf_setCore]
      · rw [modCore_eq, coreOf_setCore_ne _ _ h]
    · by_cases h : ck = k
      · subst h
        rw [modCore_eq, coreOf_setCore]
      · rw [modCore_eq, coreOf_setCore_ne _ _ h]
    · by_cases h : ck = k
      · subst h
        rw [modCore_eq, coreOf_setCore]
        rfl
      · rw [modCore_eq, coreOf_setCore_ne _ _ h]
  unfold Machine.unpark
  split
  · exact hmod ..
  · exact BankWrite.refl ..

theorem setLane_desc (b : Bank) (i : Nat) (x : Lane) : (setLane b i x).desc = b.desc := rfl

theorem reloadLanes_desc (slot : Nat) (g : Region) (l : List Nat) (b : Bank) : (reloadLanes slot g b l).desc = b.desc := by
  induction l generalizing b with
  | nil => rfl
  | cons i l ih =>
    rw [reloadLanes, ih]
    unfold reloadLane
    split
    · extract_lets p l
      exact setLane_desc b i _
    · exact setLane_desc b i _

/-- Opening the bank of a product: it holds the product's descriptor, and lanes that stay its own. -/
theorem openBank_spec (s : State) (r : StrobeReq) (width : Nat) :
    BankWrite r.core r.acc.bank s (openBank s r width)
      ∧ (bankOf (coreOf (openBank s r width) r.core) r.acc.bank).desc = some r.acc
      ∧ ((bankOf (coreOf s r.core) r.acc.bank).desc = some r.acc ∨ r.acc.resume = false →
          (bankOf (coreOf (openBank s r width) r.core) r.acc.bank).lanes = (bankOf (coreOf s r.core) r.acc.bank).lanes) := by
  unfold openBank
  extract_lets rk g b0 sp b1 b2 s1 c
  split
  next hre =>
    have hw : BankWrite r.core r.acc.bank s1 (setRegion (setCore s1 r.core
        { setBank c r.acc.bank b2 with accSat := satAdd 32 c.accSat (newSat b0 b2 width) }) rk (spillClear g sp)) :=
      BankWrite.of_core (x := b2) rfl rfl rfl rfl
    refine ⟨(BankWrite.unpark r.core r.acc.bank s g sp).trans hw, ?_, fun hsame => ?_⟩
    · refine (congrArg (fun c : Core => (bankOf c r.acc.bank).desc) (coreOf_written (s := s1) rfl).1).trans ?_
      exact (congrArg Bank.desc (bankOf_setBank c r.acc.bank b2)).trans (reloadLanes_desc ..)
    · rw [Bool.and_eq_true, bne_iff_ne] at hre
      rcases hsame with hd | hr
      · exact absurd hd hre.1
      · exact absurd hre.2 (by simp [hr])
  · refine ⟨BankWrite.of_core (x := b1) rfl rfl rfl rfl, ?_, fun _ => ?_⟩
    · rw [modCore_eq, coreOf_setCore]
      exact congrArg Bank.desc (bankOf_setBank _ _ b1)
    · rw [modCore_eq, coreOf_setCore]
      exact (congrArg Bank.lanes (bankOf_setBank _ _ b1)).trans rfl

theorem enterLanes_desc (sat : Bool) (e : Int) (ys : List Int) (i : Nat) (b : Bank) : (enterLanes b sat e i ys).desc = b.desc := by
  induction ys generalizing i b with
  | nil => rfl
  | cons y ys ih => exact (ih _ _).trans rfl

theorem promoteLanes_desc (l : List Nat) (b : Bank) : (promoteLanes b l).desc = b.desc := by
  induction l generalizing b with
  | nil => rfl
  | cons i l ih => exact (ih _).trans rfl

theorem clearLanes_desc (l : List Nat) (b : Bank) : (clearLanes b l).desc = b.desc := by
  induction l generalizing b with
  | nil => rfl
  | cons i l ih => exact (ih _).trans rfl

/-- An accepted product enters its bank under its descriptor. -/
theorem acceptProduct_spec (s : State) (r : StrobeReq) (ys : List Int) (e : Int) (sat : Bool) :
    BankWrite r.core r.acc.bank s (acceptProduct s r ys e sat)
      ∧ (bankOf (coreOf (acceptProduct s r ys e sat) r.core) r.acc.bank).desc = some r.acc := by
  obtain ⟨hopen, hdesc, _⟩ := openBank_spec s r ys.length
  unfold acceptProduct
  extract_lets x rk c g b0 sp b1 overs b2 spilled g1
  have hw : BankWrite r.core r.acc.bank x (setRegion (setCore x r.core
      { setBank c r.acc.bank (clearLanes b2 overs) with
        spills := satAdd 32 c.spills (if overs = [] then 0 else 1),
        accSat := satAdd 32 c.accSat (newSat b0 b2 ys.length + spillSat sp g b2 overs) }) rk g1) :=
    BankWrite.of_core (x := clearLanes b2 overs) rfl rfl rfl rfl
  refine ⟨hopen.trans hw, ?_⟩
  refine (congrArg (fun c : Core => (bankOf c r.acc.bank).desc) (coreOf_written (s := x) rfl).1).trans ?_
  refine (congrArg Bank.desc (bankOf_setBank c r.acc.bank (clearLanes b2 overs))).trans ?_
  exact (clearLanes_desc _ _).trans ((promoteLanes_desc _ _).trans ((enterLanes_desc _ _ _ _ _).trans hdesc))

/-! ## What a product leaves in its core -/

/-- The parts of a core that a product's statement speaks of, besides its banks. -/
structure Noted (c d : Core) (h : Held) (rest : List Held) (near : Nat) : Prop where
  held : d.held = rest
  near : d.nearCount = satAdd 32 c.nearCount near
  clamps : d.clampCount = satAdd 32 c.clampCount (clampCount h.req.seg h.req.rows)
  fails : d.failCount = c.failCount
  banks : d.banks = c.banks
  groups : d.groupFails = c.groupFails
  conv : d.failedConv = c.failedConv

theorem notedProduct_noted (s : State) (ck : Nat) (h : Held) (rest : List Held) (pk : Nat) (d : PlaneDesc) (near : Nat) (sat : Bool) :
    Noted (coreOf s ck) (notedProduct s ck h rest pk d near sat) h rest near := by
  have hprec : ∀ (c : Core) (n m : Nat) (l : Option LayerRec), Noted (coreOf s ck) c h rest near →
      Noted (coreOf s ck) (precisionEvents c n m l) h rest near := fun c n m l hc => by
    unfold precisionEvents
    dsimp only
    split
    · exact ⟨hc.held, hc.near, hc.clamps, hc.fails, hc.banks, hc.groups, hc.conv⟩
    · exact hc
  have htrack : ∀ (c : Core) (dT : Int) (t p q : Nat) (e : PlaneDesc) (l : List Nat) (vs : List Conv), Noted (coreOf s ck) c h rest near →
      Noted (coreOf s ck) (monitorTrack c dT t p q e l vs) h rest near := fun c dT t p q e l vs hc => by
    unfold monitorTrack
    split
    · exact ⟨hc.held, hc.near, hc.clamps, hc.fails, hc.banks, hc.groups, hc.conv⟩
    · exact hc
  unfold notedProduct
  exact htrack _ _ _ _ _ _ _ _ (hprec _ _ _ _ ⟨rfl, rfl, rfl, rfl, rfl, rfl, rfl⟩)

/-- What every product but one that passes leaves outside its own counters: the bank takes the descriptor unless the product is
discarded, and no other core changes but for its parked marks. -/
def Outside (s : State) (ck : Nat) (h : Held) (disc : Bool) (u : State) : Prop :=
  (disc = true → (coreOf u ck).banks = (coreOf s ck).banks)
    ∧ (disc = false → (bankOf (coreOf u ck) h.req.acc.bank).desc = some h.req.acc
        ∧ ((bankOf (coreOf s ck) h.req.acc.bank).desc = some h.req.acc ∨ h.req.acc.resume = false →
            (bankOf (coreOf u ck) h.req.acc.bank).lanes = (bankOf (coreOf s ck) h.req.acc.bank).lanes)
        ∧ ∀ n, n ≠ h.req.acc.bank → bankOf (coreOf u ck) n = bankOf (coreOf s ck) n)
    ∧ (∀ j, j ≠ ck → coreOf u j = { coreOf s j with parked := (coreOf u j).parked })
    ∧ u = { s with cores := u.cores, regions := u.regions, faults := u.faults }

theorem bankOf_of_banks {c d : Core} (h : d.banks = c.banks) (n : Nat) : bankOf d n = bankOf c n := by
  unfold bankOf
  rw [h]

/-- Counters and faults do not matter to it. -/
theorem Outside.congr {s x u : State} {ck : Nat} {h : Held} {disc : Bool} (ho : Outside s ck h disc x)
    (hb : (coreOf u ck).banks = (coreOf x ck).banks) (hj : ∀ j, j ≠ ck → coreOf u j = coreOf x j)
    (hu : u = { x with cores := u.cores, regions := u.regions, faults := u.faults }) : Outside s ck h disc u := by
  obtain ⟨h1, h2, h3, h4⟩ := ho
  refine ⟨fun hd => hb.trans (h1 hd), fun hd => ?_, fun j hne => ?_, hu.trans ?_⟩
  · obtain ⟨hdesc, hlanes, hrest⟩ := h2 hd
    simp only [bankOf_of_banks hb]
    exact ⟨hdesc, hlanes, hrest⟩
  · rw [hj j hne]
    exact h3 j hne
  · rw [h4]

/-- The state of a failed product before its consequences: its core is written, and its bank opened unless the product is discarded. -/
def openedProduct (s : State) (ck : Nat) (c : Core) (h : Held) (width : Nat) (disc : Bool) : State :=
  if disc = true then setCore s ck c else openBank (setCore s ck c) h.req width

theorem openedProduct_spec {s : State} {ck : Nat} {c : Core} {h : Held} (width : Nat) (disc : Bool) (hck : h.req.core = ck)
    (hb : c.banks = (coreOf s ck).banks) :
    Outside s ck h disc (openedProduct s ck c h width disc)
      ∧ coreOf (openedProduct s ck c h width disc) ck
        = { c with banks := (coreOf (openedProduct s ck c h width disc) ck).banks, parked := (coreOf (openedProduct s ck c h width disc) ck).parked,
                   accSat := (coreOf (openedProduct s ck c h width disc) ck).accSat,
                   spills := (coreOf (openedProduct s ck c h width disc) ck).spills } := by
  subst hck
  cases disc with
  | true =>
    have hx : openedProduct s h.req.core c h width true = setCore s h.req.core c := if_pos rfl
    rw [hx]
    refine ⟨⟨fun _ => ?_, fun hd => Bool.noConfusion hd, fun j hj => ?_, rfl⟩, ?_⟩
    · rw [coreOf_setCore]
      exact hb
    · rw [coreOf_setCore_ne _ _ hj]
    · rw [coreOf_setCore]
  | false =>
    have hx : openedProduct s h.req.core c h width false = openBank (setCore s h.req.core c) h.req width := if_neg (by simp)
    rw [hx]
    obtain ⟨hw, hdesc, hlanes⟩ := openBank_spec (setCore s h.req.core c) h.req width
    have hcore := hw.core
    have hbanks := hw.banks
    have hold : ∀ n, bankOf (coreOf (setCore s h.req.core c) h.req.core) n = bankOf (coreOf s h.req.core) n := fun n => by
      rw [coreOf_setCore]
      exact bankOf_of_banks hb n
    refine ⟨⟨fun hd => Bool.noConfusion hd, fun _ => ⟨hdesc, fun hs => ?_, fun n hn => (hbanks n hn).trans (hold n)⟩, fun j hj => ?_, ?_⟩, ?_⟩
    · rw [hold] at hlanes
      exact hlanes hs
    · refine (hw.others j hj).trans ?_
      rw [coreOf_setCore_ne _ _ hj]
    · refine hw.state.trans ?_
      rw [hw.state]
      rfl
    · rw [coreOf_setCore] at hcore
      exact hcore

/-- The core of a failed product. -/
def failedCore (s : State) (ck : Nat) (h : Held) (rest : List Held) (pk : Nat) (d : PlaneDesc) (near : Nat) (cause : Cause) : Core :=
  let c := notedProduct s ck h rest pk d near (segmentSat h)
  { c with failCount := satAdd 32 c.failCount 1, stFailed := true, lastCause := causeCode cause,
           summary := { c.summary with failed := c.summary.failed ++ [(cause, h.req.rid)] },
           sample := if auditEn s && inAuditSet s ck h.req.tile h.req.plane then c.sample.map (· - 1) else c.sample }

theorem failProduct_eq (s : State) (ck : Nat) (h : Held) (rest : List Held) (pk : Nat) (d : PlaneDesc) (near : Nat) (cause : Cause) :
    failProduct s ck h rest pk d near cause
      = productFailed (openedProduct s ck (failedCore s ck h rest pk d near cause) h (outputCols d) (discards s h pk)) ck cause := rfl

/-- A checksum or range event with none in the last 10 s fences nothing: it is noted and makes the core's test due. -/
theorem productFailed_first {s : State} {ck : Nat} {e : Cause} (he : e = .checksum ∨ e = .overrange)
    (h0 : eventsWithin s e ck 10000000000 = 0) : productFailed s ck e = testDueNow (noteEvent s e ck) ck := by
  have hone : eventsWithin (testDueNow (noteEvent s e ck) ck) e ck tenSeconds ≤ 1 := by
    have hev : eventsWithin (testDueNow (noteEvent s e ck) ck) e ck tenSeconds
        = (((e, ck, now s) :: s.faults.events.filter (fun x => now s ≤ x.2.2 + oneHour)).filter
            (fun x => x.1 == e && x.2.1 == ck && now s ≤ x.2.2 + 10000000000)).length := rfl
    have hsub : (s.faults.events.filter (fun x => now s ≤ x.2.2 + oneHour)).filter
        (fun x => x.1 == e && x.2.1 == ck && now s ≤ x.2.2 + 10000000000) = [] := by
      refine List.filter_eq_nil_iff.mpr (fun x hx => ?_)
      exact List.filter_eq_nil_iff.mp (List.length_eq_zero_iff.mp h0) x (List.mem_filter.mp hx).1
    rw [hev, List.filter_cons, hsub]
    split <;> simp
  unfold productFailed
  rcases he with rfl | rfl
  · exact if_neg (by omega)
  · exact if_neg (by omega)

/-! ## A product that passes -/

theorem auditSample_noted {c d : Core} {h : Held} {rest : List Held} {near : Nat} (n draw : Nat) (x : AuditSlot) (hd : Noted c d h rest near) :
    Noted c (auditSample n draw x d) h rest near := by
  unfold auditSample
  dsimp only
  split
  · exact ⟨hd.held, hd.near, hd.clamps, hd.fails, hd.banks, hd.groups, hd.conv⟩
  · split
    · exact ⟨hd.held, hd.near, hd.clamps, hd.fails, hd.banks, hd.groups, hd.conv⟩
    · exact ⟨hd.held, hd.near, hd.clamps, hd.fails, hd.banks, hd.groups, hd.conv⟩

/-- Noting the words of a compared product writes a tile's window, and the comparison. -/
theorem noteDual_spec (s : State) (ck : Nat) (h : Held) (d : PlaneDesc) (ys : List Int) :
    coreOf (noteDual s ck h d ys) ck = { coreOf s ck with tiles := (coreOf (noteDual s ck h d ys) ck).tiles }
      ∧ (∀ j, j ≠ ck → coreOf (noteDual s ck h d ys) j = coreOf s j)
      ∧ noteDual s ck h d ys = { s with cores := (noteDual s ck h d ys).cores, faults := (noteDual s ck h d ys).faults } := by
  unfold noteDual
  split
  · exact ⟨rfl, fun _ _ => rfl, rfl⟩
  · have hown : ∀ {u : State} {c : Core}, coreOf u ck = c → c = { coreOf s ck with tiles := c.tiles } →
        coreOf u ck = { coreOf s ck with tiles := (coreOf u ck).tiles } := fun h e => h ▸ e
    exact ⟨hown (coreOf_written (s := s) rfl).1 rfl, (coreOf_written (s := s) rfl).2, rfl⟩

/-- What a product that passes leaves. -/
structure Passed (s : State) (ck : Nat) (h : Held) (rest : List Held) (near : Nat) (disc : Bool) (u : State) : Prop where
  held : (coreOf u ck).held = rest
  fails : (coreOf u ck).failCount = (coreOf s ck).failCount
  clamps : (coreOf u ck).clampCount = satAdd 32 (coreOf s ck).clampCount (clampCount h.req.seg h.req.rows)
  near : (coreOf u ck).nearCount = satAdd 32 (coreOf s ck).nearCount near
  desc : disc = false → (bankOf (coreOf u ck) h.req.acc.bank).desc = some h.req.acc
  banks : disc = true → (coreOf u ck).banks = (coreOf s ck).banks
  others : ∀ j, j ≠ ck → coreOf u j = { coreOf s j with parked := (coreOf u j).parked }
  state : u = { s with cores := u.cores, regions := u.regions, faults := u.faults, free := u.free }

/-- A product that is discarded leaves its core's counters alone. -/
theorem Passed.of_discarded {s x : State} {h : Held} {c : Core} {rest : List Held} {near : Nat} (hc : Noted (coreOf s h.req.core) c h rest near)
    (hx : x.cores = (setCore s h.req.core c).cores) (hs : x = { s with cores := x.cores, free := x.free }) :
    Passed s h.req.core h rest near true x := by
  obtain ⟨hsame, hne⟩ := coreOf_written hx
  refine ⟨hsame ▸ hc.held, hsame ▸ hc.fails, hsame ▸ hc.clamps, hsame ▸ hc.near, fun hd => Bool.noConfusion hd, fun _ => hsame ▸ hc.banks,
    fun j hj => ?_, ?_⟩
  · rw [hne j hj]
  · rw [hs]

/-- A product that enters its bank changes the bank besides. -/
theorem Passed.of_accepted {s x : State} {h : Held} {c : Core} {rest : List Held} {near : Nat} (hc : Noted (coreOf s h.req.core) c h rest near)
    (hx : x.cores = (setCore s h.req.core c).cores) (hs : x = { s with cores := x.cores, free := x.free }) (d : PlaneDesc) (ys zs : List Int)
    (e : Int) (sat : Bool) :
    Passed s h.req.core h rest near false (acceptProduct (noteDual x h.req.core h d ys) h.req zs e sat) := by
  obtain ⟨hsame, hne⟩ := coreOf_written hx
  obtain ⟨hown, hother, hstate⟩ := noteDual_spec x h.req.core h d ys
  obtain ⟨hw, hdesc⟩ := acceptProduct_spec (noteDual x h.req.core h d ys) h.req zs e sat
  rw [hsame] at hown
  have hcore := hw.core
  rw [hown] at hcore
  refine ⟨?_, ?_, ?_, ?_, fun _ => hdesc, fun hd => Bool.noConfusion hd, fun j hj => ?_, hw.state.trans ?_⟩
  · rw [hcore]
    exact hc.held
  · rw [hcore]
    exact hc.fails
  · rw [hcore]
    exact hc.clamps
  · rw [hcore]
    exact hc.near
  · refine (hw.others j hj).trans ?_
    rw [hother j hj, hne j hj]
  · rw [hw.state, hstate, hs]

theorem passProduct_passed (s : State) {ck : Nat} {h : Held} (rest : List Held) (pk : Nat) (d : PlaneDesc) (near : Nat) (hck : h.req.core = ck) :
    Passed s ck h rest near (discards s h pk) (passProduct s ck h rest pk d near) := by
  subst hck
  unfold passProduct
  extract_lets c rg y sat c3 audited c4 s1 s2
  have h3 : Noted (coreOf s h.req.core) c3 h rest near := notedProduct_noted ..
  have h4 : Noted (coreOf s h.req.core) c4 h rest near := by
    dsimp only [c4]
    split
    · exact auditSample_noted _ _ _ h3
    · exact h3
  have hcores : s2.cores = (setCore s h.req.core c4).cores := by
    dsimp only [s2]
    split <;> rfl
  have hstate : s2 = { s with cores := s2.cores, free := s2.free } := by
    dsimp only [s2]
    split <;> rfl
  cases hd : discards s h pk with
  | true => exact Passed.of_discarded h4 hcores hstate
  | false => exact Passed.of_accepted h4 hcores hstate _ _ _ _ _

/-! ## The command -/

/-- The slot tag of a product is right, or its plane has no skim rows. -/
def ProductTagOk (s : State) (ck : Nat) (h : Held) : Prop :=
  (descOf s (planeKey (tileKey ck h.req.tile) h.phys)).skimValid = 0
    ∨ (h.req.skimSlot ≠ 0xFFFF ∧ leNat (mread (coreOf s ck).scratch (16 * h.req.skimSlot) 8)
        = planeTag s (planeKey (tileKey ck h.req.tile) h.phys))

/-- The verdict of the checksum groups on a product's strobes, and how many strobes came near their bound. -/
def productVerdict (s : State) (ck : Nat) (h : Held) : Option Cause × Nat :=
  let pk := planeKey (tileKey ck h.req.tile) h.phys
  let rg := regionOf s (coreRegion ck)
  checkStrobes s (coreOf s ck) (rg.tNow - rg.tCal) h.req.tile pk (descOf s pk) ((drivenRows (descOf s pk) h.req.seg h.req.rows).map (·.1))
    (((layerRec s h.req.slot h.req.layer).map tauOf).getD 0x01F0) h.convs (none, 0)

/-- The checksum groups of a product that failed. -/
def productGroups (s : State) (ck : Nat) (h : Held) : List Nat :=
  let pk := planeKey (tileKey ck h.req.tile) h.phys
  let rg := regionOf s (coreRegion ck)
  failedGroups s (coreOf s ck) (rg.tNow - rg.tCal) h.req.tile pk (descOf s pk) ((drivenRows (descOf s pk) h.req.seg h.req.rows).map (·.1))
    (((layerRec s h.req.slot h.req.layer).map tauOf).getD 0x01F0) h.convs

/-- The groups that have failed on each core, with those of this product. -/
def groupFailsWith (fails : Tbl Nat) (tile : Nat) (groups : List Nat) : Tbl Nat :=
  groups.foldl (fun m n => tset 0 m n (Nat.lor (tget 0 m n) (2 ^ tile))) fails

section Command

variable {s : State} {ck : Nat} {h : Held} {rest : List Held}

theorem skimOp_idle (filling : Bool) (hh : (coreOf s ck).held = []) : skimOp s ck filling = s := by
  unfold skimOp
  dsimp only
  rw [hh]

theorem skimOp_untagged (filling : Bool) (hh : (coreOf s ck).held = h :: rest) (ht : ¬ProductTagOk s ck h) :
    skimOp s ck filling = if filling = true then s
      else failProduct s ck h rest (planeKey (tileKey ck h.req.tile) h.phys) (descOf s (planeKey (tileKey ck h.req.tile) h.phys)) 0 .skimSlot := by
  unfold skimOp
  dsimp only
  rw [hh]
  exact if_neg ht

theorem skimOp_fails {e : Cause} {near : Nat} (filling : Bool) (hh : (coreOf s ck).held = h :: rest) (ht : ProductTagOk s ck h)
    (hs : h.skipped = false) (hv : productVerdict s ck h = (some e, near)) :
    skimOp s ck filling
      = attributeGroups (failProduct s ck h rest (planeKey (tileKey ck h.req.tile) h.phys)
          (descOf s (planeKey (tileKey ck h.req.tile) h.phys)) near e) ck h.req.tile (productGroups s ck h) := by
  unfold skimOp
  dsimp only
  rw [hh]
  refine (if_pos ht).trans ((if_neg (by simp [hs])).trans ?_)
  split
  next e' near' hv' =>
    cases hv'.symm.trans hv
    rfl
  next near' hv' => exact absurd (hv'.symm.trans hv) (by simp)

theorem skimOp_passes {near : Nat} (filling : Bool) (hh : (coreOf s ck).held = h :: rest) (ht : ProductTagOk s ck h)
    (hv : if h.skipped = true then near = 0 else productVerdict s ck h = (none, near)) :
    skimOp s ck filling
      = passProduct s ck h rest (planeKey (tileKey ck h.req.tile) h.phys) (descOf s (planeKey (tileKey ck h.req.tile) h.phys)) near := by
  unfold skimOp
  dsimp only
  rw [hh]
  refine (if_pos ht).trans ?_
  by_cases hs : h.skipped = true
  · rw [if_pos hs] at hv
    rw [hv]
    exact if_pos hs
  · rw [if_neg hs] at hv
    refine (if_neg hs).trans ?_
    split
    next e' near' hv' => exact absurd (hv'.symm.trans hv) (by simp)
    next near' hv' =>
      cases hv'.symm.trans hv
      rfl

/-- What the consequences of a failed product leave of its core. -/
theorem productFailed_keeps (s : State) (ck : Nat) (e : Cause) :
    (coreOf (productFailed s ck e) ck).groupFails = (coreOf s ck).groupFails
      ∧ (coreOf (productFailed s ck e) ck).failedConv = (coreOf s ck).failedConv ∧ (productFailed s ck e).free = s.free := by
  have hdue : ∀ x : State, x.cores = s.cores → x.free = s.free → (coreOf (testDueNow x ck) ck).groupFails = (coreOf s ck).groupFails
      ∧ (coreOf (testDueNow x ck) ck).failedConv = (coreOf s ck).failedConv ∧ (testDueNow x ck).free = s.free := fun x hx hf => by
    have hc : coreOf (testDueNow x ck) ck = { coreOf x ck with testDue := true } := coreOf_setCore ..
    rw [hc, coreOf_of_cores hx]
    exact ⟨rfl, rfl, hf⟩
  have hfence : ∀ (x : State) (b : Prop) [Decidable b] (cause : Cause),
      (if b then fenceFor x (unitOfCore ck) cause 0 else x).cores = x.cores ∧ (if b then fenceFor x (unitOfCore ck) cause 0 else x).free = x.free := by
    intro x b _ cause
    split
    · have hb := besidesRetire_fenceFor x (unitOfCore ck) cause 0
      exact ⟨(congrArg State.cores hb : _), (congrArg State.free hb : _)⟩
    · exact ⟨rfl, rfl⟩
  have hboth : ∀ (b : Prop) [Decidable b] (cause : Cause),
      (coreOf (if b then fenceFor (testDueNow (noteEvent s e ck) ck) (unitOfCore ck) cause 0 else testDueNow (noteEvent s e ck) ck) ck).groupFails
          = (coreOf s ck).groupFails
        ∧ (coreOf (if b then fenceFor (testDueNow (noteEvent s e ck) ck) (unitOfCore ck) cause 0 else testDueNow (noteEvent s e ck) ck) ck).failedConv
          = (coreOf s ck).failedConv
        ∧ (if b then fenceFor (testDueNow (noteEvent s e ck) ck) (unitOfCore ck) cause 0 else testDueNow (noteEvent s e ck) ck).free = s.free := by
    intro b _ cause
    obtain ⟨hc, hf⟩ := hfence (testDueNow (noteEvent s e ck) ck) b cause
    obtain ⟨h1, h2, h3⟩ := hdue (noteEvent s e ck) rfl rfl
    rw [coreOf_of_cores hc, hf]
    exact ⟨h1, h2, h3⟩
  unfold productFailed
  dsimp only
  split
  · exact hboth _ _
  · exact hboth _ _
  · exact ⟨rfl, rfl, rfl⟩

end Command

theorem attributeGroups_none {s : State} {ck tile : Nat} {groups : List Nat}
    (h : suspectOf (groupFailsWith (coreOf s ck).groupFails tile groups) (drawNat s) = none) :
    attributeGroups s ck tile groups = modCore s ck (fun c => { c with groupFails := groupFailsWith c.groupFails tile groups }) := by
  have hg : (coreOf (modCore s ck (fun c => { c with groupFails := groupFailsWith c.groupFails tile groups })) ck).groupFails
      = groupFailsWith (coreOf s ck).groupFails tile groups := by rw [modCore_eq, coreOf_setCore]
  unfold attributeGroups
  dsimp only
  split
  next k hk => exact absurd (hk.symm.trans ((congrArg (suspectOf · (drawNat s)) hg).trans h)) (by simp)
  next => rfl

theorem attributeGroups_some {s : State} {ck tile k : Nat} {groups : List Nat}
    (h : suspectOf (groupFailsWith (coreOf s ck).groupFails tile groups) (drawNat s) = some k) :
    attributeGroups s ck tile groups
      = converterFailed (drawn (modCore s ck (fun c => { c with groupFails := groupFailsWith c.groupFails tile groups }))) ck k := by
  have hg : (coreOf (modCore s ck (fun c => { c with groupFails := groupFailsWith c.groupFails tile groups })) ck).groupFails
      = groupFailsWith (coreOf s ck).groupFails tile groups := by rw [modCore_eq, coreOf_setCore]
  unfold attributeGroups
  dsimp only
  split
  next k' hk =>
    cases hk.symm.trans ((congrArg (suspectOf · (drawNat s)) hg).trans h)
    rfl
  next hk => exact absurd (hk.symm.trans ((congrArg (suspectOf · (drawNat s)) hg).trans h)) (by simp)

/-- A failed converter is noted, and its core fenced. -/
theorem converterFailed_spec (s : State) (ck k : Nat) :
    (coreOf (converterFailed s ck k) ck).convFault = true ∧ (coreOf (converterFailed s ck k) ck).failedConv = min (coreOf s ck).failedConv k
      ∧ unitFenced (converterFailed s ck k) (unitOfCore ck) = true := by
  have hb := besidesRetire_fenceFor (modCore s ck (fun c => { c with convFault := true, failedConv := min c.failedConv k })) (unitOfCore ck) .converter 0
  have hc : coreOf (converterFailed s ck k) ck = { coreOf s ck with convFault := true, failedConv := min (coreOf s ck).failedConv k } :=
    (coreOf_of_cores (congrArg State.cores hb : _) ck).trans (coreOf_setCore ..)
  rw [hc]
  exact ⟨rfl, rfl, unitFenced_fenceFor_core _ ck .converter 0⟩

theorem openedProduct_frame (s : State) (ck : Nat) (c : Core) (h : Held) (width : Nat) (disc : Bool) :
    (openedProduct s ck c h width disc).faults = s.faults ∧ (openedProduct s ck c h width disc).time = s.time
      ∧ (openedProduct s ck c h width disc).free = s.free := by
  unfold openedProduct
  split
  · exact ⟨rfl, rfl, rfl⟩
  · obtain ⟨hw, _⟩ := openBank_spec (setCore s ck c) h.req width
    rw [hw.state]
    exact ⟨rfl, rfl, rfl⟩

section Failed

variable {s : State} {ck : Nat} {h : Held} (rest : List Held) (pk : Nat) (d : PlaneDesc) (near : Nat)

/-- A product that fails on its slot tag is only counted. -/
theorem failProduct_skimSlot (hck : h.req.core = ck) :
    let u := failProduct s ck h rest pk d near .skimSlot
    (coreOf u ck).held = rest ∧ (coreOf u ck).lastCause = 3
      ∧ (coreOf u ck).clampCount = satAdd 32 (coreOf s ck).clampCount (clampCount h.req.seg h.req.rows)
      ∧ (coreOf u ck).failCount = satAdd 32 (coreOf s ck).failCount 1 ∧ Outside s ck h (discards s h pk) u := by
  intro u
  have hn := notedProduct_noted s ck h rest pk d near (segmentSat h)
  obtain ⟨hout, hcore⟩ := openedProduct_spec (s := s) (c := failedCore s ck h rest pk d near .skimSlot) (outputCols d) (discards s h pk) hck hn.banks
  have hu : coreOf u ck = coreOf (openedProduct s ck (failedCore s ck h rest pk d near .skimSlot) h (outputCols d) (discards s h pk)) ck := rfl
  refine ⟨?_, ?_, ?_, ?_, hout.congr rfl (fun _ _ => rfl) rfl⟩
  · rw [hu, hcore]
    exact hn.held
  · rw [hu, hcore]
    rfl
  · rw [hu, hcore]
    exact hn.clamps
  · rw [hu, hcore]
    exact congrArg (satAdd 32 · 1) hn.fails

theorem failProduct_keeps (e : Cause) (hck : h.req.core = ck) :
    (coreOf (failProduct s ck h rest pk d near e) ck).groupFails = (coreOf s ck).groupFails
      ∧ (coreOf (failProduct s ck h rest pk d near e) ck).failedConv = (coreOf s ck).failedConv
      ∧ drawNat (failProduct s ck h rest pk d near e) = drawNat s := by
  have hn := notedProduct_noted s ck h rest pk d near (segmentSat h)
  obtain ⟨_, hcore⟩ := openedProduct_spec (s := s) (c := failedCore s ck h rest pk d near e) (outputCols d) (discards s h pk) hck hn.banks
  obtain ⟨hg, hf, hfree⟩ := productFailed_keeps (openedProduct s ck (failedCore s ck h rest pk d near e) h (outputCols d) (discards s h pk)) ck e
  rw [failProduct_eq]
  refine ⟨hg.trans ?_, hf.trans ?_, ?_⟩
  · rw [hcore]
    exact hn.groups
  · rw [hcore]
    exact hn.conv
  · unfold drawNat
    rw [hfree, (openedProduct_frame ..).2.2]

/-- A first checksum or range event is counted, makes the core's test due and is attributed to its groups. -/
theorem failProduct_first {e : Cause} {tile : Nat} (groups : List Nat) (hck : h.req.core = ck) (he : e = .checksum ∨ e = .overrange)
    (h0 : eventsWithin s e ck 10000000000 = 0)
    (hs : suspectOf (groupFailsWith (coreOf s ck).groupFails tile groups) (drawNat s) = none) :
    let u := attributeGroups (failProduct s ck h rest pk d near e) ck tile groups
    (coreOf u ck).held = rest ∧ Outside s ck h (discards s h pk) u ∧ (coreOf u ck).failCount = satAdd 32 (coreOf s ck).failCount 1
      ∧ (coreOf u ck).testDue = true ∧ (coreOf u ck).nearCount = satAdd 32 (coreOf s ck).nearCount near
      ∧ (coreOf u ck).clampCount = satAdd 32 (coreOf s ck).clampCount (clampCount h.req.seg h.req.rows)
      ∧ (coreOf u ck).stFailed = true ∧ (coreOf u ck).groupFails = groupFailsWith (coreOf s ck).groupFails tile groups := by
  intro u
  have hn := notedProduct_noted s ck h rest pk d near (segmentSat h)
  obtain ⟨hout, hcore⟩ := openedProduct_spec (s := s) (c := failedCore s ck h rest pk d near e) (outputCols d) (discards s h pk) hck hn.banks
  obtain ⟨hfaults, htime, _⟩ := openedProduct_frame s ck (failedCore s ck h rest pk d near e) h (outputCols d) (discards s h pk)
  obtain ⟨hg, _, hdraw⟩ := failProduct_keeps (s := s) rest pk d near e hck
  have hu : u = modCore (failProduct s ck h rest pk d near e) ck (fun c => { c with groupFails := groupFailsWith c.groupFails tile groups }) :=
    attributeGroups_none (by rw [hg, hdraw]; exact hs)
  have hfirst : failProduct s ck h rest pk d near e
      = testDueNow (noteEvent (openedProduct s ck (failedCore s ck h rest pk d near e) h (outputCols d) (discards s h pk)) e ck) ck := by
    rw [failProduct_eq]
    refine productFailed_first he ?_
    unfold eventsWithin now
    rw [hfaults, htime]
    exact h0
  rw [hfirst] at hu hg
  generalize openedProduct s ck (failedCore s ck h rest pk d near e) h (outputCols d) (discards s h pk) = x at hout hcore hu hg
  have hdue : coreOf (testDueNow (noteEvent x e ck) ck) ck = { coreOf x ck with testDue := true } := coreOf_setCore ..
  have hown : coreOf u ck = { coreOf x ck with testDue := true, groupFails := groupFailsWith (coreOf s ck).groupFails tile groups } := by
    rw [hu, modCore_eq, coreOf_setCore, hg, hdue]
  have hoth : ∀ j, j ≠ ck → coreOf u j = coreOf x j := fun j hj => by
    rw [hu, modCore_eq, coreOf_setCore_ne _ _ hj]
    exact coreOf_setCore_ne _ _ hj
  refine ⟨?_, hout.congr ?_ hoth ?_, ?_, ?_, ?_, ?_, ?_, ?_⟩
  · rw [hown, hcore]
    exact hn.held
  · rw [hown]
  · rw [hu]
    rfl
  · rw [hown, hcore]
    exact congrArg (satAdd 32 · 1) hn.fails
  · rw [hown]
  · rw [hown, hcore]
    exact hn.near
  · rw [hown, hcore]
    exact hn.clamps
  · rw [hown, hcore]
    rfl
  · rw [hown]

end Failed

/-- Settles O36: a case for each of what a held product can come to. -/
theorem skimProducts : Obligations.SkimProducts := by
  intro ck t filling s hck
  have hexec : ∀ f, exec (.skimProduct ck f t) s = .next (skimOp (advance t s) ck f) := fun f => if_pos ⟨hck, by decide⟩
  refine ⟨fun hh => (hexec _).trans (next_congr (skimOp_idle (s := advance t s) _ hh)), fun h rest hh hcore => ?_⟩
  intro pk s1 d tagOk rg verdict fails outside clamps
  have hh' : (coreOf s1 ck).held = h :: rest := hh
  refine ⟨fun ht hf => ?_, fun ht hf => ?_, fun e near ht hsk hv he h0 hs => ?_, fun e near k ht hsk hv hs => ?_, fun near ht hv => ?_⟩
  · exact (hexec _).trans (next_congr ((skimOp_untagged filling hh' ht).trans (if_pos hf)))
  · obtain ⟨h1, h2, h3, h4, h5⟩ := failProduct_skimSlot (s := s1) rest pk d 0 hcore
    exact ⟨_, (hexec _).trans (next_congr ((skimOp_untagged filling hh' ht).trans (if_neg (by simp [hf])))), h1, h2, h3, h4, h5⟩
  · obtain ⟨h1, h2, h3, h4, h5, h6, h7, h8⟩ := failProduct_first (s := s1) rest pk d near (productGroups s1 ck h) hcore he h0 hs
    exact ⟨_, (hexec _).trans (next_congr (skimOp_fails filling hh' ht hsk hv)), h1, h2, h3, h4, h5, h6, h7, h8⟩
  · obtain ⟨hg, hc, hdraw⟩ := failProduct_keeps (s := s1) rest pk d near e hcore
    have hsome : suspectOf (groupFailsWith (coreOf (failProduct s1 ck h rest pk d near e) ck).groupFails h.req.tile (productGroups s1 ck h))
        (drawNat (failProduct s1 ck h rest pk d near e)) = some k := by
      rw [hg, hdraw]
      exact hs
    obtain ⟨h1, h2, h3⟩ := converterFailed_spec (drawn (modCore (failProduct s1 ck h rest pk d near e) ck
      (fun c => { c with groupFails := groupFailsWith c.groupFails h.req.tile (productGroups s1 ck h) }))) ck k
    refine ⟨_, (hexec _).trans (next_congr ((skimOp_fails filling hh' ht hsk hv).trans (attributeGroups_some hsome))), h1, h2.trans ?_, h3⟩
    have hm : coreOf (drawn (modCore (failProduct s1 ck h rest pk d near e) ck
        (fun c => { c with groupFails := groupFailsWith c.groupFails h.req.tile (productGroups s1 ck h) }))) ck
        = { coreOf (failProduct s1 ck h rest pk d near e) ck with
            groupFails := groupFailsWith (coreOf (failProduct s1 ck h rest pk d near e) ck).groupFails h.req.tile (productGroups s1 ck h) } :=
      coreOf_setCore ..
    rw [hm]
    exact congrArg (min · k) hc
  · have hp := passProduct_passed s1 rest pk d near hcore
    exact ⟨_, (hexec _).trans (next_congr (skimOp_passes filling hh' ht hv)), hp.held, hp.fails, hp.clamps, hp.near, hp.desc, hp.banks,
      hp.others, hp.state⟩

end Sys2Proof.Proofs
/-! # Dual comparisons and range monitors -/
namespace Sys2Proof.Proofs

open Sys2Proof.Machine Sys2Proof.Safety Sys2Proof.Laws

theorem coreOf_modCore (s : State) (k : Nat) (g : Core → Core) (j : Nat) :
    coreOf (modCore s k g) j = if j = k then g (coreOf s k) else coreOf s j := by
  rw [modCore_eq]
  split
  next h => rw [h, coreOf_setCore]
  next h => exact coreOf_setCore_ne _ _ h

/-- An alarm is noted in the running step, and nowhere else. -/
theorem alarm_spec (s : State) (u : UnitId) :
    alarm s u = { s with sched := { s.sched with step := (alarm s u).sched.step } }
      ∧ ∀ k, s.sched.step = some k → (alarm s u).sched.step = some { k with alarmed := addOnce k.alarmed u } := by
  unfold alarm failOutstanding
  cases hk : s.sched.step with
  | none =>
    exact ⟨rfl, fun k h => nomatch h⟩
  | some k => exact ⟨rfl, fun k' h => by cases h; rfl⟩

theorem alarm_frame (s : State) (u : UnitId) :
    (alarm s u).faults = s.faults ∧ (alarm s u).time = s.time ∧ (alarm s u).cores = s.cores := by
  unfold alarm failOutstanding
  split <;> exact ⟨rfl, rfl, rfl⟩

/-- A count of events within a window, with none before, is at most one after one more. -/
theorem eventsWithin_noteEvent_le (s : State) (cause c : Cause) (key k w : Nat) :
    eventsWithin (noteEvent s cause key) c k w ≤ (if cause = c ∧ key = k then 1 else 0) + eventsWithin s c k w := by
  have hev : eventsWithin (noteEvent s cause key) c k w
      = (((cause, key, now s) :: s.faults.events.filter (fun x => now s ≤ x.2.2 + oneHour)).filter
          (fun x => x.1 == c && x.2.1 == k && now s ≤ x.2.2 + w)).length := rfl
  have hle : ((s.faults.events.filter (fun x => now s ≤ x.2.2 + oneHour)).filter
      (fun x => x.1 == c && x.2.1 == k && now s ≤ x.2.2 + w)).length ≤ eventsWithin s c k w := by
    rw [List.filter_comm]
    exact List.length_filter_le _ _
  rw [hev, List.filter_cons]
  by_cases hk : cause = c ∧ key = k
  · rw [if_pos hk]
    split
    · rw [List.length_cons]
      omega
    · omega
  · rw [if_neg hk, if_neg]
    · omega
    · simp only [Bool.and_eq_true, beq_iff_eq]
      exact fun h => hk ⟨h.1.1, h.1.2⟩

/-! ## Dual comparisons -/

/-- The state in which a mismatch is counted and both cores are named in the running step. -/
def namedBoth (s : State) (a b : Nat) : State :=
  alarm (alarm (setFaults s (fun f => { f with dualMismatch := satAdd 32 f.dualMismatch 1 })) (unitOfCore a)) (unitOfCore b)

theorem namedBoth_frame (s : State) (a b : Nat) :
    (namedBoth s a b).faults = { s.faults with dualMismatch := satAdd 32 s.faults.dualMismatch 1 } ∧ (namedBoth s a b).time = s.time
      ∧ (namedBoth s a b).cores = s.cores := by
  obtain ⟨hf, ht, hc⟩ := alarm_frame (alarm (setFaults s (fun f => { f with dualMismatch := satAdd 32 f.dualMismatch 1 })) (unitOfCore a)) (unitOfCore b)
  obtain ⟨hf', ht', hc'⟩ := alarm_frame (setFaults s (fun f => { f with dualMismatch := satAdd 32 f.dualMismatch 1 })) (unitOfCore a)
  exact ⟨hf.trans hf', ht.trans ht', hc.trans hc'⟩

theorem withStep_trans {s x y : State} (h1 : x = { s with sched := { s.sched with step := x.sched.step } })
    (h2 : y = { x with sched := { x.sched with step := y.sched.step } }) : y = { s with sched := { s.sched with step := y.sched.step } } := by
  refine h2.trans ?_
  rw [h1]

theorem withStep_of_setFaults {s y : State} {f : FaultBlk → FaultBlk}
    (h : y = { setFaults s f with sched := { (setFaults s f).sched with step := y.sched.step } }) :
    y = { s with faults := y.faults, sched := { s.sched with step := y.sched.step } } := by
  refine h.trans ?_
  rw [h]
  rfl

theorem namedBoth_step (s : State) (a b : Nat) :
    namedBoth s a b = { s with faults := (namedBoth s a b).faults, sched := { s.sched with step := (namedBoth s a b).sched.step } }
      ∧ ∀ k, s.sched.step = some k →
        (namedBoth s a b).sched.step = some { k with alarmed := addOnce (addOnce k.alarmed (unitOfCore a)) (unitOfCore b) } := by
  obtain ⟨h2, hk2⟩ := alarm_spec (alarm (setFaults s (fun f => { f with dualMismatch := satAdd 32 f.dualMismatch 1 })) (unitOfCore a)) (unitOfCore b)
  obtain ⟨h1, hk1⟩ := alarm_spec (setFaults s (fun f => { f with dualMismatch := satAdd 32 f.dualMismatch 1 })) (unitOfCore a)
  exact ⟨withStep_of_setFaults (withStep_trans h1 h2), fun k hk => hk2 _ (hk1 k hk)⟩

/-- The state of a mismatch before it is noted as an event: both cores' tests are overdue besides. -/
def mismatched (s : State) (a b : Nat) : State :=
  modCore (testOverdueNow (testOverdueNow (namedBoth s a b) a) b) a (fun c => { c with failCount := satAdd 32 c.failCount 1, stFailed := true, lastCause := 1 })

theorem mismatched_frame (s : State) (a b : Nat) :
    (mismatched s a b).faults = { s.faults with dualMismatch := satAdd 32 s.faults.dualMismatch 1 } ∧ (mismatched s a b).time = s.time := by
  have hx : ∀ (x : State) (g : Core → Core), (modCore (testOverdueNow (testOverdueNow x a) b) a g).faults = x.faults
      ∧ (modCore (testOverdueNow (testOverdueNow x a) b) a g).time = x.time := fun _ _ => by simp [modCore_eq, testOverdueNow]
  obtain ⟨hf, ht, _⟩ := namedBoth_frame s a b
  obtain ⟨hf', ht'⟩ := hx (namedBoth s a b) (fun c => { c with failCount := satAdd 32 c.failCount 1, stFailed := true, lastCause := 1 })
  exact ⟨hf'.trans hf, ht'.trans ht⟩

/-- The first mismatch of two cores in 10 s fences nothing. -/
theorem dualMismatch_first {s : State} {a b : Nat} (ha : a < nCores) (h0 : eventsWithin s .checksum a 10000000000 = 0)
    (h1 : eventsWithin s .checksum (10 ^ 10 + nCores * a + b) 10000000000 = 0) :
    dualMismatch s a b = noteEvent (noteEvent (mismatched s a b) .checksum a) .checksum (pairKey a b) := by
  have hsame : ∀ k, eventsWithin (mismatched s a b) .checksum k tenSeconds = eventsWithin s .checksum k 10000000000 := fun k => by
    obtain ⟨hf, ht⟩ := mismatched_frame s a b
    unfold eventsWithin now
    rw [hf, ht]
    rfl
  have hpair : ∀ k, eventsWithin s .checksum k 10000000000 = 0 → (a ≠ k ∨ pairKey a b ≠ k) →
      eventsWithin (noteEvent (noteEvent (mismatched s a b) .checksum a) .checksum (pairKey a b)) .checksum k tenSeconds ≤ 1 := fun k hk hne => by
    have e1 := eventsWithin_noteEvent_le (noteEvent (mismatched s a b) .checksum a) .checksum .checksum (pairKey a b) k tenSeconds
    have e2 := eventsWithin_noteEvent_le (mismatched s a b) .checksum .checksum a k tenSeconds
    rw [hsame, hk] at e2
    rcases hne with h | h
    · rw [if_neg (fun hh => h hh.2)] at e2
      split at e1 <;> omega
    · rw [if_neg (fun hh => h hh.2)] at e1
      split at e2 <;> omega
  have hdist : a ≠ pairKey a b := by
    unfold pairKey
    unfold nCores at ha
    omega
  have hp1 := hpair (pairKey a b) h1 (Or.inl hdist)
  have hp2 := hpair a h0 (Or.inr (Ne.symm hdist))
  have hgo1 : ¬3 ≤ eventsWithin (noteEvent (noteEvent (mismatched s a b) .checksum a) .checksum (pairKey a b)) .checksum (pairKey a b)
      tenSeconds := by omega
  have hgo2 : ¬3 ≤ eventsWithin (noteEvent (noteEvent (mismatched s a b) .checksum a) .checksum (pairKey a b)) .checksum a tenSeconds := by omega
  exact (if_neg hgo1).trans (if_neg hgo2)

/-- Only the cores, the faults and the running step differ. -/
def CoresFaultsStep (s u : State) : Prop := u = { s with cores := u.cores, faults := u.faults, sched := { s.sched with step := u.sched.step } }

theorem CoresFaultsStep.trans {s x u : State} (h : CoresFaultsStep s x) (g : CoresFaultsStep x u) : CoresFaultsStep s u := by
  unfold CoresFaultsStep at *
  refine g.trans ?_
  rw [h]

theorem coresFaultsStep_modCore (s : State) (k : Nat) (g : Core → Core) : CoresFaultsStep s (modCore s k g) := rfl

theorem coresFaultsStep_testOverdueNow (s : State) (ck : Nat) : CoresFaultsStep s (testOverdueNow s ck) := coresFaultsStep_modCore s ck _

theorem coresFaultsStep_noteEvent (s : State) (cause : Cause) (key : Nat) : CoresFaultsStep s (noteEvent s cause key) := rfl

theorem noteEvent_sched (s : State) (cause : Cause) (key : Nat) : (noteEvent s cause key).sched = s.sched := rfl

theorem noteEvent_cores (s : State) (cause : Cause) (key : Nat) : (noteEvent s cause key).cores = s.cores := rfl

theorem noteEvent_dual (s : State) (cause : Cause) (key : Nat) :
    (noteEvent s cause key).faults.dual = s.faults.dual ∧ (noteEvent s cause key).faults.dualMismatch = s.faults.dualMismatch := ⟨rfl, rfl⟩

/-- What a first mismatch leaves of cores `a` and `b`, of the step and of the rest. -/
structure Mismatched (a b : Nat) (s u : State) : Prop where
  dual : u.faults.dual = s.faults.dual
  count : u.faults.dualMismatch = satAdd 32 s.faults.dualMismatch 1
  first : coreOf u a = { coreOf s a with testDue := true, testOverdue := true, failCount := satAdd 32 (coreOf s a).failCount 1, stFailed := true,
                                         lastCause := 1 }
  second : (coreOf u b).testOverdue = true ∧ (coreOf u b).testDue = true
  others : ∀ j, j ≠ a → j ≠ b → coreOf u j = coreOf s j
  step : ∀ k, s.sched.step = some k → u.sched.step = some { k with alarmed := addOnce (addOnce k.alarmed (unitOfCore a)) (unitOfCore b) }
  state : u = { s with cores := u.cores, faults := u.faults, sched := { s.sched with step := u.sched.step } }

theorem dualMismatch_mismatched {s : State} {a b : Nat} (ha : a < nCores) (h0 : eventsWithin s .checksum a 10000000000 = 0)
    (h1 : eventsWithin s .checksum (10 ^ 10 + nCores * a + b) 10000000000 = 0) : Mismatched a b s (dualMismatch s a b) := by
  rw [dualMismatch_first ha h0 h1]
  obtain ⟨hf, _⟩ := mismatched_frame s a b
  obtain ⟨_, _, hc⟩ := namedBoth_frame s a b
  obtain ⟨hst, hstep⟩ := namedBoth_step s a b
  have hcore : ∀ j, coreOf (noteEvent (noteEvent (mismatched s a b) .checksum a) .checksum (pairKey a b)) j = coreOf (mismatched s a b) j :=
    fun j => coreOf_of_cores ((noteEvent_cores ..).trans (noteEvent_cores ..)) j
  have hm : ∀ j, coreOf (mismatched s a b) j
      = if j = a then { coreOf (testOverdueNow (testOverdueNow (namedBoth s a b) a) b) a with
          failCount := satAdd 32 (coreOf (testOverdueNow (testOverdueNow (namedBoth s a b) a) b) a).failCount 1, stFailed := true, lastCause := 1 }
        else coreOf (testOverdueNow (testOverdueNow (namedBoth s a b) a) b) j := coreOf_modCore _ _ _
  have hdue : ∀ (x : State) (k j : Nat), coreOf (testOverdueNow x k) j
      = if j = k then { coreOf x k with testDue := true, testOverdue := true } else coreOf x j := fun x k => coreOf_modCore x k _
  have hnamed : ∀ j, coreOf (namedBoth s a b) j = coreOf s j := coreOf_of_cores hc
  refine ⟨?_, ?_, ?_, ?_, fun j hja hjb => ?_, fun k hk => ?_, ?_⟩
  · rw [(noteEvent_dual ..).1, (noteEvent_dual ..).1, hf]
  · rw [(noteEvent_dual ..).2, (noteEvent_dual ..).2, hf]
  · by_cases h : a = b
    · subst h
      rw [hcore, hm, if_pos rfl, hdue, if_pos rfl, hdue, if_pos rfl, hnamed]
    · rw [hcore, hm, if_pos rfl, hdue, if_neg h, hdue, if_pos rfl, hnamed]
  · rw [hcore, hm]
    split
    next h =>
      subst h
      rw [hdue, if_pos rfl]
      exact ⟨rfl, rfl⟩
    next h =>
      rw [hdue, if_pos rfl]
      exact ⟨rfl, rfl⟩
  · rw [hcore, hm, if_neg hja, hdue, if_neg hjb, hdue, if_neg hja, hnamed]
  · rw [noteEvent_sched, noteEvent_sched]
    have hs : (mismatched s a b).sched = (namedBoth s a b).sched := by simp [mismatched, modCore_eq, testOverdueNow]
    rw [hs]
    exact hstep k hk
  · have hn : CoresFaultsStep s (namedBoth s a b) := by
      unfold CoresFaultsStep
      rw [hc]
      exact hst
    exact hn.trans ((coresFaultsStep_testOverdueNow ..).trans ((coresFaultsStep_testOverdueNow ..).trans ((coresFaultsStep_modCore ..).trans
      ((coresFaultsStep_noteEvent ..).trans (coresFaultsStep_noteEvent ..)))))

/-- Settles O39: words that agree end the comparison, and a first mismatch is noted alone. -/
theorem twinsCompare : Obligations.TwinsCompare := by
  intro a b tile t words s ha hb ht
  have hmax : max a b < nCores := by omega
  have hcmp : exec (.dualCompare a b tile words t) s = .next (dualCompareOp (advance t s) a b tile words) := if_pos ⟨hmax, ht⟩
  have htime : exec (.dualWordsTimeout a b t) s = .next (dualTimeoutOp (advance t s) a b) := if_pos ⟨hmax, by decide⟩
  refine ⟨fun hn => hcmp.trans (next_congr ?_), fun w hw hd => hcmp.trans (next_congr ?_), fun i w hi h0 h1 => ?_,
    fun hn => htime.trans (next_congr ?_)⟩
  · unfold dualCompareOp
    rw [show (advance t s).faults = s.faults from rfl, hn]
  · unfold dualCompareOp
    rw [show (advance t s).faults = s.faults from rfl, hw]
    have hd' : ¬wordsDiffer (advance t s) w.own words = true := by
      rw [show wordsDiffer (advance t s) w.own words = wordsDiffer s w.own words from rfl, hd]
      decide
    exact if_neg hd'
  · have hop : exec i s = .next (dualMismatch (dropDual (advance t s) w) a b) := by
      rcases hi with ⟨rfl, hw, hd⟩ | ⟨rfl, hw⟩
      · refine hcmp.trans (next_congr ?_)
        unfold dualCompareOp
        rw [show (advance t s).faults = s.faults from rfl, hw]
        exact if_pos hd
      · refine htime.trans (next_congr ?_)
        unfold dualTimeoutOp
        rw [show (advance t s).faults = s.faults from rfl,
          show (s.faults.dual.find? (fun w => w.primary == a && w.secondary == b && w.time + 10000 ≤ now (advance t s))) = some w from hw]
    have hm := dualMismatch_mismatched (s := dropDual (advance t s) w) (b := b) ha h0 h1
    obtain ⟨hdual, hcount, hfirst, ⟨hover, hdue⟩, hothers, hstep, hstate⟩ := hm
    refine ⟨_, hop, hdual, hcount, ?_, hover, ?_, hdue, ?_, ?_, fun k hk => ⟨_, hstep k hk, ?_, ?_, rfl⟩, hothers, hstate⟩
    · rw [hfirst]
    · rw [hfirst]
    · rw [hfirst]
      rfl
    · rw [hfirst]
    · simp [mem_addOnce]
    · simp [mem_addOnce]
  · unfold dualTimeoutOp
    rw [show (advance t s).faults = s.faults from rfl,
      show (s.faults.dual.find? (fun w => w.primary == a && w.secondary == b && w.time + 10000 ≤ now (advance t s))) = none from hn]

/-! ## Range monitors -/

/-- The monitor's part of a core that outlasts the choice of the next plane. -/
def monResult (c : Core) : Bool × Bool × Bool × Nat × Bool := (c.monDone, c.monAlarm, c.monPrec, c.monSkip, c.testOverdue)

/-- The next plane is named in its core, with counts that start over. -/
theorem nameNext_spec (s : State) (ck : Nat) :
    ((coreOf (nameNext s ck) ck).monCount = 0 ∧ (coreOf (nameNext s ck) ck).monSince = 0 ∧ (coreOf (nameNext s ck) ck).monStats = [])
      ∧ monResult (coreOf (nameNext s ck) ck) = monResult (coreOf s ck) ∧ (coreOf (nameNext s ck) ck).summary = (coreOf s ck).summary
      ∧ (∀ j, j ≠ ck → coreOf (nameNext s ck) j = coreOf s j) ∧ nameNext s ck = { s with cores := (nameNext s ck).cores } := by
  unfold nameNext
  extract_lets l after next phys env
  have hc := fun j => coreOf_modCore s ck (fun c =>
    { c with monEn := l != [], monPlane := next, monPhys := phys, monCount := 0, monSince := 0, monStats := [], envArea := envelopeArea,
             scratch := mwrite c.scratch (4096 * envelopeArea) env }) j
  refine ⟨?_, ?_, ?_, fun j hj => (hc j).trans (if_neg hj), rfl⟩
  · rw [hc, if_pos rfl]
    exact ⟨rfl, rfl, rfl⟩
  · rw [hc, if_pos rfl]
    rfl
  · rw [hc, if_pos rfl]

theorem monitorCompareOp_early {s : State} {ck : Nat} (h : (coreOf s ck).monPlane = none ∨ (coreOf s ck).monCount < 4096) :
    monitorCompareOp s ck = s := by
  unfold monitorCompareOp
  dsimp only
  split
  · rfl
  next hp => exact if_pos (h.resolve_left (by rw [hp]; simp))

/-- The state in which a full window's verdict stands in its core. -/
def windowEnded (s : State) (ck : Nat) (bad prec : Bool) : State :=
  modCore s ck (fun d => { d with monDone := true, monAlarm := bad, monPrec := prec, summary := { d.summary with alarm := d.summary.alarm || bad } })

theorem monitorCompareOp_full {s : State} {ck tile lp : Nat} (hp : (coreOf s ck).monPlane = some (tile, lp)) (hn : 4096 ≤ (coreOf s ck).monCount)
    {bad prec : Bool}
    (hbad : ((coreOf s ck).monStats.map (fun x =>
      (envelopeOf (mread (coreOf s ck).scratch (4096 * (coreOf s ck).envArea + 16 * x.1) 16), x.2))).any (fun x => codeAlarm x.1 x.2) = bad)
    (hprec : ((coreOf s ck).monStats.map (fun x =>
      (envelopeOf (mread (coreOf s ck).scratch (4096 * (coreOf s ck).envArea + 16 * x.1) 16), x.2))).any
        (fun x => envelopeExcess (coreOf s ck).monCount x.1 x.2) = prec) :
    ∃ lpk, monitorCompareOp s ck
      = nameNext (if bad = true then monitorAlarmed (if prec = true then precisionOn (windowEnded s ck bad prec) ck lpk else windowEnded s ck bad prec) ck
          else (if prec = true then precisionOn (windowEnded s ck bad prec) ck lpk else windowEnded s ck bad prec)) ck := by
  subst hbad hprec
  refine ⟨(logicalCoreKey s ck).elim 0 (fun l => planeKey (tileKey l tile) lp), ?_⟩
  unfold monitorCompareOp
  dsimp only
  rw [hp]
  refine (if_neg (Nat.not_lt.mpr hn)).trans ?_
  cases logicalCoreKey s ck <;> rfl

/-- A precision event is noted in its core's summary alone. -/
theorem precisionOn_spec (s : State) (ck lpk : Nat) :
    monResult (coreOf (precisionOn s ck lpk) ck) = monResult (coreOf s ck) ∧ (coreOf (precisionOn s ck lpk) ck).monPhys = (coreOf s ck).monPhys
      ∧ (∀ j, j ≠ ck → coreOf (precisionOn s ck lpk) j = coreOf s j)
      ∧ precisionOn s ck lpk = { s with cores := (precisionOn s ck lpk).cores } := by
  have hfold := fun (l : List (Nat × Nat)) (c : Core) =>
    foldl_unchanged (fun x : Core => (monResult x, x.monPhys)) (f := fun (x : Core) (y : Nat × Nat) => raisePrecision x y.1 y.2) (by intros; rfl) l c
  have hc := fun j => coreOf_modCore s ck (fun c => (layersOf s lpk).foldl (fun x y => raisePrecision x y.1 y.2) c) j
  refine ⟨?_, ?_, fun j hj => (hc j).trans (if_neg hj), rfl⟩
  · exact (congrArg monResult ((hc ck).trans (if_pos rfl))).trans (congrArg Prod.fst (hfold (layersOf s lpk) (coreOf s ck)))
  · exact (congrArg Core.monPhys ((hc ck).trans (if_pos rfl))).trans (congrArg Prod.snd (hfold (layersOf s lpk) (coreOf s ck)))

theorem windowEnded_spec (s : State) (ck : Nat) (bad prec : Bool) :
    (coreOf (windowEnded s ck bad prec) ck).monDone = true ∧ (coreOf (windowEnded s ck bad prec) ck).monAlarm = bad
      ∧ (coreOf (windowEnded s ck bad prec) ck).monPrec = prec ∧ (coreOf (windowEnded s ck bad prec) ck).monPhys = (coreOf s ck).monPhys
      ∧ (bad = false → (coreOf (windowEnded s ck bad prec) ck).summary = (coreOf s ck).summary)
      ∧ (∀ j, j ≠ ck → coreOf (windowEnded s ck bad prec) j = coreOf s j)
      ∧ windowEnded s ck bad prec = { s with cores := (windowEnded s ck bad prec).cores } := by
  have hc := fun j => coreOf_modCore s ck (fun d =>
    { d with monDone := true, monAlarm := bad, monPrec := prec, summary := { d.summary with alarm := d.summary.alarm || bad } }) j
  have hown : coreOf (windowEnded s ck bad prec) ck = _ := (hc ck).trans (if_pos rfl)
  refine ⟨?_, ?_, ?_, ?_, fun hb => ?_, fun j hj => (hc j).trans (if_neg hj), rfl⟩
  · rw [hown]
  · rw [hown]
  · rw [hown]
  · rw [hown]
  · rw [hown, hb]
    simp

/-- The window's verdict with the precision event it may bring. -/
theorem windowNoted_spec (s : State) (ck lpk : Nat) (bad prec : Bool) :
    let u := if prec = true then precisionOn (windowEnded s ck bad prec) ck lpk else windowEnded s ck bad prec
    (coreOf u ck).monDone = true ∧ (coreOf u ck).monAlarm = bad ∧ (coreOf u ck).monPrec = prec ∧ (coreOf u ck).monPhys = (coreOf s ck).monPhys
      ∧ (bad = false → prec = false → (coreOf u ck).summary = (coreOf s ck).summary)
      ∧ (∀ j, j ≠ ck → coreOf u j = coreOf s j) ∧ u = { s with cores := u.cores } := by
  intro u
  obtain ⟨h1, h2, h3, h4, h5, h6, h7⟩ := windowEnded_spec s ck bad prec
  cases prec with
  | false => exact ⟨h1, h2, h3, h4, fun hb _ => h5 hb, h6, h7⟩
  | true =>
    obtain ⟨hr, hphys, hoth, hst⟩ := precisionOn_spec (windowEnded s ck bad true) ck lpk
    simp only [monResult, Prod.mk.injEq] at hr
    obtain ⟨r1, r2, r3, _⟩ := hr
    refine ⟨r1.trans h1, r2.trans h2, r3.trans h3, hphys.trans h4, fun _ h => Bool.noConfusion h, fun j hj => (hoth j hj).trans (h6 j hj), ?_⟩
    exact hst.trans rfl

/-- A late fault is counted and open; besides the faults it is named in the running step. -/
theorem lateFault_spec (s : State) (u : UnitId) (cause : Cause) (delta : Nat) :
    (lateFault s u cause delta).faults.late = satAdd 32 s.faults.late 1 ∧ u ∈ (lateFault s u cause delta).faults.openLate
      ∧ (lateFault s u cause delta).faults.events = s.faults.events
      ∧ (lateFault s u cause delta).cores = s.cores ∧ (lateFault s u cause delta).time = s.time
      ∧ lateFault s u cause delta = { s with faults := (lateFault s u cause delta).faults,
                                             sched := { s.sched with step := (lateFault s u cause delta).sched.step } } := by
  obtain ⟨hf, ht, hc⟩ := alarm_frame (setFaults s (fun f => { f with late := satAdd 32 f.late 1 })) u
  have hst := withStep_of_setFaults (alarm_spec (setFaults s (fun f => { f with late := satAdd 32 f.late 1 })) u).1
  unfold lateFault
  dsimp only
  generalize alarm (setFaults s (fun f => { f with late := satAdd 32 f.late 1 })) u = x at hf ht hc hst
  split
  next hmem =>
    rw [hf, hc, ht]
    exact ⟨rfl, hmem, rfl, rfl, rfl, by rw [← hf]; exact hst⟩
  next =>
    refine ⟨?_, ?_, ?_, hc, ht, ?_⟩
    · exact (congrArg FaultBlk.late hf : _)
    · exact List.mem_append_right _ (List.mem_singleton.mpr rfl)
    · exact (congrArg FaultBlk.events hf : _)
    · rw [hst]
      rfl

/-- The state of an alarm before its readback. -/
def alarmNoted (s : State) (ck : Nat) : State :=
  testOverdueNow (lateFault (noteEvent s .monitorAlarm ck) (unitOfCore ck) .monitorAlarm 0) ck

theorem alarmNoted_spec (s : State) (ck : Nat) :
    (alarmNoted s ck).faults.late = satAdd 32 s.faults.late 1 ∧ unitOfCore ck ∈ (alarmNoted s ck).faults.openLate
      ∧ coreOf (alarmNoted s ck) ck = { coreOf s ck with testDue := true, testOverdue := true }
      ∧ (∀ j, j ≠ ck → coreOf (alarmNoted s ck) j = coreOf s j) ∧ CoresFaultsStep s (alarmNoted s ck)
      ∧ eventsWithin (alarmNoted s ck) .monitorAlarm ck oneHour = eventsWithin (noteEvent s .monitorAlarm ck) .monitorAlarm ck oneHour := by
  obtain ⟨h1, h2, h3, h4, h5, h6⟩ := lateFault_spec (noteEvent s .monitorAlarm ck) (unitOfCore ck) .monitorAlarm 0
  have hl : CoresFaultsStep (noteEvent s .monitorAlarm ck) (lateFault (noteEvent s .monitorAlarm ck) (unitOfCore ck) .monitorAlarm 0) := by
    unfold CoresFaultsStep
    rw [h4]
    exact h6
  have hst : CoresFaultsStep s (alarmNoted s ck) := (coresFaultsStep_noteEvent s _ _).trans (hl.trans (coresFaultsStep_testOverdueNow _ ck))
  unfold alarmNoted at *
  generalize lateFault (noteEvent s .monitorAlarm ck) (unitOfCore ck) .monitorAlarm 0 = x at *
  have hc := fun j => (coreOf_modCore x ck (fun c => { c with testDue := true, testOverdue := true }) j)
  have hx : ∀ j, coreOf x j = coreOf s j := coreOf_of_cores (h4.trans (noteEvent_cores ..))
  refine ⟨h1, h2, (hc ck).trans ((if_pos rfl).trans ?_), fun j hj => (hc j).trans ((if_neg hj).trans (hx j)), hst, ?_⟩
  · rw [hx]
  · have he : (testOverdueNow x ck).faults.events = (noteEvent s .monitorAlarm ck).faults.events := h3
    have ht : (testOverdueNow x ck).time = (noteEvent s .monitorAlarm ck).time := h5
    unfold eventsWithin now
    rw [he, ht]

/-- A first alarm within the hour starts the readback of the monitored plane, and fences nothing. -/
theorem monitorAlarmed_first {s : State} {ck : Nat} (h : eventsWithin s .monitorAlarm ck 3600000000000 = 0) :
    monitorAlarmed s ck = ((coreOf s ck).monPhys.map (queueReadback (alarmNoted s ck))).getD (alarmNoted s ck) := by
  have hle := eventsWithin_noteEvent_le s .monitorAlarm .monitorAlarm ck ck oneHour
  have h' : eventsWithin s .monitorAlarm ck oneHour = 0 := h
  rw [h'] at hle
  have hev := (alarmNoted_spec s ck).2.2.2.2.2
  refine if_neg (?_ : ¬2 ≤ eventsWithin (alarmNoted s ck) .monitorAlarm ck oneHour)
  rw [hev]
  split at hle <;> omega

/-- A readback writes the plates' queue and slots; an ALLOCATED plane is in the queue afterwards. -/
theorem queueReadback_spec (s : State) (pk : Nat) :
    ((descOf s pk).state = 2 → (tfind (queueReadback s pk).plates.writing pk).isSome = true)
      ∧ queueReadback s pk = { s with plates := { s.plates with writing := (queueReadback s pk).plates.writing,
                                                                slots := (queueReadback s pk).plates.slots } } := by
  unfold queueReadback
  split
  · exact ⟨fun _ => Option.isSome_iff_exists.mpr ⟨_, tfind_tput_same _ _ _⟩, rfl⟩
  next h =>
    refine ⟨fun h2 => ?_, rfl⟩
    by_contra hn
    exact h ⟨h2, by simpa using hn⟩

/-- What the readback of an alarm's plane leaves. -/
theorem readback_spec (s : State) (q : Option Nat) :
    (∀ p, q = some p → (descOf s p).state = 2 → (tfind ((q.map (queueReadback s)).getD s).plates.writing p).isSome = true)
      ∧ (q.map (queueReadback s)).getD s = { s with plates := { s.plates with writing := ((q.map (queueReadback s)).getD s).plates.writing,
                                                                              slots := ((q.map (queueReadback s)).getD s).plates.slots } } := by
  cases q with
  | none => exact ⟨fun p h => absurd h (by simp), rfl⟩
  | some p =>
    obtain ⟨h1, h2⟩ := queueReadback_spec s p
    refine ⟨fun p' h => ?_, h2⟩
    cases h
    exact h1

/-- A window without an alarm ends in its core, and the next plane is named. -/
theorem window_quiet (s : State) (ck lpk : Nat) (prec : Bool) :
    let u := nameNext (if prec = true then precisionOn (windowEnded s ck false prec) ck lpk else windowEnded s ck false prec) ck
    (coreOf u ck).monDone = true ∧ (coreOf u ck).monAlarm = false ∧ (coreOf u ck).monPrec = prec ∧ (coreOf u ck).monCount = 0
      ∧ (coreOf u ck).monStats = [] ∧ (prec = false → (coreOf u ck).summary = (coreOf s ck).summary)
      ∧ (∀ j, j ≠ ck → coreOf u j = coreOf s j) ∧ u = { s with cores := u.cores } := by
  obtain ⟨h1, h2, h3, _, h5, h6, h7⟩ := windowNoted_spec s ck lpk false prec
  generalize (if prec = true then precisionOn (windowEnded s ck false prec) ck lpk else windowEnded s ck false prec) = w at *
  obtain ⟨⟨hcount, _, hstats⟩, hres, hsum, hoth, hst⟩ := nameNext_spec w ck
  simp only [monResult, Prod.mk.injEq] at hres
  obtain ⟨r1, r2, r3, _⟩ := hres
  refine ⟨r1.trans h1, r2.trans h2, r3.trans h3, hcount, hstats, fun hp => hsum.trans (h5 rfl hp), fun j hj => (hoth j hj).trans (h6 j hj), ?_⟩
  refine hst.trans ?_
  rw [h7]

/-- Only the cores, the faults, the running step and the plates' write queue differ. -/
def AlarmParts (s u : State) : Prop :=
  u = { s with cores := u.cores, faults := u.faults, sched := { s.sched with step := u.sched.step },
               plates := { s.plates with writing := u.plates.writing, slots := u.plates.slots } }

theorem AlarmParts.trans {s x u : State} (h : AlarmParts s x) (g : AlarmParts x u) : AlarmParts s u := by
  unfold AlarmParts at *
  refine g.trans ?_
  rw [h]

theorem alarmParts_of_cores {s u : State} (h : u = { s with cores := u.cores }) : AlarmParts s u := by
  unfold AlarmParts
  rw [h]

theorem alarmParts_of_coresFaultsStep {s u : State} (h : CoresFaultsStep s u) : AlarmParts s u := by
  unfold CoresFaultsStep at h
  unfold AlarmParts
  rw [h]

theorem alarmParts_of_queue {s u : State} (h : u = { s with plates := { s.plates with writing := u.plates.writing, slots := u.plates.slots } }) :
    AlarmParts s u := by
  unfold AlarmParts
  rw [h]

/-- A plane's descriptor is read from the load state and the arrays. -/
theorem descOf_congr {s u : State} (hr : u.rst = s.rst) (ha : u.arr = s.arr) (q : Nat) : descOf u q = descOf s q := by
  unfold descOf descDefault
  rw [hr, ha]

/-- A window with an alarm, the first of its core within an hour. -/
theorem window_alarm {s w : State} {ck : Nat} (ha : (coreOf w ck).monAlarm = true) (hj : ∀ j, j ≠ ck → coreOf w j = coreOf s j)
    (hw : w = { s with cores := w.cores }) (h0 : eventsWithin s .monitorAlarm ck 3600000000000 = 0) :
    let u := nameNext (monitorAlarmed w ck) ck
    (coreOf u ck).monAlarm = true ∧ (coreOf u ck).testOverdue = true ∧ unitOfCore ck ∈ u.faults.openLate
      ∧ u.faults.late = satAdd 32 s.faults.late 1 ∧ (coreOf u ck).monCount = 0 ∧ (∀ j, j ≠ ck → coreOf u j = coreOf s j)
      ∧ (∀ q, (coreOf w ck).monPhys = some q → (descOf s q).state = 2 → (tfind u.plates.writing q).isSome = true)
      ∧ u = { s with cores := u.cores, faults := u.faults, sched := { s.sched with step := u.sched.step },
                     plates := { s.plates with writing := u.plates.writing, slots := u.plates.slots } } := by
  have hfaults : w.faults = s.faults := (congrArg State.faults hw : _)
  have htime : w.time = s.time := (congrArg State.time hw : _)
  have h0' : eventsWithin w .monitorAlarm ck 3600000000000 = 0 := by
    unfold eventsWithin now at h0 ⊢
    rw [hfaults, htime]
    exact h0
  rw [monitorAlarmed_first h0']
  obtain ⟨a1, a2, a3, a4, a5, _⟩ := alarmNoted_spec w ck
  obtain ⟨b1, b2⟩ := readback_spec (alarmNoted w ck) (coreOf w ck).monPhys
  have hdesc : ∀ q, descOf (alarmNoted w ck) q = descOf s q := fun q => by
    have hr : w.rst = s.rst := (congrArg State.rst hw : _)
    have harr : w.arr = s.arr := (congrArg State.arr hw : _)
    have hr' : (alarmNoted w ck).rst = w.rst := (congrArg State.rst a5 : _)
    have harr' : (alarmNoted w ck).arr = w.arr := (congrArg State.arr a5 : _)
    exact descOf_congr (hr'.trans hr) (harr'.trans harr) q
  generalize ((coreOf w ck).monPhys.map (queueReadback (alarmNoted w ck))).getD (alarmNoted w ck) = x at *
  intro u
  have hxc : x.cores = (alarmNoted w ck).cores := (congrArg State.cores b2 : _)
  have hxf : x.faults = (alarmNoted w ck).faults := (congrArg State.faults b2 : _)
  have hwf : w.faults.late = s.faults.late := congrArg FaultBlk.late hfaults
  obtain ⟨⟨hcount, _, _⟩, hres, _, hoth, hst⟩ := nameNext_spec x ck
  simp only [monResult, Prod.mk.injEq] at hres
  obtain ⟨_, r2, _, _, r5⟩ := hres
  have hx : ∀ j, coreOf x j = coreOf (alarmNoted w ck) j := coreOf_of_cores hxc
  have huf : u.faults = x.faults := (congrArg State.faults hst : _)
  have hup : u.plates = x.plates := (congrArg State.plates hst : _)
  refine ⟨r2.trans ?_, r5.trans ?_, ?_, ?_, hcount, fun j hne => (hoth j hne).trans ((hx j).trans ((a4 j hne).trans (hj j hne))), fun q hq hs => ?_, ?_⟩
  · rw [hx, a3]
    exact ha
  · rw [hx, a3]
  · rw [huf, hxf]
    exact a2
  · rw [huf, hxf, a1, hwf]
  · rw [hup]
    exact b1 q hq ((congrArg PlaneDesc.state (hdesc q)).trans hs)
  · exact (alarmParts_of_cores hw).trans ((alarmParts_of_coresFaultsStep a5).trans ((alarmParts_of_queue b2).trans (alarmParts_of_cores hst)))

/-- Settles O40: a full window's verdict, with its alarm or its precision event; and a window that gathers nothing. -/
theorem monitorWindows : Obligations.MonitorWindows := by
  intro ck t s hck c
  have hcmp : exec (.monitorCompare ck t) s = .next (monitorCompareOp (advance t s) ck) := if_pos ⟨hck, by decide⟩
  have hab : exec (.monitorAbandon ck t) s = .next (monitorAbandonOp (advance t s) ck) := if_pos ⟨hck, by decide⟩
  refine ⟨fun h => hcmp.trans (next_congr (monitorCompareOp_early (s := advance t s) h)), fun tile lp hp hn => ?_, fun h => ?_, fun hp hn => ?_⟩
  · intro env
    have hop := fun (bad prec : Bool) h1 h2 => monitorCompareOp_full (s := advance t s) (ck := ck) (bad := bad) (prec := prec) hp hn h1 h2
    have hall : ∀ f : Envelope → ColStat → Bool, (∀ x ∈ c.monStats, f (env x.1) x.2 = false) →
        (c.monStats.map (fun x => (env x.1, x.2))).any (fun x => f x.1 x.2) = false := fun f hf => by simpa using hf
    have hany : ∀ f : Envelope → ColStat → Bool, (∃ x ∈ c.monStats, f (env x.1) x.2 = true) →
        (c.monStats.map (fun x => (env x.1, x.2))).any (fun x => f x.1 x.2) = true := fun f hf => by simpa using hf
    refine ⟨fun hgood => ?_, fun hbad h0 => ?_, fun hgood hexc => ?_⟩
    · obtain ⟨lpk, hu⟩ := hop false false (hall codeAlarm (fun x hx => (hgood x hx).1)) (hall (envelopeExcess c.monCount) (fun x hx => (hgood x hx).2))
      obtain ⟨h1, h2, h3, h4, h5, h6, h7, h8⟩ := window_quiet (advance t s) ck lpk false
      exact ⟨_, hcmp.trans (next_congr hu), h1, h2, h3, h4, h5, h6 rfl, h7, h8⟩
    · obtain ⟨prec, hprec⟩ : ∃ b, (c.monStats.map (fun x => (env x.1, x.2))).any (fun x => envelopeExcess c.monCount x.1 x.2) = b := ⟨_, rfl⟩
      obtain ⟨lpk, hu⟩ := hop true prec (hany codeAlarm hbad) hprec
      obtain ⟨_, h2, _, h4, _, h6, h7⟩ := windowNoted_spec (advance t s) ck lpk true prec
      obtain ⟨r1, r2, r3, r4, r5, r6, r7, r8⟩ := window_alarm h2 h6 h7 h0
      exact ⟨_, hcmp.trans (next_congr hu), r1, r2, r3, r4, r5, r6, fun q hq => r7 q (h4.trans hq), r8⟩
    · obtain ⟨lpk, hu⟩ := hop false true (hall codeAlarm hgood) (hany (envelopeExcess c.monCount) hexc)
      obtain ⟨h1, h2, h3, h4, h5, _, h7, h8⟩ := window_quiet (advance t s) ck lpk true
      exact ⟨_, hcmp.trans (next_congr hu), h3, h2, h4, h7, h8⟩
  · refine hab.trans (next_congr (if_neg ?_))
    rw [show (coreOf (advance t s) ck).monPlane = c.monPlane from rfl, show (coreOf (advance t s) ck).monSince = c.monSince from rfl]
    rcases h with h | h
    · simp [h]
    · simp [h]
  · obtain ⟨⟨hcount, hsince, hstats⟩, hres, _, hoth, hst⟩ :=
      nameNext_spec (modCore (advance t s) ck (fun c => { c with monSkip := satAdd 32 c.monSkip 1 })) ck
    simp only [monResult, Prod.mk.injEq] at hres
    obtain ⟨_, _, _, r4, _⟩ := hres
    have hgo : ((coreOf (advance t s) ck).monPlane.isSome && 2 ^ 20 ≤ (coreOf (advance t s) ck).monSince) = true := by
      rw [show (coreOf (advance t s) ck).monPlane = c.monPlane from rfl, show (coreOf (advance t s) ck).monSince = c.monSince from rfl]
      simpa [Option.isSome_iff_ne_none] using ⟨hp, hn⟩
    refine ⟨_, hab.trans (next_congr (if_pos hgo)), r4.trans ?_, hcount, hsince, hstats, fun j hj => (hoth j hj).trans ?_, hst⟩
    · rw [coreOf_modCore, if_pos rfl]
      rfl
    · rw [coreOf_modCore, if_neg hj]
      rfl

end Sys2Proof.Proofs
/-! # BANK_FINALISE -/
namespace Sys2Proof.Proofs

open Sys2Proof.Machine Sys2Proof.Safety Sys2Proof.Laws

/-! ## Bytes that a finalisation leaves -/

theorem mget_clearSlot (m : List Host.Cell) (slot a : Nat) :
    mget (clearSlot m slot) a = if slot ≤ a ∧ a < slot + 2048 then 0 else mget m a := by
  have h := tfind_filter m (fun k => !(decide (slot ≤ k) && decide (k < slot + 2048))) a
  unfold mget tget clearSlot
  rw [h]
  by_cases hin : slot ≤ a ∧ a < slot + 2048
  · rw [if_pos hin, if_neg (by simp [hin.1, hin.2])]
    rfl
  · rw [if_neg hin, if_pos]
    simp only [Bool.not_eq_true', Bool.and_eq_false_iff, decide_eq_false_iff_not]
    exact not_and_or.mp hin

theorem leBytes_length (n v : Nat) : (leBytes n v).length = n := by
  induction n generalizing v with
  | zero => rfl
  | succ n ih => exact congrArg Nat.succ (ih (v / 256))

theorem mget_writeEntries_outside {add : Bool} {b : Bank} {dest a : Nat} (l : List Nat) (m : List Host.Cell)
    (h : ∀ i ∈ l, a < dest + 8 * i ∨ dest + 8 * i + 8 ≤ a) : mget (writeEntries add b dest m l) a = mget m a := by
  induction l generalizing m with
  | nil => rfl
  | cons i l ih =>
    rw [writeEntries, ih _ (fun j hj => h j (List.mem_cons_of_mem _ hj))]
    refine mget_mwrite_outside _ _ _ _ ?_
    rw [leBytes_length]
    exact h i List.mem_cons_self

theorem mget_spillLanes_outside {slot a : Nat} {b : Bank} (l : List Nat) (g : Region)
    (h : ∀ i ∈ l, a < slot + 8 * i ∨ slot + 8 * i + 8 ≤ a) : mget (spillLanes slot b g l).wideBuf a = mget g.wideBuf a := by
  induction l generalizing g with
  | nil => rfl
  | cons i l ih =>
    rw [spillLanes, ih _ (fun j hj => h j (List.mem_cons_of_mem _ hj))]
    refine mget_mwrite_outside _ _ _ _ ?_
    rw [leBytes_length]
    exact h i List.mem_cons_self

theorem mem_tset {α : Type} [DecidableEq α] {d : α} {m : Tbl α} {k : Nat} {v : α} {e : Nat × α} (h : e ∈ tset d m k v) : e.1 = k ∨ e ∈ m := by
  unfold tset at h
  split at h
  · exact Or.inr (List.mem_filter.mp h).1
  · exact (mem_tput m k v e h).imp (congrArg Prod.fst) id

/-- Reloading lanes lists no lanes but those of the bank and those reloaded. -/
theorem mem_lanesOf_reloadLanes {slot : Nat} {g : Region} (l : List Nat) (b : Bank) {i : Nat} (h : i ∈ lanesOf (reloadLanes slot g b l)) :
    i ∈ lanesOf b ∨ i ∈ l := by
  induction l generalizing b with
  | nil => exact Or.inl h
  | cons j l ih =>
    rw [reloadLanes] at h
    rcases ih _ h with hb | hl
    · have hset : ∀ x : Lane, i ∈ lanesOf (setLane b j x) → i ∈ lanesOf b ∨ i ∈ j :: l := fun x hx => by
        obtain ⟨e, he, hi⟩ := List.mem_map.mp hx
        rcases mem_tset he with hk | hm
        · exact Or.inr (List.mem_cons.mpr (Or.inl (hi ▸ hk)))
        · exact Or.inl (List.mem_map.mpr ⟨e, hm, hi⟩)
      unfold reloadLane at hb
      split at hb
      · exact hset _ hb
      · exact hset _ hb
    · exact Or.inr (List.mem_cons_of_mem _ hl)

/-! ## The state after a bank has gone -/

theorem regionOf_of_regions {s u : State} (h : u.regions = s.regions) (k : Nat) : regionOf u k = regionOf s k := by
  unfold regionOf
  rw [h]

/-- A state that differs from `s` in one core and in one region. -/
theorem setRegion_setCore_spec (s : State) (ck rk : Nat) (c : Core) (g : Region) :
    let u := setRegion (setCore s ck c) rk g
    coreOf u ck = c ∧ regionOf u rk = g ∧ (∀ j, j ≠ ck → coreOf u j = coreOf s j) ∧ (∀ k, k ≠ rk → regionOf u k = regionOf s k)
      ∧ u = { s with cores := u.cores, regions := u.regions } := by
  refine ⟨(coreOf_of_cores (s := setCore s ck c) rfl ck).trans (coreOf_setCore ..), regionOf_setRegion .., fun j hj => ?_, fun k hk => ?_, rfl⟩
  · exact (coreOf_of_cores (s := setCore s ck c) rfl j).trans (coreOf_setCore_ne _ _ hj)
  · exact (regionOf_setRegion_ne _ _ hk).trans (regionOf_of_regions (s := s) rfl k)

section Finalise

variable {s : State} {ck bn : Nat} {acc : AccDesc}

/-- The bank with its slot's entries added. -/
def fullBank (s : State) (ck bn : Nat) (acc : AccDesc) : Bank :=
  let b := bankOf (coreOf s ck) bn
  reloadLanes (areaSlot b.slot acc.spillSlot) (regionOf s (coreRegion ck)) b (List.range (bankLanes b))

theorem finaliseOp_empty (hd : (bankOf (coreOf s ck) bn).desc = none) : finaliseOp s ck bn = s := by
  unfold finaliseOp
  dsimp only
  rw [hd]

theorem finaliseOp_unmarked (hd : (bankOf (coreOf s ck) bn).desc = some acc) (hl : acc.last = false) (hp : acc.park = false) :
    finaliseOp s ck bn = s := by
  unfold finaliseOp
  dsimp only
  rw [hd]
  exact (if_neg (by simp [hl])).trans (if_neg (by simp [hp]))

theorem finaliseOp_parks (hd : (bankOf (coreOf s ck) bn).desc = some acc) (hl : acc.last = false) (hp : acc.park = true) :
    finaliseOp s ck bn = setRegion (setCore s ck { setBank (coreOf s ck) bn {} with
          accSat := satAdd 32 (coreOf s ck).accSat
            (newSat (bankOf (coreOf s ck) bn) (fullBank s ck bn acc) (bankLanes (bankOf (coreOf s ck) bn))),
          parked := Nat.lor (coreOf s ck).parked (2 ^ bn) }) (coreRegion ck)
        { spillLanes (areaSlot (bankOf (coreOf s ck) bn).slot acc.spillSlot) (fullBank s ck bn acc)
            (spillClear (regionOf s (coreRegion ck)) (areaSlot (bankOf (coreOf s ck) bn).slot acc.spillSlot)) (lanesOf (fullBank s ck bn acc)) with
          parks := tput (spillLanes (areaSlot (bankOf (coreOf s ck) bn).slot acc.spillSlot) (fullBank s ck bn acc)
              (spillClear (regionOf s (coreRegion ck)) (areaSlot (bankOf (coreOf s ck) bn).slot acc.spillSlot)) (lanesOf (fullBank s ck bn acc))).parks
            (areaSlot (bankOf (coreOf s ck) bn).slot acc.spillSlot)
            { slot := (bankOf (coreOf s ck) bn).slot, layer := (bankOf (coreOf s ck) bn).layer, core := ck, rid := (bankOf (coreOf s ck) bn).rid,
              bank := some bn } } := by
  unfold finaliseOp
  dsimp only
  rw [hd]
  exact (if_neg (by simp [hl])).trans (if_pos hp)

theorem finaliseOp_noLayer (hd : (bankOf (coreOf s ck) bn).desc = some acc) (hl : acc.last = true) (h0 : acc.dest = 0)
    (hn : layerRec s (bankOf (coreOf s ck) bn).slot (bankOf (coreOf s ck) bn).layer = none) : finaliseOp s ck bn = s := by
  unfold finaliseOp
  dsimp only
  rw [hd]
  refine (if_pos hl).trans ?_
  split
  next =>
    split
    next => rfl
    next l hsome => exact absurd (hn.symm.trans hsome) (by simp)
  next h1 => exact absurd (h0.symm.trans h1) (by decide)
  next hne _ => exact absurd h0 hne

/-- The core of a bank that a resident forme's layer finalises. -/
def epilogueCore (s : State) (ck bn : Nat) (acc : AccDesc) (l : LayerRec) : Core :=
  let c := coreOf s ck
  let b := bankOf c bn
  let o := epilogue s ck (fullBank s ck bn acc) acc l (bankLanes b)
  { setBank c bn {} with
    scratch := o.scratch, sr := o.sr, accSat := satAdd 32 c.accSat (newSat b (fullBank s ck bn acc) (bankLanes b) + o.marks),
    summary := { c.summary with satRids := noteRid c.summary.satRids b.rid o.satOut, nanRids := noteRid c.summary.nanRids b.rid o.nan } }

theorem finaliseOp_epilogue {l : LayerRec} (hd : (bankOf (coreOf s ck) bn).desc = some acc) (hl : acc.last = true) (h0 : acc.dest = 0)
    (hn : layerRec s (bankOf (coreOf s ck) bn).slot (bankOf (coreOf s ck) bn).layer = some l) :
    finaliseOp s ck bn = setRegion (setCore s ck (epilogueCore s ck bn acc l)) (coreRegion ck)
      (spillClear (regionOf s (coreRegion ck)) (areaSlot (bankOf (coreOf s ck) bn).slot acc.spillSlot)) := by
  unfold finaliseOp
  dsimp only
  rw [hd]
  refine (if_pos hl).trans ?_
  split
  next =>
    split
    next hnone => exact absurd (hn.symm.trans hnone) (by simp)
    next l' hsome =>
      cases hsome.symm.trans hn
      rfl
  next h1 => exact absurd (h0.symm.trans h1) (by decide)
  next hne _ => exact absurd h0 hne

/-- The core of a bank whose entries go to scratch. -/
def scratchCore (s : State) (ck bn : Nat) (acc : AccDesc) : Core :=
  let c := coreOf s ck
  let b := bankOf c bn
  { setBank c bn {} with
    accSat := satAdd 32 c.accSat (newSat b (fullBank s ck bn acc) (bankLanes b)
      + addSat acc.add (fullBank s ck bn acc) (8 * acc.destAddr) c.scratch (List.range (bankLanes b))),
    scratch := writeEntries acc.add (fullBank s ck bn acc) (8 * acc.destAddr) c.scratch (List.range (bankLanes b)) }

theorem finaliseOp_scratch (hd : (bankOf (coreOf s ck) bn).desc = some acc) (hl : acc.last = true) (h1 : acc.dest = 1) :
    finaliseOp s ck bn = setRegion (setCore s ck (scratchCore s ck bn acc)) (coreRegion ck)
      (spillClear (regionOf s (coreRegion ck)) (areaSlot (bankOf (coreOf s ck) bn).slot acc.spillSlot)) := by
  unfold finaliseOp
  dsimp only
  rw [hd]
  refine (if_pos hl).trans ?_
  split
  next h0 => exact absurd (h1.symm.trans h0) (by decide)
  next => rfl
  next _ hne => exact absurd h1 hne

/-- The region's wide buffer with the entries of a finalised bank. -/
def wideWritten (s : State) (ck bn : Nat) (acc : AccDesc) : List Host.Cell :=
  let b := bankOf (coreOf s ck) bn
  writeEntries acc.add (fullBank s ck bn acc) (areaAddr b.slot (8 * acc.destAddr))
    (clearSlot (regionOf s (coreRegion ck)).wideBuf (areaSlot b.slot acc.spillSlot)) (List.range (bankLanes b))

theorem finaliseOp_wide (hd : (bankOf (coreOf s ck) bn).desc = some acc) (hl : acc.last = true) (h2 : 2 ≤ acc.dest) :
    ∃ a, finaliseOp s ck bn = setRegion (setCore s ck { setBank (coreOf s ck) bn {} with accSat := a }) (coreRegion ck)
      { spillClear (regionOf s (coreRegion ck)) (areaSlot (bankOf (coreOf s ck) bn).slot acc.spillSlot) with wideBuf := wideWritten s ck bn acc } := by
  refine ⟨satAdd 32 (coreOf s ck).accSat (newSat (bankOf (coreOf s ck) bn) (fullBank s ck bn acc) (bankLanes (bankOf (coreOf s ck) bn))
    + addSat acc.add (fullBank s ck bn acc) (areaAddr (bankOf (coreOf s ck) bn).slot (8 * acc.destAddr))
      (spillClear (regionOf s (coreRegion ck)) (areaSlot (bankOf (coreOf s ck) bn).slot acc.spillSlot)).wideBuf
      (List.range (bankLanes (bankOf (coreOf s ck) bn)))), ?_⟩
  unfold finaliseOp
  dsimp only
  rw [hd]
  refine (if_pos hl).trans ?_
  split
  next h0 => omega
  next h1 => omega
  next => rfl

end Finalise

/-- A lane's eight bytes, apart from an address outside its slot. -/
theorem lane_apart {slot a n i : Nat} (h : a < slot ∨ slot + 8 * n ≤ a) (hi : i < n) : a < slot + 8 * i ∨ slot + 8 * i + 8 ≤ a := by
  omega

theorem bankOf_freed {c : Core} {bn : Nat} {d : Core} (h : d.banks = (setBank c bn {}).banks) : bankOf d bn = {} :=
  (bankOf_of_banks h bn).trans (bankOf_setBank c bn {})

theorem spillClear_parks (g : Region) (sp : Nat) : tfind (spillClear g sp).parks sp = none := tfind_tdel_same _ _

theorem spillClear_wideBuf (g : Region) (sp : Nat) : (spillClear g sp).wideBuf = clearSlot g.wideBuf sp := rfl

/-- Settles O37: a case per mark of the bank's group and per destination of its result. -/
theorem banksFinalise : Obligations.BanksFinalise := by
  intro ck bn t s hck hbn c b g
  have hexec : exec (.bankFinalise ck bn t) s = .next (finaliseOp (advance t s) ck bn) := (if_pos hbn).trans (if_pos ⟨hck, by decide⟩)
  refine ⟨fun hd => hexec.trans (next_congr (finaliseOp_empty (s := advance t s) hd)), fun acc hd => ?_⟩
  intro sp wa full
  have hd' : (bankOf (coreOf (advance t s) ck) bn).desc = some acc := hd
  refine ⟨fun hl hp => hexec.trans (next_congr (finaliseOp_unmarked hd' hl hp)), fun hl hp => ?_,
    fun hl h0 hn => hexec.trans (next_congr (finaliseOp_noLayer hd' hl h0 hn)), fun hl hdest => ?_⟩
  · obtain ⟨hcore, hreg, hoth, hregs, hst⟩ := setRegion_setCore_spec (advance t s) ck (coreRegion ck)
      { setBank c bn {} with accSat := satAdd 32 c.accSat (newSat b full (bankLanes b)), parked := Nat.lor c.parked (2 ^ bn) }
      { spillLanes sp full (spillClear g sp) (lanesOf full) with
        parks := tput (spillLanes sp full (spillClear g sp) (lanesOf full)).parks sp
          { slot := b.slot, layer := b.layer, core := ck, rid := b.rid, bank := some bn } }
    refine ⟨_, hexec.trans (next_congr (finaliseOp_parks hd' hl hp)), ?_, ?_, ?_, fun hlanes hwidth a ha => ?_, ?_, hoth, hregs, hst⟩
    · exact (congrArg (bankOf · bn) hcore).trans (bankOf_freed (c := c) rfl)
    · exact (congrArg Core.parked hcore).trans rfl
    · exact (congrArg (fun r : Region => tfind r.parks sp) hreg).trans (tfind_tput_same _ _ _)
    · refine (congrArg (fun r : Region => mget r.wideBuf a) hreg).trans ?_
      have hlane : ∀ i ∈ lanesOf full, a < sp + 8 * i ∨ sp + 8 * i + 8 ≤ a := fun i hi => by
        refine lane_apart (n := 256) ha ?_
        rcases mem_lanesOf_reloadLanes _ _ hi with hb | hr
        · obtain ⟨e, he, rfl⟩ := List.mem_map.mp hb
          exact hlanes e he
        · exact (List.mem_range.mp hr).trans_le hwidth
      refine (mget_spillLanes_outside _ _ hlane).trans ?_
      rw [spillClear_wideBuf, mget_clearSlot]
      exact if_neg (by omega)
    · exact (congrArg Core.scratch hcore).trans rfl
  · have hwide : ∀ a, mget (spillClear g sp).wideBuf a = if sp ≤ a ∧ a < sp + 2048 then 0 else mget g.wideBuf a := fun a => by
      rw [spillClear_wideBuf, mget_clearSlot]
    by_cases h0 : acc.dest = 0
    · obtain ⟨l, hlay⟩ := Option.isSome_iff_exists.mp (hdest.resolve_left (fun h => h h0))
      obtain ⟨hcore, hreg, hoth, hregs, hst⟩ := setRegion_setCore_spec (advance t s) ck (coreRegion ck)
        (epilogueCore (advance t s) ck bn acc l) (spillClear g sp)
      refine ⟨_, hexec.trans (next_congr (finaliseOp_epilogue hd' hl h0 hlay)), ?_, ?_, fun l' _ hl' => ?_, fun h => absurd h0 h,
        fun h => absurd (h0.symm.trans h) (by decide), fun h => absurd h (by omega), fun _ => (congrArg Region.wideBuf hreg).trans (spillClear_wideBuf g sp), fun a _ => ?_,
        hoth, hregs, hst⟩
      · exact (congrArg (bankOf · bn) hcore).trans (bankOf_freed (c := c) rfl)
      · exact (congrArg (fun r : Region => tfind r.parks sp) hreg).trans (spillClear_parks g sp)
      · cases hl'.symm.trans hlay
        exact ⟨congrArg Core.scratch hcore, congrArg Core.sr hcore⟩
      · exact (congrArg (fun r : Region => mget r.wideBuf a) hreg).trans (hwide a)
    · by_cases h1 : acc.dest = 1
      · obtain ⟨hcore, hreg, hoth, hregs, hst⟩ := setRegion_setCore_spec (advance t s) ck (coreRegion ck)
          (scratchCore (advance t s) ck bn acc) (spillClear g sp)
        refine ⟨_, hexec.trans (next_congr (finaliseOp_scratch hd' hl h1)), ?_, ?_, fun l' h => absurd h h0, fun _ => (congrArg Core.sr hcore).trans rfl,
          fun _ => ⟨(congrArg Core.scratch hcore).trans rfl, fun a ha => ?_⟩, fun h => absurd h (by omega), fun _ => (congrArg Region.wideBuf hreg).trans (spillClear_wideBuf g sp),
          fun a _ => ?_, hoth, hregs, hst⟩
        · exact (congrArg (bankOf · bn) hcore).trans (bankOf_freed (c := c) rfl)
        · exact (congrArg (fun r : Region => tfind r.parks sp) hreg).trans (spillClear_parks g sp)
        · refine (congrArg (fun x : Core => mget x.scratch a) hcore).trans ?_
          exact mget_writeEntries_outside _ _ (fun i hi => lane_apart ha (List.mem_range.mp hi))
        · exact (congrArg (fun r : Region => mget r.wideBuf a) hreg).trans (hwide a)
      · have h2 : 2 ≤ acc.dest := by omega
        obtain ⟨sat, hop⟩ := finaliseOp_wide hd' hl h2
        obtain ⟨hcore, hreg, hoth, hregs, hst⟩ := setRegion_setCore_spec (advance t s) ck (coreRegion ck)
          { setBank c bn {} with accSat := sat } { spillClear g sp with wideBuf := wideWritten (advance t s) ck bn acc }
        refine ⟨_, hexec.trans (next_congr hop), ?_, ?_, fun l' h => absurd h h0, fun _ => (congrArg Core.sr hcore).trans rfl, fun h => absurd h h1,
          fun _ => ⟨(congrArg Region.wideBuf hreg).trans rfl, (congrArg Core.scratch hcore).trans rfl⟩, fun h => absurd h (by omega), fun a ha => ?_, hoth, hregs, hst⟩
        · exact (congrArg (bankOf · bn) hcore).trans (bankOf_freed (c := c) rfl)
        · exact (congrArg (fun r : Region => tfind r.parks sp) hreg).trans (spillClear_parks g sp)
        · refine (congrArg (fun r : Region => mget r.wideBuf a) hreg).trans ?_
          refine (mget_writeEntries_outside _ _ (fun i hi => lane_apart (ha.resolve_left (by omega)) (List.mem_range.mp hi))).trans ?_
          exact hwide a

end Sys2Proof.Proofs
/-! # Audits -/
namespace Sys2Proof.Proofs

open Sys2Proof.Machine Sys2Proof.Safety Sys2Proof.Laws

/-! ## Comparison and timeout -/

/-- The state in which a comparison's slot is freed and counted. -/
def auditCounted (s : State) (ck i : Nat) : State :=
  modCore s ck (fun c => { c with auditSlots := tdel c.auditSlots i, auditCount := satAdd 32 c.auditCount 1 })

/-- The state in which a comparison beyond `TAU_A` stands in its core, before it is noted as an event. -/
def auditFailed (s : State) (ck i : Nat) (x : AuditSlot) : State :=
  modCore (modCore (auditCounted s ck i) ck (fun c => raisePrecision c x.slot x.layer)) ck (fun c =>
    { c with auditFail := satAdd 32 c.auditFail 1, summary := { c.summary with mismatch := addOnce c.summary.mismatch x.plane } })

theorem auditCompareOp_none {s : State} {ck i : Nat} (h : ∀ x, tfind (coreOf s ck).auditSlots i = some x → auditCopyOf s x = none) :
    auditCompareOp s ck i = s := by
  unfold auditCompareOp
  cases hx : tfind (coreOf s ck).auditSlots i with
  | none => rfl
  | some x => simp [h x hx]

/-- The deviation that a comparison finds, in units of `1 / auditDen`. -/
def auditDeviation (x : AuditSlot) (a : AuditCopy) : Nat := auditPeak x.y (auditReference a x) * auditScale x

/-- The bound `TAU_A` of a slot's layer. -/
def auditTau (s : State) (x : AuditSlot) : Nat := ((layerRec s x.slot x.layer).map tauAOf).getD 8

theorem auditCompareOp_within {s : State} {ck i : Nat} {x : AuditSlot} {a : AuditCopy} (hx : tfind (coreOf s ck).auditSlots i = some x)
    (ha : auditCopyOf s x = some a) (hd : 2 * auditDeviation x a ≤ auditTau s x * auditDen x) :
    auditCompareOp s ck i = auditCounted s ck i := by
  have hbad : ¬(decide (auditTau s x * auditDen x < auditDeviation x a) = true) := by
    simp only [decide_eq_true_eq]
    omega
  have hprec : ¬(decide (auditTau s x * auditDen x < 2 * auditDeviation x a) = true) := by
    simp only [decide_eq_true_eq]
    omega
  unfold auditCompareOp
  rw [hx, Option.bind_some, ha]
  exact (if_neg hbad).trans (if_neg hprec)

theorem auditCompareOp_beyond {s : State} {ck i : Nat} {x : AuditSlot} {a : AuditCopy} (hx : tfind (coreOf s ck).auditSlots i = some x)
    (ha : auditCopyOf s x = some a) (hd : auditTau s x * auditDen x < auditDeviation x a) :
    auditCompareOp s ck i = auditMismatched (auditFailed s ck i x) x.plane (auditDeviation x a / auditDen x) := by
  have hbad : decide (auditTau s x * auditDen x < auditDeviation x a) = true := decide_eq_true hd
  have hprec : decide (auditTau s x * auditDen x < 2 * auditDeviation x a) = true := by
    simp only [decide_eq_true_eq]
    omega
  unfold auditCompareOp
  rw [hx, Option.bind_some, ha]
  refine (if_pos hbad).trans ?_
  exact congrArg (fun y => auditMismatched (modCore y ck (fun c => { c with
    auditFail := satAdd 32 c.auditFail 1, summary := { c.summary with mismatch := addOnce c.summary.mismatch x.plane } }))
      x.plane (auditDeviation x a / auditDen x)) (if_pos hprec)

theorem withCores_trans {s x u : State} (h : x = { s with cores := x.cores }) (g : u = { x with cores := u.cores }) :
    u = { s with cores := u.cores } := by
  refine g.trans ?_
  rw [h]

theorem auditFailed_spec (s : State) (ck i : Nat) (x : AuditSlot) :
    tfind (coreOf (auditFailed s ck i x) ck).auditSlots i = none
      ∧ (coreOf (auditFailed s ck i x) ck).auditCount = satAdd 32 (coreOf s ck).auditCount 1
      ∧ (coreOf (auditFailed s ck i x) ck).auditFail = satAdd 32 (coreOf s ck).auditFail 1
      ∧ (coreOf (auditFailed s ck i x) ck).stPrecision = true ∧ x.plane ∈ (coreOf (auditFailed s ck i x) ck).summary.mismatch
      ∧ (∀ j, j ≠ ck → coreOf (auditFailed s ck i x) j = coreOf s j)
      ∧ auditFailed s ck i x = { s with cores := (auditFailed s ck i x).cores } := by
  have hown : coreOf (auditFailed s ck i x) ck = _ := (coreOf_modCore _ ck _ ck).trans (if_pos rfl)
  have hown' : coreOf (modCore (auditCounted s ck i) ck (fun c => raisePrecision c x.slot x.layer)) ck
      = raisePrecision { coreOf s ck with auditSlots := tdel (coreOf s ck).auditSlots i, auditCount := satAdd 32 (coreOf s ck).auditCount 1 } x.slot
          x.layer := by
    rw [coreOf_modCore, if_pos rfl]
    exact congrArg (raisePrecision · x.slot x.layer) ((coreOf_modCore _ ck _ ck).trans (if_pos rfl))
  rw [hown'] at hown
  have hst : ∀ (x : State) (g : Core → Core), modCore x ck g = { x with cores := (modCore x ck g).cores } := fun _ _ => rfl
  refine ⟨?_, ?_, ?_, ?_, ?_, fun j hj => ?_, withCores_trans (withCores_trans (hst _ _) (hst _ _)) (hst _ _)⟩
  · rw [hown]
    exact tfind_tdel_same _ _
  · rw [hown]
    rfl
  · rw [hown]
    rfl
  · rw [hown]
    rfl
  · rw [hown]
    exact mem_addOnce.mpr (.inl rfl)
  · exact (coreOf_modCore ..).trans ((if_neg hj).trans ((coreOf_modCore ..).trans ((if_neg hj).trans ((coreOf_modCore ..).trans (if_neg hj)))))

/-- A first mismatch of a plane within the hour opens a late fault on it and starts its readback, and fences nothing. -/
theorem auditMismatched_first {s : State} {pk delta : Nat} (h : eventsWithin s .auditMismatch pk 3600000000000 = 0) :
    auditMismatched s pk delta = queueReadback (lateFault (noteEvent s .auditMismatch pk) (unitOfPlane pk) .auditMismatch delta) pk := by
  have hle := eventsWithin_noteEvent_le s .auditMismatch .auditMismatch pk pk oneHour
  have h' : eventsWithin s .auditMismatch pk oneHour = 0 := h
  rw [h', if_pos ⟨rfl, rfl⟩] at hle
  obtain ⟨_, _, hev, _, ht, _⟩ := lateFault_spec (noteEvent s .auditMismatch pk) (unitOfPlane pk) .auditMismatch delta
  refine if_neg (?_ : ¬2 ≤ eventsWithin (lateFault (noteEvent s .auditMismatch pk) (unitOfPlane pk) .auditMismatch delta) .auditMismatch pk oneHour)
  unfold eventsWithin now at hle ⊢
  rw [hev, ht]
  omega

theorem queueReadback_allocated {s : State} {pk : Nat} (h2 : (descOf s pk).state = 2) (hn : tfind s.plates.writing pk = none) :
    tfind (queueReadback s pk).plates.writing pk = some none := by
  unfold queueReadback
  rw [if_pos ⟨h2, by simp [hn]⟩]
  exact tfind_tput_same _ _ _

/-- What a first mismatch leaves. -/
theorem auditMismatched_spec {s : State} {pk delta : Nat} (h : eventsWithin s .auditMismatch pk 3600000000000 = 0) :
    unitOfPlane pk ∈ (auditMismatched s pk delta).faults.openLate ∧ (auditMismatched s pk delta).cores = s.cores
      ∧ ((descOf s pk).state = 2 → tfind s.plates.writing pk = none → tfind (auditMismatched s pk delta).plates.writing pk = some none)
      ∧ (auditMismatched s pk delta).arr = s.arr ∧ (auditMismatched s pk delta).map = s.map := by
  rw [auditMismatched_first h]
  obtain ⟨_, hopen, _, hc, _, hst⟩ := lateFault_spec (noteEvent s .auditMismatch pk) (unitOfPlane pk) .auditMismatch delta
  obtain ⟨_, hq⟩ := queueReadback_spec (lateFault (noteEvent s .auditMismatch pk) (unitOfPlane pk) .auditMismatch delta) pk
  have hall := fun h2 hn =>
    queueReadback_allocated (s := lateFault (noteEvent s .auditMismatch pk) (unitOfPlane pk) .auditMismatch delta) (pk := pk) h2 hn
  generalize lateFault (noteEvent s .auditMismatch pk) (unitOfPlane pk) .auditMismatch delta = w at *
  have harr : w.arr = s.arr := (congrArg State.arr hst : _)
  have hrst : w.rst = s.rst := (congrArg State.rst hst : _)
  have hpl : w.plates = s.plates := (congrArg State.plates hst : _)
  have hmap : w.map = s.map := (congrArg State.map hst : _)
  have hqc : (queueReadback w pk).cores = w.cores := (congrArg State.cores hq : _)
  have hqf : (queueReadback w pk).faults = w.faults := (congrArg State.faults hq : _)
  have hqa : (queueReadback w pk).arr = w.arr := (congrArg State.arr hq : _)
  have hqm : (queueReadback w pk).map = w.map := (congrArg State.map hq : _)
  refine ⟨?_, hqc.trans hc, fun h2 hn => hall ?_ ?_, hqa.trans harr, hqm.trans hmap⟩
  · rw [hqf]
    exact hopen
  · rw [descOf_congr hrst harr]
    exact h2
  · rw [hpl]
    exact hn

/-- Abandoned slots leave a core and are counted. -/
theorem auditTimeoutOp_old {s : State} {ck i : Nat} {x : AuditSlot} (hx : tfind (coreOf s ck).auditSlots i = some x)
    (h : x.started + 50000 ≤ now s) : auditTimeoutOp s ck i = modCore s ck (abandonAudits (fun y => y == x)) := by
  unfold auditTimeoutOp
  rw [hx]
  exact if_pos h

theorem auditTimeoutOp_young {s : State} {ck i : Nat} (h : ∀ x, tfind (coreOf s ck).auditSlots i = some x → now s < x.started + 50000) :
    auditTimeoutOp s ck i = s := by
  unfold auditTimeoutOp
  cases hx : tfind (coreOf s ck).auditSlots i with
  | none => rfl
  | some x => exact if_neg (Nat.not_le.mpr (h x hx))

/-! ## Rotation -/

/-- The state without what fetching the copies of a period changes. -/
def besidesAudit (s : State) : State :=
  { besidesCredits s with cores := [], plates := { (besidesCredits s).plates with auditSet := [], auditSkips := 0, auditPlan := [], auditOld := 0 } }

/-- What a period has fetched and still has to fetch. -/
def auditProgress (s : State) : List AuditCopy × Nat × List Nat × Nat :=
  (s.plates.auditSet, s.plates.auditSkips, s.plates.auditPlan, s.plates.auditOld)

theorem besidesAudit_settleDma (s : State) : besidesAudit (settleDma s) = besidesAudit s :=
  congrArg (fun x : State =>
    { x with cores := [], plates := { x.plates with auditSet := [], auditSkips := 0, auditPlan := [], auditOld := 0 } })
    (besidesCredits_settleDma s)

theorem auditProgress_settleDma (s : State) : auditProgress (settleDma s) = auditProgress s :=
  (congrArg auditProgress (besidesCredits_settleDma s) : _)

theorem physPlaneKey_of_besidesAudit {x s : State} (h : besidesAudit x = besidesAudit s) (l : Nat) : physPlaneKey x l = physPlaneKey s l :=
  (congrArg (physPlaneKey · l) h : _)

theorem descOf_of_besidesAudit {x s : State} (h : besidesAudit x = besidesAudit s) (p : Nat) : descOf x p = descOf s p :=
  (congrArg (descOf · p) h : _)

theorem sourceReads_of_besidesAudit {x s : State} (h : besidesAudit x = besidesAudit s) (l : Nat) : sourceReads x l = sourceReads s l :=
  (congrArg (sourceReads · l) h : _)

theorem copyOf_of_besidesAudit {x s : State} (h : besidesAudit x = besidesAudit s) (l : Nat) (r : PlaneRecord) : copyOf x l r = copyOf s l r :=
  (congrArg (copyOf · l r) h : _)

/-- The state's shape, from what fetching leaves unchanged. -/
theorem eq_of_besidesAudit {u s : State} (h : besidesAudit u = besidesAudit s) :
    u = { s with cores := u.cores, regions := u.regions, out := u.out, plates := { s.plates with
      auditSet := u.plates.auditSet, auditSkips := u.plates.auditSkips, auditPlan := u.plates.auditPlan, auditOld := u.plates.auditOld,
      wants := u.plates.wants, slots := u.plates.slots, area := u.plates.area } } :=
  (congrArg (fun x : State => { x with cores := u.cores, regions := u.regions, out := u.out, plates := { x.plates with
      auditSet := u.plates.auditSet, auditSkips := u.plates.auditSkips, auditPlan := u.plates.auditPlan, auditOld := u.plates.auditOld,
      wants := u.plates.wants, slots := u.plates.slots, area := u.plates.area } }) h : _)

/-- The oldest copy of the last period leaves the set, or nothing happens. -/
theorem leaveAudit_spec (s : State) :
    besidesAudit (leaveAudit s) = besidesAudit s ∧ (∀ a ∈ (leaveAudit s).plates.auditSet, a ∈ s.plates.auditSet)
      ∧ (leaveAudit s).plates.auditSkips = s.plates.auditSkips ∧ (leaveAudit s).plates.auditPlan = s.plates.auditPlan := by
  unfold leaveAudit
  split
  · exact ⟨rfl, fun _ h => h, rfl, rfl⟩
  · exact ⟨rfl, fun _ h => List.mem_of_mem_drop h, rfl, rfl⟩

theorem leaveAll_spec : ∀ (n : Nat) (s : State),
    besidesAudit (leaveAll n s) = besidesAudit s ∧ (∀ a ∈ (leaveAll n s).plates.auditSet, a ∈ s.plates.auditSet)
      ∧ (leaveAll n s).plates.auditSkips = s.plates.auditSkips ∧ (leaveAll n s).plates.auditPlan = s.plates.auditPlan
  | 0, _ => ⟨rfl, fun _ h => h, rfl, rfl⟩
  | n + 1, s => by
    obtain ⟨h1, h2, h3, h4⟩ := leaveAudit_spec s
    obtain ⟨g1, g2, g3, g4⟩ := leaveAll_spec n (leaveAudit s)
    exact ⟨g1.trans h1, fun a ha => h2 a (g2 a ha), g3.trans h3, g4.trans h4⟩

/-- A plane of the plan that is ALLOCATED. -/
def auditAllocated (s : State) (l : Nat) : Prop := ∃ p, physPlaneKey s l = some p ∧ (descOf s p).state = 2

/-- A copy that passes its checks. -/
def auditGood (s : State) (l : Nat) (x : AuditFetch) : Prop :=
  x.ok = true ∧ sourceReads s l = true ∧ l ∈ recPlanes (decodeRecord x.bytes)
    ∧ recordOk ((decodeRecord x.bytes).twin != 0) none (decodeRecord x.bytes) = true

theorem auditAllocated_iff (s : State) (l : Nat) :
    ((physPlaneKey s l).any (fun p => (descOf s p).state == 2)) = true ↔ auditAllocated s l := by
  unfold auditAllocated
  cases physPlaneKey s l <;> simp

theorem auditGood_iff (s : State) (l : Nat) (x : AuditFetch) :
    (x.ok && sourceReads s l && recordOk ((decodeRecord x.bytes).twin != 0) none (decodeRecord x.bytes)
      && decide (l ∈ recPlanes (decodeRecord x.bytes))) = true ↔ auditGood s l x := by
  unfold auditGood
  simp only [Bool.and_eq_true, decide_eq_true_eq]
  tauto

/-- The plan without its first plane. -/
def planTaken (s : State) (plan : List Nat) : State := setPlates s (fun b => { b with auditPlan := plan })

/-- The plan's first plane, counted as not fetched. -/
def planSkipped (s : State) (plan : List Nat) : State := setPlates (planTaken s plan) (fun b => { b with auditSkips := satAdd 32 b.auditSkips 1 })

/-- The plan's first plane, with its copy in the set. -/
def copyJoined (s : State) (l : Nat) (plan : List Nat) (r : PlaneRecord) : State :=
  setPlates (leaveAudit (planTaken s plan)) (fun b => { b with auditSet := b.auditSet ++ [copyOf s l r] })

theorem auditFetchOne_nil {s : State} {f : Option AuditFetch} (h : s.plates.auditPlan = []) : auditFetchOne s f = s := by
  unfold auditFetchOne
  rw [h]

theorem auditFetchOne_waits {s : State} {f : Option AuditFetch} (h : fetched s (auditRegion s) .audit = false) : auditFetchOne s f = s := by
  unfold auditFetchOne
  cases s.plates.auditPlan with
  | nil => rfl
  | cons l plan => exact if_pos (by rw [h]; rfl)

theorem auditFetchOne_moved {s : State} {f : Option AuditFetch} {l : Nat} {plan : List Nat} (h : s.plates.auditPlan = l :: plan)
    (hf : fetched s (auditRegion s) .audit = true) (ha : ¬auditAllocated s l) : auditFetchOne s f = planTaken s plan := by
  unfold auditFetchOne
  rw [h]
  refine (if_neg (by rw [hf]; decide)).trans (if_pos ?_)
  rw [← auditAllocated_iff, Bool.not_eq_true] at ha
  rw [ha]
  rfl

theorem auditFetchOne_allocated {s : State} {l : Nat} {plan : List Nat} (h : s.plates.auditPlan = l :: plan)
    (hf : fetched s (auditRegion s) .audit = true) (ha : auditAllocated s l) :
    auditFetchOne s none = planSkipped s plan
      ∧ ∀ x, auditFetchOne s (some x)
        = if (x.ok && sourceReads s l && recordOk ((decodeRecord x.bytes).twin != 0) none (decodeRecord x.bytes)
            && decide (l ∈ recPlanes (decodeRecord x.bytes))) = true then copyJoined s l plan (decodeRecord x.bytes) else planSkipped s plan := by
  have hgo : ∀ a b : State, (if (!fetched s (auditRegion s) .audit) = true then s else
      if (!(physPlaneKey s l).any (fun p => (descOf s p).state == 2)) = true then a else b) = b := fun a b => by
    rw [hf, (auditAllocated_iff s l).mpr ha]
    rfl
  constructor
  · unfold auditFetchOne
    rw [h]
    exact hgo _ _
  · intro x
    unfold auditFetchOne
    rw [h]
    exact hgo _ _

/-- A fetch keeps the rest of the state; its copy, when it joins, passed its checks. -/
theorem auditFetchOne_spec (s : State) (f : Option AuditFetch) :
    besidesAudit (auditFetchOne s f) = besidesAudit s
      ∧ ∀ a ∈ (auditFetchOne s f).plates.auditSet, a ∈ s.plates.auditSet
        ∨ ∃ x, f = some x ∧ auditGood s a.plane x ∧ auditAllocated s a.plane ∧ a = copyOf s a.plane (decodeRecord x.bytes) := by
  have hskip : ∀ plan, besidesAudit (planSkipped s plan) = besidesAudit s ∧ (planSkipped s plan).plates.auditSet = s.plates.auditSet :=
    fun _ => ⟨rfl, rfl⟩
  cases hp : s.plates.auditPlan with
  | nil =>
    rw [auditFetchOne_nil hp]
    exact ⟨rfl, fun _ h => .inl h⟩
  | cons l plan =>
    cases hf : fetched s (auditRegion s) .audit with
    | false =>
      rw [auditFetchOne_waits hf]
      exact ⟨rfl, fun _ h => .inl h⟩
    | true =>
      by_cases ha : auditAllocated s l
      · obtain ⟨hnone, hsome⟩ := auditFetchOne_allocated hp hf ha
        cases f with
        | none =>
          rw [hnone]
          exact ⟨(hskip plan).1, fun _ h => .inl h⟩
        | some x =>
          rw [hsome]
          split
          next hg =>
            obtain ⟨h1, h2, _, _⟩ := leaveAudit_spec (planTaken s plan)
            refine ⟨h1.trans rfl, fun a hm => ?_⟩
            rcases List.mem_append.mp hm with hm | hm
            · exact .inl (h2 a hm)
            · obtain rfl : a = copyOf s l (decodeRecord x.bytes) := List.mem_singleton.mp hm
              exact .inr ⟨x, rfl, (auditGood_iff s l x).mp hg, ha, rfl⟩
          next => exact ⟨(hskip plan).1, fun _ h => .inl h⟩
      · rw [auditFetchOne_moved hp hf ha]
        exact ⟨rfl, fun _ h => .inl h⟩

theorem auditGood_of_besidesAudit {x s : State} (h : besidesAudit x = besidesAudit s) {l : Nat} {f : AuditFetch} (hg : auditGood x l f) :
    auditGood s l f := by
  obtain ⟨h1, h2, h3⟩ := hg
  exact ⟨h1, (sourceReads_of_besidesAudit h l).symm.trans h2, h3⟩

theorem auditAllocated_of_besidesAudit {x s : State} (h : besidesAudit x = besidesAudit s) {l : Nat} (ha : auditAllocated x l) :
    auditAllocated s l := by
  obtain ⟨p, h1, h2⟩ := ha
  rw [physPlaneKey_of_besidesAudit h] at h1
  rw [descOf_of_besidesAudit h] at h2
  exact ⟨p, h1, h2⟩

/-- The fetches of a rotation, each after the credits are settled. -/
def auditFetchAll (fs : List (Option AuditFetch)) (s : State) : State := fs.foldl (fun x f => auditFetchOne (settleDma x) f) s

theorem auditFetchAll_spec : ∀ (fs : List (Option AuditFetch)) (s : State),
    besidesAudit (auditFetchAll fs s) = besidesAudit s
      ∧ ∀ a ∈ (auditFetchAll fs s).plates.auditSet, a ∈ s.plates.auditSet
        ∨ ∃ x, some x ∈ fs ∧ auditGood s a.plane x ∧ auditAllocated s a.plane ∧ a = copyOf s a.plane (decodeRecord x.bytes)
  | [], _ => ⟨rfl, fun _ h => .inl h⟩
  | f :: fs, s => by
    obtain ⟨h1, h2⟩ := auditFetchOne_spec (settleDma s) f
    have h0 := besidesAudit_settleDma s
    have hset : (settleDma s).plates.auditSet = s.plates.auditSet := congrArg Prod.fst (auditProgress_settleDma s)
    obtain ⟨g1, g2⟩ := auditFetchAll_spec fs (auditFetchOne (settleDma s) f)
    have hb := h1.trans h0
    refine ⟨g1.trans hb, fun a ha => ?_⟩
    rcases g2 a ha with hm | ⟨x, hx, hg, hal, he⟩
    · rcases h2 a hm with hm | ⟨x, hx, hg, hal, he⟩
      · rw [hset] at hm
        exact .inl hm
      · exact .inr ⟨x, hx ▸ List.mem_cons_self, auditGood_of_besidesAudit h0 hg, auditAllocated_of_besidesAudit h0 hal,
          he.trans (copyOf_of_besidesAudit h0 _ _)⟩
    · exact .inr ⟨x, List.mem_cons_of_mem _ hx, auditGood_of_besidesAudit hb hg, auditAllocated_of_besidesAudit hb hal,
        he.trans (copyOf_of_besidesAudit hb _ _)⟩

/-- The end of a rotation: the credits are settled, and with an empty plan the last period's copies leave. -/
def auditRotated (s : State) : State :=
  if (settleDma s).plates.auditPlan = [] then leaveAll (settleDma s).plates.auditOld (settleDma s) else settleDma s

theorem auditRotated_spec (s : State) :
    besidesAudit (auditRotated s) = besidesAudit s ∧ (∀ a ∈ (auditRotated s).plates.auditSet, a ∈ s.plates.auditSet)
      ∧ (auditRotated s).plates.auditSkips = s.plates.auditSkips ∧ (auditRotated s).plates.auditPlan = s.plates.auditPlan
      ∧ (s.plates.auditPlan ≠ [] → (auditRotated s).plates.auditSet = s.plates.auditSet) := by
  have h0 := besidesAudit_settleDma s
  have hpr := auditProgress_settleDma s
  simp only [auditProgress, Prod.mk.injEq] at hpr
  obtain ⟨hset, hskips, hplan, _⟩ := hpr
  unfold auditRotated
  split
  next hnil =>
    obtain ⟨h1, h2, h3, h4⟩ := leaveAll_spec (settleDma s).plates.auditOld (settleDma s)
    exact ⟨h1.trans h0, fun a ha => hset ▸ h2 a ha, h3.trans hskips, h4.trans hplan, fun hne => absurd (hplan ▸ hnil) hne⟩
  next => exact ⟨h0, fun a ha => hset ▸ ha, hskips, hplan, fun _ => hset⟩

/-- The state from which a rotation fetches. -/
def auditBegun (s : State) : State := if s.plates.auditStart.all (fun t => t + auditPeriodNs s ≤ now s) = true then startAudit s else s

theorem auditRotationOp_eq (s : State) (fs : List (Option AuditFetch)) :
    auditRotationOp s fs = auditRotated (auditFetchAll fs (auditBegun s)) := rfl

theorem auditBegun_due {s : State} (h : ∀ t0, s.plates.auditStart = some t0 → t0 + auditPeriodNs s ≤ now s) : auditBegun s = startAudit s :=
  if_pos (by
    cases hs : s.plates.auditStart with
    | none => rfl
    | some t0 => exact decide_eq_true (h t0 hs))

theorem auditBegun_early {s : State} {t0 : Nat} (hs : s.plates.auditStart = some t0) (h : now s < t0 + auditPeriodNs s) : auditBegun s = s :=
  if_neg (by rw [hs]; simpa using h)

/-- The start of a period keeps the set, and whatever the checks of a copy read. -/
theorem auditBegun_spec (s : State) :
    (auditBegun s).plates.auditSet = s.plates.auditSet
      ∧ auditBegun s = { s with plates := { s.plates with
          auditAt := (auditBegun s).plates.auditAt, auditStart := (auditBegun s).plates.auditStart, auditPlan := (auditBegun s).plates.auditPlan,
          auditOld := (auditBegun s).plates.auditOld } }
      ∧ (∀ l, physPlaneKey (auditBegun s) l = physPlaneKey s l) ∧ (∀ p, descOf (auditBegun s) p = descOf s p)
      ∧ (∀ l, sourceReads (auditBegun s) l = sourceReads s l) ∧ (∀ l r, copyOf (auditBegun s) l r = copyOf s l r) := by
  unfold auditBegun
  split <;> exact ⟨rfl, rfl, fun _ => rfl, fun _ => rfl, fun _ => rfl, fun _ _ => rfl⟩

theorem takeWindow_advance (t : Nat) (s : State) : ∀ (n : Nat) (ls : List Nat), takeWindow (advance t s) n ls = takeWindow s n ls
  | _, [] => rfl
  | n, l :: ls => by
    have hbytes : ((physPlaneKey (advance t s) l).map (fun p => (descOf (advance t s) p).skimValid))
      = ((physPlaneKey s l).map (fun p => (descOf s p).skimValid)) := rfl
    unfold takeWindow
    rw [hbytes]
    dsimp only
    rw [takeWindow_advance t s]

/-- A fetch, when the plan's next plane is ALLOCATED and its transfer may run. -/
theorem auditRotationOp_one {s : State} {l : Nat} {rest : List Nat} (hb : auditBegun s = s) (hp : s.plates.auditPlan = l :: rest)
    (hne : rest ≠ []) (ha : auditAllocated s l) (hc : fetched (settleDma s) (auditRegion (settleDma s)) .audit = true) (f : Option AuditFetch) :
    (auditRotationOp s [f]).plates.auditPlan = rest
      ∧ (f = none → (auditRotationOp s [f]).plates.auditSet = s.plates.auditSet
          ∧ (auditRotationOp s [f]).plates.auditSkips = satAdd 32 s.plates.auditSkips 1)
      ∧ ∀ x, f = some x → auditGood s l x → copyOf s l (decodeRecord x.bytes) ∈ (auditRotationOp s [f]).plates.auditSet
          ∧ (auditRotationOp s [f]).plates.auditSkips = s.plates.auditSkips := by
  have h0 := besidesAudit_settleDma s
  have hpr := auditProgress_settleDma s
  simp only [auditProgress, Prod.mk.injEq] at hpr
  obtain ⟨hset, hskips, hplan, _⟩ := hpr
  have ha' : auditAllocated (settleDma s) l := auditAllocated_of_besidesAudit h0.symm ha
  obtain ⟨hnone, hsome⟩ := auditFetchOne_allocated (hplan.trans hp) hc ha'
  have hop : auditRotationOp s [f] = auditRotated (auditFetchOne (settleDma s) f) := by
    rw [auditRotationOp_eq, hb]
    rfl
  have htaken : ∀ x : State, (planSkipped x rest).plates.auditPlan = rest ∧ (planSkipped x rest).plates.auditSet = x.plates.auditSet
      ∧ (planSkipped x rest).plates.auditSkips = satAdd 32 x.plates.auditSkips 1 := fun _ => ⟨rfl, rfl, rfl⟩
  have hjoined : ∀ (x : State) (r : PlaneRecord), (copyJoined x l rest r).plates.auditPlan = rest
      ∧ copyOf x l r ∈ (copyJoined x l rest r).plates.auditSet ∧ (copyJoined x l rest r).plates.auditSkips = x.plates.auditSkips := fun x r => by
    obtain ⟨_, _, g3, g4⟩ := leaveAudit_spec (planTaken x rest)
    exact ⟨g4, List.mem_append_right _ (List.mem_singleton.mpr rfl), g3⟩
  rw [hop]
  obtain ⟨_, _, r3, r4, r5⟩ := auditRotated_spec (auditFetchOne (settleDma s) f)
  rw [r3, r4]
  have hplan' : (auditFetchOne (settleDma s) f).plates.auditPlan = rest := by
    cases f with
    | none => rw [hnone, (htaken _).1]
    | some x =>
      rw [hsome]
      split
      · exact (hjoined _ _).1
      · exact (htaken _).1
  rw [r5 (by rw [hplan']; exact hne)]
  refine ⟨hplan', fun hf => ?_, fun x hf hg => ?_⟩
  · subst hf
    rw [hnone, (htaken _).2.1, (htaken _).2.2, hset, hskips]
    exact ⟨rfl, rfl⟩
  · subst hf
    rw [hsome, if_pos ((auditGood_iff _ _ _).mpr (auditGood_of_besidesAudit h0.symm hg)), (hjoined _ _).2.2, hskips, ← copyOf_of_besidesAudit h0]
    exact ⟨(hjoined _ _).2.1, rfl⟩

/-- Settles O41: the comparison, the timeout and the rotation of the audit. -/
theorem audits : Obligations.Audits := by
  intro ck i t s hck c
  have hcmp : exec (.auditCompare ck i t) s = .next (auditCompareOp (advance t s) ck i) := if_pos ⟨hck, by decide⟩
  have htime : exec (.auditTimeout ck i t) s = .next (auditTimeoutOp (advance t s) ck i) := if_pos ⟨hck, by decide⟩
  have hrot : ∀ fetched checks, exec (.auditRotation fetched checks t) s = .next (auditRotationOp (advance t s) (auditFetches fetched checks)) :=
    fun _ _ => rfl
  refine ⟨fun hn => ⟨hcmp.trans (next_congr (auditCompareOp_none fun x hx => ?_)), htime.trans (next_congr (auditTimeoutOp_young fun x hx => ?_))⟩,
    ?_, ?_, fun fetched checks => ⟨_, hrot fetched checks, ?_⟩, fun t0 l rest f ok hs hn hp hne hal hcred => ?_⟩
  · exact absurd (hn.symm.trans hx) (by simp)
  · exact absurd (hn.symm.trans hx) (by simp)
  · intro x a hx ha d tau
    refine ⟨fun hd => hcmp.trans (next_congr (auditCompareOp_within (s := advance t s) hx ha hd)), fun hd h0 => ?_⟩
    obtain ⟨h1, h2, h3, h4, h5, h6, h7⟩ := auditFailed_spec (advance t s) ck i x
    have h0' : eventsWithin (auditFailed (advance t s) ck i x) .auditMismatch x.plane 3600000000000 = 0 := by
      have hf : (auditFailed (advance t s) ck i x).faults = (advance t s).faults := (congrArg State.faults h7 : _)
      have ht : (auditFailed (advance t s) ck i x).time = (advance t s).time := (congrArg State.time h7 : _)
      unfold eventsWithin now at h0 ⊢
      rw [hf, ht]
      exact h0
    obtain ⟨m1, m2, m3, m4, m5⟩ := auditMismatched_spec (delta := auditDeviation x a / auditDen x) h0'
    have hcore := fun j => coreOf_of_cores m2 j
    refine ⟨_, hcmp.trans (next_congr (auditCompareOp_beyond (s := advance t s) hx ha hd)), ?_, ?_, ?_, ?_, ?_, m1, fun hst hw => m3 ?_ ?_,
      fun j hj => (hcore j).trans (h6 j hj), m4.trans (congrArg State.arr h7 : _), m5.trans (congrArg State.map h7 : _)⟩
    · rw [hcore]
      exact h1
    · rw [hcore]
      exact h2
    · rw [hcore]
      exact h3
    · rw [hcore]
      exact h4
    · rw [hcore]
      exact h5
    · rw [descOf_congr (congrArg State.rst h7 : _) (congrArg State.arr h7 : _)]
      exact hst
    · rw [(congrArg State.plates h7 : (auditFailed (advance t s) ck i x).plates = _)]
      exact hw
  · intro x hx
    refine ⟨fun hn => hcmp.trans (next_congr (auditCompareOp_none fun y hy => ?_)), fun hold => ?_, fun hyoung =>
      htime.trans (next_congr (auditTimeoutOp_young fun y hy => ?_))⟩
    · obtain rfl : x = y := Option.some.inj (hx.symm.trans hy)
      exact hn
    · refine ⟨_, htime.trans (next_congr (auditTimeoutOp_old (s := advance t s) hx hold)), ?_⟩
      have hown : coreOf (modCore (advance t s) ck (abandonAudits (fun y => y == x))) ck = abandonAudits (fun y => y == x) c :=
        (coreOf_modCore ..).trans (if_pos rfl)
      rw [hown]
      refine ⟨fun e he => ?_, fun e he hne => ?_, ?_, fun j hj => (coreOf_modCore ..).trans (if_neg hj), rfl⟩
      · have hk := (List.mem_filter.mp he).2
        simpa using hk
      · exact List.mem_filter.mpr ⟨he, by simpa using hne⟩
      · have hmem : (i, x) ∈ c.auditSlots.filter (fun e => e.2 == x) := List.mem_filter.mpr ⟨mem_of_tfind hx, by simp⟩
        have hpos := List.length_pos_of_mem hmem
        change min (c.auditSkip + 1) (2 ^ 32 - 1) ≤ min (c.auditSkip + (c.auditSlots.filter (fun e => e.2 == x)).length) (2 ^ 32 - 1)
        omega
    · obtain rfl : x = y := Option.some.inj (hx.symm.trans hy)
      exact hyoung
  · rw [auditRotationOp_eq]
    obtain ⟨b1, b2, b3, b4, b5, b6⟩ := auditBegun_spec (advance t s)
    have hdue := auditBegun_due (s := advance t s)
    have hearly := fun t0 => auditBegun_early (s := advance t s) (t0 := t0)
    generalize auditBegun (advance t s) = s1 at *
    obtain ⟨f1, f2⟩ := auditFetchAll_spec (auditFetches fetched checks) s1
    have hnil : fetched = [] → auditFetchAll (auditFetches fetched checks) s1 = s1 := fun h => by rw [h]; rfl
    generalize auditFetchAll (auditFetches fetched checks) s1 = s2 at *
    obtain ⟨r1, r2, r3, r4, _⟩ := auditRotated_spec s2
    generalize auditRotated s2 = u at *
    have hview := r1.trans f1
    have hstart : u.plates.auditStart = s1.plates.auditStart := (congrArg (fun x : State => x.plates.auditStart) hview : _)
    have hat : u.plates.auditAt = s1.plates.auditAt := (congrArg (fun x : State => x.plates.auditAt) hview : _)
    refine ⟨fun a ha => ?_, fun hd => ?_, fun t0 hs hn => ?_, ?_⟩
    · rcases f2 a (r2 a ha) with hm | ⟨x, hx, ⟨g1, g2, g3⟩, ⟨p, hp, hst⟩, he⟩
      · rw [b1] at hm
        exact .inl hm
      · rw [b3] at hp
        rw [b4] at hst
        exact .inr ⟨x, hx, ⟨g1, (b5 _).symm.trans g2, g3⟩, ⟨p, hp, hst⟩, he.trans (b6 _ _)⟩
    · have hs1 := hdue hd
      refine ⟨?_, fun hf => ?_⟩
      · rw [hstart, hs1]
        rfl
      · rw [r4, hnil hf, hs1]
        exact takeWindow_advance t s _ _
    · have hs1 := hearly t0 hs hn
      refine ⟨?_, ?_, fun hf => ⟨?_, ?_⟩⟩
      · rw [hstart, hs1]
        exact hs
      · rw [hat, hs1]
        rfl
      · rw [r4, hnil hf, hs1]
        rfl
      · rw [r3, hnil hf, hs1]
        rfl
    · refine (eq_of_besidesAudit hview).trans ?_
      rw [hat, hstart]
      rw [b2]
      rfl
  · have hb : auditBegun (advance t s) = advance t s := auditBegun_early hs hn
    have hc : fetched (settleDma (advance t s)) (auditRegion (settleDma (advance t s))) .audit = true := by
      unfold fetched
      rcases hcred with h | h
      · rw [h]
        rfl
      · rw [h]
        simp
    obtain ⟨h1, h2, h3⟩ := auditRotationOp_one (s := advance t s) hb hp hne hal hc (f.map (fun b => { bytes := b, ok := ok }))
    have hone : exec (.auditRotation [f] [ok] t) s = .next (auditRotationOp (advance t s) [f.map (fun b => { bytes := b, ok := ok })]) := hrot [f] [ok]
    refine ⟨_, hone, h1, fun hf => h2 (by rw [hf]; rfl), fun b hf hg => h3 ⟨b, ok⟩ (by rw [hf]; rfl) hg⟩

end Sys2Proof.Proofs
/-! # Core tests -/
namespace Sys2Proof.Proofs

open Sys2Proof.Machine Sys2Proof.Safety Sys2Proof.Laws

/-! ## The planes of a test -/

/-- A plane that takes a tile's test pattern. -/
def patternPlane (s : State) (p : Nat) : State :=
  queueWrite (setDescState (setPlates s (fun b => { b with testPlanes := addOnce b.testPlanes p })) p 5) p none

theorem descOf_setDesc {s : State} (hl : s.rst.loadDone = true) (p q : Nat) (d : PlaneDesc) :
    descOf (setDesc s p d) q = if q = p then d else descOf s q := by
  have hl' : (setDesc s p d).rst.loadDone = true := hl
  unfold descOf
  rw [if_pos hl', if_pos hl]
  have ht : tfind (setDesc s p d).arr.desc q = if q = p then some d else tfind s.arr.desc q := tfind_tput _ _ _ _
  rw [ht]
  split <;> rfl

theorem descOf_patternPlane {s : State} (hl : s.rst.loadDone = true) (p q : Nat) :
    descOf (patternPlane s p) q = if q = p then { descOf s p with state := 5 } else descOf s q :=
  descOf_setDesc (s := setPlates s (fun b => { b with testPlanes := addOnce b.testPlanes p })) hl p q _

theorem tfind_writing_patternPlane (s : State) (p q : Nat) :
    tfind (patternPlane s p).plates.writing q = if q = p then some none else tfind s.plates.writing q := tfind_tput _ _ _ _

theorem patternPlane_frame (s : State) (p : Nat) :
    (patternPlane s p).plates.testPlanes = addOnce s.plates.testPlanes p ∧ (patternPlane s p).plates.claims = s.plates.claims
      ∧ (patternPlane s p).cores = s.cores ∧ (patternPlane s p).rst = s.rst := ⟨rfl, rfl, rfl, rfl⟩

/-- The tile has a plane for its test pattern. -/
def hasPattern (s : State) (tk : Nat) : Prop := planesIn s tk 3 ≠ [] ∨ ∃ p ∈ s.plates.testPlanes, planeTile p = tk

/-- The plane that a tile without one takes. -/
def patternChoice (s : State) (tk : Nat) : Option Nat :=
  ((List.range 1408).map (planeKey tk)).find? (fun p => (descOf s p).state == 1 && p ∉ s.plates.claims.map (·.2))

theorem hasPattern_iff (s : State) (tk : Nat) :
    (planesIn s tk 3 != [] || s.plates.testPlanes.any (fun p => planeTile p == tk)) = true ↔ hasPattern s tk := by
  unfold hasPattern
  simp

theorem prepareTile_has {s : State} {ck t : Nat} (h : hasPattern s (tileKey ck t)) : prepareTile ck s t = s := by
  unfold prepareTile
  exact if_pos ((hasPattern_iff s _).mpr h)

theorem prepareTile_takes {s : State} {ck t p : Nat} (h : ¬hasPattern s (tileKey ck t)) (hp : patternChoice s (tileKey ck t) = some p) :
    prepareTile ck s t = patternPlane s p := by
  unfold patternChoice at hp
  unfold prepareTile
  refine (if_neg (fun hh => h ((hasPattern_iff s _).mp hh))).trans ?_
  dsimp only
  rw [hp]
  rfl

theorem prepareTile_none {s : State} {ck t : Nat} (h : ¬hasPattern s (tileKey ck t)) (hp : patternChoice s (tileKey ck t) = none) :
    prepareTile ck s t = s := by
  unfold patternChoice at hp
  unfold prepareTile
  refine (if_neg (fun hh => h ((hasPattern_iff s _).mp hh))).trans ?_
  dsimp only
  rw [hp]

theorem planeTile_planeKey {tk m : Nat} (h : m < 1408) : planeTile (planeKey tk m) = tk := by
  unfold planeTile planeKey
  omega

/-- The plane taken lies in the tile and was a STANDBY plane. -/
theorem patternChoice_some {s : State} {tk p : Nat} (h : patternChoice s tk = some p) : planeTile p = tk := by
  obtain ⟨m, hm, rfl⟩ := List.mem_map.mp (List.mem_of_find?_eq_some h)
  exact planeTile_planeKey (List.mem_range.mp hm)

theorem patternChoice_isSome {s : State} {tk m : Nat} (hm : m < 1408) (hs : (descOf s (planeKey tk m)).state = 1)
    (hc : ∀ e ∈ s.plates.claims, e.2 ≠ planeKey tk m) : (patternChoice s tk).isSome = true := by
  unfold patternChoice
  rw [List.find?_isSome]
  refine ⟨planeKey tk m, List.mem_map.mpr ⟨m, List.mem_range.mpr hm, rfl⟩, ?_⟩
  simp only [hs, beq_self_eq_true, Bool.true_and, decide_eq_true_eq, List.mem_map, not_exists, not_and]
  exact fun e he => hc e he

/-- The planes of the tile are as before, and so are the claims, the cores and the state of the load. -/
structure TileKept (tk : Nat) (s u : State) : Prop where
  desc : ∀ p, planeTile p = tk → descOf u p = descOf s p
  planes : ∀ p, planeTile p = tk → (p ∈ u.plates.testPlanes ↔ p ∈ s.plates.testPlanes)
  writing : ∀ p, planeTile p = tk → tfind u.plates.writing p = tfind s.plates.writing p
  claims : u.plates.claims = s.plates.claims
  cores : u.cores = s.cores
  rst : u.rst = s.rst

theorem TileKept.refl (tk : Nat) (s : State) : TileKept tk s s := ⟨fun _ _ => rfl, fun _ _ => Iff.rfl, fun _ _ => rfl, rfl, rfl, rfl⟩

theorem TileKept.trans {tk : Nat} {s x u : State} (h : TileKept tk s x) (g : TileKept tk x u) : TileKept tk s u :=
  ⟨fun p hp => (g.desc p hp).trans (h.desc p hp), fun p hp => (g.planes p hp).trans (h.planes p hp),
    fun p hp => (g.writing p hp).trans (h.writing p hp), g.claims.trans h.claims, g.cores.trans h.cores, g.rst.trans h.rst⟩

/-- Another tile's preparation keeps this tile's planes. -/
theorem tileKept_prepareTile {s : State} {ck t tk : Nat} (hl : s.rst.loadDone = true) (hne : tileKey ck t ≠ tk) :
    TileKept tk s (prepareTile ck s t) := by
  by_cases h : hasPattern s (tileKey ck t)
  · rw [prepareTile_has h]
    exact .refl tk s
  · cases hp : patternChoice s (tileKey ck t) with
    | none =>
      rw [prepareTile_none h hp]
      exact .refl tk s
    | some q =>
      rw [prepareTile_takes h hp]
      have hq := patternChoice_some hp
      have hpq : ∀ p, planeTile p = tk → p ≠ q := fun p hp e => hne (hq.symm.trans (e ▸ hp))
      refine ⟨fun p h => ?_, fun p h => ?_, fun p h => ?_, rfl, rfl, rfl⟩
      · rw [descOf_patternPlane hl, if_neg (hpq p h)]
      · rw [(patternPlane_frame s q).1, mem_addOnce]
        exact or_iff_right (hpq p h)
      · rw [tfind_writing_patternPlane, if_neg (hpq p h)]

theorem tileKept_foldl {ck tk : Nat} (l : List Nat) (hl : ∀ t ∈ l, tileKey ck t ≠ tk) {s : State} (hd : s.rst.loadDone = true) :
    TileKept tk s (l.foldl (prepareTile ck) s) := by
  induction l generalizing s with
  | nil => exact .refl tk s
  | cons t l ih =>
    have h1 := tileKept_prepareTile hd (hl t List.mem_cons_self)
    rw [List.foldl_cons]
    exact h1.trans (ih (fun t' ht => hl t' (List.mem_cons_of_mem _ ht)) (by rw [h1.rst]; exact hd))

theorem hasPattern_of_tileKept {tk : Nat} {s u : State} (h : TileKept tk s u) : hasPattern u tk ↔ hasPattern s tk := by
  have hin : planesIn u tk 3 = planesIn s tk 3 := by
    refine List.filter_congr fun m hm => ?_
    rw [h.desc _ (planeTile_planeKey (List.mem_range.mp hm))]
  have hex : (∃ p ∈ u.plates.testPlanes, planeTile p = tk) ↔ ∃ p ∈ s.plates.testPlanes, planeTile p = tk := by
    constructor
    · rintro ⟨p, hp, ht⟩
      exact ⟨p, (h.planes p ht).mp hp, ht⟩
    · rintro ⟨p, hp, ht⟩
      exact ⟨p, (h.planes p ht).mpr hp, ht⟩
  unfold hasPattern
  rw [hin, hex]

/-- With a plane for every tile, nothing is taken. -/
theorem prepareTest_has {s : State} {ck : Nat} (h : ∀ x, x < 16 → hasPattern s (tileKey ck x)) : prepareTest s ck = s := by
  have hfold : ∀ l : List Nat, (∀ x ∈ l, x < 16) → l.foldl (prepareTile ck) s = s := fun l => by
    induction l with
    | nil => exact fun _ => rfl
    | cons x l ih =>
      intro hl
      rw [List.foldl_cons, prepareTile_has (h x (hl x List.mem_cons_self))]
      exact ih (fun y hy => hl y (List.mem_cons_of_mem _ hy))
  exact hfold _ (fun x hx => List.mem_range.mp hx)

/-- A tile without a plane takes one, and the pattern is to be written into it. -/
theorem prepareTest_takes {s : State} {ck x m : Nat} (hx : x < 16) (hd : s.rst.loadDone = true) (hn : ¬hasPattern s (tileKey ck x))
    (hm : m < 1408) (hs : (descOf s (planeKey (tileKey ck x) m)).state = 1) (hc : ∀ e ∈ s.plates.claims, e.2 ≠ planeKey (tileKey ck x) m) :
    ∃ p, p ∈ (prepareTest s ck).plates.testPlanes ∧ planeTile p = tileKey ck x ∧ (descOf (prepareTest s ck) p).state = 5
      ∧ tfind (prepareTest s ck).plates.writing p = some none ∧ (prepareTest s ck).cores = s.cores := by
  obtain ⟨l1, l2, hl⟩ := List.append_of_mem (List.mem_range.mpr hx)
  have hnodup : (l1 ++ x :: l2).Nodup := hl ▸ List.nodup_range
  obtain ⟨_, hcons, hdis⟩ := List.nodup_append.mp hnodup
  have hother : ∀ l : List Nat, x ∉ l → ∀ t ∈ l, tileKey ck t ≠ tileKey ck x := fun l hxl t ht e => by
    unfold tileKey at e
    obtain rfl : t = x := by omega
    exact hxl ht
  have hx1 : x ∉ l1 := fun h => hdis x h x List.mem_cons_self rfl
  have hx2 : x ∉ l2 := (List.nodup_cons.mp hcons).1
  have hprep : prepareTest s ck = l2.foldl (prepareTile ck) (prepareTile ck (l1.foldl (prepareTile ck) s) x) := by
    unfold prepareTest
    rw [hl, List.foldl_append, List.foldl_cons]
  have k1 := tileKept_foldl l1 (hother l1 hx1) hd
  rw [hprep]
  generalize l1.foldl (prepareTile ck) s = v at k1
  have hd1 : v.rst.loadDone = true := by
    rw [k1.rst]
    exact hd
  have hn1 : ¬hasPattern v (tileKey ck x) := fun h => hn ((hasPattern_of_tileKept k1).mp h)
  have hsome : (patternChoice v (tileKey ck x)).isSome = true := by
    refine patternChoice_isSome hm ?_ ?_
    · rw [k1.desc _ (planeTile_planeKey hm)]
      exact hs
    · rw [k1.claims]
      exact hc
  obtain ⟨p, hp⟩ := Option.isSome_iff_exists.mp hsome
  have ht := patternChoice_some hp
  rw [prepareTile_takes hn1 hp]
  obtain ⟨f1, _, f3, f4⟩ := patternPlane_frame v p
  have hd2 : (patternPlane v p).rst.loadDone = true := by
    rw [f4]
    exact hd1
  have k2 := tileKept_foldl l2 (hother l2 hx2) hd2
  refine ⟨p, (k2.planes p ht).mpr ?_, ht, ?_, (k2.writing p ht).trans ?_, k2.cores.trans (f3.trans k1.cores)⟩
  · rw [f1, mem_addOnce]
    exact .inl rfl
  · rw [k2.desc p ht, descOf_patternPlane hd1, if_pos rfl]
  · rw [tfind_writing_patternPlane, if_pos rfl]

theorem patternReady_false {s : State} {ck x p : Nat} (hp : p ∈ s.plates.testPlanes) (ht : planeTile p = tileKey ck x) (hx : x < 16)
    (hw : tfind s.plates.writing p = some none) : ¬patternReady s ck = true := by
  have hcore : planeCore p = ck := by
    unfold planeTile tileKey at ht
    unfold planeCore
    omega
  intro h
  have hh := List.all_eq_true.mp h p hp
  simp [hcore, hw] at hh

/-! ## The end of a test -/

/-- The state in which a test's end stands in its core. -/
def testEnded (s : State) (ck : Nat) (pass : Bool) (conv : Option Nat) : State :=
  freeTestPlanes (setSched (modCore s ck (fun c => { c with
    testing := none, testDue := false, testOverdue := false, testSince := now s, testResult := if pass then 1 else 2,
    convFault := c.convFault || conv.isSome, failedConv := min c.failedConv (conv.getD 0xFF),
    groupFails := if conv.isSome then c.groupFails else [] })) (fun c => { c with slotCores := c.slotCores.filter (· != ck) })) ck

/-- The verdict of a test on its core. -/
def testVerdict (s : State) (ck : Nat) (pass : Bool) (conv : Option Nat) : State :=
  if pass = true then closeLate s (unitOfCore ck)
  else fenceFor (setFaults s (fun f => { f with testFails := satAdd 32 f.testFails 1 })) (unitOfCore ck)
    (if conv.isSome then .converter else .selfTest) 0

theorem coreTestDoneOp_none {s : State} {ck : Nat} (h : (coreOf s ck).testing = none) (pass : Bool) (conv : Option Nat) :
    coreTestDoneOp s ck pass conv = s := if_pos (by rw [h]; rfl)

theorem coreTestDoneOp_running {s : State} {ck : Nat} (h : (coreOf s ck).testing ≠ none) (pass : Bool) (conv : Option Nat) :
    coreTestDoneOp s ck pass conv = answerTests (testVerdict (testEnded s ck pass conv) ck pass conv) ck (b2n (!pass)) :=
  if_neg (by simpa using h)

/-- What freeing the planes of a test leaves unchanged. -/
theorem freeTestPlanes_frame (s : State) (ck : Nat) :
    (freeTestPlanes s ck).cores = s.cores ∧ (freeTestPlanes s ck).sched = s.sched ∧ (freeTestPlanes s ck).faults = s.faults
      ∧ (freeTestPlanes s ck).map = s.map ∧ (freeTestPlanes s ck).cmdq = s.cmdq ∧ (freeTestPlanes s ck).fns = s.fns := by
  have hone : ∀ (x : State) (p : Nat), ((freeTarget x p).cores, (freeTarget x p).sched, (freeTarget x p).faults, (freeTarget x p).map,
      (freeTarget x p).cmdq, (freeTarget x p).fns) = (x.cores, x.sched, x.faults, x.map, x.cmdq, x.fns) := fun x p => by
    unfold freeTarget
    dsimp only
    split <;> rfl
  have hall := foldl_unchanged (fun x : State => (x.cores, x.sched, x.faults, x.map, x.cmdq, x.fns)) hone
    (s.plates.testPlanes.filter (fun p => planeCore p == ck)) s
  simp only [Prod.mk.injEq] at hall
  exact hall

theorem testEnded_spec (s : State) (ck : Nat) (pass : Bool) (conv : Option Nat) :
    coreOf (testEnded s ck pass conv) ck = { coreOf s ck with
        testing := none, testDue := false, testOverdue := false, testSince := now s, testResult := if pass then 1 else 2,
        convFault := (coreOf s ck).convFault || conv.isSome, failedConv := min (coreOf s ck).failedConv (conv.getD 0xFF),
        groupFails := if conv.isSome then (coreOf s ck).groupFails else [] }
      ∧ (∀ j, j ≠ ck → coreOf (testEnded s ck pass conv) j = coreOf s j)
      ∧ (testEnded s ck pass conv).sched.slotCores = s.sched.slotCores.filter (· != ck)
      ∧ (testEnded s ck pass conv).faults = s.faults ∧ (testEnded s ck pass conv).map = s.map
      ∧ (testEnded s ck pass conv).cmdq = s.cmdq ∧ (testEnded s ck pass conv).fns = s.fns := by
  obtain ⟨hc, hs, hf, hm, hq, hn⟩ := freeTestPlanes_frame (setSched (modCore s ck (fun c => { c with
    testing := none, testDue := false, testOverdue := false, testSince := now s, testResult := if pass then 1 else 2,
    convFault := c.convFault || conv.isSome, failedConv := min c.failedConv (conv.getD 0xFF),
    groupFails := if conv.isSome then c.groupFails else [] })) (fun c => { c with slotCores := c.slotCores.filter (· != ck) })) ck
  have hcore := coreOf_of_cores (hc.trans (setSched_cores ..))
  refine ⟨(hcore ck).trans ((coreOf_modCore ..).trans (if_pos rfl)), fun j hj => (hcore j).trans ((coreOf_modCore ..).trans (if_neg hj)), ?_,
    hf.trans rfl, hm.trans rfl, hq.trans rfl, hn.trans rfl⟩
  exact (congrArg SchedBlk.slotCores hs : _)

theorem testVerdict_spec (s : State) (ck : Nat) (pass : Bool) (conv : Option Nat) :
    (testVerdict s ck pass conv).cores = s.cores ∧ (testVerdict s ck pass conv).sched.slotCores = s.sched.slotCores
      ∧ (testVerdict s ck pass conv).cmdq = s.cmdq ∧ (testVerdict s ck pass conv).fns = s.fns
      ∧ (pass = true → unitOfCore ck ∉ (testVerdict s ck pass conv).faults.openLate ∧ (testVerdict s ck pass conv).map = s.map
          ∧ (testVerdict s ck pass conv).faults.testFails = s.faults.testFails)
      ∧ (pass = false → unitFenced (testVerdict s ck pass conv) (unitOfCore ck) = true
          ∧ (testVerdict s ck pass conv).faults.testFails = satAdd 32 s.faults.testFails 1) := by
  cases pass with
  | true =>
    refine ⟨rfl, rfl, rfl, rfl, fun _ => ⟨fun hm => ?_, rfl, rfl⟩, fun h => absurd h (by decide)⟩
    have hk := (List.mem_filter.mp hm).2
    simp at hk
  | false =>
    have hv : testVerdict s ck false conv = fenceFor (setFaults s (fun f => { f with testFails := satAdd 32 f.testFails 1 })) (unitOfCore ck)
      (if conv.isSome then .converter else .selfTest) 0 := if_neg (by decide)
    rw [hv]
    have h := besidesRetire_fenceFor (setFaults s (fun f => { f with testFails := satAdd 32 f.testFails 1 })) (unitOfCore ck)
      (if conv.isSome then .converter else .selfTest) 0
    have hfen := unitFenced_fenceFor_core (setFaults s (fun f => { f with testFails := satAdd 32 f.testFails 1 })) ck
      (if conv.isSome then .converter else .selfTest) 0
    generalize fenceFor (setFaults s (fun f => { f with testFails := satAdd 32 f.testFails 1 })) (unitOfCore ck)
      (if conv.isSome then .converter else .selfTest) 0 = u at *
    exact ⟨(congrArg State.cores h : _), (congrArg (fun x => x.sched.slotCores) h : _), (congrArg State.cmdq h : _), (congrArg State.fns h : _),
      fun hp => absurd hp (by decide), fun _ => ⟨hfen, (congrArg (fun x => x.faults.testFails) h : _)⟩⟩

theorem replyOnly_answerTests (s : State) (ck r : Nat) : ReplyOnly s (answerTests s ck r) := by
  have hfold : ∀ (l : List CmdEntry) (x : State), ReplyOnly x (l.foldl (fun y e => finish y e.hdr.fn e.hdr.seq .ok {} r 0) x) := fun l => by
    induction l with
    | nil => exact fun x => .refl x
    | cons e l ih => exact fun x => (replyOnly_finish ..).trans (ih _)
  exact hfold _ _

theorem unitFenced_of_replyOnly {s u : State} (h : ReplyOnly s u) (v : UnitId) : unitFenced u v = unitFenced s v := by
  rw [h]
  rfl

/-- Settles O43: tests fall due, start, and end with a verdict. -/
theorem coreTests : Obligations.CoreTests := by
  intro ck t conv s hck s1 c n
  have hdue : exec (.testDue ck t) s = .next (testDueOp s1 ck) := if_pos ⟨hck, by decide⟩
  have hover : exec (.testOverdue ck t) s = .next (testOverdueOp s1 ck) := if_pos ⟨hck, by decide⟩
  have htest : exec (.coreTest ck t) s = .next (coreTestOp s1 ck) := if_pos ⟨hck, by decide⟩
  have hdone : ∀ pass, exec (.coreTestDone ck pass conv t) s = .next (coreTestDoneOp s1 ck pass conv) := fun _ => if_pos ⟨hck, by decide⟩
  have hkept : ∀ tk, TileKept tk s s1 := fun _ => ⟨fun _ _ => rfl, fun _ _ => Iff.rfl, fun _ _ => rfl, rfl, rfl, rfl⟩
  have hrun := fun (h : c.testing ≠ none) pass => coreTestDoneOp_running (s := s1) (ck := ck) h pass conv
  refine ⟨fun h1 h2 h3 => hdue.trans (next_congr (if_pos ?_)), fun h => hdue.trans (next_congr (if_neg ?_)),
    fun h1 h2 h3 => hover.trans (next_congr (if_pos ?_)), fun h => hover.trans (next_congr (if_neg ?_)), fun h1 h2 h3 h4 h5 => ?_,
    fun h => htest.trans (next_congr (if_neg ?_)), fun pass h => (hdone pass).trans (next_congr (coreTestDoneOp_none (s := s1) h pass conv)),
    fun pass h => ⟨_, (hdone pass).trans (next_congr (hrun h pass)), ?_⟩,
    fun pass e h hq => ⟨_, testVerdict (testEnded s1 ck pass conv) ck pass conv, (hdone pass).trans (next_congr (hrun h pass)), ?_⟩⟩
  · simp only [Bool.and_eq_true, decide_eq_true_eq, Bool.not_eq_true']
    exact ⟨⟨h1, h2⟩, h3⟩
  · simp only [Bool.and_eq_true, decide_eq_true_eq, Bool.not_eq_true']
    rintro ⟨⟨g1, g2⟩, g3⟩
    rcases h with h | h | h
    · exact absurd (h.symm.trans g1) (by decide)
    · exact absurd g2 (Nat.not_le.mpr h)
    · exact absurd (h.symm.trans g3) (by decide)
  · simp only [Bool.and_eq_true, decide_eq_true_eq, Bool.not_eq_true']
    exact ⟨⟨h1, h2⟩, h3⟩
  · simp only [Bool.and_eq_true, decide_eq_true_eq, Bool.not_eq_true']
    rintro ⟨⟨g1, g2⟩, g3⟩
    rcases h with h | h | h
    · exact absurd (h.symm.trans g1) (by decide)
    · exact absurd g2 (Nat.not_le.mpr h)
    · exact absurd (h.symm.trans g3) (by decide)
  · have hstart : coreTestOp s1 ck = startTest s1 ck := by
      refine if_pos ?_
      simp only [Bool.and_eq_true, Bool.not_eq_true', Option.isNone_iff_eq_none]
      exact ⟨⟨⟨⟨h1, h2⟩, h3⟩, h4⟩, h5⟩
    refine ⟨fun hall hready => htest.trans (next_congr (hstart.trans ?_)), fun x m hx hn hd hm hs hc => ?_⟩
    · unfold startTest
      rw [prepareTest_has (fun x hx => (hasPattern_of_tileKept (hkept _)).mpr (hall x hx))]
      exact (if_pos hready).trans rfl
    · obtain ⟨p, g1, g2, g3, g4, g5⟩ := prepareTest_takes (s := s1) (ck := ck) hx hd (fun hh => hn ((hasPattern_of_tileKept (hkept _)).mp hh)) hm hs hc
      have hwait : startTest s1 ck = prepareTest s1 ck := by
        unfold startTest
        exact if_neg (patternReady_false g1 g2 hx g4)
      exact ⟨_, p, htest.trans (next_congr (hstart.trans hwait)), g1, g2, g3, g4, g5⟩
  · simp only [Bool.and_eq_true, Bool.not_eq_true', Option.isNone_iff_eq_none]
    rintro ⟨⟨⟨⟨g1, g2⟩, g3⟩, g4⟩, g5⟩
    rcases h with h | h | h | h | h
    · exact absurd (h.symm.trans g1) (by decide)
    · exact h g2
    · exact absurd (h.symm.trans g3) (by decide)
    · exact absurd (h.symm.trans g4) (by decide)
    · exact absurd (h.symm.trans g5) (by decide)
  · obtain ⟨e1, e2, e3, e4, e5, _, _⟩ := testEnded_spec s1 ck pass conv
    obtain ⟨v1, v2, _, _, v5, v6⟩ := testVerdict_spec (testEnded s1 ck pass conv) ck pass conv
    have ha := replyOnly_answerTests (testVerdict (testEnded s1 ck pass conv) ck pass conv) ck (b2n (!pass))
    generalize testVerdict (testEnded s1 ck pass conv) ck pass conv = w at *
    have hfen := unitFenced_of_replyOnly ha (unitOfCore ck)
    generalize answerTests w ck (b2n (!pass)) = u at *
    have hcores := coreOf_of_cores (((congrArg State.cores ha : _) : u.cores = w.cores).trans v1)
    have hsched : u.sched = w.sched := (congrArg State.sched ha : _)
    have hfaults : u.faults = w.faults := (congrArg State.faults ha : _)
    have hmap : u.map = w.map := (congrArg State.map ha : _)
    rw [e4] at v5 v6
    rw [hsched, hfaults, hmap, hfen, v2]
    exact ⟨(hcores ck).trans e1, e3, fun j hj => (hcores j).trans (e2 j hj),
      fun hp => ⟨(v5 hp).1, (v5 hp).2.1.trans e5, (v5 hp).2.2⟩, fun hp => ⟨(v6 hp).1, (v6 hp).2⟩⟩
  · obtain ⟨_, _, _, _, _, e6, e7⟩ := testEnded_spec s1 ck pass conv
    obtain ⟨_, _, v3, v4, _, _⟩ := testVerdict_spec (testEnded s1 ck pass conv) ck pass conv
    have hq' : (testVerdict (testEnded s1 ck pass conv) ck pass conv).cmdq = s.cmdq := v3.trans e6
    refine ⟨?_, hq', v4.trans e7⟩
    unfold answerTests
    rw [hq', hq]
    cases pass <;> rfl

end Sys2Proof.Proofs
/-! # Temperature recalibration slices -/
namespace Sys2Proof.Proofs

open Sys2Proof.Machine Sys2Proof.Safety Sys2Proof.Laws

/-! ## The tile of a slice -/

/-- A step of a slice writes its tile alone, and keeps what the slice measures with. -/
structure SliceStep (ck t : Nat) (s u : State) : Prop where
  corr : (coreOf u ck).corr = (coreOf s ck).corr
  strobes : (coreOf u ck).strobeCount = (coreOf s ck).strobeCount
  y0 : (tileOf (coreOf u ck) t).badY0 = (tileOf (coreOf s ck) t).badY0
  y1 : (tileOf (coreOf u ck) t).badY1 = (tileOf (coreOf s ck) t).badY1
  work : ∀ w ∈ (tileOf (coreOf s ck) t).work, now s < w.2.2 → w ∈ (tileOf (coreOf u ck) t).work
  others : ∀ j, j ≠ ck → coreOf u j = coreOf s j
  state : u = { s with cores := u.cores }

theorem SliceStep.refl (ck t : Nat) (s : State) : SliceStep ck t s s := ⟨rfl, rfl, rfl, rfl, fun _ h _ => h, fun _ _ => rfl, rfl⟩

theorem SliceStep.now {ck t : Nat} {s u : State} (h : SliceStep ck t s u) : now u = now s := (congrArg Machine.now h.state : _)

theorem SliceStep.trans {ck t : Nat} {s x u : State} (h : SliceStep ck t s x) (g : SliceStep ck t x u) : SliceStep ck t s u :=
  ⟨g.corr.trans h.corr, g.strobes.trans h.strobes, g.y0.trans h.y0, g.y1.trans h.y1,
    fun w hw hn => g.work w (h.work w hw hn) (by rw [h.now]; exact hn), fun j hj => (g.others j hj).trans (h.others j hj),
    withCores_trans h.state g.state⟩

/-- A tile's own write is such a step when it keeps the tile's marks and the work that is still to come. -/
theorem sliceStep_modCore {ck t : Nat} {s : State} {f : Core → Core} {g : Tile → Tile}
    (hf : tileOf (f (coreOf s ck)) t = g (tileOf (coreOf s ck) t)) (hc : (f (coreOf s ck)).corr = (coreOf s ck).corr)
    (hn : (f (coreOf s ck)).strobeCount = (coreOf s ck).strobeCount) (h0 : ∀ x, (g x).badY0 = x.badY0) (h1 : ∀ x, (g x).badY1 = x.badY1)
    (hw : ∀ x, ∀ w ∈ x.work, now s < w.2.2 → w ∈ (g x).work) : SliceStep ck t s (modCore s ck f) := by
  have hown : coreOf (modCore s ck f) ck = f (coreOf s ck) := (coreOf_modCore ..).trans (if_pos rfl)
  refine ⟨?_, ?_, ?_, ?_, fun w => ?_, fun j hj => (coreOf_modCore ..).trans (if_neg hj), rfl⟩
  · rw [hown, hc]
  · rw [hown, hn]
  · rw [hown, hf, h0]
  · rw [hown, hf, h1]
  · rw [hown, hf]
    exact hw _ w

theorem mem_addWork {t kind start stop : Nat} {x : Tile} {w : Nat × Nat × Nat} :
    w ∈ (addWork t x kind start stop).work ↔ (w ∈ x.work ∧ t < w.2.2) ∨ w = (kind, start, stop) := by
  unfold addWork
  simp

theorem tileOf_modTile (c : Core) (t : Nat) (g : Tile → Tile) : tileOf (modTile c t g) t = g (tileOf c t) := tileOf_setTile _ _ _

theorem sliceStep_holdTile (s : State) (ck t : Nat) : SliceStep ck t s (holdTile s ck t) := by
  unfold holdTile
  exact sliceStep_modCore (g := fun x => addWork (now s) x 4 (sliceStart s ck t) (sliceStart s ck t + sliceNs)) (tileOf_modTile _ _ _) rfl rfl
    (fun _ => rfl) (fun _ => rfl) (fun _ _ hw hn => mem_addWork.mpr (.inl ⟨hw, hn⟩))

theorem work_holdTile (s : State) (ck t : Nat) :
    (4, sliceStart s ck t, sliceStart s ck t + 20000) ∈ (tileOf (coreOf (holdTile s ck t) ck) t).work := by
  have hown : coreOf (holdTile s ck t) ck = _ := (coreOf_modCore s ck _ ck).trans (if_pos rfl)
  rw [hown, tileOf_modTile]
  exact mem_addWork.mpr (.inr rfl)

theorem sliceStep_engage (s : State) (ck t p : Nat) : SliceStep ck t s (engage s ck t p false) :=
  sliceStep_modCore (g := fun x =>
      { addWork (now s) (addChange (now s) x (tileReady s (coreOf s ck) t) (tileReady s (coreOf s ck) t + 120) (some p)) 2
          (tileReady s (coreOf s ck) t) (tileReady s (coreOf s ck) t + 120) with
        proofEngaged := false, former := none, freeAt := tileReady s (coreOf s ck) t + 120 })
    (tileOf_modTile _ _ _) rfl rfl (fun _ => rfl) (fun _ => rfl) (fun _ _ hw hn => mem_addWork.mpr (.inl ⟨hw, hn⟩))

theorem engaged_engage (s : State) (ck t p : Nat) : (tileOf (coreOf (engage s ck t p false) ck) t).engaged = some p := by
  have hown : coreOf (engage s ck t p false) ck = _ := (coreOf_modCore s ck _ ck).trans (if_pos rfl)
  rw [hown, tileOf_modTile]
  rfl

/-- A plane with a sound descriptor is engaged, or is not in a forme's state. -/
theorem engageChecked_sound {s : State} {ck t p : Nat} (hd : formeState (descOf s (planeKey (tileKey ck t) p)) = true →
    descGood (descOf s (planeKey (tileKey ck t) p)) = true) :
    engageChecked s ck t p = if formeState (descOf s (planeKey (tileKey ck t) p)) = true then engage s ck t p false else s := by
  by_cases hf : formeState (descOf s (planeKey (tileKey ck t) p)) = true
  · rw [if_pos hf]
    exact (if_neg (by rw [hf]; decide)).trans (if_neg (by rw [hd hf]; decide))
  · rw [if_neg hf]
    exact if_pos (Bool.not_eq_true _ ▸ hf)

theorem sliceStep_engageChecked {s : State} {ck t p : Nat} (hd : formeState (descOf s (planeKey (tileKey ck t) p)) = true →
    descGood (descOf s (planeKey (tileKey ck t) p)) = true) : SliceStep ck t s (engageChecked s ck t p) := by
  rw [engageChecked_sound hd]
  split
  · exact sliceStep_engage ..
  · exact .refl ..

theorem sliceStep_reengage {s : State} {ck t : Nat}
    (hd : ∀ n, (tileOf (coreOf s ck) t).former = some n → formeState (descOf s (planeKey (tileKey ck t) n)) = true →
      descGood (descOf s (planeKey (tileKey ck t) n)) = true) : SliceStep ck t s (reengage s ck t) := by
  unfold reengage
  split
  · exact .refl ..
  next n hn =>
    refine (sliceStep_engageChecked (hd n hn)).trans ?_
    exact sliceStep_modCore (g := fun x => { x with former := none }) (tileOf_modTile _ _ _) rfl rfl (fun _ => rfl) (fun _ => rfl) (fun _ _ hw _ => hw)

/-! ## A slice's parts -/

/-- The state in which a slice's tile is held, with the plane engaged anew that a burst took away. -/
def sliceHeld (s : State) (ck t : Nat) : State := reengage (holdTile s ck t) ck t

/-- The state in which a slice's plane is engaged, when the tile has one. -/
def sliceEngaged (s : State) (ck t : Nat) : State :=
  if (tileOf (coreOf (sliceHeld s ck t) ck) t).engaged.isSome = true then sliceHeld s ck t
  else (lowestPlane s (tileKey ck t)).elim (sliceHeld s ck t) (engageChecked (sliceHeld s ck t) ck t)

/-- The change of gain and offset that a slice measures on a plane. -/
def sliceMeasured (s : State) (ck t q refs : Nat) : Option (Int × Int) :=
  let c := coreOf s ck
  let a := fun (col : Nat) => strikeSum s c ck col (columnCharge s (planeKey (tileKey ck t) q) (rowsAt (List.range 256) 7) col) 0 64
  let g := regionOf s (coreRegion ck)
  sliceResult (tileOf c t) (corrWord c (corrKey t (planeClass q) 269)) (g.tRead - g.tCal) (a 270) (a 271) refs (Config.refReading (coreRegion ck))

/-- The strobes of a slice on its plane, and the tile's release. -/
def sliceStruck (s : State) (ck t q b : Nat) : State :=
  freeTile (sliceStrobes s ck t (planeKey (tileKey ck t) q) (rowsAt (List.range 256) 7) ((List.range 64).map (fun i => b + 1000 + 80 * i))) ck t b none

/-- A pass with one more slice and its result. -/
def passSliced (p : Pass) (tk b : Nat) (r : Option (Int × Int)) : Pass :=
  { p with slices := p.slices ++ [(tk, b)], staged := (r.map (tput p.staged tk)).getD p.staged }

/-- The state with a region's pass replaced. -/
def passNoted (s : State) (rk : Nat) (p : Pass) : State := modRegion s rk (fun g => { g with pass := some p })

/-- The end of a slice that begins at `b`, from the state in which its plane is engaged. -/
def sliceOutcome (s : State) (ck t refs b : Nat) (p : Pass) : State :=
  (tileOf (coreOf s ck) t).engaged.elim
    (passNoted (freeTile s ck t b none) (coreRegion ck) (passSliced p (tileKey ck t) b none))
    (fun q => passNoted { sliceStruck s ck t q b with free := (sliceStruck s ck t q b).free + 64 } (coreRegion ck)
      (passSliced p (tileKey ck t) b (sliceMeasured s ck t q refs)))

/-- What keeps a slice from starting. -/
def sliceBarred (s : State) (ck t : Nat) (p : Pass) : Prop :=
  p.kind ≠ 1 ∨ passOver s (coreRegion ck) p = true ∨ coreFenced s ck = true ∨ (!stackDriven s (coreStack ck)) = true
    ∨ tileKey ck t ∈ p.slices.map (·.1) ∨ (coreOf s ck).testing.isSome = true ∨ (!sliceFree s p ck 100000) = true

theorem recalSliceOp_open {s : State} {ck t refs : Nat} {p : Pass} (hp : (regionOf s (coreRegion ck)).pass = some p)
    (ho : ¬sliceBarred s ck t p) :
    recalSliceOp s ck t refs = sliceOutcome (sliceEngaged s ck t) ck t refs (sliceStart s ck t) p := by
  unfold recalSliceOp
  dsimp only
  rw [hp]
  refine (if_neg ho).trans ?_
  unfold sliceOutcome sliceEngaged sliceHeld
  cases lowestPlane s (tileKey ck t) with
  | none =>
    dsimp only [Option.elim_none]
    generalize (if (tileOf (coreOf (reengage (holdTile s ck t) ck t) ck) t).engaged.isSome = true then reengage (holdTile s ck t) ck t
      else reengage (holdTile s ck t) ck t) = x
    cases (tileOf (coreOf x ck) t).engaged <;> rfl
  | some q =>
    dsimp only [Option.elim_some]
    generalize (if (tileOf (coreOf (reengage (holdTile s ck t) ck t) ck) t).engaged.isSome = true then reengage (holdTile s ck t) ck t
      else engageChecked (reengage (holdTile s ck t) ck t) ck t q) = x
    cases (tileOf (coreOf x ck) t).engaged <;> rfl

theorem recalSliceOp_closed {s : State} {ck t refs : Nat} {p : Pass} (hp : (regionOf s (coreRegion ck)).pass = some p)
    (hc : sliceBarred s ck t p) : recalSliceOp s ck t refs = s := by
  unfold recalSliceOp
  dsimp only
  rw [hp]
  exact if_pos hc

/-! ## The end of a slice -/

theorem freeTile_spec (s : State) (ck t b : Nat) :
    b + 20000 ≤ (tileOf (coreOf (freeTile s ck t b none) ck) t).freeAt
      ∧ (tileOf (coreOf (freeTile s ck t b none) ck) t).work = (tileOf (coreOf s ck) t).work
      ∧ (tileOf (coreOf (freeTile s ck t b none) ck) t).engaged = (tileOf (coreOf s ck) t).engaged
      ∧ (coreOf (freeTile s ck t b none) ck).strobeCount = (coreOf s ck).strobeCount
      ∧ (∀ j, j ≠ ck → coreOf (freeTile s ck t b none) j = coreOf s j)
      ∧ freeTile s ck t b none = { s with cores := (freeTile s ck t b none).cores } := by
  have hown : coreOf (freeTile s ck t b none) ck = _ := (coreOf_modCore s ck _ ck).trans (if_pos rfl)
  rw [hown, tileOf_modTile]
  exact ⟨le_max_right _ _, rfl, rfl, rfl, fun j hj => (coreOf_modCore ..).trans (if_neg hj), rfl⟩

theorem sliceStrobes_spec (s : State) (ck t pk : Nat) (us : List (Nat × Nat)) (dues : List Nat) :
    (tileOf (coreOf (sliceStrobes s ck t pk us dues) ck) t).work = (tileOf (coreOf s ck) t).work
      ∧ (tileOf (coreOf (sliceStrobes s ck t pk us dues) ck) t).engaged = (tileOf (coreOf s ck) t).engaged
      ∧ (coreOf (sliceStrobes s ck t pk us dues) ck).strobeCount = satAdd 64 (coreOf s ck).strobeCount dues.length
      ∧ (∀ j, j ≠ ck → coreOf (sliceStrobes s ck t pk us dues) j = coreOf s j)
      ∧ sliceStrobes s ck t pk us dues = { s with cores := (sliceStrobes s ck t pk us dues).cores } := by
  have hown : coreOf (sliceStrobes s ck t pk us dues) ck = _ := (coreOf_modCore s ck _ ck).trans (if_pos rfl)
  rw [hown, tileOf_modTile]
  exact ⟨rfl, rfl, rfl, fun j hj => (coreOf_modCore ..).trans (if_neg hj), rfl⟩

theorem sliceStruck_spec (s : State) (ck t q b : Nat) :
    b + 20000 ≤ (tileOf (coreOf (sliceStruck s ck t q b) ck) t).freeAt
      ∧ (tileOf (coreOf (sliceStruck s ck t q b) ck) t).work = (tileOf (coreOf s ck) t).work
      ∧ (tileOf (coreOf (sliceStruck s ck t q b) ck) t).engaged = (tileOf (coreOf s ck) t).engaged
      ∧ (coreOf (sliceStruck s ck t q b) ck).strobeCount = satAdd 64 (coreOf s ck).strobeCount 64
      ∧ (∀ j, j ≠ ck → coreOf (sliceStruck s ck t q b) j = coreOf s j)
      ∧ sliceStruck s ck t q b = { s with cores := (sliceStruck s ck t q b).cores } := by
  obtain ⟨g1, g2, g3, g4, g5⟩ := sliceStrobes_spec s ck t (planeKey (tileKey ck t) q) (rowsAt (List.range 256) 7)
    ((List.range 64).map (fun i => b + 1000 + 80 * i))
  obtain ⟨f1, f2, f3, f4, f5, f6⟩ := freeTile_spec (sliceStrobes s ck t (planeKey (tileKey ck t) q) (rowsAt (List.range 256) 7)
    ((List.range 64).map (fun i => b + 1000 + 80 * i))) ck t b
  rw [List.length_map, List.length_range] at g3
  exact ⟨f1, f2.trans g1, f3.trans g2, f4.trans g3, fun j hj => (f5 j hj).trans (g4 j hj), withCores_trans g5 f6⟩

theorem passNoted_spec (s : State) (rk : Nat) (p : Pass) :
    (regionOf (passNoted s rk p) rk).pass = some p ∧ (∀ j, j ≠ rk → regionOf (passNoted s rk p) j = regionOf s j)
      ∧ (passNoted s rk p).cores = s.cores ∧ passNoted s rk p = { s with regions := (passNoted s rk p).regions } := by
  refine ⟨?_, fun j hj => regionOf_setRegion_ne _ _ hj, rfl, rfl⟩
  exact congrArg Region.pass (regionOf_setRegion s rk _)

/-! ## The results of a pass -/

theorem takeTile_good {s : State} {T : Int} {ck tile : Nat} {ws : Tbl (Int × Int × Int)} (ht : tile < 16) (h : ws.all (wordOk s T ck) = true) :
    coreOf (takeTile s T (tileKey ck tile) (some ws)) ck = { coreOf s ck with
      corr := ws.foldl (fun x (e : Nat × (Int × Int × Int)) => tset (0, 0, 0) x e.1 e.2) (coreOf s ck).corr,
      runs := tdel (coreOf s ck).runs (tileUnit tile) } := by
  have hk : tileKey ck tile / 16 = ck := by
    unfold tileKey
    omega
  have hm : tileKey ck tile % 16 = tile := by
    unfold tileKey
    omega
  unfold takeTile
  rw [hk, hm]
  dsimp only
  rw [if_pos h]
  unfold calPass
  rw [coreOf_modCore, if_pos rfl, coreOf_modCore, if_pos rfl]

theorem takeTile_bad {s : State} {T : Int} {ck tile : Nat} {m : Option (Tbl (Int × Int × Int))} (ht : tile < 16)
    (h : ∀ ws, m = some ws → ws.all (wordOk s T ck) = false) : takeTile s T (tileKey ck tile) m = calReject s ck (tileUnit tile) := by
  have hk : tileKey ck tile / 16 = ck := by
    unfold tileKey
    omega
  have hm : tileKey ck tile % 16 = tile := by
    unfold tileKey
    omega
  unfold takeTile
  rw [hk, hm]
  cases m with
  | none => rfl
  | some ws => exact if_neg (by rw [h ws rfl]; decide)

/-- A core after a reject of one of its calibration units. -/
def coreRejected (c : Core) (unit : Nat) : Core :=
  { c with rejects := satAdd 16 c.rejects 1, runs := tset 0 c.runs unit (tget 0 c.runs unit + 1), testDue := true }

theorem tget_coreRejected (c : Core) (unit : Nat) : tget 0 (coreRejected c unit).runs unit = tget 0 c.runs unit + 1 := by
  exact tget_tset_same 0 c.runs unit (tget 0 c.runs unit + 1)

theorem calReject_eq (s : State) (ck unit : Nat) :
    calReject s ck unit = if 3 ≤ tget 0 (coreOf s ck).runs unit + 1 then
        fenceFor (setCore s ck (coreRejected (coreOf s ck) unit)) (unitOfCore ck) .calReject 0
      else setCore s ck (coreRejected (coreOf s ck) unit) := rfl

theorem calReject_spec (s : State) (ck unit : Nat) :
    coreOf (calReject s ck unit) ck = coreRejected (coreOf s ck) unit
      ∧ (2 ≤ tget 0 (coreOf s ck).runs unit → unitFenced (calReject s ck unit) (unitOfCore ck) = true)
      ∧ (tget 0 (coreOf s ck).runs unit < 2 → (calReject s ck unit).map = s.map) := by
  rw [calReject_eq]
  split
  next h3 =>
    have hb := besidesRetire_fenceFor (setCore s ck (coreRejected (coreOf s ck) unit)) (unitOfCore ck) .calReject 0
    exact ⟨(coreOf_of_cores (congrArg State.cores hb : _) ck).trans (coreOf_setCore ..), fun _ => unitFenced_fenceFor_core ..,
      fun h => absurd h (by omega)⟩
  next h3 => exact ⟨coreOf_setCore .., fun h => absurd h (by omega), fun _ => rfl⟩

/-- A sound tile's slice up to its strobes. -/
theorem sliceHeld_spec {s : State} {ck t : Nat}
    (hd : ∀ n, (tileOf (coreOf s ck) t).former = some n → formeState (descOf s (planeKey (tileKey ck t) n)) = true →
      descGood (descOf s (planeKey (tileKey ck t) n)) = true) :
    SliceStep ck t s (sliceHeld s ck t)
      ∧ (4, sliceStart s ck t, sliceStart s ck t + 20000) ∈ (tileOf (coreOf (sliceHeld s ck t) ck) t).work := by
  have hhold := sliceStep_holdTile s ck t
  have hformer : (tileOf (coreOf (holdTile s ck t) ck) t).former = (tileOf (coreOf s ck) t).former := by
    have hown : coreOf (holdTile s ck t) ck = _ := (coreOf_modCore s ck _ ck).trans (if_pos rfl)
    rw [hown, tileOf_modTile]
    rfl
  have hre : SliceStep ck t (holdTile s ck t) (sliceHeld s ck t) := sliceStep_reengage fun n hn => hd n (hformer.symm.trans hn)
  refine ⟨hhold.trans hre, hre.work _ (work_holdTile s ck t) ?_⟩
  have hle : now s ≤ sliceStart s ck t := le_max_left _ _
  rw [hhold.now]
  change now s < sliceStart s ck t + 20000
  omega

/-- Settles O44: a slice's effect, and what a pass makes of its words. -/
theorem recalSlices : Obligations.RecalSlices := by
  intro ck tile refs t p s hck ht hp s1 c g tk b h found sound open_
  have hexec : exec (.recalSlice (ck / 2560) (ck / 160 % 16) (ck % 160) tile refs t) s = .next (recalSliceOp s1 ck tile refs) := by
    have hfits : ck / 2560 < 40 ∧ ck / 160 % 16 < 16 ∧ ck % 160 < 160 ∧ tile < 16 := by
      unfold nCores at hck
      omega
    refine (if_pos hfits).trans ?_
    rw [coreKey_fields]
  have hp1 : (regionOf s1 (coreRegion ck)).pass = some p := hp
  have hbar : open_ ↔ ¬sliceBarred s1 ck tile p := by
    simp only [sliceBarred, not_or, not_not, Bool.not_eq_true, Bool.not_eq_false', Option.isSome_eq_false_iff, Option.isNone_iff_eq_none]
    exact Iff.rfl
  refine ⟨fun hn => hexec.trans (next_congr (recalSliceOp_closed hp1 (not_not.mp (fun h => hn (hbar.mpr h))))), fun hopen => ?_,
    fun T ws hw => takeTile_good ht hw, fun T m hm => ?_⟩
  · have hop := recalSliceOp_open (refs := refs) hp1 (hbar.mp hopen)
    have hheld : sound → SliceStep ck tile s1 h ∧ (4, b, b + 20000) ∈ (tileOf (coreOf h ck) tile).work := sliceHeld_spec (s := s1)
    have hfound : ∀ q, found = some q → sliceEngaged s1 ck tile = h := fun q hq => if_pos (Option.isSome_iff_exists.mpr ⟨q, hq⟩)
    have hlow : found = none → sliceEngaged s1 ck tile = (lowestPlane s tk).elim h (engageChecked h ck tile) := fun hq =>
      if_neg (by rw [show (tileOf (coreOf (sliceHeld s1 ck tile) ck) tile).engaged = none from hq]; decide)
    have hnew : sound → found = none → ∀ q, lowestPlane s tk = some q → descGood (descOf s (planeKey tk q)) = true →
        (tileOf (coreOf (sliceEngaged s1 ck tile) ck) tile).engaged = some q := fun hs hq q hl hg => by
      have hstep := (hheld hs).1
      have hdesc : ∀ k, descOf h k = descOf s k := descOf_congr (congrArg State.rst hstep.state : _) (congrArg State.arr hstep.state : _)
      have hform : formeState (descOf h (planeKey (tileKey ck tile) q)) = true := by
        rw [hdesc]
        simpa [formeState] using List.find?_some hl
      rw [hlow hq, hl, Option.elim_some, engageChecked_sound (fun _ => (congrArg descGood (hdesc _)).trans hg), if_pos hform]
      exact engaged_engage ..
    have hb : sliceStart s1 ck tile = b := rfl
    rw [hb] at hop
    generalize sliceEngaged s1 ck tile = x at *
    cases he : (tileOf (coreOf x ck) tile).engaged with
    | none =>
      have hout : sliceOutcome x ck tile refs b p = passNoted (freeTile x ck tile b none) (coreRegion ck) (passSliced p tk b none) := by
        unfold sliceOutcome
        rw [he]
        rfl
      obtain ⟨f1, f2, f3, f4, f5, f6⟩ := freeTile_spec x ck tile b
      obtain ⟨n1, n2, n3, n4⟩ := passNoted_spec (freeTile x ck tile b none) (coreRegion ck) (passSliced p tk b none)
      refine ⟨_, _, hexec.trans (next_congr (hop.trans hout)), n1, rfl, rfl, ?_, fun _ q hq => ?_, fun hs hq q hl hg => ?_, fun hs hq hl => ⟨rfl, ?_⟩⟩
      · rw [coreOf_of_cores n3]
        exact f1
      · rw [hfound q hq] at he
        exact absurd (hq.symm.trans he) (by simp)
      · exact absurd (he.symm.trans (hnew hs hq q hl hg)) (by simp)
      · have hx : x = h := (hlow hq).trans (by rw [hl]; rfl)
        rw [n4, f6, hx, (hheld hs).1.state]
    | some q0 =>
      have hout : sliceOutcome x ck tile refs b p = passNoted { sliceStruck x ck tile q0 b with free := (sliceStruck x ck tile q0 b).free + 64 }
          (coreRegion ck) (passSliced p tk b (sliceMeasured x ck tile q0 refs)) := by
        unfold sliceOutcome
        rw [he]
        rfl
      obtain ⟨f1, f2, f3, f4, f5, f6⟩ := sliceStruck_spec x ck tile q0 b
      obtain ⟨n1, n2, n3, n4⟩ := passNoted_spec { sliceStruck x ck tile q0 b with free := (sliceStruck x ck tile q0 b).free + 64 }
        (coreRegion ck) (passSliced p tk b (sliceMeasured x ck tile q0 refs))
      have hcore : ∀ j, coreOf _ j = coreOf (sliceStruck x ck tile q0 b) j := coreOf_of_cores n3
      refine ⟨_, _, hexec.trans (next_congr (hop.trans hout)), n1, rfl, rfl, ?_, fun hs q hq => ?_, fun hs hq q hl hg => ?_, fun hs hq hl => ?_⟩
      · rw [hcore]
        exact f1
      · obtain ⟨hstep, hwork⟩ := hheld hs
        obtain rfl : x = h := hfound q hq
        obtain rfl : q0 = q := Option.some.inj (he.symm.trans hq)
        have hreg : h.regions = s1.regions := (congrArg State.regions hstep.state : _)
        have hg : regionOf h (coreRegion ck) = g := regionOf_of_regions hreg _
        have hcorr : ∀ k, corrWord (coreOf h ck) k = corrWord c k := fun k => congrArg (tget (0, 0, 0) · k) hstep.corr
        have hy0 : (tileOf (coreOf h ck) tile).badY0 = (tileOf c tile).badY0 := hstep.y0
        have hy1 : (tileOf (coreOf h ck) tile).badY1 = (tileOf c tile).badY1 := hstep.y1
        refine ⟨?_, ?_, ?_, fun j hj => ?_, fun j hj => ?_, ?_⟩
        · have hres : sliceMeasured h ck tile q0 refs = sliceResult (tileOf c tile) (corrWord c (corrKey tile (planeClass q0) 269)) (g.tRead - g.tCal)
              (strikeSum h (coreOf h ck) ck 270 (columnCharge h (planeKey tk q0) (rowsAt (List.range 256) 7) 270) 0 64)
              (strikeSum h (coreOf h ck) ck 271 (columnCharge h (planeKey tk q0) (rowsAt (List.range 256) 7) 271) 0 64) refs
              (Config.refReading (coreRegion ck)) := by
            unfold sliceMeasured sliceResult
            dsimp only
            rw [hg, hcorr, hy0, hy1]
          exact congrArg (fun r => (r.map (tput p.staged tk)).getD p.staged) hres
        · rw [hcore, f2]
          exact hwork
        · rw [hcore, f4, hstep.strobes]
          rfl
        · rw [hcore, f5 j hj, hstep.others j hj]
          rfl
        · rw [n2 j hj]
          exact regionOf_of_regions ((congrArg State.regions f6 : _).trans hreg) j
        · rw [n4, f6, hstep.state]
          rfl
      · rw [hcore, f3]
        exact hnew hs hq q hl hg
      · have hx : x = h := (hlow hq).trans (by rw [hl]; rfl)
        rw [hx] at he
        exact absurd (hq.symm.trans he) (by simp)
  · rw [takeTile_bad ht hm]
    intro u
    obtain ⟨hown, hfen, hmap⟩ := calReject_spec s ck (tileUnit tile)
    have hu : coreOf u ck = coreRejected c (tileUnit tile) := hown
    rw [hu]
    exact ⟨rfl, rfl, tget_coreRejected _ _, rfl, hfen, hmap⟩

end Sys2Proof.Proofs
/-! # Drift passes, and the end of CAL_SELF -/
namespace Sys2Proof.Proofs

open Sys2Proof.Machine Sys2Proof.Safety Sys2Proof.Laws

/-! ## The start of a drift pass -/

theorem driftStartOp_off {s : State} {rk : Nat}
    (h : inService s = false ∨ driftDue s rk = false ∨ (regionOf s rk).wantDrift = true ∨ passRegion s rk = false
      ∨ ∃ p, (regionOf s rk).pass = some p ∧ p.kind = 2) : driftStartOp s rk = s := by
  unfold driftStartOp
  split
  next hgo =>
    simp only [Bool.and_eq_true, Bool.not_eq_true'] at hgo
    obtain ⟨⟨⟨h1, h2⟩, h3⟩, h4⟩ := hgo
    rcases h with h | h | h | h | ⟨p, hp, hk⟩
    · exact absurd (h.symm.trans h1) (by decide)
    · exact absurd (h.symm.trans h2) (by decide)
    · exact absurd (h.symm.trans h4) (by decide)
    · exact if_pos (by rw [h]; rfl)
    · rw [hp] at h3
      simp [hk] at h3
  next => rfl

theorem driftStartOp_on {s : State} {rk : Nat} (h1 : inService s = true) (h2 : driftDue s rk = true) (h3 : (regionOf s rk).wantDrift = false)
    (h4 : passRegion s rk = true) :
    ((regionOf s rk).pass = none → driftStartOp s rk = setRegion s rk { regionOf s rk with pass := some { kind := 2 } })
      ∧ ∀ p, (regionOf s rk).pass = some p → p.kind = 1 → driftStartOp s rk = setRegion s rk { regionOf s rk with wantDrift := true } := by
  have hpass : ¬((!passRegion s rk) = true) := by rw [h4]; decide
  constructor
  · intro hp
    refine (if_pos (by rw [h1, h2, h3, hp]; rfl)).trans ((if_neg hpass).trans ?_)
    rw [modRegion_eq, hp]
  · intro p hp hk
    refine (if_pos (by rw [h1, h2, h3, hp]; simp [hk])).trans ((if_neg hpass).trans ?_)
    rw [modRegion_eq, hp]
    dsimp only
    rw [if_pos hk, hp]

/-! ## A drift slice -/

/-- Steps of a drift slice write their core alone, and draw `n` free values. -/
structure DriftStep (ck n : Nat) (s u : State) : Prop where
  others : ∀ j, j ≠ ck → coreOf u j = coreOf s j
  state : u = { s with cores := u.cores, free := s.free + n }

theorem DriftStep.refl (ck : Nat) (s : State) : DriftStep ck 0 s s := ⟨fun _ _ => rfl, rfl⟩

theorem DriftStep.trans {ck n m : Nat} {s x u : State} (h : DriftStep ck n s x) (g : DriftStep ck m x u) : DriftStep ck (n + m) s u := by
  refine ⟨fun j hj => (g.others j hj).trans (h.others j hj), g.state.trans ?_⟩
  rw [h.state, Nat.add_assoc]

/-- The regions may change besides. -/
theorem DriftStep.ended {ck n : Nat} {s x u : State} (h : DriftStep ck n s x) (g : u = { x with cores := u.cores, regions := u.regions }) :
    u = { s with cores := u.cores, regions := u.regions, free := s.free + n } := by
  refine g.trans ?_
  rw [h.state]

theorem driftStep_of_cores {ck : Nat} {s u : State} (ho : ∀ j, j ≠ ck → coreOf u j = coreOf s j) (hs : u = { s with cores := u.cores }) :
    DriftStep ck 0 s u := ⟨ho, hs⟩

theorem driftStep_drawn (ck n : Nat) (s : State) : DriftStep ck n s { s with free := s.free + n } := ⟨fun _ _ => rfl, rfl⟩

theorem DriftStep.desc {ck n : Nat} {s u : State} (h : DriftStep ck n s u) (q : Nat) : descOf u q = descOf s q :=
  descOf_congr (congrArg State.rst h.state : _) (congrArg State.arr h.state : _) q

theorem DriftStep.region {ck n : Nat} {s u : State} (h : DriftStep ck n s u) (k : Nat) : regionOf u k = regionOf s k :=
  regionOf_of_regions (congrArg State.regions h.state : _) k

/-- The state and the fits after a plane that is engaged. -/
def planeMeasured (s : State) (ck t q : Nat) : State :=
  let b := (tileOf (coreOf s ck) t).freeAt
  let pk := planeKey (tileKey ck t) q
  let rows := (List.range 256).filter (fun r => !(skimRowsOf (descOf s pk)).any (fun k => k.2 == r))
  let u := sliceStrobes (sliceStrobes s ck t pk (rowsAt rows 3) (List.replicate 4 b)) ck t pk (rowsAt rows 7) (List.replicate 4 b)
  { u with free := u.free + 8 }

theorem sliceStrobes_former (s : State) (ck t pk : Nat) (us : List (Nat × Nat)) (dues : List Nat) :
    (tileOf (coreOf (sliceStrobes s ck t pk us dues) ck) t).former = (tileOf (coreOf s ck) t).former := by
  have hown : coreOf (sliceStrobes s ck t pk us dues) ck = _ := (coreOf_modCore s ck _ ck).trans (if_pos rfl)
  rw [hown, tileOf_modTile]
  rfl

theorem planeMeasured_spec (s : State) (ck t q : Nat) :
    DriftStep ck 8 s (planeMeasured s ck t q)
      ∧ (tileOf (coreOf (planeMeasured s ck t q) ck) t).engaged = (tileOf (coreOf s ck) t).engaged
      ∧ (tileOf (coreOf (planeMeasured s ck t q) ck) t).former = (tileOf (coreOf s ck) t).former := by
  unfold planeMeasured
  extract_lets b pk rows u
  obtain ⟨_, a2, _, a4, a5⟩ := sliceStrobes_spec s ck t pk (rowsAt rows 3) (List.replicate 4 b)
  have a6 := sliceStrobes_former s ck t pk (rowsAt rows 3) (List.replicate 4 b)
  obtain ⟨_, b2, _, b4, b5⟩ := sliceStrobes_spec (sliceStrobes s ck t pk (rowsAt rows 3) (List.replicate 4 b)) ck t pk (rowsAt rows 7) (List.replicate 4 b)
  have b6 := sliceStrobes_former (sliceStrobes s ck t pk (rowsAt rows 3) (List.replicate 4 b)) ck t pk (rowsAt rows 7) (List.replicate 4 b)
  have hu : DriftStep ck 0 s u := (driftStep_of_cores a4 a5).trans (driftStep_of_cores b4 b5)
  exact ⟨hu.trans (driftStep_drawn ck 8 u), b2.trans a2, b6.trans a6⟩

theorem driftPlane_engaged {rk ck t q : Nat} {x : State × Tbl PlaneFit} (h : (tileOf (coreOf (engageChecked x.1 ck t q) ck) t).engaged = some q) :
    (driftPlane rk ck t x q).1 = planeMeasured (engageChecked x.1 ck t q) ck t q
      ∧ ∃ cols, (driftPlane rk ck t x q).2 = tput x.2 (planeKey (tileKey ck t) q)
          { dT := (regionOf (engageChecked x.1 ck t q) rk).tRead - (regionOf (engageChecked x.1 ck t q) rk).tCal, cols := cols } := by
  unfold driftPlane
  dsimp only
  rw [if_neg (not_not.mpr h)]
  exact ⟨rfl, _, rfl⟩

theorem engage_former (s : State) (ck t p : Nat) : (tileOf (coreOf (engage s ck t p false) ck) t).former = none := by
  have hown : coreOf (engage s ck t p false) ck = _ := (coreOf_modCore s ck _ ck).trans (if_pos rfl)
  rw [hown, tileOf_modTile]

theorem driftStep_engage (s : State) (ck t p : Nat) : DriftStep ck 0 s (engage s ck t p false) :=
  driftStep_of_cores (sliceStep_engage s ck t p).others (sliceStep_engage s ck t p).state

/-- A sound ALLOCATED plane is engaged and measured. -/
theorem driftPlane_spec {rk ck t q : Nat} {x : State × Tbl PlaneFit} (h2 : (descOf x.1 (planeKey (tileKey ck t) q)).state = 2)
    (hg : descGood (descOf x.1 (planeKey (tileKey ck t) q)) = true) :
    DriftStep ck 8 x.1 (driftPlane rk ck t x q).1 ∧ (tileOf (coreOf (driftPlane rk ck t x q).1 ck) t).engaged = some q
      ∧ (tileOf (coreOf (driftPlane rk ck t x q).1 ck) t).former = none
      ∧ ∃ cols, (driftPlane rk ck t x q).2 = tput x.2 (planeKey (tileKey ck t) q)
          { dT := (regionOf x.1 rk).tRead - (regionOf x.1 rk).tCal, cols := cols } := by
  have hform : formeState (descOf x.1 (planeKey (tileKey ck t) q)) = true := by simp [formeState, h2]
  have heng : engageChecked x.1 ck t q = engage x.1 ck t q false := by rw [engageChecked_sound (fun _ => hg), if_pos hform]
  have hstep := driftStep_engage x.1 ck t q
  obtain ⟨h1, cols, h2'⟩ := driftPlane_engaged (rk := rk) (ck := ck) (t := t) (q := q) (x := x) (by rw [heng]; exact engaged_engage ..)
  rw [heng] at h1 h2'
  obtain ⟨m1, m2, m3⟩ := planeMeasured_spec (engage x.1 ck t q false) ck t q
  rw [h1]
  rw [hstep.region] at h2'
  refine ⟨?_, m2.trans (engaged_engage ..), m3.trans (engage_former ..), cols, h2'⟩
  have h := hstep.trans m1
  exact h

/-- The planes of a slice, each measured at the region's temperature. -/
theorem driftPlanes_spec {rk ck t : Nat} : ∀ (l : List Nat) (x : State × Tbl PlaneFit),
    (∀ n ∈ l, (descOf x.1 (planeKey (tileKey ck t) n)).state = 2 ∧ descGood (descOf x.1 (planeKey (tileKey ck t) n)) = true) →
    DriftStep ck (8 * l.length) x.1 (l.foldl (driftPlane rk ck t) x).1
      ∧ (∀ n, l.getLast? = some n → (tileOf (coreOf (l.foldl (driftPlane rk ck t) x).1 ck) t).engaged = some n
          ∧ (tileOf (coreOf (l.foldl (driftPlane rk ck t) x).1 ck) t).former = none)
      ∧ ∀ k, (k ∈ l.map (planeKey (tileKey ck t)) ∨ ∃ f, tfind x.2 k = some f ∧ f.dT = (regionOf x.1 rk).tRead - (regionOf x.1 rk).tCal) →
          ∃ f, tfind (l.foldl (driftPlane rk ck t) x).2 k = some f ∧ f.dT = (regionOf x.1 rk).tRead - (regionOf x.1 rk).tCal
  | [], x, _ => ⟨.refl ck x.1, fun n h => absurd h (by simp), fun k h => h.resolve_left (by simp)⟩
  | n :: l, x, hall => by
    obtain ⟨h2, hg⟩ := hall n List.mem_cons_self
    obtain ⟨d1, d2, d3, cols, d4⟩ := driftPlane_spec (rk := rk) h2 hg
    obtain ⟨e1, e2, e3⟩ := driftPlanes_spec (rk := rk) (ck := ck) (t := t) l (driftPlane rk ck t x n) (fun m hm => by
      rw [d1.desc]
      exact hall m (List.mem_cons_of_mem _ hm))
    rw [List.foldl_cons]
    rw [d1.region] at e3
    refine ⟨?_, fun m hm => ?_, fun k hk => e3 k ?_⟩
    · have h := d1.trans e1
      have hlen : 8 + 8 * l.length = 8 * (n :: l).length := by
        rw [List.length_cons]
        omega
      rw [hlen] at h
      exact h
    · cases l with
      | nil =>
        obtain rfl : n = m := by simpa using hm
        exact ⟨d2, d3⟩
      | cons m' l' => exact e2 m (by rwa [List.getLast?_cons_cons] at hm)
    · rw [d4, tfind_tput]
      by_cases hkn : k = planeKey (tileKey ck t) n
      · exact .inr ⟨_, if_pos hkn, rfl⟩
      · rcases hk with hk | hk
        · exact .inl ((List.mem_cons.mp hk).resolve_left hkn)
        · rw [if_neg hkn]
          exact .inr hk

/-- What keeps a drift slice from starting. -/
def driftBarred (s : State) (ck t : Nat) (planes : List Nat) (p : Pass) : Prop :=
  p.kind ≠ 2 ∨ passOver s (coreRegion ck) p = true ∨ coreFenced s ck = true ∨ (!stackDriven s (coreStack ck)) = true
    ∨ (coreOf s ck).testing.isSome = true ∨ 40 < planes.length
    ∨ planes.any (fun n => (descOf s (planeKey (tileKey ck t) n)).state != 2 || planeKey (tileKey ck t) n ∈ p.slices.map (·.1)) = true
    ∨ (!sliceFree s p ck 1000000) = true

/-- The state in which the planes of a slice have been measured, with the fits. -/
def driftMeasured (s : State) (ck t : Nat) (planes : List Nat) (p : Pass) : State × Tbl PlaneFit :=
  planes.foldl (driftPlane (coreRegion ck) ck t) (sliceHeld s ck t, p.fits)

/-- The end of a drift slice: the tile is released, and its region's pass takes the fits. -/
def driftEnded (s : State) (ck t b : Nat) (former : Option Nat) (p : Pass) : State :=
  modRegion (freeTile s ck t b former) (coreRegion ck) (fun g => passingTransfers false 1 { g with pass := some p })

theorem driftSliceOp_closed {s : State} {ck t : Nat} {planes : List Nat} {p : Pass} (hp : (regionOf s (coreRegion ck)).pass = some p)
    (hc : driftBarred s ck t planes p) : driftSliceOp s ck t planes = s := by
  unfold driftSliceOp
  dsimp only
  rw [hp]
  exact if_pos hc

theorem driftSliceOp_open {s : State} {ck t : Nat} {planes : List Nat} {p : Pass} (hp : (regionOf s (coreRegion ck)).pass = some p)
    (ho : ¬driftBarred s ck t planes p) :
    driftSliceOp s ck t planes = driftEnded (driftMeasured s ck t planes p).1 ck t (sliceStart s ck t)
      (tileOf (coreOf (sliceHeld s ck t) ck) t).engaged
      { p with slices := p.slices ++ planes.map (fun n => (planeKey (tileKey ck t) n, sliceStart s ck t)),
               fits := (driftMeasured s ck t planes p).2 } := by
  unfold driftSliceOp
  dsimp only
  rw [hp]
  exact (if_neg ho).trans rfl

theorem freeTile_former (s : State) (ck t b : Nat) (former : Option Nat) :
    b + 20000 ≤ (tileOf (coreOf (freeTile s ck t b former) ck) t).freeAt
      ∧ (tileOf (coreOf (freeTile s ck t b former) ck) t).engaged = (tileOf (coreOf s ck) t).engaged
      ∧ (tileOf (coreOf (freeTile s ck t b former) ck) t).former = former.orElse (fun _ => (tileOf (coreOf s ck) t).former)
      ∧ (∀ j, j ≠ ck → coreOf (freeTile s ck t b former) j = coreOf s j)
      ∧ freeTile s ck t b former = { s with cores := (freeTile s ck t b former).cores } := by
  have hown : coreOf (freeTile s ck t b former) ck = _ := (coreOf_modCore s ck _ ck).trans (if_pos rfl)
  rw [hown, tileOf_modTile]
  exact ⟨le_max_right _ _, rfl, rfl, fun j hj => (coreOf_modCore ..).trans (if_neg hj), rfl⟩

theorem driftEnded_spec (s : State) (ck t b : Nat) (former : Option Nat) (p : Pass) :
    (regionOf (driftEnded s ck t b former p) (coreRegion ck)).pass = some p
      ∧ (∀ j, j ≠ coreRegion ck → regionOf (driftEnded s ck t b former p) j = regionOf s j)
      ∧ b + 20000 ≤ (tileOf (coreOf (driftEnded s ck t b former p) ck) t).freeAt
      ∧ (tileOf (coreOf (driftEnded s ck t b former p) ck) t).engaged = (tileOf (coreOf s ck) t).engaged
      ∧ (tileOf (coreOf (driftEnded s ck t b former p) ck) t).former = former.orElse (fun _ => (tileOf (coreOf s ck) t).former)
      ∧ (∀ j, j ≠ ck → coreOf (driftEnded s ck t b former p) j = coreOf s j)
      ∧ driftEnded s ck t b former p = { s with cores := (driftEnded s ck t b former p).cores, regions := (driftEnded s ck t b former p).regions } := by
  obtain ⟨f1, f2, f3, f4, f5⟩ := freeTile_former s ck t b former
  have hmod : ∀ (x : State) (g : Region → Region), (∀ j, coreOf (modRegion x (coreRegion ck) g) j = coreOf x j)
      ∧ modRegion x (coreRegion ck) g = { x with regions := (modRegion x (coreRegion ck) g).regions } := fun _ _ => ⟨fun _ => rfl, rfl⟩
  obtain ⟨m1, m2⟩ := hmod (freeTile s ck t b former) (fun g => passingTransfers false 1 { g with pass := some p })
  have hpass : ∀ (x : State) (g : Region → Region), regionOf (modRegion x (coreRegion ck) g) (coreRegion ck) = g (regionOf x (coreRegion ck)) :=
    fun x g => regionOf_setRegion x _ _
  refine ⟨?_, fun j hj => (regionOf_setRegion_ne _ _ hj).trans (regionOf_of_regions (congrArg State.regions f5 : _) j), ?_, ?_, ?_,
    fun j hj => (m1 j).trans (f4 j hj), ?_⟩
  · exact (congrArg Region.pass (hpass _ _)).trans rfl
  · exact f1.trans (Nat.le_of_eq (congrArg (fun c => (tileOf c t).freeAt) (m1 ck).symm))
  · exact (congrArg (fun c => (tileOf c t).engaged) (m1 ck)).trans f2
  · exact (congrArg (fun c => (tileOf c t).former) (m1 ck)).trans f3
  · have hc : (driftEnded s ck t b former p).cores = (freeTile s ck t b former).cores := (congrArg State.cores m2 : _)
    refine m2.trans ?_
    rw [hc]
    exact (congrArg (fun x : State => { x with regions := (driftEnded s ck t b former p).regions }) f5 : _)

/-! ## The end of CAL_SELF -/

/-- The state without what a band-gap check changes. -/
def calKept (s : State) : List CmdEntry × Tbl FnBlk × RstBlk := (s.cmdq, s.fns, s.rst)

/-- The same, with what the checks themselves write. -/
def trimKept (s : State) : (List CmdEntry × Tbl FnBlk × RstBlk) × BandGap := (calKept s, s.bandgap)

theorem trimKept_fenceFor (s : State) (u : UnitId) (cause : Cause) (detail : Nat) : trimKept (fenceFor s u cause detail) = trimKept s :=
  (congrArg trimKept (besidesRetire_fenceFor s u cause detail) : _)

theorem trimKept_startTemp (s : State) (rk : Nat) : trimKept (startTemp s rk) = trimKept s := by
  unfold startTemp
  split <;> rfl

theorem calKept_bandStack (tick : Bool) (s : State) (x : Nat × Int) : calKept (bandStack tick s x) = calKept s := by
  have hband : ∀ (y : State) (b : BandGap), calKept { y with bandgap := b } = calKept y := fun _ _ => rfl
  have hstart : ∀ y rk, calKept (startTemp y rk) = calKept y := fun y rk => congrArg Prod.fst (trimKept_startTemp y rk)
  unfold bandStack
  extract_lets ps d near
  split
  · exact hband ..
  split
  · exact (foldl_unchanged calKept (fun y g => hstart y _) _ _).trans (hband ..)
  split
  · rfl
  split
  · exact congrArg Prod.fst (trimKept_fenceFor ..)
  · exact hband ..

theorem calKept_bandGapOp (s : State) (l : List (Nat × Int)) : calKept (bandGapOp s false l) = calKept s := by
  unfold bandGapOp
  extract_lets b x l'
  have hx : calKept x = calKept s := rfl
  have hreport : ∀ (y : State) (r : Report), calKept (addReport y r) = calKept y := fun y r => by
    unfold addReport
    split <;> rfl
  split
  · exact hx
  split
  · exact (hreport ..).trans hx
  · exact (foldl_unchanged calKept (calKept_bandStack false) _ _).trans hx

theorem bandGapOp_nil (s : State) : bandGapOp s false [] = s := by
  unfold bandGapOp
  extract_lets x l'
  split
  · rfl
  · rfl

theorem trimKept_modCore (s : State) (k : Nat) (f : Core → Core) : trimKept (modCore s k f) = trimKept s := rfl

theorem trimKept_modRegion (s : State) (k : Nat) (f : Region → Region) : trimKept (modRegion s k f) = trimKept s := rfl

theorem trimKept_calReject (s : State) (ck unit : Nat) : trimKept (calReject s ck unit) = trimKept s := by
  rw [calReject_eq]
  split
  · exact trimKept_fenceFor ..
  · rfl

theorem trimKept_trimOne (ck : Nat) (s : State) (r : TrimResult) : trimKept (trimOne ck s r) = trimKept s := by
  unfold trimOne
  split
  · exact (trimKept_fenceFor ..).trans (trimKept_modCore ..)
  split
  · exact (trimKept_modCore ..).trans (trimKept_modCore ..)
  · exact trimKept_calReject ..

theorem trimKept_trimCore (s : State) (e : Nat × List TrimResult) : trimKept (trimCore s e) = trimKept s := by
  have hfold := foldl_unchanged trimKept (trimKept_trimOne e.1) e.2 s
  unfold trimCore
  dsimp only
  split
  · exact hfold
  · exact (trimKept_modCore ..).trans hfold

theorem trimKept_modSense (s : State) (conv : Nat) (f : Sense → Sense) : trimKept (modSense s conv f) = trimKept s := by
  unfold modSense
  split <;> rfl

theorem trimKept_trimUnit (s : State) (r : UnitTrim) : trimKept (trimUnit s r) = trimKept s := by
  unfold trimUnit
  extract_lets ok x rk i
  have hx : trimKept x = trimKept s := trimKept_modSense ..
  split
  · split
    · exact (trimKept_modRegion ..).trans hx
    · exact hx
  split
  · split
    · exact trimKept_modRegion ..
    · exact (trimKept_modRegion ..).trans (trimKept_modRegion ..)
  · rfl

/-- The state in which every result of a CAL_SELF is taken. -/
def calTrimmed (s : State) (results : TrimSearch) (bandgap : List (Nat × Int)) : State :=
  results.units.foldl trimUnit
    (results.columns.foldl trimCore (bandGapOp { s with bandgap := { s.bandgap with hubSuspect := false } } false bandgap))

/-- The state before the command of a CAL_SELF is answered. -/
def calDone (s : State) (results : TrimSearch) (bandgap : List (Nat × Int)) : State :=
  { calTrimmed s results bandgap with rst := { (calTrimmed s results bandgap).rst with calDone := true } }

theorem calSelfCompleteOp_none {s : State} (h : s.cmdq.find? (fun e => e.wait == .calSelf) = none) (results : TrimSearch)
    (bandgap : List (Nat × Int)) : calSelfCompleteOp s results bandgap = s := by
  unfold calSelfCompleteOp
  rw [h]

theorem calSelfCompleteOp_some {s : State} {e : CmdEntry} (h : s.cmdq.find? (fun e => e.wait == .calSelf) = some e) (results : TrimSearch)
    (bandgap : List (Nat × Int)) :
    calSelfCompleteOp s results bandgap = finish (calDone s results bandgap) e.hdr.fn e.hdr.seq .ok {} 0 0 := by
  unfold calSelfCompleteOp
  rw [h]
  rfl

theorem calDone_spec (s : State) (results : TrimSearch) (bandgap : List (Nat × Int)) :
    (calDone s results bandgap).cmdq = s.cmdq ∧ (calDone s results bandgap).fns = s.fns
      ∧ (calDone s results bandgap).rst = { s.rst with calDone := true }
      ∧ (bandgap = [] → (calDone s results bandgap).bandgap = { s.bandgap with hubSuspect := false }) := by
  have htrim : trimKept (calTrimmed s results bandgap)
      = trimKept (bandGapOp { s with bandgap := { s.bandgap with hubSuspect := false } } false bandgap) :=
    (foldl_unchanged trimKept trimKept_trimUnit _ _).trans (foldl_unchanged trimKept trimKept_trimCore _ _)
  have hcal : calKept (calTrimmed s results bandgap) = calKept s := (congrArg Prod.fst htrim).trans (calKept_bandGapOp _ _)
  have hband : bandgap = [] → (calTrimmed s results bandgap).bandgap = { s.bandgap with hubSuspect := false } := fun h => by
    refine (congrArg Prod.snd htrim).trans ?_
    rw [h, bandGapOp_nil]
    rfl
  simp only [calKept, Prod.mk.injEq] at hcal
  obtain ⟨hq, hf, hr⟩ := hcal
  unfold calDone
  generalize calTrimmed s results bandgap = x at *
  exact ⟨hq, hf, congrArg (fun r : RstBlk => { r with calDone := true }) hr, hband⟩

/-- One converter's result within its limits. -/
theorem trimCore_good {s : State} {ck : Nat} {r : TrimResult} (hf : r.failed = false) (ho : trimOk s ck r = true) :
    coreOf (trimCore s (ck, [r])) ck = { coreOf s ck with
        factor := tput (coreOf s ck).factor r.conv (r.gain, r.offset, true),
        newDnl := some (withDnl ((coreOf s ck).newDnl.getD (coreOf s ck).dnl) r.conv r.dnl),
        runs := tdel (coreOf s ck).runs r.conv, groupFails := [] }
      ∧ (trimCore s (ck, [r])).map = s.map := by
  have hone : trimOne ck s r = calPass (modCore s ck (fun c => { c with
      factor := tput c.factor r.conv (r.gain, r.offset, true), newDnl := some (withDnl (c.newDnl.getD c.dnl) r.conv r.dnl) })) ck r.conv :=
    (if_neg (by rw [hf]; decide)).trans (if_pos ho)
  have hcore : trimCore s (ck, [r]) = modCore (trimOne ck s r) ck (fun c => { c with groupFails := [] }) :=
    if_neg (by simp [hf])
  rw [hcore, hone]
  unfold calPass
  refine ⟨?_, rfl⟩
  rw [coreOf_modCore, if_pos rfl, coreOf_modCore, if_pos rfl, coreOf_modCore, if_pos rfl]

/-- Settles O45: the start and the slices of a drift pass, and the end of CAL_SELF. -/
theorem driftAndSelfCalibration : Obligations.DriftAndSelfCalibration := by
  intro rk ck tile t s hrk hck ht s1 g
  have hstart : exec (.driftPassStart rk t) s = .next (driftStartOp s1 rk) := if_pos hrk
  refine ⟨fun h => hstart.trans (next_congr (driftStartOp_off (s := s1) ?_)),
    fun p hp hk => hstart.trans (next_congr (driftStartOp_off (s := s1) (.inr (.inr (.inr (.inr ⟨p, hp, hk⟩)))))),
    fun h1 h2 h3 h4 hp => hstart.trans (next_congr ((driftStartOp_on (s := s1) h1 h2 h3 h4).1 hp)),
    fun p h1 h2 h3 h4 hp hk => hstart.trans (next_congr ((driftStartOp_on (s := s1) h1 h2 h3 h4).2 p hp hk)), ?_,
    fun results bandgap hn => next_congr (calSelfCompleteOp_none (s := s1) hn results bandgap), fun results bandgap e he => ?_⟩
  · rcases h with h | h | h | h
    · exact .inl h
    · exact .inr (.inl h)
    · exact .inr (.inr (.inl h))
    · exact .inr (.inr (.inr (.inl h)))
  · intro p plane more hp planes tk x b f open_
    have hexec : exec (.driftSlice (ck / 2560) (ck / 160 % 16) (ck % 160) tile plane more t) s = .next (driftSliceOp s1 ck tile planes) := by
      have hfits : ck / 2560 < 40 ∧ ck / 160 % 16 < 16 ∧ ck % 160 < 160 ∧ tile < 16 := by
        unfold nCores at hck
        omega
      refine (if_pos hfits).trans ?_
      rw [coreKey_fields]
    have hp1 : (regionOf s1 (coreRegion ck)).pass = some p := hp
    have hbar : open_ ↔ ¬driftBarred s1 ck tile planes p := by
      simp only [driftBarred, not_or, not_not, Bool.not_eq_true, Bool.not_eq_false', Option.isSome_eq_false_iff, Option.isNone_iff_eq_none,
        List.any_eq_false, Bool.or_eq_false_iff, bne_eq_false_iff_eq, decide_eq_false_iff_not, not_lt]
      exact Iff.rfl
    refine ⟨fun hn => hexec.trans (next_congr (driftSliceOp_closed hp1 (not_not.mp (fun h => hn (hbar.mpr h))))), fun hopen => ?_⟩
    have hop := driftSliceOp_open hp1 (hbar.mp hopen)
    obtain ⟨e1, e2, e3, e4, e5, e6, e7⟩ := driftEnded_spec (driftMeasured s1 ck tile planes p).1 ck tile b (tileOf (coreOf f ck) tile).engaged
      { p with slices := p.slices ++ planes.map (fun n => (planeKey tk n, b)), fits := (driftMeasured s1 ck tile planes p).2 }
    refine ⟨_, _, hexec.trans (next_congr hop), e1, hopen.1, rfl, e3, fun hgood hsound => ?_⟩
    obtain ⟨hheld, _⟩ := sliceHeld_spec (s := s1) (ck := ck) (t := tile) hsound
    have h0 : DriftStep ck 0 s1 (sliceHeld s1 ck tile) := driftStep_of_cores hheld.others hheld.state
    obtain ⟨d1, d2, d3⟩ := driftPlanes_spec (rk := coreRegion ck) (ck := ck) (t := tile) planes (sliceHeld s1 ck tile, p.fits) (fun n hn => by
      have hdesc : descOf (sliceHeld s1 ck tile) (planeKey (tileKey ck tile) n) = descOf s (planeKey (tileKey ck tile) n) := h0.desc _
      obtain ⟨_, _, _, _, _, _, hst, _⟩ := hopen
      exact ⟨(congrArg PlaneDesc.state hdesc).trans (hst n hn).1, (congrArg descGood hdesc).trans (hgood n hn)⟩)
    have hm : DriftStep ck (8 * planes.length) s1 (driftMeasured s1 ck tile planes p).1 := by
      have h := h0.trans d1
      rw [Nat.zero_add] at h
      exact h
    have hreg : (regionOf (sliceHeld s1 ck tile) (coreRegion ck)) = regionOf s (coreRegion ck) := h0.region _
    obtain ⟨last, hlast⟩ : ∃ n, planes.getLast? = some n := ⟨_, List.getLast?_cons⟩
    obtain ⟨l1, l2⟩ := d2 last hlast
    refine ⟨fun n hn => ?_, e4.trans (l1.trans hlast.symm), e5.trans ?_, fun j hj => (e6 j hj).trans (hm.others j hj),
      fun j hj => (e2 j hj).trans (hm.region j), hm.ended e7⟩
    · obtain ⟨fit, hfit, hdT⟩ := d3 (planeKey (tileKey ck tile) n) (.inl (List.mem_map_of_mem hn))
      rw [hreg] at hdT
      exact ⟨fit, hfit, hdT⟩
    · have l2' : (tileOf (coreOf (driftMeasured s1 ck tile planes p).1 ck) tile).former = none := l2
      rw [l2']
      cases (tileOf (coreOf f ck) tile).engaged <;> rfl
  · have hop := calSelfCompleteOp_some (s := s1) he results bandgap
    obtain ⟨c1, c2, c3, c4⟩ := calDone_spec s1 results bandgap
    have hexec : exec (.calSelfComplete results bandgap t) s = .next (calSelfCompleteOp s1 results bandgap) := rfl
    refine ⟨_, _, hexec.trans (next_congr hop), rfl, c1, c2, c3, c4, fun r hr hb hf ho => ?_⟩
    subst hr hb
    have hcal : calTrimmed s1 { columns := [(ck, [r])], units := [] } []
        = trimCore { s1 with bandgap := { s1.bandgap with hubSuspect := false } } (ck, [r]) := by
      unfold calTrimmed
      rw [bandGapOp_nil]
      rfl
    obtain ⟨g1, g2⟩ := trimCore_good (s := { s1 with bandgap := { s1.bandgap with hubSuspect := false } }) (ck := ck) hf ho
    have hro := replyOnly_finish (calDone s1 { columns := [(ck, [r])], units := [] } []) e.hdr.fn e.hdr.seq .ok {} 0 0
    have hdc : ∀ y : State, y = calTrimmed s1 { columns := [(ck, [r])], units := [] } [] →
        (calDone s1 { columns := [(ck, [r])], units := [] } []).cores = y.cores ∧ (calDone s1 { columns := [(ck, [r])], units := [] } []).map = y.map :=
      fun y hy => by
        rw [hy]
        exact ⟨rfl, rfl⟩
    obtain ⟨k1, k2⟩ := hdc _ hcal.symm
    refine ⟨(coreOf_of_cores (((congrArg State.cores hro : _) : _ = (calDone s1 _ []).cores).trans k1) ck).trans g1,
      ((congrArg State.map hro : _) : _ = (calDone s1 _ []).map).trans (k2.trans g2)⟩

/-- Settles O46: each of the commands completes with its effect. -/
theorem banksAndCalibrationComplete : Obligations.BanksAndCalibrationComplete := by
  intro t s s1
  refine ⟨fun ck bn acc hck hbn hd hl hp => ?_, fun ck bn acc hck hbn hd hl hdest => ?_,
    fun ck tile refs p hck ht hp hk hov hf hd hsl hfr htest => ?_, fun rk hrk h1 h2 h3 h4 h5 => ?_,
    fun ck tile n p hck ht hp hk hov hf hd hsl hfr htest hn hst => ?_, fun results bandgap hex => ?_⟩
  · obtain ⟨u, hu, hbank, _⟩ := ((banksFinalise ck bn t s hck hbn).2 acc hd).2.1 hl hp
    exact ⟨u, hu, hbank⟩
  · obtain ⟨u, hu, hbank, _⟩ := ((banksFinalise ck bn t s hck hbn).2 acc hd).2.2.2 hl (.inl hdest)
    exact ⟨u, hu, hbank⟩
  · obtain ⟨u, v, hu, hv, hslices, _⟩ := (recalSlices ck tile refs t p s hck ht hp).2.1 ⟨hk, hov, hf, hd, hsl, htest, hfr⟩
    exact ⟨u, v, hu, hv, hslices⟩
  · exact (driftAndSelfCalibration rk 0 0 t s hrk (by decide) (by decide)).2.2.1 h1 h2 h3 h4 h5
  · have hdrift := (driftAndSelfCalibration 0 ck tile t s (by decide) hck ht).2.2.2.2.1 p n [] hp
    obtain ⟨u, v, hu, hv, _, hslices, _⟩ := hdrift.2 ⟨hk, hov, hf, hd, htest, by simp, fun m hm => by
      obtain rfl : m = n := List.mem_singleton.mp hm
      exact ⟨hst, hsl⟩, hfr⟩
    exact ⟨u, v, hu, hv, hslices⟩
  · obtain ⟨e, he, hw⟩ := hex
    have hsome : (s.cmdq.find? (fun e => e.wait == .calSelf)).isSome = true := List.find?_isSome.mpr ⟨e, he, by simp [hw]⟩
    obtain ⟨e', he'⟩ := Option.isSome_iff_exists.mp hsome
    obtain ⟨u, v, hu, hfin, _, _, hrst, _⟩ :=
      (driftAndSelfCalibration 0 0 0 t s (by decide) (by decide) (by decide)).2.2.2.2.2.2 results bandgap e' he'
    refine ⟨u, hu, ?_⟩
    rw [hfin, finish_rst]
    exact hrst

end Sys2Proof.Proofs
/-! # Time across modules, and thermal stops: what the commands complete with -/
namespace Sys2Proof.Proofs

open Sys2Proof.Machine Sys2Proof.Safety Sys2Proof.Laws

/-! ## A stop that starts -/

/-- The moment of the thermal stop in progress, and whether formation is stopped. -/
def stopParts (s : State) : Option Nat × Bool := (s.therm.stopping, s.sched.stopped)

theorem stopParts_of_replyOnly {s u : State} (h : ReplyOnly s u) : stopParts u = stopParts s := by
  rw [h]
  rfl

theorem stopParts_modReq (s : State) (i : Nat) (f : Req → Req) : stopParts (modReq s i f) = stopParts s := by
  unfold modReq
  split <;> rfl

theorem stopParts_markEnd (s : State) (rid : Nat) (st : Status) : stopParts (markEnd s rid st) = stopParts s := by
  exact stopParts_modReq ..

theorem stopParts_endFrame (s : State) (w : Nat) (c : Channel) (st : Status) (asFill : Bool) : stopParts (endFrame s w c st asFill) = stopParts s := by
  have hframe : stopParts (writeFrame s w c 3 0 []) = stopParts s := rfl
  have hclose : ∀ x : State, stopParts (closeChan x w) = stopParts x := fun _ => rfl
  have hfill : ∀ x : State, stopParts { x with web := { x.web with fillCount := satAdd 32 x.web.fillCount 1 } } = stopParts x := fun _ => rfl
  have hend : ∀ (x : State) (rid : Nat) (f : Req → Req), stopParts (markEnd (modReq x rid f) rid st) = stopParts x := fun x rid f =>
    (stopParts_markEnd ..).trans (stopParts_modReq ..)
  unfold endFrame
  extract_lets s1 s2
  have h2 : stopParts s2 = stopParts s := by
    dsimp only [s2]
    split
    · exact (hend ..).trans hframe
    · exact hframe
  refine (hclose _).trans ?_
  split
  · exact (hfill _).trans h2
  · exact h2

theorem stopParts_closeNow (s : State) (w : Nat) (c : Channel) : stopParts (closeNow s w c) = stopParts s := by
  unfold closeNow
  exact (foldl_unchanged stopParts (fun x e => stopParts_of_replyOnly (replyOnly_finish ..)) _ _).trans (stopParts_endFrame ..)

theorem stopParts_closeChannels (s : State) (p : Channel → Bool) : stopParts (closeChannels s p) = stopParts s := by
  refine foldl_unchanged stopParts (fun x e => ?_) _ _
  split
  · exact stopParts_closeNow ..
  · rfl

theorem stopParts_takeSafety (s : State) (kind user : Nat) : stopParts (takeSafety s kind user).1 = stopParts s := by
  unfold takeSafety
  split
  · rfl
  · split
    · rfl
    · refine (stopParts_of_replyOnly (replyOnly_unsolicited ..)).trans ?_
      dsimp only
      split <;> rfl

theorem stopParts_sendControl (s : State) (typ dest : Nat) (words : List Nat) : stopParts (sendControl s typ dest words) = stopParts s := by
  unfold sendControl
  repeat' split
  all_goals rfl

/-- A stop that starts notes its moment and stops formation. -/
theorem startStop_stopParts (s : State) (cause : Nat) (v : Int) (addr : Nat) : stopParts (startStop s cause v addr) = (some (now s), true) := by
  have hdrive : ∀ (x : State) (p : Pin) (l : Bool), stopParts (drive x p l) = stopParts x := fun _ _ _ => rfl
  unfold startStop
  extract_lets src s1 s2 s3 s4 s5
  have h3 : stopParts s3 = (some (now s), true) := rfl
  have h5 : stopParts s5 = (some (now s), true) :=
    (stopParts_takeSafety ..).trans ((stopParts_takeSafety ..).trans ((stopParts_closeChannels ..).trans h3))
  split
  · exact (stopParts_sendControl ..).trans ((hdrive ..).trans h5)
  · exact h5

theorem takeReading_time (s : State) (r : TempReading) : (takeReading s r).time = s.time := by
  have hbroken : ∀ (x : State) (q : Sensor), (followBroken x q).time = x.time := fun x q => by
    unfold followBroken
    repeat' split
    all_goals rfl
  have hnote : ∀ (x : State) (k : Nat) (v : Int), (notePassTemp x k v).time = x.time := fun x k v => by
    unfold notePassTemp
    split <;> rfl
  unfold takeReading
  refine (hbroken ..).trans ?_
  split
  · exact hnote ..
  · rfl

/-- A region's reading at the shut level, with no cut foreseen, starts the orderly stop. -/
theorem thermalStopOp_starts {s : State} {r : TempReading} {k c : Nat} (hph : s.rst.phase = .service) (hst : s.therm.stopping = none)
    (hr : r.sensor = .region k c) (hv : 1760 ≤ r.value) (hp : predicted (takeReading s r) r.sensor r.value = false) :
    stopParts (thermalStopOp s r) = (some (now s), true) := by
  have hw := watchParts_takeReading s r
  simp only [watchParts, Prod.mk.injEq] at hw
  obtain ⟨_, hstop, _, hphase, _⟩ := hw
  have hgo : ¬((takeReading s r).therm.stopping.isSome = true
      ∨ (!(firmwareRuns (takeReading s r) || decide ((takeReading s r).rst.phase = .noFirmware))) = true) := by
    simp [firmwareRuns, hstop, hphase, hst, hph]
  have htrips : trips (takeReading s r) r = true := by
    unfold trips
    rw [hr]
    exact decide_eq_true hv
  have hop : thermalStopOp s r = startStop (takeReading s r) 1 r.value (sensorAddr r.sensor) := by
    unfold thermalStopOp
    rw [hst]
    refine (if_neg hgo).trans ?_
    rw [htrips, hp, hr]
    rfl
  rw [hop, startStop_stopParts]
  unfold now
  rw [takeReading_time]

/-! ## The hard cut -/

theorem beginReset_thermLatch (s : State) (x : Src) : (beginReset s x).aon.thermLatch = s.aon.thermLatch := by
  have habort : ∀ y : State, (countAbort y).aon.thermLatch = y.aon.thermLatch := fun _ => rfl
  have hcount : ∀ y : State, (countReset y x).aon.thermLatch = y.aon.thermLatch := fun _ => rfl
  have h1 : (if s.rst.phase = .loading then countAbort s else s).aon.thermLatch = s.aon.thermLatch := by
    split
    · exact habort s
    · rfl
  unfold beginReset
  dsimp only
  split
  · rfl
  · refine (congrArg AonBlk.thermLatch (reach_lasting _ _).2.1).trans ?_
    split
    · exact h1
    · exact (hcount _).trans h1

/-- A THERM reset latches. -/
theorem thermReset_latched (s : State) (hard : Bool) : (thermReset s hard).rst.phase = .latched ∧ (thermReset s hard).aon.thermLatch = true := by
  have hset : ∀ y : State, ({ y with rst := { y.rst with phase := .latched } } : State).rst.phase = .latched
      ∧ ({ y with rst := { y.rst with phase := .latched } } : State).aon = y.aon := fun _ => ⟨rfl, rfl⟩
  unfold thermReset
  extract_lets s1 x srcS srcA s2 s3
  obtain ⟨h1, h2⟩ := hset s3
  have h3 : s3.aon.thermLatch = true := beginReset_thermLatch s2 .therm
  exact ⟨h1, (congrArg AonBlk.thermLatch h2 : _).trans h3⟩

/-! ## The time messages -/

theorem rejoin_offset (s : State) : (rejoin s).time = s.time := by
  have hsend : ∀ (x : State) (typ dest : Nat) (ws : List Nat), (sendControl x typ dest ws).time = x.time := fun x typ dest ws => by
    unfold sendControl
    repeat' split
    all_goals rfl
  unfold rejoin
  refine (hsend ..).trans ?_
  split <;> rfl

theorem timeReplyOp_offset {s : State} {p : Nat} {t1 t2 t3 t4 : Int} (h1 : (portOf s p).state = 2) (h2 : (portOf s p).use = 1)
    (h0 : s.time.lastReply ≠ 0) : (timeReplyOp s p t1 t2 t3 t4 0).time.offset = thetaOf t1 t2 t3 t4 := by
  have hstep : (s.time.lastReply == 0 && thetaOf t1 t2 t3 t4 != 0 && (s.rst.cold || decide (16000 < (thetaOf t1 t2 t3 t4).natAbs))) = false := by
    simp [h0]
  have hgo : ¬((portOf s p).state ≠ 2 ∨ (portOf s p).use ≠ 1) := by
    rintro (h | h)
    · exact h h1
    · exact h h2
  have hoff : (thetaOf t1 t2 t3 t4 + if sysRole s = 3 then (0 : Int) else 0) = thetaOf t1 t2 t3 t4 := by
    split <;> exact Int.add_zero _
  have hre : ∀ (b : Bool) (y : State), (if b = true then rejoin y else y).time = y.time := fun b y => by
    split
    · exact rejoin_offset y
    · rfl
  refine (congrArg (fun x : State => x.time.offset) (if_neg hgo)).trans ?_
  rw [hstep]
  exact (congrArg TimeBlk.offset (hre _ _)).trans hoff

/-- Settles O47: each command's effect. -/
theorem timeAndThermalComplete : Obligations.TimeAndThermalComplete := by
  intro p t s hp s1 x n
  refine ⟨fun h1 h2 h3 => (if_pos hp).trans (next_congr (if_pos ⟨h1, h2, h3⟩)), fun t1 h1 h2 => (if_pos hp).trans (next_congr (if_pos ⟨h1, h2⟩)),
    fun t1 t2 t3 t4 h1 h2 h0 => ⟨_, if_pos hp, timeReplyOp_offset (s := s1) h1 h2 h0⟩, fun h1 h2 => next_congr (if_pos ⟨h1, h2⟩),
    fun h1 h2 => next_congr ((if_pos ?_).trans ?_), fun c hc => (if_pos hc).trans (next_congr ?_),
    fun r k c hph hst hr hv hpr => ⟨_, rfl, ?_⟩, fun t0 hph hst hle => ⟨_, rfl, ?_⟩⟩
  · exact Bool.and_eq_true_iff.mpr ⟨h1, decide_eq_true h2⟩
  · have hout : s.out ++ [.pin .extSync true] ++ [.pin .extSync false] = s.out ++ [.pin .extSync true, .pin .extSync false] :=
      List.append_assoc _ _ _
    exact congrArg (fun l => { s1 with out := l, rst := { s.rst with lastSync := n } }) hout
  · have hstuck : (addOnce s.time.resetting c != []) = true := by
      have hmem : c ∈ addOnce s.time.resetting c := mem_addOnce.mpr (.inl rfl)
      simpa using List.ne_nil_of_mem hmem
    exact congrArg (fun b => { s1 with time := { s.time with base := n, resetting := addOnce s.time.resetting c, stuck := b } }) hstuck
  · have h := thermalStopOp_starts (s := s1) hph hst hr hv hpr
    exact ⟨congrArg Prod.fst h, congrArg Prod.snd h⟩
  · have hcut : mustCut s1 = true := by
      unfold mustCut
      rw [show s1.therm.stopping = some t0 from hst]
      exact Bool.or_eq_true_iff.mpr (.inl (decide_eq_true hle))
    have hop : hardCutOp s1 = thermReset s1 true := if_pos hcut
    rw [hop]
    exact thermReset_latched s1 true

end Sys2Proof.Proofs
/-! # Plate records, read timeouts, generation records and in-place runs -/
namespace Sys2Proof.Proofs

open Sys2Proof.Machine Sys2Proof.Safety Sys2Proof.Laws

/-! ## What a transfer of plate data writes -/

/-- The descriptors, the plates, the regions' credits and the outward writes may differ, nothing else. -/
def PlateData (s u : State) : Prop :=
  u = { s with arr := { s.arr with desc := u.arr.desc }, plates := u.plates, regions := u.regions, out := u.out }

theorem PlateData.trans {s x u : State} (h : PlateData s x) (g : PlateData x u) : PlateData s u := by
  unfold PlateData at *
  refine g.trans ?_
  rw [h]

theorem plateData_setPlates (s : State) (f : PlateBlk → PlateBlk) : PlateData s (setPlates s f) := rfl

theorem plateData_beginWrite (s : State) (pk : Nat) (r : Option PlaneRecord) : PlateData s (beginWrite s pk r) := rfl

theorem plateData_endTransfer (s : State) (u : DmaUser) : PlateData s (endTransfer s u) := rfl

theorem plateData_settleDma (s : State) : PlateData s (settleDma s) := by
  have h := besidesCredits_settleDma s
  unfold PlateData
  have hd : (settleDma s).arr = s.arr := (congrArg State.arr h : _)
  refine (congrArg (fun x : State => { x with
    plates := (settleDma s).plates, regions := (settleDma s).regions, out := (settleDma s).out }) h : _).trans ?_
  rw [hd]
  rfl

theorem plateData_readPart (s : State) (ld : Load) : PlateData s (readPart s ld) := by
  unfold readPart
  split
  · exact (plateData_endTransfer s .change).trans (plateData_settleDma _)
  · rfl

theorem plateData_readRun (s : State) : PlateData s (readRun s) := by
  unfold readRun
  split
  · split
    · exact (plateData_endTransfer s .rerun).trans (plateData_settleDma _)
    · rfl
  · exact plateData_settleDma s

/-- The planes' descriptors and levels and what the plates know of their records. -/
def writeParts (s : State) : ArrayBlk × RstBlk × Option Load × Tbl (Option PlaneRecord) × Tbl PlaneRecord × List Load × Bool :=
  (s.arr, s.rst, s.plates.load, s.plates.writing, s.plates.records, s.plates.inplace, s.plates.rewriting)

theorem writeParts_settleDma (s : State) : writeParts (settleDma s) = writeParts s :=
  (congrArg writeParts (besidesCredits_settleDma s) : _)

theorem writeParts_endTransfer (s : State) (u : DmaUser) : writeParts (endTransfer s u) = writeParts s := rfl

theorem writeParts_readPart (s : State) (ld : Load) : writeParts (readPart s ld) = writeParts s := by
  unfold readPart
  split
  · exact (writeParts_settleDma _).trans (writeParts_endTransfer s .change)
  · rfl

theorem writeParts_readRun (s : State) : writeParts (readRun s) = writeParts s := by
  unfold readRun
  split
  · split
    · exact (writeParts_settleDma _).trans (writeParts_endTransfer s .rerun)
    · rfl
  · exact writeParts_settleDma s

theorem descOf_of_writeParts {s u : State} (h : writeParts u = writeParts s) (q : Nat) : descOf u q = descOf s q := by
  simp only [writeParts, Prod.mk.injEq] at h
  obtain ⟨ha, hr, _⟩ := h
  exact descOf_congr hr ha q

theorem beginWrite_spec {s : State} (hl : s.rst.loadDone = true) (pk : Nat) (r : Option PlaneRecord) :
    (descOf (beginWrite s pk r) pk).state = 5 ∧ (∀ q, q ≠ pk → descOf (beginWrite s pk r) q = descOf s q)
      ∧ tfind (beginWrite s pk r).plates.writing pk = some r := by
  have hd : ∀ q, descOf (beginWrite s pk r) q = if q = pk then { descOf s pk with state := 5 } else descOf s q :=
    fun q => descOf_setDesc (s := s) hl pk q _
  refine ⟨?_, fun q hq => ?_, tfind_tput_same _ _ _⟩
  · rw [hd, if_pos rfl]
  · rw [hd, if_neg hq]

theorem writing_of_writeParts {s u : State} (h : writeParts u = writeParts s) : u.plates.writing = s.plates.writing := by
  simp only [writeParts, Prod.mk.injEq] at h
  exact h.2.2.2.1

/-- A record's plane into its claimed plane. -/
theorem writeRecordPlane_spec {s : State} {l pk : Nat} {r : PlaneRecord} (hl : s.rst.loadDone = true) (hc : loadTarget s l = some pk) :
    (descOf (writeRecordPlane r s l) pk).state = 5 ∧ (∀ q, q ≠ pk → descOf (writeRecordPlane r s l) q = descOf s q)
      ∧ tfind (writeRecordPlane r s l).plates.writing pk = some (some r) ∧ tfind (writeRecordPlane r s l).plates.records l = some r
      ∧ (writeRecordPlane r s l).plates.inplace = s.plates.inplace ∧ (writeRecordPlane r s l).plates.rewriting = s.plates.rewriting
      ∧ PlateData s (writeRecordPlane r s l) := by
  have hw : writeRecordPlane r s l = beginWrite (setPlates s (fun b =>
      { b with records := tput b.records l r, retrained := if l ∈ b.reported then addOnce b.retrained l else b.retrained })) pk (some r) := by
    unfold writeRecordPlane
    rw [hc]
  rw [hw]
  obtain ⟨h1, h2, h3⟩ := beginWrite_spec (s := setPlates s (fun b =>
      { b with records := tput b.records l r, retrained := if l ∈ b.reported then addOnce b.retrained l else b.retrained })) hl pk (some r)
  have hrec : ∀ x : State, (beginWrite x pk (some r)).plates.records = x.plates.records
      ∧ (beginWrite x pk (some r)).plates.inplace = x.plates.inplace ∧ (beginWrite x pk (some r)).plates.rewriting = x.plates.rewriting :=
    fun _ => ⟨rfl, rfl, rfl⟩
  obtain ⟨g1, g2, g3⟩ := hrec (setPlates s (fun b =>
      { b with records := tput b.records l r, retrained := if l ∈ b.reported then addOnce b.retrained l else b.retrained }))
  refine ⟨h1, fun q hq => (h2 q hq).trans rfl, h3, ?_, g2, g3, (plateData_setPlates ..).trans (plateData_beginWrite ..)⟩
  rw [g1]
  exact tfind_tput_same _ _ _

/-! ## A load that ends -/

/-- What outlasts the planes that a change gives up. -/
def changeKept (s : State) : List CmdEntry × Tbl FnBlk × TxnBlk × List Plate × Nat := (s.cmdq, s.fns, s.txns, s.plates.table, s.plates.epoch)

theorem changeKept_freeTarget (s : State) (pk : Nat) : changeKept (freeTarget s pk) = changeKept s := by
  unfold freeTarget
  dsimp only
  split <;> rfl

theorem changeKept_dropClaims (s : State) (ls : List Nat) : changeKept (dropClaims s ls) = changeKept s := by
  have hset : ∀ x : State, changeKept (setPlates x (fun b => { b with
      claims := b.claims.filter (fun e => e.1 ∉ ls), records := b.records.filter (fun e => e.1 ∉ ls),
      movedClaims := b.movedClaims.filter (· ∉ ls) })) = changeKept x := fun _ => rfl
  exact (hset _).trans (foldl_unchanged changeKept changeKept_freeTarget _ _)

/-- A load that fails is answered with the status, and is gone. -/
theorem failLoad_ends {s : State} {ld : Load} {st : Status} (hl : s.plates.load = some ld) (hst : st ≠ .txnNotOpen) :
    ∃ v, failLoad s st = finish v ld.fn ld.seq st {} 0 0 ∧ v.cmdq = s.cmdq ∧ v.fns = s.fns ∧ v.plates.load = none := by
  have hdrop : ∀ x : State, changeKept (setPlates x (fun b => { b with load := none })) = changeKept x := fun _ => rfl
  have hin : ∀ x : State, changeKept (setPlates x (fun b =>
      { b with claims := b.claims.filter (fun e => e.1 ∉ imagePlanes ld.image),
               records := b.records.filter (fun e => e.1 ∉ imagePlanes ld.image) })) = changeKept x := fun _ => rfl
  have hend : changeKept (endTransfer s .change) = changeKept s := rfl
  have hnote : ∀ x : State, (noteFailed x ld.image.imageId (some st)).cmdq = x.cmdq ∧ (noteFailed x ld.image.imageId (some st)).fns = x.fns
      ∧ (noteFailed x ld.image.imageId (some st)).plates = x.plates := fun _ => ⟨rfl, rfl, rfl⟩
  unfold failLoad
  rw [hl]
  dsimp only
  rw [if_neg hst]
  refine ⟨_, rfl, ?_⟩
  have h1 : changeKept (setPlates (if ld.par.inPlace = true then setPlates (endTransfer s .change) (fun b =>
        { b with claims := b.claims.filter (fun e => e.1 ∉ imagePlanes ld.image),
                 records := b.records.filter (fun e => e.1 ∉ imagePlanes ld.image) })
      else dropClaims (endTransfer s .change) (imagePlanes ld.image)) (fun b => { b with load := none })) = changeKept s := by
    refine (hdrop _).trans ?_
    split
    · exact (hin _).trans hend
    · exact (changeKept_dropClaims ..).trans hend
  have hnone : ∀ x : State, (setPlates x (fun b => { b with load := none })).plates.load = none := fun _ => rfl
  have hload := hnone (if ld.par.inPlace = true then setPlates (endTransfer s .change) (fun b =>
        { b with claims := b.claims.filter (fun e => e.1 ∉ imagePlanes ld.image),
                 records := b.records.filter (fun e => e.1 ∉ imagePlanes ld.image) })
      else dropClaims (endTransfer s .change) (imagePlanes ld.image))
  generalize setPlates (if ld.par.inPlace = true then setPlates (endTransfer s .change) (fun b =>
        { b with claims := b.claims.filter (fun e => e.1 ∉ imagePlanes ld.image),
                 records := b.records.filter (fun e => e.1 ∉ imagePlanes ld.image) })
      else dropClaims (endTransfer s .change) (imagePlanes ld.image)) (fun b => { b with load := none }) = x at h1 hload ⊢
  simp only [changeKept, Prod.mk.injEq] at h1
  obtain ⟨hq, hf, _⟩ := h1
  split
  · exact ⟨hq, hf, hload⟩
  · obtain ⟨n1, n2, n3⟩ := hnote x
    exact ⟨n1.trans hq, n2.trans hf, (congrArg PlateBlk.load n3).trans hload⟩

/-- A record that ends its load. -/
def LoadEnds (s : State) (ld : Load) (st : Status) (u : State) : Prop :=
  ∃ v, u = settleDma (finish v ld.fn ld.seq st {} 0 0) ∧ v.cmdq = s.cmdq ∧ v.fns = s.fns ∧ u.plates.load = none

theorem loadEnds_failLoad {s x : State} {ld d : Load} {st : Status} (hl : x.plates.load = some d) (hst : st ≠ .txnNotOpen)
    (hfn : d.fn = ld.fn) (hseq : d.seq = ld.seq) (hq : x.cmdq = s.cmdq) (hf : x.fns = s.fns) : LoadEnds s ld st (settleDma (failLoad x st)) := by
  obtain ⟨v, h1, h2, h3, h4⟩ := failLoad_ends hl hst
  rw [hfn, hseq] at h1
  have hset : (settleDma (failLoad x st)).plates.load = (failLoad x st).plates.load :=
    congrArg (fun y => y.2.2.1) (writeParts_settleDma (failLoad x st))
  refine ⟨v, congrArg settleDma h1, h2.trans hq, h3.trans hf, hset.trans ?_⟩
  rw [h1, finish_plates]
  exact h4

/-! ## Claims that move keep the state of the load -/

theorem rst_settleClaim (s : State) (c : Nat × Nat) : (settleClaim s c).rst = s.rst := by
  have hfail : (failLoad s .noStandby).rst = s.rst := congrArg (fun x => x.2.2.1) (lasting_failLoad s .noStandby)
  have hfree : ∀ (f : PlateBlk → PlateBlk), (setPlates (freeTarget s c.2) f).rst = s.rst := fun f =>
    (congrArg (fun x => x.2.2.1) (lasting_freeTarget s c.2) : _)
  have hwrite : ∀ (x : State) (p : Nat) (r : Option PlaneRecord), (beginWrite x p r).rst = x.rst := fun _ _ _ => rfl
  unfold settleClaim
  dsimp only
  split
  · rfl
  split
  · rfl
  split
  · split
    · exact hfail
    · rfl
  split
  · split
    · split
      · exact hfree _
      · exact (hwrite ..).trans (hfree _)
    · exact hfree _
  · exact hfree _

theorem rst_settleClaims (s : State) : (settleDma (settleClaims s)).rst = s.rst :=
  (congrArg State.rst (plateData_settleDma (settleClaims s)) : _).trans (foldl_unchanged State.rst rst_settleClaim s.plates.claims s)

/-! ## A record of a load -/

/-- A record that R190 lets in. -/
def recordFits (s : State) (ld : Load) (bytes : List Byte) : Prop :=
  bytes.length = 39984 ∧ recordOk ld.image.dual ld.last (decodeRecord bytes) = true
    ∧ ∀ q ∈ recPlanes (decodeRecord bytes), tfind s.plates.claims q ≠ none

theorem recordFits_iff (s : State) (ld : Load) (bytes : List Byte) :
    (bytes.length == 39984 && recordOk ld.image.dual ld.last (decodeRecord bytes)
      && (recPlanes (decodeRecord bytes)).all (fun l => (tfind s.plates.claims l).isSome)) = true ↔ recordFits s ld bytes := by
  unfold recordFits
  simp only [Bool.and_eq_true, beq_iff_eq, List.all_eq_true, Option.isSome_iff_ne_none, and_assoc]

/-- The planes of this module's shard. -/
def shardPlanes (s : State) (ld : Load) : Nat := ((ownShard s ld.image).map (·.planes)).getD 0

/-- The load after a record that is taken. -/
def loadAfter (s : State) (ld : Load) (bytes : List Byte) (ok : Bool) : Load :=
  { addToRun ld bytes (decide (shardPlanes s ld ≤ ld.next + 1)) with
    next := ld.next + 1, last := some (wordPlane (decodeRecord bytes).addr), attempts := 0, payload := ld.payload ++ bytes,
    authenticated := decide (shardPlanes s ld ≤ ld.next + 1) && ok }

/-- The state in which a record's planes are noted, and written unless the load is in place. -/
def recordNoted (s : State) (ld : Load) (r : PlaneRecord) : State :=
  if ld.par.inPlace = true then setPlates s (fun b => { b with records := (recPlanes r).foldl (fun m l => tput m l r) b.records })
  else (recPlanes r).foldl (writeRecordPlane r) s

section
variable {s : State} {ld : Load} {bytes : List Byte} {tagOk : Bool} (hn : shardPlanes s ld ≠ 0) (ha : ld.authenticated = false)
include hn ha

theorem loadRecord_misfit (h : ¬recordFits s ld bytes) : loadRecord s ld bytes tagOk = failLoad s .plateInvalid := by
  rw [← recordFits_iff, Bool.not_eq_true] at h
  refine (if_neg hn).trans ((if_neg (by rw [ha]; decide)).trans (if_pos ?_))
  rw [h]
  rfl

theorem loadRecord_large (h : recordFits s ld bytes)
    (hd : digitalMax < digitalUsed s + (recPlanes (decodeRecord bytes)).length * digitalBytes (decodeRecord bytes)) :
    loadRecord s ld bytes tagOk = failLoad s .noStandby := by
  rw [← recordFits_iff] at h
  refine (if_neg hn).trans ((if_neg (by rw [ha]; decide)).trans ((if_neg ?_).trans (if_pos hd)))
  rw [h]
  decide

theorem loadRecord_taken (h : recordFits s ld bytes)
    (hd : digitalUsed s + (recPlanes (decodeRecord bytes)).length * digitalBytes (decodeRecord bytes) ≤ digitalMax) {ok : Bool}
    (hok : (tagOk && digestOf (ld.payload ++ bytes) == ((ownShard s ld.image).map (·.digest)).getD 0) = ok) :
    loadRecord s ld bytes tagOk =
      if decide (shardPlanes s ld ≤ ld.next + 1) = true then
        endPayload (setPlates (recordNoted s ld (decodeRecord bytes)) (fun b => { b with load := some (loadAfter s ld bytes ok) })) ok
      else readPart (setPlates (recordNoted s ld (decodeRecord bytes)) (fun b => { b with load := some (loadAfter s ld bytes ok) }))
        (loadAfter s ld bytes ok) := by
  rw [← recordFits_iff] at h
  subst hok
  have hall : (if shardPlanes s ld = 0 then [] else ld.payload ++ bytes) = ld.payload ++ bytes := if_neg hn
  refine (if_neg hn).trans ((if_neg (by rw [ha]; decide)).trans ((if_neg (by rw [h]; decide)).trans ((if_neg (Nat.not_lt.mpr hd)).trans ?_)))
  unfold shardPlanes at hall
  rw [hall]
  rfl

theorem loadRecord_goesOn (h : recordFits s ld bytes)
    (hd : digitalUsed s + (recPlanes (decodeRecord bytes)).length * digitalBytes (decodeRecord bytes) ≤ digitalMax)
    (hlt : ld.next + 1 < shardPlanes s ld) :
    ∃ ok, loadRecord s ld bytes tagOk =
      readPart (setPlates (recordNoted s ld (decodeRecord bytes)) (fun b => { b with load := some (loadAfter s ld bytes ok) })) (loadAfter s ld bytes ok) := by
  refine ⟨_, (loadRecord_taken hn ha h hd rfl).trans (if_neg ?_)⟩
  rw [decide_eq_false (Nat.not_le.mpr hlt)]
  decide

theorem loadRecord_last (h : recordFits s ld bytes)
    (hd : digitalUsed s + (recPlanes (decodeRecord bytes)).length * digitalBytes (decodeRecord bytes) ≤ digitalMax)
    (hle : shardPlanes s ld ≤ ld.next + 1) {ok : Bool}
    (hok : (tagOk && digestOf (ld.payload ++ bytes) == ((ownShard s ld.image).map (·.digest)).getD 0) = ok) :
    loadRecord s ld bytes tagOk =
      endPayload (setPlates (recordNoted s ld (decodeRecord bytes)) (fun b => { b with load := some (loadAfter s ld bytes ok) })) ok :=
  (loadRecord_taken hn ha h hd hok).trans (if_pos (decide_eq_true hle))

end

theorem recordNoted_kept (s : State) (ld : Load) (r : PlaneRecord) :
    (recordNoted s ld r).cmdq = s.cmdq ∧ (recordNoted s ld r).fns = s.fns := by
  have hset : ∀ (f : PlateBlk → PlateBlk), (setPlates s f).cmdq = s.cmdq ∧ (setPlates s f).fns = s.fns := fun _ => ⟨rfl, rfl⟩
  have hone : ∀ (x : State) (l : Nat), changeKept (writeRecordPlane r x l) = changeKept x := fun x l => by
    unfold writeRecordPlane
    split <;> rfl
  have hfold := foldl_unchanged changeKept hone (recPlanes r) s
  simp only [changeKept, Prod.mk.injEq] at hfold
  unfold recordNoted
  split
  · exact hset _
  · exact ⟨hfold.1, hfold.2.1⟩

theorem addToRun_command (ld : Load) (bytes : List Byte) (last : Bool) :
    (addToRun ld bytes last).fn = ld.fn ∧ (addToRun ld bytes last).seq = ld.seq := by
  unfold addToRun
  dsimp only
  split
  · exact ⟨rfl, rfl⟩
  · split <;> exact ⟨rfl, rfl⟩

theorem recPlanes_single {r : PlaneRecord} (h : r.twin = 0) : recPlanes r = [wordPlane r.addr] := by
  unfold recPlanes
  rw [if_pos h]

/-- A record of a single plane whose load goes on. -/
theorem record_goes_on {s : State} {ld : Load} {bytes : List Byte} {ok : Bool} {pk : Nat} (hl : s.rst.loadDone = true)
    (ha : ld.authenticated = false) (ht : (decodeRecord bytes).twin = 0) (hip : ld.par.inPlace = false) (hn : ld.next + 1 < shardPlanes s ld)
    (hc : tfind s.plates.claims (wordPlane (decodeRecord bytes).addr) = some pk) :
    let u := settleDma (readPart (setPlates (recordNoted s ld (decodeRecord bytes)) (fun b => { b with load := some (loadAfter s ld bytes ok) }))
      (loadAfter s ld bytes ok))
    (descOf u pk).state = 5 ∧ tfind u.plates.writing pk = some (some (decodeRecord bytes))
      ∧ tfind u.plates.records (wordPlane (decodeRecord bytes).addr) = some (decodeRecord bytes) ∧ (∀ q, q ≠ pk → descOf u q = descOf s q)
      ∧ u.plates.load = some { ld with
          next := ld.next + 1, last := some (wordPlane (decodeRecord bytes).addr), attempts := 0, payload := ld.payload ++ bytes }
      ∧ PlateData s u := by
  have hw : recordNoted s ld (decodeRecord bytes) = writeRecordPlane (decodeRecord bytes) s (wordPlane (decodeRecord bytes).addr) := by
    unfold recordNoted
    rw [hip, recPlanes_single ht]
    rfl
  obtain ⟨w1, w2, w3, w4, _, _, w7⟩ := writeRecordPlane_spec (r := decodeRecord bytes) hl hc
  rw [← hw] at w1 w2 w3 w4 w7
  have hafter : loadAfter s ld bytes ok = { ld with
      next := ld.next + 1, last := some (wordPlane (decodeRecord bytes).addr), attempts := 0, payload := ld.payload ++ bytes } := by
    have hadd : addToRun ld bytes (decide (shardPlanes s ld ≤ ld.next + 1)) = ld := if_pos (by rw [hip]; rfl)
    have hauth : (decide (shardPlanes s ld ≤ ld.next + 1) && ok) = ld.authenticated := by
      rw [decide_eq_false (Nat.not_le.mpr hn), ha]
      rfl
    unfold loadAfter
    rw [hadd, hauth]
  rw [hafter]
  generalize recordNoted s ld (decodeRecord bytes) = x at *
  intro u
  have hparts : writeParts u = writeParts (setPlates x (fun b => { b with load := some { ld with
      next := ld.next + 1, last := some (wordPlane (decodeRecord bytes).addr), attempts := 0, payload := ld.payload ++ bytes } })) :=
    (writeParts_settleDma _).trans (writeParts_readPart _ _)
  have hdesc := fun q => (descOf_of_writeParts hparts q).trans (rfl : _ = descOf x q)
  refine ⟨?_, ?_, ?_, fun q hq => (hdesc q).trans (w2 q hq), congrArg (fun y => y.2.2.1) hparts, ?_⟩
  · rw [hdesc]
    exact w1
  · have hwr : u.plates.writing = x.plates.writing := congrArg (fun y => y.2.2.2.1) hparts
    exact (congrArg (fun m => tfind m pk) hwr).trans w3
  · have hre : u.plates.records = x.plates.records := congrArg (fun y => y.2.2.2.2.1) hparts
    exact (congrArg (fun m => tfind m (wordPlane (decodeRecord bytes).addr)) hre).trans w4
  · exact w7.trans ((plateData_setPlates x _).trans ((plateData_readPart ..).trans (plateData_settleDma _)))

/-- A last record whose payload does not verify. -/
theorem record_unverified {s : State} {ld : Load} {bytes : List Byte} :
    LoadEnds s ld .plateSignature (settleDma (endPayload (setPlates (recordNoted s ld (decodeRecord bytes)) (fun b =>
      { b with load := some (loadAfter s ld bytes false) })) false)) := by
  obtain ⟨hq, hf⟩ := recordNoted_kept s ld (decodeRecord bytes)
  obtain ⟨hfn, hseq⟩ := addToRun_command ld bytes (decide (shardPlanes s ld ≤ ld.next + 1))
  have hend : ∀ x : State, endPayload x false = failLoad x .plateSignature := fun x => if_neg (by decide)
  rw [hend]
  exact loadEnds_failLoad (d := loadAfter s ld bytes false) rfl (by decide) hfn hseq hq hf

/-! ## A record of a refill -/

theorem refillRecord_none {s : State} {bytes : List Byte} (ok : Bool)
    (h : ∀ l, l ∈ recPlanes (decodeRecord bytes) → refillOf s l = none) : refillRecord s bytes ok = s := by
  unfold refillRecord
  dsimp only
  generalize recPlanes (decodeRecord bytes) = ls at h ⊢
  induction ls with
  | nil => rfl
  | cons l ls ih =>
    rw [List.foldl_cons, h l List.mem_cons_self]
    exact ih (fun m hm => h m (List.mem_cons_of_mem _ hm))

theorem refillRecord_one {s : State} {bytes : List Byte} {q : Refill} {pk : Nat} (ht : (decodeRecord bytes).twin = 0)
    (hr : refillOf s (wordPlane (decodeRecord bytes).addr) = some (q, pk)) (hc : holdsCredit s (.refill q.unit) = true)
    (hs : sourceReads s (wordPlane (decodeRecord bytes).addr) = true) (hok : recordOk false none (decodeRecord bytes) = true) :
    refillRecord s bytes true = endTransfer (beginWrite s pk (some (decodeRecord bytes))) (.refill q.unit) := by
  have htw : ((decodeRecord bytes).twin != 0) = false := by simp [ht]
  unfold refillRecord
  dsimp only
  rw [recPlanes_single ht, List.foldl_cons, List.foldl_nil, hr]
  dsimp only
  rw [hc, hs, htw, hok]
  rfl

/-! ## An in-place run -/

/-- The state in which a change has ended, before its commit is answered. -/
def changeClosed (s : State) : State :=
  let kept := s.plates.inplace.flatMap (fun d => imagePlanes d.image)
  let s1 := dropClaims s ((s.plates.claims.map (·.1)).filter (· ∉ kept))
  let targets := s1.plates.claims.map (·.2)
  let s2 := setPlates s1 (fun b => { b with claims := [], records := [], movedClaims := [], reported := [], retrained := [], inplace := [], rewriting := false,
                                            draining := none, systemPrep := none, flipAt := none,
                                            writing := b.writing.filter (fun e => e.1 ∉ targets),
                                            waiting := b.waiting.filter (fun e => e.1 ∉ targets),
                                            incomplete := if b.rewriting then kept.foldl addOnce b.incomplete else b.incomplete })
  releaseHeld (putTxn { s2 with formes := s2.formes.map (fun f => (f.1, { f.2 with draining := false })) } 1 none)

theorem endChange_eq {s : State} {x : Txn} {st : Status} (hx : s.txns.plate = some x) :
    endChange s st = (x.reply.map (fun h => reply (changeClosed s) h st)).getD (changeClosed s) := by
  have hx' : txnOf s.txns 1 = some x := hx
  unfold endChange
  rw [hx']
  cases hr : x.reply with
  | none =>
    dsimp only
    rw [hr]
    rfl
  | some h =>
    dsimp only
    rw [hr]
    rfl

/-- The plates' part of a change that has ended. -/
structure ChangeEnded (s u : State) : Prop where
  txn : u.txns.plate = none
  rewriting : u.plates.rewriting = false
  inplace : u.plates.inplace = []
  claims : u.plates.claims = []
  table : u.plates.table = s.plates.table
  epoch : u.plates.epoch = s.plates.epoch

theorem changeClosed_spec (s : State) : ChangeEnded s (changeClosed s) ∧ (changeClosed s).cmdq = s.cmdq := by
  have hclose : ∀ (y : State) (f : PlateBlk → PlateBlk) (g : Tbl Forme → Tbl Forme),
      (releaseHeld (putTxn { setPlates y f with formes := g (setPlates y f).formes } 1 none)).txns.plate = none
        ∧ (releaseHeld (putTxn { setPlates y f with formes := g (setPlates y f).formes } 1 none)).plates = f y.plates
        ∧ (releaseHeld (putTxn { setPlates y f with formes := g (setPlates y f).formes } 1 none)).cmdq = y.cmdq := fun _ _ _ => ⟨rfl, rfl, rfl⟩
  unfold changeClosed
  extract_lets kept s1 targets s2
  obtain ⟨c1, c2, c3⟩ := hclose s1 (fun b => { b with
    claims := [], records := [], movedClaims := [], reported := [], retrained := [], inplace := [], rewriting := false, draining := none,
    systemPrep := none, flipAt := none, writing := b.writing.filter (fun e => e.1 ∉ targets),
    waiting := b.waiting.filter (fun e => e.1 ∉ targets),
    incomplete := if b.rewriting then kept.foldl addOnce b.incomplete else b.incomplete })
    (fun l => l.map (fun f => (f.1, { f.2 with draining := false })))
  have hk : changeKept s1 = changeKept s := changeKept_dropClaims s _
  simp only [changeKept, Prod.mk.injEq] at hk
  obtain ⟨k1, _, _, k4, k5⟩ := hk
  exact ⟨⟨c1, (congrArg PlateBlk.rewriting c2 : _), (congrArg PlateBlk.inplace c2 : _), (congrArg PlateBlk.claims c2 : _),
    (congrArg PlateBlk.table c2 : _).trans k4, (congrArg PlateBlk.epoch c2 : _).trans k5⟩, c3.trans k1⟩

/-- The change ends: its transaction is gone, and the plates are as committed. -/
theorem endChange_spec {s : State} {x : Txn} {st : Status} (hx : s.txns.plate = some x) :
    ChangeEnded s (endChange s st) ∧ ∀ h, x.reply = some h → ∃ v, endChange s st = finish v h.fn h.seq st {} 0 0 ∧ v.cmdq = s.cmdq := by
  rw [endChange_eq hx]
  obtain ⟨hc, hq⟩ := changeClosed_spec s
  cases hr : x.reply with
  | none => exact ⟨hc, fun h hh => absurd hh (by simp)⟩
  | some h =>
    obtain ⟨h1, h2, h3, h4, h5, h6⟩ := hc
    have hpl : (reply (changeClosed s) h st).plates = (changeClosed s).plates := finish_plates ..
    refine ⟨⟨(sameTxns_finish (changeClosed s) h.fn h.seq st {} 0 0).none (d := 1) h1, (congrArg PlateBlk.rewriting hpl).trans h2,
      (congrArg PlateBlk.inplace hpl).trans h3, (congrArg PlateBlk.claims hpl).trans h4, (congrArg PlateBlk.table hpl).trans h5,
      (congrArg PlateBlk.epoch hpl).trans h6⟩, fun h' hh => ?_⟩
    obtain rfl : h = h' := Option.some.inj hh
    exact ⟨changeClosed s, rfl, hq⟩

/-! ## The generation record -/

theorem newest_writeCopy {α : Type} (r : TwoCopies α) (x : α) : newest (writeCopy r x) = some x := by
  unfold newest writeCopy
  cases r.turn <;> rfl

theorem stagedIf_committing {s : State} {x : Txn} (hx : s.txns.plate = some x) (hc : x.committing = true) : stagedIf s 1 = some x := by
  have hx' : txnOf s.txns 1 = some x := hx
  unfold stagedIf
  rw [hx', Option.bind_some, if_pos hc]

theorem genWrittenOp_written {s : State} {x : Txn} (hx : s.txns.plate = some x) (hc : x.committing = true) (hr : x.recordWritten = false)
    (hw : changeWritten s = true) (hrole : sysRole s = 0) (hp : s.plates.systemPrep = none) :
    genWrittenOp s = wantBoundary (putTxn { s with nv := { s.nv with gen := writeCopy s.nv.gen (genRecordOf (flipPlates s x.staged)) } } 1
      (some { x with recordWritten := true })) := by
  have h1 : ¬sysRole s = 1 := by rw [hrole]; decide
  have h2 : ¬s.plates.systemPrep.isSome = true := by rw [hp]; decide
  unfold genWrittenOp
  rw [stagedIf_committing hx hc]
  exact (if_pos (by rw [hr, hw]; rfl)).trans ((if_neg h1).trans (if_neg h2))

theorem genWrittenOp_idle {s : State} (h : s.txns.plate = none ∨ changeWritten s = false) : genWrittenOp s = s := by
  unfold genWrittenOp
  split
  next x hx =>
    rcases h with h | h
    · have hn : stagedIf s 1 = none := by
        unfold stagedIf
        rw [show txnOf s.txns 1 = none from h]
        rfl
      exact absurd (hn.symm.trans hx) (by simp)
    · exact if_neg (by rw [h]; simp)
  next => rfl

/-! ## Read timeouts -/

theorem imageTimeoutOp_retries {s : State} {ld : Load} (hl : s.plates.load = some ld) (ha : ld.authenticated = false) (hn : ld.attempts < 2) :
    imageTimeoutOp s = readPart (setPlates s (fun b => { b with load := some { ld with attempts := ld.attempts + 1 } }))
      { ld with attempts := ld.attempts + 1 } := by
  unfold imageTimeoutOp
  rw [hl]
  exact (if_neg (by rw [ha]; decide)).trans (if_neg (by omega))

theorem imageTimeoutOp_fails {s : State} {ld : Load} (hl : s.plates.load = some ld) (ha : ld.authenticated = false) (hn : 2 ≤ ld.attempts) :
    imageTimeoutOp s = failLoad s .sourceTimeout := by
  unfold imageTimeoutOp
  rw [hl]
  exact (if_neg (by rw [ha]; decide)).trans (if_pos (by omega))

theorem imageTimeoutOp_idle {s : State} (hl : s.plates.load = none) (hr : s.plates.rewriting = false)
    (hb : ∀ r ∈ s.map.refills, r.blocked = true ∨ r.planes = []) : imageTimeoutOp s = s := by
  have hmap : (settleDma s).map = s.map := (congrArg State.map (plateData_settleDma s) : _)
  have hfind : (settleDma s).map.refills.find? (fun r => !r.blocked && r.planes != [] && holdsCredit (settleDma s) (.refill r.unit)) = none := by
    rw [hmap, List.find?_eq_none]
    intro r hmem
    rcases hb r hmem with h | h <;> simp [h]
  unfold imageTimeoutOp
  rw [hl, hr]
  dsimp only
  rw [hfind]

/-- Asking for a part that is no record writes outward alone. -/
theorem readPart_early {s : State} {ld : Load} (hl : s.plates.load = some ld) (hp : ld.part < 4) :
    readPart s ld = emit s (.sourceRead (sourceOf ld.par) (partAddr s ld.par ld.image ld.part ld.next)) := by
  have hrec : changeRecord ld = none := by
    refine if_neg ?_
    rw [decide_eq_false (by omega)]
    simp
  have hnone : changeRegion s = none := by
    unfold changeRegion
    rw [hl, Option.bind_some, hrec]
    rfl
  unfold readPart
  exact if_neg (by rw [hnone]; decide)

theorem inplaceRunOp_off {s : State} (bytes : List Byte) (h : (settleDma (settleClaims s)).plates.rewriting = false) :
    inplaceRunOp s bytes = settleDma (settleClaims s) := by
  unfold inplaceRunOp
  dsimp only
  rw [h]

theorem inplaceRunOp_differs {s : State} {bytes : List Byte} {ld : Load} (h : (settleDma (settleClaims s)).plates.rewriting = true)
    (hl : runsLeft (settleDma (settleClaims s)) = some ld)
    (hf : fetched (settleDma (settleClaims s)) (rerunRegion (settleDma (settleClaims s))) .rerun = true)
    (hd : ld.digests.head? ≠ some (digestOf bytes)) :
    inplaceRunOp s bytes = endChange (settleDma (settleClaims s)) .plateSignature := by
  unfold inplaceRunOp
  dsimp only
  generalize decodeRecords 64 bytes = rs
  rw [h, hl]
  exact (if_neg (by rw [hf]; decide)).trans (if_pos (by simpa using hd))

theorem inplaceRunOp_same {s : State} {bytes : List Byte} {ld : Load} (h : (settleDma (settleClaims s)).plates.rewriting = true)
    (hl : runsLeft (settleDma (settleClaims s)) = some ld)
    (hf : fetched (settleDma (settleClaims s)) (rerunRegion (settleDma (settleClaims s))) .rerun = true)
    (hd : ld.digests.head? = some (digestOf bytes)) :
    inplaceRunOp s bytes = readRun (modRun ((decodeRecords 64 bytes).foldl (fun x r => (recPlanes r).foldl (writeRecordPlane r) x)
      (settleDma (settleClaims s))) (fun d => { d with attempts := 0, digests := d.digests.drop 1 })) := by
  unfold inplaceRunOp
  dsimp only
  generalize decodeRecords 64 bytes = rs
  rw [h, hl]
  have hsame : (ld.digests.head? != some (digestOf bytes)) = false := by
    rw [hd]
    exact bne_self_eq_false _
  dsimp only
  rw [hf, hsame]
  rfl

/-- Settles O48: records, timeouts, generation records and in-place runs. -/
theorem plateLoads : Obligations.PlateLoads := by
  intro t s hdone s1 s2
  have hdone2 : s2.rst.loadDone = true := by
    have hr : s2.rst = s1.rst := rst_settleClaims s1
    rw [hr]
    exact hdone
  have hrec : ∀ bytes tagOk digestOk keyOk, exec (.plateRecord bytes tagOk digestOk keyOk t) s = .next (plateRecordOp s1 bytes tagOk digestOk keyOk) :=
    fun _ _ _ _ => rfl
  have htime : exec (.imageReadTimeout t) s = .next (imageTimeoutOp s1) := rfl
  have hgen : exec (.genRecordWritten t) s = .next (genWrittenOp s1) := rfl
  have hrun : ∀ bytes, exec (.inplaceRun bytes t) s = .next (inplaceRunOp s1 bytes) := fun _ => rfl
  refine ⟨?_, fun bytes q pk hl ht hr hc hs hok => ?_, fun bytes tagOk digestOk keyOk hl hn => ?_, fun ld hl ha hn hp => ?_, fun ld hl ha hn => ?_,
    fun ld hl ha hn => ?_, fun hl hr hb => htime.trans (next_congr (imageTimeoutOp_idle (s := s1) hl hr hb)), fun x hx hc hr hw hrole hp => ?_,
    fun h => hgen.trans (next_congr (genWrittenOp_idle (s := s1) h)), fun bytes h => (hrun bytes).trans (next_congr (inplaceRunOp_off bytes h)),
    fun bytes ld x h hl hf hd hx => ?_, fun bytes ld r pk h hl hf hd hdec ht hc => ?_⟩
  · intro ld bytes tagOk digestOk keyOk hl hpart ha hf r l n good ends hn0 hcl
    have hop : plateRecordOp s1 bytes tagOk digestOk keyOk = settleDma (loadRecord s2 ld bytes tagOk) := by
      have hload : ¬(((refillOf s2 l).isSome && (tfind s2.plates.claims l).isNone) || ld.part != 4) = true := by
        rw [hpart, Option.isNone_eq_false_iff.mpr (Option.isSome_iff_ne_none.mpr hcl)]
        simp
      unfold plateRecordOp
      dsimp only
      rw [show (settleDma (settleClaims s1)).plates.load = some ld from hl]
      exact congrArg settleDma ((if_neg hload).trans (if_pos hf))
    have hexec := (hrec bytes tagOk digestOk keyOk).trans (next_congr hop)
    refine ⟨fun hgood pk ht hip hnext hc hd => ?_, fun hbad => ⟨_, hexec, ?_⟩, fun hgood hd => ⟨_, hexec, ?_⟩, fun hgood hd hlast hver => ⟨_, hexec, ?_⟩⟩
    · have hd' : digitalUsed s2 + (recPlanes (decodeRecord bytes)).length * digitalBytes (decodeRecord bytes) ≤ digitalMax := by
        rw [recPlanes_single ht, List.length_singleton, Nat.one_mul]
        exact hd
      obtain ⟨ok, hgo⟩ := loadRecord_goesOn (tagOk := tagOk) hn0 ha hgood hd' hnext
      rw [hgo] at hexec
      exact ⟨_, hexec, record_goes_on hdone2 ha ht hip hnext hc⟩
    · rw [loadRecord_misfit (tagOk := tagOk) hn0 ha hbad]
      exact loadEnds_failLoad hl (by decide) rfl rfl rfl rfl
    · rw [loadRecord_large (tagOk := tagOk) hn0 ha hgood hd]
      exact loadEnds_failLoad hl (by decide) rfl rfl rfl rfl
    · have hok : (tagOk && digestOf (ld.payload ++ bytes) == ((ownShard s2 ld.image).map (·.digest)).getD 0) = false := by
        rcases hver with h | h
        · rw [h, Bool.false_and]
        · rw [beq_eq_false_iff_ne.mpr h, Bool.and_false]
      rw [loadRecord_last (tagOk := tagOk) hn0 ha hgood hd hlast hok]
      exact record_unverified
  · have hop : plateRecordOp s1 bytes true true true = settleDma (refillRecord s2 bytes true) := by
      unfold plateRecordOp
      dsimp only
      rw [show (settleDma (settleClaims s1)).plates.load = none from hl]
      rfl
    rw [refillRecord_one ht hr hc hs hok] at hop
    obtain ⟨b1, _, b3⟩ := beginWrite_spec hdone2 pk (some (decodeRecord bytes))
    have hparts := (writeParts_settleDma (endTransfer (beginWrite s2 pk (some (decodeRecord bytes))) (.refill q.unit))).trans
      (writeParts_endTransfer (beginWrite s2 pk (some (decodeRecord bytes))) (.refill q.unit))
    refine ⟨_, (hrec bytes true true true).trans (next_congr hop), ?_, ?_⟩
    · rw [descOf_of_writeParts hparts]
      exact b1
    · rw [writing_of_writeParts hparts]
      exact b3
  · have hop : plateRecordOp s1 bytes tagOk digestOk keyOk = settleDma (refillRecord s2 bytes (tagOk && digestOk && keyOk)) := by
      unfold plateRecordOp
      dsimp only
      rw [show (settleDma (settleClaims s1)).plates.load = none from hl]
    rw [refillRecord_none _ hn] at hop
    exact (hrec bytes tagOk digestOk keyOk).trans (next_congr hop)
  · refine htime.trans (next_congr ((imageTimeoutOp_retries (s := s1) hl ha hn).trans ?_))
    exact readPart_early rfl hp
  · refine ⟨_, htime.trans (next_congr (imageTimeoutOp_retries (s := s1) hl ha hn)), ?_⟩
    obtain ⟨hpl, harr⟩ := readPart_frame (setPlates s1 (fun b => { b with load := some { ld with attempts := ld.attempts + 1 } }))
      { ld with attempts := ld.attempts + 1 }
    have hpd := plateData_readPart (setPlates s1 (fun b => { b with load := some { ld with attempts := ld.attempts + 1 } }))
      { ld with attempts := ld.attempts + 1 }
    unfold PlateData at hpd
    generalize readPart (setPlates s1 (fun b => { b with load := some { ld with attempts := ld.attempts + 1 } }))
      { ld with attempts := ld.attempts + 1 } = u at *
    rw [harr, hpl] at hpd
    exact hpd
  · obtain ⟨v, h1, h2, h3, h4⟩ := failLoad_ends (s := s1) (st := .sourceTimeout) hl (by decide)
    refine ⟨_, v, htime.trans (next_congr (imageTimeoutOp_fails (s := s1) hl ha hn)), h1, h2, h3, ?_⟩
    rw [h1, finish_plates]
    exact h4
  · refine ⟨_, hgen.trans (next_congr (genWrittenOp_written (s := s1) hx hc hr hw hrole hp)), newest_writeCopy _ _, rfl, rfl, fun d hd hd1 => ?_⟩
    exact txnOf_setTxn_ne s.txns 1 d _ (by decide) hd hd1
  · have hop := inplaceRunOp_differs (s := s1) h hl hf hd
    obtain ⟨⟨e1, e2, e3, e4, e5, e6⟩, e7⟩ := endChange_spec (st := .plateSignature) hx
    exact ⟨_, (hrun bytes).trans (next_congr hop), e1, e2, e3, e4, e5, e6, e7⟩
  · have hop := inplaceRunOp_same (s := s1) h hl hf hd
    rw [hdec, List.foldl_cons, List.foldl_nil, recPlanes_single ht, List.foldl_cons, List.foldl_nil] at hop
    obtain ⟨w1, w2, w3, _, w5, w6, w7⟩ := writeRecordPlane_spec (r := r) hdone2 hc
    have hmod : ∀ y : State, writeParts (modRun y (fun d => { d with attempts := 0, digests := d.digests.drop 1 }))
        = (y.arr, y.rst, y.plates.load, y.plates.writing, y.plates.records,
            modRuns (fun d => { d with attempts := 0, digests := d.digests.drop 1 }) y.plates.inplace, y.plates.rewriting)
        ∧ PlateData y (modRun y (fun d => { d with attempts := 0, digests := d.digests.drop 1 })) := fun _ => ⟨rfl, rfl⟩
    obtain ⟨m1, m2⟩ := hmod (writeRecordPlane r s2 (wordPlane r.addr))
    have hparts := (writeParts_readRun (modRun (writeRecordPlane r s2 (wordPlane r.addr))
      (fun d => { d with attempts := 0, digests := d.digests.drop 1 }))).trans m1
    have hdata := w7.trans (m2.trans (plateData_readRun _))
    refine ⟨_, (hrun bytes).trans (next_congr hop), ?_⟩
    generalize readRun (modRun (writeRecordPlane r s2 (wordPlane r.addr)) (fun d => { d with attempts := 0, digests := d.digests.drop 1 })) = u at *
    generalize writeRecordPlane r s2 (wordPlane r.addr) = y at *
    simp only [writeParts, Prod.mk.injEq] at hparts
    obtain ⟨p1, p2, _, p4, _, p6, p7⟩ := hparts
    have hdesc := descOf_congr p2 p1
    rw [p4, p6, p7, hdesc, w5]
    exact ⟨w1, w3, rfl, w6.trans h, fun q hq => (hdesc q).trans (w2 q hq), hdata⟩

end Sys2Proof.Proofs
/-! # Plane programming, write bursts, and the limits of a change -/
namespace Sys2Proof.Proofs

open Sys2Proof.Machine Sys2Proof.Safety Sys2Proof.Laws

/-! ## Programming a plane -/

/-- What programming a plane writes: the arrays and the write queue, besides the tile's stuck list. -/
def programParts (s : State) : ArrayBlk × RstBlk × Tbl (Option PlaneRecord) × Tbl Core := (s.arr, s.rst, s.plates.writing, s.cores)

theorem programParts_of_replyOnly {s u : State} (h : ReplyOnly s u) : programParts u = programParts s := by
  rw [h]
  rfl

theorem programParts_settleDma (s : State) : programParts (settleDma s) = programParts s := by
  have h := besidesCredits_settleDma s
  exact (congrArg programParts h : _)

theorem programParts_loadMaybeDone (s : State) : programParts (loadMaybeDone s) = programParts s := by
  have hstage : ∀ (x : State) (c : Staged), programParts (stage x 1 c) = programParts x := fun _ _ => rfl
  unfold loadMaybeDone
  split
  · rfl
  next ld _ =>
    dsimp only
    split
    · exact (programParts_of_replyOnly (replyOnly_finish ..)).trans ((hstage ..).trans rfl)
    · rfl

theorem programParts_replyDefects (s : State) (pk : Nat) : programParts (replyDefects s pk) = programParts s := by
  unfold replyDefects
  split
  · exact programParts_of_replyOnly (replyOnly_finish ..)
  · rfl

theorem programParts_refillWritten (s : State) (pk : Nat) : programParts (refillWritten s pk) = programParts s := rfl

/-- A tile without the stuck cells of one of its planes. -/
def clearedTile (pk : Nat) (x : Tile) : Tile :=
  { x with stuck := x.stuck.filter (fun e => e.plane != planeNo pk), newStuck := x.newStuck.filter (fun e => e.plane != planeNo pk) }

/-- The state without a plane's stuck cells. -/
def stuckCleared (s : State) (pk : Nat) : State := modCore s (planeCore pk) (fun c => modTile c (tileOfPlane pk) (clearedTile pk))

/-- The state with the cells that stay stuck in the tile's list. -/
def stuckNoted (s : State) (pk : Nat) (r : PlaneRecord) (left : List Defect) : State :=
  modCore (stuckCleared s pk) (planeCore pk) (fun c => modTile c (tileOfPlane pk) (fun x =>
    { x with newStuck := x.newStuck ++ left.map (stuckOf (planeNo pk) (planeLevels r [])) }))

/-- The descriptor of a plane that a record describes. -/
def storedDesc (r : PlaneRecord) (st : Nat) : PlaneDesc :=
  { state := st, wmode := r.wmode, width := r.width, zeroPoint := r.zeroPoint, skimValid := r.skimValid, skimRow := r.skimRow, xmap := [] }

/-- The state in which a plane's levels and descriptor stand, and it is written no more. -/
def planeStored (s : State) (pk : Nat) (r : PlaneRecord) (left : List Defect) : State :=
  setPlates (storePlane (stuckNoted s pk r left) pk r (planeLevels r []) (withStuck (planeLevels r []) left) [] [] (if isRefill s pk = true then 2 else 5))
    (fun b => { b with writing := tdel b.writing pk, waiting := tdel b.waiting pk, progress := satAdd 32 b.progress (b2n (countsProgress s pk)),
                       nStuck := satAdd 8 b.nStuck left.length, nAdjusted := satAdd 8 b.nAdjusted 0,
                       load := b.load.map (fun l => if isRefill s pk = true then l else { l with written := addOnce l.written pk }) })

/-- What the adjustments of a plane without column faults leave. -/
def adjusted (r : PlaneRecord) (ds : List Defect) : Tbl Nat × List (Nat × Nat × Nat) × Nat × List Defect :=
  if 3 ≤ r.wmode then
    adjustAll ((recSkimRows r).map (·.2)) (paddingRow r) [] (restDefects [] ds) (restDefects [] ds) (planeLevels r [], [], 0, [])
  else (planeLevels r [], [], 0, restDefects [] ds)

/-- A plane whose defects need no adjustment and fit into the stuck list is stored. -/
theorem programRecord_stored {s : State} {pk : Nat} {r : PlaneRecord} {ds left : List Defect} (hf : faultColumns ds = [])
    (hadj : adjusted r ds = (planeLevels r [], [], 0, left))
    (hroom : left.length ≤ stuckRoom (tileOf (coreOf (stuckCleared s pk) (planeCore pk)) (tileOfPlane pk))) :
    programRecord s pk r ds
      = loadMaybeDone (if isRefill s pk = true then refillWritten (planeStored s pk r left) pk else planeStored s pk r left) := by
  have hcols : assignSpareCols (faultColumns ds) (spareCols ds) [] = some [] := by
    rw [hf]
    rfl
  unfold adjusted at hadj
  unfold programRecord
  dsimp only
  rw [hcols]
  dsimp only
  rw [hadj]
  exact (if_pos hroom).trans rfl

theorem coreOf_stuckCleared (s : State) (pk : Nat) :
    tileOf (coreOf (stuckCleared s pk) (planeCore pk)) (tileOfPlane pk) = clearedTile pk (tileOf (coreOf s (planeCore pk)) (tileOfPlane pk)) := by
  have hown : coreOf (stuckCleared s pk) (planeCore pk) = _ := (coreOf_modCore s _ _ _).trans (if_pos rfl)
  rw [hown, tileOf_modTile]

theorem storePlane_frame (s : State) (pk : Nat) (r : PlaneRecord) (m0 m xmap : Tbl Nat) (moves : List (Nat × Nat × Nat)) (st : Nat) :
    (storePlane s pk r m0 m xmap moves st).arr.cells = tput s.arr.cells pk m
      ∧ (storePlane s pk r m0 m xmap moves st).arr.desc = tput s.arr.desc pk
          { state := st, wmode := r.wmode, width := r.width, zeroPoint := r.zeroPoint, skimValid := r.skimValid, skimRow := r.skimRow, xmap := xmap }
      ∧ (storePlane s pk r m0 m xmap moves st).rst = s.rst ∧ (storePlane s pk r m0 m xmap moves st).cores = s.cores
      ∧ (storePlane s pk r m0 m xmap moves st).plates = s.plates := ⟨rfl, rfl, rfl, rfl, rfl⟩

theorem stuckNoted_frame (s : State) (pk : Nat) (r : PlaneRecord) (left : List Defect) :
    (stuckNoted s pk r left).arr = s.arr ∧ (stuckNoted s pk r left).rst = s.rst ∧ (stuckNoted s pk r left).plates = s.plates := by
  have hmod : ∀ (x : State) (k : Nat) (g : Core → Core), (modCore x k g).arr = x.arr ∧ (modCore x k g).rst = x.rst ∧ (modCore x k g).plates = x.plates :=
    fun _ _ _ => ⟨rfl, rfl, rfl⟩
  obtain ⟨a1, a2, a3⟩ := hmod s (planeCore pk) (fun c => modTile c (tileOfPlane pk) (clearedTile pk))
  obtain ⟨b1, b2, b3⟩ := hmod (stuckCleared s pk) (planeCore pk) (fun c => modTile c (tileOfPlane pk) (fun x =>
    { x with newStuck := x.newStuck ++ left.map (stuckOf (planeNo pk) (planeLevels r [])) }))
  exact ⟨b1.trans a1, b2.trans a2, b3.trans a3⟩

/-- The parts of a stored plane. -/
theorem planeStored_parts (s : State) (pk : Nat) (r : PlaneRecord) (left : List Defect) :
    (planeStored s pk r left).arr.cells = tput s.arr.cells pk (withStuck (planeLevels r []) left)
      ∧ (planeStored s pk r left).arr.desc = tput s.arr.desc pk (storedDesc r (if isRefill s pk then 2 else 5))
      ∧ (planeStored s pk r left).rst = s.rst ∧ (planeStored s pk r left).cores = (stuckNoted s pk r left).cores
      ∧ (planeStored s pk r left).plates.writing = tdel s.plates.writing pk := by
  obtain ⟨n1, n2, n3⟩ := stuckNoted_frame s pk r left
  obtain ⟨h1, h2, h3, h4, h5⟩ := storePlane_frame (stuckNoted s pk r left) pk r (planeLevels r []) (withStuck (planeLevels r []) left) [] []
    (if isRefill s pk = true then 2 else 5)
  have hset : ∀ (x : State) (f : PlateBlk → PlateBlk), (setPlates x f).arr = x.arr ∧ (setPlates x f).rst = x.rst ∧ (setPlates x f).cores = x.cores
      ∧ (setPlates x f).plates = f x.plates := fun _ _ => ⟨rfl, rfl, rfl, rfl⟩
  rw [n1] at h1 h2
  unfold planeStored
  generalize storePlane (stuckNoted s pk r left) pk r (planeLevels r []) (withStuck (planeLevels r []) left) [] []
    (if isRefill s pk = true then 2 else 5) = x at *
  obtain ⟨g1, g2, g3, g4⟩ := hset x (fun b =>
    { b with writing := tdel b.writing pk, waiting := tdel b.waiting pk, progress := satAdd 32 b.progress (b2n (countsProgress s pk)),
             nStuck := satAdd 8 b.nStuck left.length, nAdjusted := satAdd 8 b.nAdjusted 0,
             load := b.load.map (fun l => if isRefill s pk = true then l else { l with written := addOnce l.written pk }) })
  rw [g1, g2, g3, g4, h1, h2, h3, h4, h5, n2, n3]
  exact ⟨rfl, rfl, rfl, rfl, rfl⟩

theorem planeStored_spec {s : State} (hl : s.rst.loadDone = true) (pk : Nat) (r : PlaneRecord) (left : List Defect) :
    tfind (planeStored s pk r left).arr.cells pk = some (withStuck (planeLevels r []) left)
      ∧ tfind (planeStored s pk r left).plates.writing pk = none
      ∧ descOf (planeStored s pk r left) pk = { state := if isRefill s pk then 2 else 5, wmode := r.wmode, width := r.width, zeroPoint := r.zeroPoint,
                                                skimValid := r.skimValid, skimRow := r.skimRow, xmap := [] }
      ∧ (∀ q, q ≠ pk → descOf (planeStored s pk r left) q = descOf s q ∧ tfind (planeStored s pk r left).arr.cells q = tfind s.arr.cells q)
      ∧ (tileOf (coreOf (planeStored s pk r left) (planeCore pk)) (tileOfPlane pk)).newStuck
          = (tileOf (coreOf s (planeCore pk)) (tileOfPlane pk)).newStuck.filter (fun e => e.plane != planeNo pk)
            ++ left.map (stuckOf (planeNo pk) (planeLevels r [])) := by
  obtain ⟨hcells, hd, hr, hcore, hwr⟩ := planeStored_parts s pk r left
  generalize planeStored s pk r left = u at *
  have hl' : u.rst.loadDone = true := by
    rw [hr]
    exact hl
  have hown : coreOf (stuckNoted s pk r left) (planeCore pk) = _ := (coreOf_modCore (stuckCleared s pk) _ _ _).trans (if_pos rfl)
  refine ⟨?_, ?_, ?_, fun q hq => ⟨?_, ?_⟩, ?_⟩
  · rw [hcells]
    exact tfind_tput_same _ _ _
  · rw [hwr]
    exact tfind_tdel_same _ _
  · unfold descOf
    rw [if_pos hl', hd, tfind_tput_same]
    rfl
  · unfold descOf
    rw [if_pos hl', if_pos hl, hd, tfind_tput, if_neg hq]
    unfold descDefault
    rw [hr]
  · rw [hcells, tfind_tput, if_neg hq]
  · rw [coreOf_of_cores hcore, hown, tileOf_modTile, coreOf_stuckCleared]
    rfl

/-- Defects of the weight columns mark no reference column. -/
theorem checkReferences_weights {s : State} {pk : Nat} {ds : List Defect} (h : ∀ d ∈ ds, d.col < 264) : checkReferences s pk ds = s := by
  have hbad : ∀ c, 264 ≤ c → (decide (8 ≤ (ds.filter (fun d => d.col == c)).length) || ds.any (fun d => d.col == c && d.unstable)) = false := by
    intro c hc
    have hnone : ∀ d ∈ ds, (d.col == c) = false := fun d hd => beq_eq_false_iff_ne.mpr (by have := h d hd; omega)
    have hfilter : ds.filter (fun d => d.col == c) = [] := List.filter_eq_nil_iff.mpr (fun d hd => by simp [hnone d hd])
    have hany : ds.any (fun d => d.col == c && d.unstable) = false := List.any_eq_false.mpr (fun d hd => by simp [hnone d hd])
    rw [hfilter, hany]
    rfl
  have hnone : ¬(((decide (8 ≤ (ds.filter (fun d => d.col == 270)).length) || ds.any (fun d => d.col == 270 && d.unstable))
      || (decide (8 ≤ (ds.filter (fun d => d.col == 271)).length) || ds.any (fun d => d.col == 271 && d.unstable))) = true) := by
    rw [hbad 270 (by decide), hbad 271 (by decide)]
    decide
  exact if_neg hnone

/-- The state with the cells of a write counted. -/
def cellsCounted (s : State) (pk : Nat) : State :=
  setPlates s (fun b => { b with cells := b.cells + (if (tget none s.plates.writing pk).isSome || pk ∈ s.plates.testPlanes then 65536 else 0) })

theorem planeProgramOp_waits {s : State} {pk : Nat} {ds : List Defect} (h : canWrite (fillSlots (settleClaims s)) pk = false) :
    planeProgramOp s pk ds = fillSlots (settleClaims s) := if_pos (by rw [h]; rfl)

theorem planeProgramOp_record {s : State} {pk : Nat} {r : PlaneRecord} {ds : List Defect} (hs : pk ∈ (fillSlots (settleClaims s)).plates.slots)
    (hw : tfind (fillSlots (settleClaims s)).plates.writing pk = some (some r)) (hd : ∀ d ∈ ds, d.col < 264) :
    ∃ u, planeProgramOp s pk ds = u ∧ programParts u = programParts (programRecord (cellsCounted (fillSlots (settleClaims s)) pk) pk r ds) := by
  have hcan : ¬((!canWrite (fillSlots (settleClaims s)) pk) = true) := by
    unfold canWrite
    rw [hw, decide_eq_true hs]
    simp
  refine ⟨_, rfl, ?_⟩
  unfold planeProgramOp
  dsimp only
  rw [if_neg hcan, checkReferences_weights hd]
  refine (programParts_settleDma _).trans ?_
  rw [show tfind (setPlates (fillSlots (settleClaims s)) (fun b => { b with
    cells := b.cells + (if (tget none (fillSlots (settleClaims s)).plates.writing pk).isSome || pk ∈ (fillSlots (settleClaims s)).plates.testPlanes
      then 65536 else 0) })).plates.writing pk = some (some r) from hw]
  by_cases hn : (tfind (programRecord (cellsCounted (fillSlots (settleClaims s)) pk) pk r ds).plates.writing pk).isNone = true
  · exact (congrArg programParts (if_pos hn)).trans (programParts_replyDefects ..)
  · exact congrArg programParts (if_neg hn)

/-- A plane that is programmed and stored. -/
theorem planeProgramOp_stored {s : State} {pk : Nat} {r : PlaneRecord} {ds left : List Defect} (hs : pk ∈ (fillSlots (settleClaims s)).plates.slots)
    (hw : tfind (fillSlots (settleClaims s)).plates.writing pk = some (some r)) (hd : ∀ d ∈ ds, d.col < 264) (hf : faultColumns ds = [])
    (hadj : adjusted r ds = (planeLevels r [], [], 0, left))
    (hroom : left.length ≤ stuckRoom (clearedTile pk (tileOf (coreOf (fillSlots (settleClaims s)) (planeCore pk)) (tileOfPlane pk)))) :
    programParts (planeProgramOp s pk ds) = programParts (planeStored (cellsCounted (fillSlots (settleClaims s)) pk) pk r left) := by
  obtain ⟨u, hu, hparts⟩ := planeProgramOp_record hs hw hd
  have hroom' : left.length ≤ stuckRoom (tileOf (coreOf (stuckCleared (cellsCounted (fillSlots (settleClaims s)) pk) pk) (planeCore pk)) (tileOfPlane pk)) := by
    rw [coreOf_stuckCleared]
    exact hroom
  rw [hu, hparts, programRecord_stored hf hadj hroom']
  refine (programParts_loadMaybeDone _).trans ?_
  split
  · exact programParts_refillWritten ..
  · rfl

theorem coreOf_of_programParts {s u : State} (h : programParts u = programParts s) (k : Nat) : coreOf u k = coreOf s k := by
  simp only [programParts, Prod.mk.injEq] at h
  exact coreOf_of_cores h.2.2.2 k

theorem rst_fillSlots_settleClaims (s : State) : (fillSlots (settleClaims s)).rst = s.rst := foldl_unchanged State.rst rst_settleClaim s.plates.claims s

theorem faultColumns_single {d : Defect} (hu : d.unstable = false) : faultColumns [d] = [] := by
  have hcol : ∀ c, columnFault [d] c = false := fun c => by
    unfold columnFault
    have hlen : ([d].filter (fun x => x.col == c)).length ≤ 1 := List.length_filter_le _ _
    simp only [List.any_cons, List.any_nil, hu, Bool.and_false, Bool.or_false, decide_eq_false_iff_not, not_le]
    omega
  unfold faultColumns
  simp [hcol, sortAsc]

/-! ## Write bursts -/

theorem writeBurstOp_refused {s : State} {pk row rows : Nat} (h : canWrite (fillSlots s) pk = false ∨ 1255 ≤ (coreOf s (planeCore pk)).burstWait
    ∨ (coreOf s (planeCore pk)).testing ≠ none ∨ 256 < row + rows) : writeBurstOp s pk row rows = fillSlots s := by
  refine if_pos ?_
  simp only [Bool.or_eq_true, decide_eq_true_eq, Bool.not_eq_true', Option.isSome_iff_ne_none]
  rcases h with h | h | h | h
  · exact .inl (.inl (.inl h))
  · exact .inl (.inl (.inr h))
  · exact .inl (.inr h)
  · exact .inr h

/-- A burst's tile. -/
def burstTile (t b rows : Nat) (x : Tile) : Tile :=
  { addWork t (addChange t x b b none) 3 b (b + 625 * rows) with
    former := x.engaged.orElse (fun _ => x.former), proofEngaged := false, freeAt := b + 625 * rows, burst := some (b, b + 625 * rows) }

theorem writeBurstOp_runs {s : State} {pk row rows : Nat} (h1 : canWrite (fillSlots s) pk = true) (h2 : (coreOf s (planeCore pk)).burstWait < 1255)
    (h3 : (coreOf s (planeCore pk)).testing = none) (h4 : row + rows ≤ 256) :
    writeBurstOp s pk row rows = modCore (fillSlots s) (planeCore pk) (fun c => modTile c (tileOfPlane pk)
      (burstTile (now s) (tileReady s (coreOf s (planeCore pk)) (tileOfPlane pk)) rows)) := by
  refine (if_neg ?_).trans rfl
  simp only [Bool.or_eq_true, decide_eq_true_eq, Bool.not_eq_true', Option.isSome_iff_ne_none]
  rintro (((h | h) | h) | h)
  · exact absurd (h1.symm.trans h) (by decide)
  · exact absurd h (Nat.not_le.mpr h2)
  · exact h h3
  · omega

theorem burstTile_spec (t b rows : Nat) (x : Tile) :
    (burstTile t b rows x).engaged = none ∧ (burstTile t b rows x).former = x.engaged.orElse (fun _ => x.former)
      ∧ (burstTile t b rows x).freeAt = b + 625 * rows ∧ (3, b, b + 625 * rows) ∈ (burstTile t b rows x).work
      ∧ (burstTile t b rows x).burst = some (b, b + 625 * rows) :=
  ⟨rfl, rfl, rfl, mem_addWork.mpr (.inr rfl), rfl⟩

/-! ## Requests asked to end -/

theorem reqOf_modReq (s : State) (i : Nat) (g : Req → Req) (j : Nat) :
    reqOf (modReq s i g) j = if j = i then (reqOf s i).map g else reqOf s j := by
  unfold modReq
  by_cases h : j = i
  · rw [if_pos h, h]
    cases hq : reqOf s i with
    | none => exact hq
    | some q => exact reqOf_setReq _ _ _
  · rw [if_neg h]
    cases reqOf s i with
    | none => rfl
    | some q => exact reqOf_setReq_ne _ _ h

theorem reqOf_markEndAt (s : State) (i : Nat) (st : Status) (n j : Nat) :
    reqOf (markEndAt s i st n) j = if j = i then (reqOf s i).map (fun q => { q with endAs := addOnce q.endAs (st, n) }) else reqOf s j :=
  (reqOf_of_reqs (setSched_reqs ..) j).trans (reqOf_modReq ..)

/-- Only the requests differ, and a boundary is wanted. -/
def BoundaryAsked (s u : State) : Prop := u = { s with reqs := u.reqs, sched := { s.sched with wantBoundary := true } }

theorem BoundaryAsked.trans {s x u : State} (h : BoundaryAsked s x) (g : BoundaryAsked x u) : BoundaryAsked s u := by
  unfold BoundaryAsked at *
  refine g.trans ?_
  rw [h]

theorem boundaryAsked_markEnd (s : State) (i : Nat) (st : Status) : BoundaryAsked s (markEnd s i st) := by
  unfold BoundaryAsked markEnd markEndAt modReq
  split <;> rfl

theorem BoundaryAsked.next {s u : State} (h : BoundaryAsked s u) : nextBoundary u = nextBoundary s := by
  rw [h]
  rfl

theorem boundaryAsked_markEnds (st : Status) : ∀ {l : List Nat} (s : State), l ≠ [] → BoundaryAsked s (l.foldl (fun y j => markEnd y j st) s)
  | [], _, h => absurd rfl h
  | [j], s, _ => boundaryAsked_markEnd s j st
  | j :: k :: l, s, _ => (boundaryAsked_markEnd s j st).trans (boundaryAsked_markEnds st (l := k :: l) (markEnd s j st) (by simp))

/-- A request that is asked to end is asked once, at the next boundary. -/
theorem reqOf_markEnds (st : Status) {i n : Nat} : ∀ (l : List Nat) {s : State} {q : Req}, nextBoundary s = n → reqOf s i = some q →
    (q.endAs = [] ∧ i ∈ l ∨ q.endAs = [(st, n)]) → reqOf (l.foldl (fun y j => markEnd y j st) s) i = some { q with endAs := [(st, n)] }
  | [], s, q, _, hq, he => by
    have h : q.endAs = [(st, n)] := he.resolve_left (by simp)
    exact hq.trans (congrArg some (by rw [← h]))
  | j :: l, s, q, hn, hq, he => by
    have hnext : nextBoundary (markEnd s j st) = n := (boundaryAsked_markEnd s j st).next.trans hn
    have hreq : reqOf (markEnd s j st) i = if i = j then (reqOf s j).map (fun x => { x with endAs := addOnce x.endAs (st, n) }) else reqOf s i := by
      rw [← hn]
      exact reqOf_markEndAt ..
    rw [List.foldl_cons]
    by_cases hj : i = j
    · have hadd : addOnce q.endAs (st, n) = [(st, n)] := by
        rcases he with ⟨h, _⟩ | h <;> simp [h, addOnce]
      have hown : reqOf s j = some q := hj ▸ hq
      rw [if_pos hj, hown, Option.map_some, hadd] at hreq
      exact reqOf_markEnds st l (q := { q with endAs := [(st, n)] }) hnext hreq (.inr rfl)
    · rw [if_neg hj] at hreq
      exact reqOf_markEnds st l hnext (hreq.trans hq) (he.imp (fun h => ⟨h.1, (List.mem_cons.mp h.2).resolve_left hj⟩) id)

/-- Settles O49: programming, bursts, and the requests that a change asks to end. -/
theorem planeWrites : Obligations.PlaneWrites := by
  intro t s hdone s1 s2 f
  have hdone2 : (cellsCounted s2 0).rst.loadDone = true := by
    have hr : (cellsCounted s2 0).rst = s1.rst := rst_fillSlots_settleClaims s1
    rw [hr]
    exact hdone
  have hprog : ∀ pk ds, pk < 22528 * nCores → exec (.planeProgram pk ds t) s = .next (planeProgramOp s1 pk ds) := fun _ _ h => if_pos h
  have hburst : ∀ pk row rows, pk < 22528 * nCores → exec (.writeBurst pk row rows t) s = .next (writeBurstOp s1 pk row rows) := fun _ _ _ h => if_pos h
  have hdrain : exec (.drainTimeout t) s = .next (drainTimeoutOp s1) := rfl
  have hpin : exec (.pinLimit t) s = .next (pinLimitOp s1) := rfl
  refine ⟨fun pk ds hpk hc => (hprog pk ds hpk).trans (next_congr (planeProgramOp_waits hc)), fun pk r hpk hs hw => ?_,
    ?_, ?_,
    fun pk row rows hpk h => (hburst pk row rows hpk).trans (next_congr (writeBurstOp_refused (s := s1) h)), fun h => hdrain.trans (next_congr ?_),
    fun t0 i q ht0 hle hq hdr hst he => ?_, fun x hx hlt => hpin.trans (next_congr ?_), fun x i q hx hc hle hq hp hst he => ?_⟩
  · have hadj : adjusted r [] = (planeLevels r [], [], 0, []) := by
      unfold adjusted
      split <;> rfl
    have hparts := planeProgramOp_stored (s := s1) hs hw (by simp) rfl hadj (Nat.zero_le _)
    obtain ⟨p1, p2, p3, p4, _⟩ := planeStored_spec (s := cellsCounted s2 pk) hdone2 pk r []
    simp only [programParts, Prod.mk.injEq] at hparts
    obtain ⟨ha, hr, hwr, _⟩ := hparts
    have hdesc := descOf_congr hr ha
    refine ⟨_, hprog pk [] hpk, ?_, ?_, (hdesc pk).trans p3, fun q hq => ⟨(hdesc q).trans (p4 q hq).1, ?_⟩⟩
    · rw [ha]
      exact p1
    · rw [hwr]
      exact p2
    · rw [ha]
      exact (p4 q hq).2
  · intro pk r d hpk hs hw hd hu hm x hroom
    have hrest : restDefects [] [d] = [d] := by
      have h270 : d.col < 270 := by omega
      simp [restDefects, h270, hd]
    have hadj : adjusted r [d] = (planeLevels r [], [], 0, [d]) := by
      unfold adjusted
      rw [if_neg (Nat.not_le.mpr hm), hrest]
    have hr1 : [d].length ≤ stuckRoom (clearedTile pk x) := by
      change 1 ≤ 16 - ((x.stuck.filter (fun e => e.plane != planeNo pk)).length + (x.newStuck.filter (fun e => e.plane != planeNo pk)).length)
      omega
    have hparts := planeProgramOp_stored (s := s1) hs hw (fun e he => by rw [List.mem_singleton.mp he]; exact hd) (faultColumns_single hu) hadj hr1
    obtain ⟨p1, p2, _, _, p5⟩ := planeStored_spec (s := cellsCounted s2 pk) hdone2 pk r [d]
    have hcore := coreOf_of_programParts hparts
    simp only [programParts, Prod.mk.injEq] at hparts
    obtain ⟨ha, _, hwr, _⟩ := hparts
    refine ⟨_, hprog pk [d] hpk, ?_, ?_, ?_⟩
    · rw [ha]
      exact p1
    · rw [hcore]
      exact p5
    · rw [hwr]
      exact p2
  · intro pk row rows hpk h1 h2 h3 h4 x b
    have hop : writeBurstOp s1 pk row rows
        = modCore (fillSlots s1) (planeCore pk) (fun c => modTile c (tileOfPlane pk) (burstTile (now s1) b rows)) := writeBurstOp_runs (s := s1) h1 h2 h3 h4
    have hown : coreOf (modCore (fillSlots s1) (planeCore pk) (fun c => modTile c (tileOfPlane pk) (burstTile (now s1) b rows))) (planeCore pk)
        = modTile (coreOf s (planeCore pk)) (tileOfPlane pk) (burstTile (now s1) b rows) := (coreOf_modCore ..).trans (if_pos rfl)
    refine ⟨_, (hburst pk row rows hpk).trans (next_congr hop), ?_, fun j hj => ?_, fun j hj => (coreOf_modCore ..).trans (if_neg hj), rfl⟩
    · have htile : tileOf (coreOf (modCore (fillSlots s1) (planeCore pk) (fun c => modTile c (tileOfPlane pk) (burstTile (now s1) b rows))) (planeCore pk))
          (tileOfPlane pk) = burstTile (now s1) b rows x := by
        rw [hown, tileOf_modTile]
      dsimp only
      rw [htile]
      exact burstTile_spec _ _ _ _
    · rw [hown]
      exact tileOf_setTile_ne _ _ hj
  · unfold drainTimeoutOp
    rw [show s1.plates.draining = s.plates.draining from rfl]
    rcases h with h | ⟨t0, h, hlt⟩
    · rw [h]
    · rw [h]
      exact if_neg (Nat.not_le.mpr hlt)
  · have hop : drainTimeoutOp s1 = ((s.reqs.filter (fun e => slotDraining s e.2.p.slot && e.2.state != .held)).map (·.1)).foldl
        (fun y i => markEnd y i .plateChanged) s1 := by
      unfold drainTimeoutOp
      rw [show s1.plates.draining = s.plates.draining from rfl, ht0]
      exact if_pos hle
    have hmem : i ∈ (s.reqs.filter (fun e => slotDraining s e.2.p.slot && e.2.state != .held)).map (·.1) :=
      List.mem_map.mpr ⟨(i, q), List.mem_filter.mpr ⟨mem_of_tfind hq, by simp [hdr, hst]⟩, rfl⟩
    exact ⟨_, hdrain.trans (next_congr hop), reqOf_markEnds .plateChanged _ rfl hq (.inl ⟨he, hmem⟩),
      boundaryAsked_markEnds .plateChanged s1 (List.ne_nil_of_mem hmem)⟩
  · unfold pinLimitOp
    split
    next y hy =>
      have hxy : y = x := by
        unfold stagedIf at hy
        rw [show txnOf s1.txns 1 = some x from hx, Option.bind_some] at hy
        split at hy
        · exact (Option.some.inj hy).symm
        · exact absurd hy (by simp)
      rw [hxy]
      exact if_neg (Nat.not_le.mpr hlt)
    next => rfl
  · have hop : pinLimitOp s1 = ((s.reqs.filter (fun e => e.2.p.pinned && e.2.state != .held)).map (·.1)).foldl
        (fun y i => markEnd y i .plateChanged) s1 := by
      unfold pinLimitOp
      rw [stagedIf_committing (s := s1) hx hc]
      exact if_pos hle
    have hmem : i ∈ (s.reqs.filter (fun e => e.2.p.pinned && e.2.state != .held)).map (·.1) :=
      List.mem_map.mpr ⟨(i, q), List.mem_filter.mpr ⟨mem_of_tfind hq, by simp [hp, hst]⟩, rfl⟩
    exact ⟨_, hpin.trans (next_congr hop), reqOf_markEnds .plateChanged _ rfl hq (.inl ⟨he, hmem⟩),
      boundaryAsked_markEnds .plateChanged s1 (List.ne_nil_of_mem hmem)⟩

end Sys2Proof.Proofs
/-! # Errors in stored data -/
namespace Sys2Proof.Proofs

open Sys2Proof.Machine Sys2Proof.Safety Sys2Proof.Laws

/-! ## Retiring a location -/

/-- Only the fault log and the list of retired lines in flash differ. -/
def RetireOnly (s u : State) : Prop := u = { s with faults := u.faults, nv := { s.nv with retired := u.nv.retired } }

theorem RetireOnly.trans {s x u : State} (h : RetireOnly s x) (g : RetireOnly x u) : RetireOnly s u := by
  unfold RetireOnly at *
  refine g.trans ?_
  rw [h]

theorem retireOnly_setFaults (s : State) (f : FaultBlk → FaultBlk) : RetireOnly s (setFaults s f) := rfl

theorem retireOnly_addReport (s : State) (r : Report) : RetireOnly s (addReport s r) := by
  unfold RetireOnly addReport
  split <;> rfl

theorem addReport_counts (s : State) (r : Report) :
    (addReport s r).faults.retired = s.faults.retired ∧ (addReport s r).faults.ue = s.faults.ue ∧ (addReport s r).faults.ce = s.faults.ce
      ∧ (addReport s r).faults.ceTable = s.faults.ceTable := by
  unfold addReport
  split <;> exact ⟨rfl, rfl, rfl, rfl⟩

/-- The state that notes a location as retired, before its report. -/
def cellNoted (s : State) (e : MemError) : State :=
  let s1 := setFaults s (fun f => { f with retired := addOnce f.retired (memKey e) })
  if e.mem = .hbm then
    if ((newest s1.nv.retired).getD []).length < 65536 then
      { s1 with nv := { s1.nv with retired := writeCopy s1.nv.retired (addOnce ((newest s1.nv.retired).getD []) e.line) } }
    else s1
  else s1

theorem cellNoted_spec (s : State) (e : MemError) :
    RetireOnly s (cellNoted s e) ∧ (cellNoted s e).faults = { s.faults with retired := addOnce s.faults.retired (memKey e) } := by
  unfold cellNoted RetireOnly
  dsimp only
  split
  · split <;> exact ⟨rfl, rfl⟩
  · exact ⟨rfl, rfl⟩

/-- A retired location is noted, and the counts of errors are as before. -/
theorem retireCell_spec (s : State) (e : MemError) (detail : Nat) :
    RetireOnly s (retireCell s e detail) ∧ memKey e ∈ (retireCell s e detail).faults.retired ∧ (retireCell s e detail).faults.ue = s.faults.ue
      ∧ (retireCell s e detail).faults.ce = s.faults.ce ∧ (retireCell s e detail).faults.ceTable = s.faults.ceTable := by
  obtain ⟨honly, hnoted⟩ := cellNoted_spec s e
  obtain ⟨r, hop⟩ : ∃ r, retireCell s e detail = addReport (cellNoted s e) r := ⟨_, rfl⟩
  obtain ⟨h1, h2, h3, h4⟩ := addReport_counts (cellNoted s e) r
  rw [hop]
  refine ⟨honly.trans (retireOnly_addReport ..), ?_, h2.trans ?_, h3.trans ?_, h4.trans ?_⟩
  · rw [h1, hnoted]
    exact mem_addOnce.mpr (.inl rfl)
  · rw [hnoted]
  · rw [hnoted]
  · rw [hnoted]

theorem retireLocation_spare {s : State} {e : MemError} (h : e.noSpare = false) (detail : Nat) : retireLocation s e detail = retireCell s e detail :=
  if_neg (by rw [h]; decide)

theorem retireLocation_gone {s : State} {e : MemError} (h : e.noSpare = true) (detail : Nat) :
    retireLocation s e detail = exhaustBank (retireCell s e detail) e := if_pos h

/-- A correctable error is counted, and its location retires from the limit on. -/
theorem countCe_spec {s : State} {e : MemError} (hs : e.noSpare = false) :
    RetireOnly s (countCe s e) ∧ (countCe s e).faults.ce = satAdd 32 s.faults.ce 1
      ∧ (countCe s e).faults.ceTable = aset s.faults.ceTable (memKey e) ((aget s.faults.ceTable (memKey e)).getD 0 + 1)
      ∧ (ceRetire s ≤ (aget s.faults.ceTable (memKey e)).getD 0 + 1 → memKey e ∈ (countCe s e).faults.retired)
      ∧ ((aget s.faults.ceTable (memKey e)).getD 0 + 1 < ceRetire s →
          (countCe s e).faults.retired = s.faults.retired ∧ (countCe s e).nv = s.nv) := by
  unfold countCe
  dsimp only
  split
  next h =>
    rw [retireLocation_spare hs]
    obtain ⟨h1, h2, _, h4, h5⟩ := retireCell_spec (setFaults s (fun f => { f with
      ce := satAdd 32 f.ce 1, ceTable := aset f.ceTable (memKey e) ((aget s.faults.ceTable (memKey e)).getD 0 + 1) })) e 0
    exact ⟨(retireOnly_setFaults ..).trans h1, h4, h5, fun _ => h2, fun hlt => absurd h.1 (Nat.not_le.mpr hlt)⟩
  next h =>
    refine ⟨rfl, rfl, rfl, fun hle => ?_, fun _ => ⟨rfl, rfl⟩⟩
    exact Classical.not_not.mp (fun hn => h ⟨hle, hn⟩)

/-! ## Rows and requests that consumed poisoned data -/

/-- A request that consumed poisoned data. -/
def poisonedReq (n : Nat) (q : Req) : Req := { q with cond := { q.cond with failed := true }, endAs := addOnce q.endAs (.cancelled, n) }

/-- A step whose rows of some requests are withheld. -/
def voidedRows (l : List Nat) (k : Step) : Step :=
  { k with rows := k.rows.map (fun w => if w.rid ∈ l then { w with withheld := true } else w) }

theorem poisonedReq_again (n : Nat) (q : Req) : poisonedReq n (poisonedReq n q) = poisonedReq n q := by
  have h : addOnce (addOnce q.endAs (.cancelled, n)) (.cancelled, n) = addOnce q.endAs (.cancelled, n) := if_pos (mem_addOnce.mpr (.inl rfl))
  unfold poisonedReq
  rw [h]

theorem voidedRows_voidedRows (i : Nat) (l : List Nat) (k : Step) : voidedRows l (voidedRows [i] k) = voidedRows (i :: l) k := by
  unfold voidedRows
  rw [List.map_map]
  refine congrArg (fun r => { k with rows := r }) (List.map_congr_left fun w _ => ?_)
  by_cases hi : w.rid = i
  · by_cases hl : i ∈ l <;> simp [hi, hl]
  · simp [hi]

/-- Only the requests and the schedule differ. -/
def EndsOnly (s u : State) : Prop := u = { s with reqs := u.reqs, sched := u.sched }

theorem EndsOnly.trans {s x u : State} (h : EndsOnly s x) (g : EndsOnly x u) : EndsOnly s u := by
  unfold EndsOnly at *
  refine g.trans ?_
  rw [h]

/-- The state whose running step withholds the rows of a request. -/
def rowsWithheld (s : State) (i : Nat) : State :=
  setSched s (fun c => { c with step := c.step.map (fun k => { k with rows := k.rows.map (fun w => if w.rid = i then { w with withheld := true } else w) }) })

theorem rowsWithheld_step (s : State) (i : Nat) : (rowsWithheld s i).sched.step = s.sched.step.map (voidedRows [i]) := by
  unfold rowsWithheld voidedRows
  simp [setSched]

theorem modReq_sched (s : State) (i : Nat) (g : Req → Req) : (modReq s i g).sched = s.sched := by
  unfold modReq
  split <;> rfl

theorem endsOnly_modReq (s : State) (i : Nat) (g : Req → Req) : EndsOnly s (modReq s i g) := by
  unfold EndsOnly modReq
  split <;> rfl

theorem endsOnly_poisonRow (s : State) (i : Nat) : EndsOnly s (poisonRow s i) :=
  have h1 : EndsOnly s (rowsWithheld s i) := rfl
  (h1.trans (endsOnly_modReq ..)).trans ((endsOnly_modReq ..).trans rfl)

theorem poisonRow_step (s : State) (i : Nat) : (poisonRow s i).sched.step = s.sched.step.map (voidedRows [i]) := by
  have h : ∀ (x : State) (st : Status) (n : Nat), (markEndAt x i st n).sched.step = x.sched.step := fun x st n =>
    (congrArg SchedBlk.step (modReq_sched x i (fun r => { r with endAs := addOnce r.endAs (st, n) })) : _)
  refine (h _ _ _).trans ?_
  rw [modReq_sched]
  exact rowsWithheld_step s i

theorem poisonRow_nextStep (s : State) (i : Nat) : (poisonRow s i).sched.nextStep = s.sched.nextStep := by
  have h : ∀ (x : State) (st : Status) (n : Nat), (markEndAt x i st n).sched.nextStep = x.sched.nextStep := fun x st n =>
    (congrArg SchedBlk.nextStep (modReq_sched x i (fun r => { r with endAs := addOnce r.endAs (st, n) })) : _)
  refine (h _ _ _).trans ?_
  rw [modReq_sched]
  rfl

theorem nextBoundary_rowsWithheld (s : State) (i : Nat) : nextBoundary (rowsWithheld s i) = nextBoundary s := by
  unfold nextBoundary
  rw [rowsWithheld_step]
  cases s.sched.step <;> rfl

theorem nextBoundary_modReq (s : State) (i : Nat) (g : Req → Req) : nextBoundary (modReq s i g) = nextBoundary s := by
  unfold nextBoundary
  rw [modReq_sched]

theorem reqOf_poisonRow (s : State) (i j : Nat) :
    reqOf (poisonRow s i) j = if j = i then (reqOf s i).map (poisonedReq (nextBoundary s)) else reqOf s j := by
  have hop : poisonRow s i = markEndAt (modReq (rowsWithheld s i) i (fun r => { r with cond := { r.cond with failed := true } })) i .cancelled
      (nextBoundary s) :=
    congrArg (markEndAt _ i .cancelled) ((nextBoundary_modReq ..).trans (nextBoundary_rowsWithheld s i))
  rw [hop, reqOf_markEndAt, reqOf_modReq, reqOf_modReq, if_pos rfl]
  have hreq : ∀ k, reqOf (rowsWithheld s i) k = reqOf s k := fun _ => rfl
  by_cases h : j = i
  · rw [if_pos h, if_pos h, hreq, Option.map_map]
    rfl
  · rw [if_neg h, if_neg h, if_neg h, hreq]

/-- The requests of a list that consumed poisoned data, and their rows. -/
theorem poisonRows_spec (n : Nat) : ∀ (l : List Nat) (s : State), nextBoundary s = n →
    EndsOnly s (l.foldl poisonRow s) ∧ (l.foldl poisonRow s).sched.step = s.sched.step.map (voidedRows l)
      ∧ ∀ i, reqOf (l.foldl poisonRow s) i = if i ∈ l then (reqOf s i).map (poisonedReq n) else reqOf s i
  | [], s, _ => ⟨rfl, by unfold voidedRows; simp, fun _ => rfl⟩
  | j :: l, s, hn => by
    have hnext : nextBoundary (poisonRow s j) = n := by
      rw [← hn]
      unfold nextBoundary
      rw [poisonRow_step, poisonRow_nextStep]
      cases s.sched.step <;> rfl
    obtain ⟨h1, h2, h3⟩ := poisonRows_spec n l (poisonRow s j) hnext
    rw [List.foldl_cons]
    refine ⟨(endsOnly_poisonRow s j).trans h1, ?_, fun i => ?_⟩
    · rw [h2, poisonRow_step, Option.map_map]
      exact congrArg (s.sched.step.map ·) (funext fun k => voidedRows_voidedRows j l k)
    · rw [h3, reqOf_poisonRow, hn]
      by_cases hj : i = j
      · rw [if_pos hj, if_pos (List.mem_cons.mpr (.inl hj)), ← hj, Option.map_map]
        split
        · exact congrArg (reqOf s i |>.map ·) (funext fun q => poisonedReq_again n q)
        · rfl
      · rw [if_neg hj]
        exact if_congr (by simp [hj]) rfl rfl

/-! ## Banks without spare lines -/

theorem unit_core {w p g c : Nat} (hl : fld w 58 56 = 2) (hp : fld w 33 28 = p) (hg : fld w 27 24 = g) (hc : fld w 23 16 = c) :
    (addrDecode w).unit = .core p g c := by
  have hlevel : (addrDecode w).level = 2 := hl
  unfold AddrWord.unit
  rw [hlevel]
  exact congr (congrArg₂ UnitId.core hp hg) hc

theorem unit_region {w p g : Nat} (hl : fld w 58 56 = 3) (hp : fld w 33 28 = p) (hg : fld w 27 24 = g) : (addrDecode w).unit = .region p g := by
  have hlevel : (addrDecode w).level = 3 := hl
  unfold AddrWord.unit
  rw [hlevel]
  exact congrArg₂ UnitId.region hp hg

/-- The fields of an address word. -/
theorem fld_word {k p g c : Nat} (hk : k < 8) (hp : p < 40) (hg : g < 16) (hc : c < 160) :
    let w := 2 ^ 63 + 0x7FF * 2 ^ 40 + k * 2 ^ 56 + p * 2 ^ 28 + g * 2 ^ 24 + c * 2 ^ 16
    fld w 58 56 = k ∧ fld w 33 28 = p ∧ fld w 27 24 = g ∧ fld w 23 16 = c := by
  intro w
  have hw : w = (((((128 + k) * 2 ^ 16 + 0x7FF) * 2 ^ 12 + p) * 2 ^ 4 + g) * 2 ^ 8 + c) * 2 ^ 16 := by
    unfold w
    omega
  unfold fld
  rw [hw]
  norm_num
  omega

theorem addrDecode_core {ck : Nat} (h : ck < nCores) : (addrDecode (physWord (unitOfCore ck))).unit = unitOfCore ck := by
  have hck : ck < 102400 := h
  obtain ⟨h0, h1, h2, h3⟩ := fld_word (k := 2) (p := ck / 2560) (g := ck / 160 % 16) (c := ck % 160) (by decide) (by omega) (by omega) (by omega)
  exact unit_core h0 h1 h2 h3

theorem addrDecode_region {rk : Nat} (h : rk < nRegions) : (addrDecode (physWord (unitOfRegion rk))).unit = unitOfRegion rk := by
  have hrk : rk < 640 := h
  obtain ⟨h0, h1, h2, _⟩ := fld_word (k := 3) (p := rk / 16) (g := rk % 16) (c := 0) (by decide) (by omega) (by omega) (by decide)
  rw [Nat.zero_mul, Nat.add_zero] at h0 h1 h2
  exact unit_region h0 h1 h2

theorem retired_exhaustBank (s : State) (e : MemError) : (exhaustBank s e).faults.retired = s.faults.retired := by
  have hcore : ∀ k, (fenceCore s k .none 0).faults.retired = s.faults.retired := fun k => (congrArg (·.faults.retired) (besidesFence_fenceCore s k .none 0) : _)
  have hregion : ∀ k, (fenceRegion s k .none 0).faults.retired = s.faults.retired := fun k =>
    (congrArg (·.faults.retired) (besidesFence_fenceRegion s k .none 0) : _)
  unfold exhaustBank
  split
  · rfl
  · rfl
  · rfl
  · split
    · exact hregion _
    · exact hcore _
    · exact hcore _
    · exact hcore _
    · rfl

theorem exhaustBank_core {e : MemError} (s : State) {ck : Nat} (h : ck < nCores) (hm : e.mem = .scratch) (ho : e.owner = physWord (unitOfCore ck)) :
    exhaustBank s e = fenceCore s ck .none 0 := by
  unfold exhaustBank
  rw [hm]
  dsimp only
  rw [ho, addrDecode_core h]
  exact congrArg (fenceCore s · .none 0) (coreKey_fields ck)

theorem exhaustBank_region {e : MemError} (s : State) {rk : Nat} (h : rk < nRegions) (hm : e.mem = .wideBuffer)
    (ho : e.owner = physWord (unitOfRegion rk)) : exhaustBank s e = fenceRegion s rk .none 0 := by
  have hkey : regionKey (rk / 16) (rk % 16) = rk := by
    unfold regionKey
    omega
  unfold exhaustBank
  rw [hm]
  dsimp only
  rw [ho, addrDecode_region h]
  exact congrArg (fenceRegion s · .none 0) hkey

/-! ## Sheets to be overwritten -/

/-- The sheets of a run without one. -/
theorem mem_splitRun (x y : Nat) (r : Nat × Nat) : (∃ p ∈ splitRun x r, p.1 ≤ y ∧ y < p.1 + p.2) ↔ (y ≠ x ∧ r.1 ≤ y ∧ y < r.1 + r.2) := by
  unfold splitRun
  split
  next h =>
    simp only [List.mem_append]
    constructor
    · rintro ⟨p, hp | hp, h1, h2⟩
      · split at hp
        · rw [List.mem_singleton.mp hp] at h1 h2
          dsimp only at h1 h2
          omega
        · cases hp
      · split at hp
        · rw [List.mem_singleton.mp hp] at h1 h2
          dsimp only at h1 h2
          omega
        · cases hp
    · rintro ⟨hne, h1, h2⟩
      rcases Nat.lt_or_gt_of_ne hne with hlt | hgt
      · refine ⟨(r.1, x - r.1), .inl ?_, h1, ?_⟩
        · rw [if_pos (by omega)]
          exact List.mem_singleton_self _
        · dsimp only
          omega
      · refine ⟨(x + 1, r.1 + r.2 - (x + 1)), .inr ?_, hgt, ?_⟩
        · rw [if_pos (by omega)]
          exact List.mem_singleton_self _
        · dsimp only
          omega
  next h =>
    constructor
    · rintro ⟨p, hp, h1, h2⟩
      rw [List.mem_singleton.mp hp] at h1 h2
      exact ⟨fun e => h (e ▸ ⟨h1, h2⟩), h1, h2⟩
    · exact fun hy => ⟨r, List.mem_singleton_self _, hy.2⟩

theorem mem_flatMap_splitRun (x y : Nat) (l : List (Nat × Nat)) :
    (∃ p ∈ l.flatMap (splitRun x), p.1 ≤ y ∧ y < p.1 + p.2) ↔ (y ≠ x ∧ ∃ r ∈ l, r.1 ≤ y ∧ y < r.1 + r.2) := by
  constructor
  · rintro ⟨p, hp, h⟩
    obtain ⟨r, hr, hpr⟩ := List.mem_flatMap.mp hp
    obtain ⟨hne, hy⟩ := (mem_splitRun x y r).mp ⟨p, hpr, h⟩
    exact ⟨hne, r, hr, hy⟩
  · rintro ⟨hne, r, hr, hy⟩
    obtain ⟨p, hp, h⟩ := (mem_splitRun x y r).mpr ⟨hne, hy⟩
    exact ⟨p, List.mem_flatMap.mpr ⟨r, hr, hp⟩, h⟩

/-- Whether a sheet waits for zeros. -/
def sheetWaits (s : State) (x : Nat) : Bool := s.kv.overwrite.any (fun r => decide (r.1 ≤ x ∧ x < r.1 + r.2)) && !sheetTaken s x

theorem sheetWaits_iff (s : State) (x : Nat) :
    sheetWaits s x = true ↔ (∃ r ∈ s.kv.overwrite, r.1 ≤ x ∧ x < r.1 + r.2) ∧ sheetTaken s x = false := by
  unfold sheetWaits
  simp only [Bool.and_eq_true, List.any_eq_true, decide_eq_true_eq, Bool.not_eq_true']

theorem sheetOverwriteOp_hbm (s : State) (x : Nat) :
    (sheetOverwriteOp s x).kv.hbm = if sheetWaits s x = true then zeroSheet s.kv.hbm x else s.kv.hbm := rfl

/-! ## The obligation -/

/-- A fatal error with no stop in progress. -/
theorem fatalError_resets {s : State} (e : MemError) (hr : firmwareRuns s = true) (hst : s.therm.stopping = none) (ha : aonWf s) :
    (fatalError s e).rst.phase = .inReset ∧ (fatalError s e).rst.sources = [.fatal] ∧ (fatalError s e).aon.errorLog = s.aon.errorLog ++ [e]
      ∧ (fatalError s e).aon.counts.a.getD 4 0 = min (s.aon.counts.a.getD 4 0 + 1) 65535 ∧ (fatalError s e).time.base = s.time.base
      ∧ (fatalError s e).reqs = [] := by
  have hphase : s.rst.phase ≠ .inReset ∧ s.rst.phase ≠ .latched := by
    constructor <;> intro h <;> rw [firmwareRuns, h] at hr <;> exact absurd hr (by decide)
  have hreset : ∀ x : State, x.rst = s.rst → x.therm = s.therm → requestReset x .fatal
      = setPins (startedReset x .fatal) (resetPinList (startedReset x .fatal) (!isWarm .fatal) (uplinkOf x)) := fun x hr ht => by
    unfold requestReset
    rw [ht, hst]
    exact (if_neg (by simp)).trans (beginReset_starts (hr ▸ hphase.1) (hr ▸ hphase.2) (ht ▸ hst))
  have hop : fatalError s e = _ := hreset { s with aon := { s.aon with errorLog := s.aon.errorLog ++ [e] } } rfl rfl
  generalize hx : ({ s with aon := { s.aon with errorLog := s.aon.errorLog ++ [e] } } : State) = x at hop
  obtain ⟨_, _, hlog, _, _, hcnt⟩ := countedReset_frame x .fatal
  obtain ⟨_, haon, _⟩ := reach_lasting (!isWarm .fatal) (countedReset x .fatal)
  have hbase := reach_base (!isWarm .fatal) (countedReset x .fatal)
  have htime : (countedReset x .fatal).time = s.time := by
    unfold countedReset
    rw [← hx]
    split <;> rfl
  have hcounts : x.aon.counts = s.aon.counts ∧ x.aon.errorLog = s.aon.errorLog ++ [e] := by
    rw [← hx]
    exact ⟨rfl, rfl⟩
  rw [hop]
  refine ⟨rfl, rfl, ?_, ?_, hbase.trans (congrArg TimeBlk.base htime), rfl⟩
  · have hgoal : (reach (!isWarm .fatal) (countedReset x .fatal)).aon.errorLog = s.aon.errorLog ++ [e] := by
      rw [haon, hlog, hcounts.2]
    exact hgoal
  · have hgoal : (reach (!isWarm .fatal) (countedReset x .fatal)).aon.counts.a.getD 4 0 = min (s.aon.counts.a.getD 4 0 + 1) 65535 := by
      rw [haon, hcnt, hcounts.1]
      exact bumpAt_getD ha.1.1 (by decide)
    exact hgoal

/-- Settles O50: errors in stored data are contained, retired, fatal or fenced, and sheets are overwritten. -/
theorem storedData : Obligations.StoredData := by
  intro e t s s1 key
  have hue : exec (.ueConsumed e t) s = .next (ueConsumedOp s1 e) := rfl
  have hpatrol : ∀ ce ue, exec (.patrolRead ce ue t) s = .next (patrolReadOp s1 ce ue) := fun _ _ => rfl
  have hused : firmwareRuns s = true → e.inUse = true →
      ueConsumedOp s1 e = if (p2Mode s && e.mem != .mpMemory) = true then poison (setFaults s1 (fun f => { f with ue := satAdd 32 f.ue 1 })) e
        else fatalError (setFaults s1 (fun f => { f with ue := satAdd 32 f.ue 1 })) e := fun hr hin =>
    (if_neg (by rw [show firmwareRuns s1 = true from hr]; decide)).trans (if_neg (by rw [hin]; decide))
  have hpatrol1 : inService s = true → ∀ ce ue, patrolReadOp s1 ce ue
      = (ue.filter (fun e => !e.inUse)).foldl (fun x e => retireLocation x e 16) ((ce.filter (fun e => !e.inUse)).foldl countCe s1) := fun hs _ _ =>
    if_neg (by rw [show inService s1 = true from hs]; decide)
  have hone : inService s = true → e.inUse = false → patrolReadOp s1 [] [e] = retireLocation s1 e 16 := fun hs hin => by
    rw [hpatrol1 hs, List.filter_cons_of_pos (by rw [hin]; rfl)]
    rfl
  obtain ⟨c1, c2, c3, _, _⟩ := retireCell_spec s1 e 16
  refine ⟨fun hr => hue.trans (next_congr (if_pos (by rw [show firmwareRuns s1 = false from hr]; rfl))), fun hr hin hsp => ?_,
    fun hr hin hp hm hsp => ?_, fun hr hin hp hst ha => ?_,
    fun ce ue hs => (hpatrol ce ue).trans (next_congr (if_pos (by rw [show inService s1 = false from hs]; rfl))), fun ce ue hall => ?_,
    fun hs hin hsp => ?_, fun hs hin hsp => ?_, fun hs hin hsp => ?_, fun x hx => ?_⟩
  · have hop : ueConsumedOp s1 e = retireCell s1 e 16 :=
      ((if_neg (by rw [show firmwareRuns s1 = true from hr]; decide)).trans (if_pos (by rw [hin]; rfl))).trans (retireLocation_spare hsp 16)
    exact ⟨_, hue.trans (next_congr hop), c2, c3, c1⟩
  · have hop := (hused hr hin).trans (if_pos (by rw [hp]; simpa using hm))
    generalize hs2 : setFaults s1 (fun f => { f with ue := satAdd 32 f.ue 1 }) = s2 at hop
    have hparts : s2 = { s1 with faults := s2.faults } ∧ s2.faults.ue = min (s.faults.ue + 1) (2 ^ 32 - 1) := by
      rw [← hs2]
      exact ⟨rfl, rfl⟩
    obtain ⟨hs2, hcount⟩ := hparts
    have hnext : nextBoundary s2 = nextBoundary s := by
      rw [hs2]
      rfl
    obtain ⟨p1, p2, p3⟩ := poisonRows_spec (nextBoundary s) e.rids s2 hnext
    have hpoison : poison s2 e = retireCell (e.rids.foldl poisonRow s2) e (16 + 64) := retireLocation_spare hsp _
    obtain ⟨r1, r2, r3, _, _⟩ := retireCell_spec (e.rids.foldl poisonRow s2) e (16 + 64)
    rw [hpoison] at hop
    generalize e.rids.foldl poisonRow s2 = v at *
    generalize retireCell v e (16 + 64) = u at *
    have hframe : u = { s1 with faults := u.faults, nv := { s.nv with retired := u.nv.retired }, reqs := u.reqs, sched := u.sched } := by
      unfold RetireOnly at r1
      unfold EndsOnly at p1
      rw [r1, p1, hs2]
      rfl
    have hreqs : u.reqs = v.reqs ∧ u.sched = v.sched := by
      rw [r1]
      exact ⟨rfl, rfl⟩
    have hreq : ∀ i, reqOf u i = if i ∈ e.rids then (reqOf s i).map (poisonedReq (nextBoundary s)) else reqOf s i := fun i => by
      rw [reqOf_of_reqs hreqs.1, p3, show reqOf s2 i = reqOf s i by rw [hs2]; rfl]
    have hstep : u.sched.step = s.sched.step.map (voidedRows e.rids) := by
      rw [hreqs.2, p2, show s2.sched = s.sched by rw [hs2]; rfl]
    refine ⟨u, hue.trans (next_congr hop), ?_, r2, ?_, fun i hi q hq he => ?_, fun i hi => (hreq i).trans (if_neg hi), fun k hk => ?_, hframe⟩
    · rw [r3, ← hcount, p1]
    · rw [hframe]
      rfl
    · rw [hreq, if_pos hi, hq]
      refine congrArg some ?_
      unfold poisonedReq
      rw [he]
      rfl
    · refine ⟨voidedRows e.rids k, by rw [hstep, hk]; rfl, fun w hw hin => ?_⟩
      obtain ⟨w0, _, rfl⟩ := List.mem_map.mp hw
      split at hin
      next h => rw [if_pos h]
      next h => exact absurd hin h
  · have hop := (hused hr hin).trans (if_neg (by
      rcases hp with hp | hp
      · simp [show p2Mode s = false from hp]
      · simp [hp]))
    exact ⟨_, hue.trans (next_congr hop), fatalError_resets (s := setFaults s1 (fun f => { f with ue := satAdd 32 f.ue 1 })) e hr hst ha⟩
  · have hnone : ∀ l : List MemError, (∀ x ∈ l, x ∈ ce ++ ue) → l.filter (fun e => !e.inUse) = [] := fun l hl =>
      List.filter_eq_nil_iff.mpr (fun x hx => by rw [hall x (hl x hx)]; decide)
    refine (hpatrol ce ue).trans (next_congr ?_)
    unfold patrolReadOp
    split
    · rfl
    · rw [hnone ce (fun x hx => List.mem_append_left _ hx), hnone ue (fun x hx => List.mem_append_right _ hx)]
      rfl
  · exact ⟨_, (hpatrol [] [e]).trans (next_congr ((hone hs hin).trans (retireLocation_spare hsp 16))), c2, c1⟩
  · have hop : patrolReadOp s1 [e] [] = countCe s1 e := by
      rw [hpatrol1 hs, List.filter_cons_of_pos (by rw [hin]; rfl)]
      rfl
    obtain ⟨k1, k2, k3, k4, k5⟩ := countCe_spec (s := s1) hsp
    refine ⟨_, (hpatrol [e] []).trans (next_congr hop), k2, ?_, k4, k5, k1⟩
    rw [k3]
    exact aget_aset_same _ _ _
  · refine ⟨_, (hpatrol [] [e]).trans (next_congr ((hone hs hin).trans (retireLocation_gone hsp 16))), ?_, fun hm => ?_, fun ck hck hm ho => ?_,
      fun rk hrk hm ho => ?_⟩
    · rw [retired_exhaustBank]
      exact c2
    · have hhub : exhaustBank (retireCell s1 e 16) e
          = setFaults (retireCell s1 e 16) (fun f => { f with hubWithdrawn := addOnce f.hubWithdrawn e.line }) := by
        unfold exhaustBank
        rw [hm]
      rw [hhub]
      refine ⟨mem_addOnce.mpr (.inl rfl), ?_⟩
      generalize retireCell s1 e 16 = u at c1 ⊢
      rw [c1]
      rfl
    · rw [exhaustBank_core _ hck hm ho]
      exact mem_fencedUnits_fenceCore ck _ _ (.inl rfl)
    · rw [exhaustBank_region _ hrk hm ho]
      exact mem_fencedUnits_fenceRegion rk _ _ (.inl rfl)
  · have hop : exec (.sheetOverwrite x t) s = .next (sheetOverwriteOp s1 x) := if_pos hx
    have hhbm := sheetOverwriteOp_hbm s1 x
    have hwaits := sheetWaits_iff s1 x
    refine ⟨_, hop, fun y => mem_flatMap_splitRun x y s.kv.overwrite, fun hin htaken y hy => ?_, fun h => ?_, fun y hy => ?_, rfl⟩
    · rw [hhbm, if_pos (hwaits.mpr ⟨hin, htaken⟩), mget_zeroSheet, if_pos hy]
    · refine hhbm.trans (if_neg fun hw => ?_)
      obtain ⟨⟨r, hr, h1, h2⟩, htaken⟩ := hwaits.mp hw
      rcases h with h | h
      · have := h r hr
        omega
      · exact absurd (htaken.symm.trans h) (by decide)
    · rw [hhbm]
      split
      · rw [mget_zeroSheet, if_neg hy]
        rfl
      · rfl

end Sys2Proof.Proofs
/-! # Tenants that leave -/
namespace Sys2Proof.Proofs

open Sys2Proof.Machine Sys2Proof.Safety Sys2Proof.Laws

/-! ## Key zeroisation -/

/-- The state without what the replies of a removal change, and without the presence of confidential tenants. -/
def besidesAnswers (s : State) : State :=
  { s with cmdq := [], fns := [], out := [], free := 0, txns := {}, sec := { s.sec with confPresent := false } }

theorem besidesAnswers_of_replyOnly {s u : State} (h : ReplyOnly s u) : besidesAnswers u = besidesAnswers s := by
  rw [h]
  rfl

theorem besidesAnswers_settlePresence (s : State) : besidesAnswers (settlePresence s) = besidesAnswers s := rfl

/-- The state without a tenant's record, overlays, tokens and stored replies, and its washdown counted. -/
def tenantWiped (s : State) (n : Nat) : State :=
  let s2 := setSched s (fun c => { c with ended := c.ended.filter (fun e => e.2.tenant != n) })
  let s3 := if n = 0 then s2 else modFn s2 n (fun f => { f with store := [] })
  setTenant { s3 with overlays := s3.overlays.filter (fun e => overlayTenant e.1 != n),
                      sec := { s3.sec with washdowns := satAdd 32 s3.sec.washdowns 1 } } n {}

/-- The state without a tenant, but for its stored replies. -/
def tenantGone (s : State) (n : Nat) : State :=
  setTenant { s with sched := { s.sched with ended := s.sched.ended.filter (fun e => e.2.tenant != n) },
                     overlays := s.overlays.filter (fun e => overlayTenant e.1 != n),
                     sec := { s.sec with washdowns := satAdd 32 s.sec.washdowns 1 } } n {}

theorem besidesAnswers_tenantWiped (s : State) (n : Nat) : besidesAnswers (tenantWiped s n) = besidesAnswers (tenantGone s n) := by
  unfold tenantWiped
  dsimp only
  split <;> rfl

theorem besidesAnswers_finishes {α : Type} (f g : α → Nat) (st : Status) (l : List α) (s : State) :
    besidesAnswers (l.foldl (fun y e => finish y (f e) (g e) st {} 0 0) s) = besidesAnswers s :=
  foldl_unchanged besidesAnswers (fun _ _ => besidesAnswers_of_replyOnly (replyOnly_finish ..)) l s

theorem besidesAnswers_congr {s u : State} (h : besidesAnswers u = besidesAnswers s) (n : Nat) :
    besidesAnswers (tenantGone u n) = besidesAnswers (tenantGone s n) := by
  have hg : ∀ x : State, besidesAnswers (tenantGone x n) = besidesAnswers (tenantGone (besidesAnswers x) n) := fun _ => rfl
  rw [hg u, h, ← hg s]

/-- What zeroising a tenant's key leaves: the tenant is gone, and besides answers nothing else changes. -/
theorem besidesAnswers_zeroise (s : State) (n : Nat) : besidesAnswers (zeroise s n) = besidesAnswers (tenantGone s n) := by
  have hlast : ∀ (x : State), besidesAnswers (if (tenantOf s n).notice = true then unsolicited x 0x0052 .ok 0 0 0 0 else x) = besidesAnswers x := by
    intro x
    split
    · exact besidesAnswers_of_replyOnly (replyOnly_unsolicited ..)
    · rfl
  unfold zeroise
  refine (hlast _).trans ((besidesAnswers_finishes ..).trans ((besidesAnswers_settlePresence _).trans ?_))
  refine (besidesAnswers_tenantWiped _ n).trans (besidesAnswers_congr ?_ n)
  exact besidesAnswers_finishes (fun e : CmdEntry => e.hdr.fn) (fun e => e.hdr.seq) .tenantInvalid (tenantReads s n) s

theorem keyZeroiseOp_waits {s : State} {n : Nat} (h : (tenantOf s n).removing = none ∨ ∃ t0, (tenantOf s n).removing = some t0
    ∧ ((tenantOf s n).removeBoundary = true ∨ (tenantReads s n ≠ [] ∧ now s < t0 + 2000000))) : keyZeroiseOp s n = s := by
  unfold keyZeroiseOp
  rcases h with h | ⟨t0, h, hw⟩
  · dsimp only
    rw [h]
  · dsimp only
    rw [h]
    refine if_neg ?_
    rcases hw with hw | ⟨hw, hlt⟩
    · simp [hw]
    · simp [hw, Nat.not_le.mpr hlt]

theorem keyZeroiseOp_wipes {s : State} {n t0 : Nat} (h : (tenantOf s n).removing = some t0) (hb : (tenantOf s n).removeBoundary = false)
    (hr : tenantReads s n = [] ∨ t0 + 2000000 ≤ now s) : keyZeroiseOp s n = zeroise s n := by
  unfold keyZeroiseOp
  dsimp only
  rw [h]
  refine if_pos ?_
  rw [hb]
  simpa using hr

/-! ## A TDI that leaves RUN -/

/-- The functions, requests and command queue. -/
def hostParts (s : State) : Tbl FnBlk × Tbl Req × List CmdEntry := (s.fns, s.reqs, s.cmdq)

theorem hostParts_broadcast (s : State) (k : Nat) (l : List Nat) : hostParts (broadcast s k l) = hostParts s := by
  refine foldl_unchanged hostParts (fun u m => ?_) _ s
  unfold sendControl
  repeat' split
  all_goals rfl

theorem hostParts_cutStep (s : State) : hostParts (cutStep s) = hostParts s := by
  unfold cutStep
  split
  · split
    · rfl
    · dsimp only
      split
      · exact hostParts_broadcast (setSched s _) _ _
      · rfl
  · rfl

theorem hostParts_beginRemove (s : State) (n : Nat) : hostParts (beginRemove s n) = hostParts s := by
  have hdrop : ∀ x : State, hostParts (dropSubkeys x n) = hostParts x := fun x => foldl_unchanged hostParts (by intros; rfl) _ x
  exact (hdrop _).trans ((hostParts_cutStep _).trans rfl)

/-- Settles O51: key zeroisation, and a TDI that leaves RUN. -/
theorem tenantsLeave : Obligations.TenantsLeave := by
  intro n t s hn s1 x
  have hzero : exec (.tenantKeyZeroise n t) s = .next (keyZeroiseOp s1 n) := if_pos hn
  have htdi : exec (.tdiLeaveRun n t) s = .next (tdiLeave s1 n) := if_pos hn
  refine ⟨fun hr => hzero.trans (next_congr (keyZeroiseOp_waits (s := s1) (.inl hr))),
    fun t0 hr hw => hzero.trans (next_congr (keyZeroiseOp_waits (s := s1) (.inr ⟨t0, hr, hw⟩))), fun t0 hr hb hw => ?_,
    fun h => htdi.trans (next_congr (if_pos h)), fun h hc => ?_, fun h hc hs => ?_⟩
  · have hop : keyZeroiseOp s1 n = zeroise s1 n := keyZeroiseOp_wipes (s := s1) hr hb hw
    have hz := besidesAnswers_zeroise s1 n
    generalize zeroise s1 n = u at hop hz
    have hten : u.tenants = (tenantGone s1 n).tenants := (congrArg State.tenants hz : _)
    refine ⟨u, hzero.trans (next_congr hop), ?_, fun m hm => ?_, (congrArg State.overlays hz : _), (congrArg (·.sec.washdowns) hz : _), ?_,
      (congrArg State.reqs hz : _), (congrArg State.kv hz : _), (congrArg State.cores hz : _), (congrArg State.regions hz : _),
      (congrArg State.arr hz : _), (congrArg State.nv hz : _)⟩
    · rw [tenantOf_of_tenants hten]
      exact tenantOf_setTenant _ _ _
    · rw [tenantOf_of_tenants hten]
      exact tenantOf_setTenant_ne _ _ hm
    · have hended : u.sched.ended = s.sched.ended.filter (fun e => e.2.tenant != n) := (congrArg (·.sched.ended) hz : _)
      rw [hended]
      exact fun e he => by simpa using (List.mem_filter.mp he).2
  · refine htdi.trans (next_congr ((if_neg (not_not_intro h)).trans (if_neg ?_)))
    simp only [Bool.and_eq_true, beq_iff_eq]
    rintro ⟨h1, h2⟩
    rcases hc with hc | hc
    · exact absurd (h1.symm.trans hc) (by decide)
    · exact hc h2
  · have hop : tdiLeave s1 n = modTenant (beginRemove (setFn s1 n { fnOf s n with tdi := 0 }) n) n (fun y => { y with notice := true }) :=
      (if_neg (not_not_intro h)).trans (if_pos (Bool.and_eq_true_iff.mpr ⟨hc, beq_iff_eq.mpr hs⟩))
    generalize hx : setFn s1 n { fnOf s n with tdi := 0 } = y at hop
    have hy : y.tenants = s.tenants ∧ now y = max s.time.base t ∧ y.reqs = s.reqs ∧ y.cmdq = s.cmdq ∧ (fnOf y n).tdi = 0 := by
      rw [← hx]
      exact ⟨rfl, rfl, rfl, rfl, by rw [fnOf_setFn]⟩
    obtain ⟨y1, y2, y3, y4, y5⟩ := hy
    have hparts := hostParts_beginRemove y n
    have hown := tenantOf_beginRemove y n n
    have hother := fun m => tenantOf_beginRemove y n m
    rw [if_pos rfl] at hown
    generalize beginRemove y n = v at *
    simp only [hostParts, Prod.mk.injEq] at hparts
    obtain ⟨p1, p2, p3⟩ := hparts
    have hu : tenantOf (modTenant v n (fun y => { y with notice := true })) n = { tenantOf v n with notice := true } := tenantOf_setTenant _ _ _
    refine ⟨_, htdi.trans (next_congr hop), ?_, ?_, ?_, ?_, ?_, fun m hm => ?_, p2.trans y3, p3.trans y4⟩
    · rw [← y5]
      exact congrArg (fun l => (tget {} l n : FnBlk).tdi) p1
    · unfold tenantSlot
      rw [hu, hown]
      rfl
    · rw [hu, hown]
    · rw [hu, hown]
      exact congrArg some y2
    · rw [hu]
    · refine (tenantOf_setTenant_ne _ _ hm).trans ((hother m).trans ((if_neg hm).trans ?_))
      exact tenantOf_of_tenants y1 m

end Sys2Proof.Proofs
/-! # Ports that train and go down -/
namespace Sys2Proof.Proofs

open Sys2Proof.Machine Sys2Proof.Safety Sys2Proof.Laws

/-! ## What losing flits and events leave unchanged -/

theorem portOf_of_ql {s u : State} (h : u.ql = s.ql) (p : Nat) : portOf u p = portOf s p := by
  unfold portOf
  rw [h]

/-- One port is as given, and every other port as before. -/
def OnlyPort (s u : State) (p : Nat) (x : Port) : Prop := portOf u p = x ∧ ∀ q, q ≠ p → portOf u q = portOf s q

theorem onlyPort_setPort {s v u : State} {p : Nat} {x : Port} (hv : v.ql = s.ql) (hu : u.ql = (setPort v p x).ql) : OnlyPort s u p x :=
  ⟨(portOf_of_ql hu p).trans (portOf_setPort _ _ _), fun q hq => (portOf_of_ql hu q).trans ((portOf_setPort_ne _ _ hq).trans (portOf_of_ql hv q))⟩

theorem OnlyPort.trans {s v u : State} {p : Nat} {x y : Port} (h : OnlyPort s v p x) (g : OnlyPort v u p y) : OnlyPort s u p y :=
  ⟨g.1, fun q hq => (g.2 q hq).trans (h.2 q hq)⟩

/-- Losing flits withholds rows, and nothing else. -/
theorem loseFlits_sched (s : State) (x : Port) : loseFlits s x = { s with sched := (loseFlits s x).sched } := by
  have hone : ∀ (u : State) (f : Flit), { loseFlit u f with sched := s.sched } = { u with sched := s.sched } := fun u f => by
    unfold loseFlit
    split <;> rfl
  have h : ({ loseFlits s x with sched := s.sched } : State) = { s with sched := s.sched } :=
    foldl_unchanged (fun u : State => ({ u with sched := s.sched } : State)) hone (x.replay ++ x.waiting.map (·.1)) s
  generalize loseFlits s x = v at h ⊢
  exact (congrArg (fun u : State => ({ u with sched := v.sched } : State)) h : _)

theorem loseFlits_ql (s : State) (x : Port) : (loseFlits s x).ql = s.ql := by rw [loseFlits_sched]

theorem loseFlits_out (s : State) (x : Port) : (loseFlits s x).out = s.out := by rw [loseFlits_sched]

theorem sendMsix_ql (s : State) (fn v : Nat) : (sendMsix s fn v).ql = s.ql := by
  unfold sendMsix
  dsimp only
  split
  · rfl
  · split <;> rfl

theorem eventMsg_ql (s : State) (bit : Nat) : (eventMsg s bit).ql = s.ql := by
  unfold eventMsg
  split
  · exact sendMsix_ql ..
  · rfl

/-! ## Failed training and links that go down -/

/-- A port whose training has failed. -/
def failedPort (x : Port) (cause : Nat) : Port := { dropLink x (if 3 ≤ x.fails + 1 then 3 else 0) cause with fails := min 3 (x.fails + 1) }

/-- A port that has gone down. -/
def downPort (x : Port) (cause : Nat) : Port := { dropLink x 0 cause with downs := min (x.downs + 1) (2 ^ 32 - 1) }

theorem onlyPort_trainFails (s : State) (p cause : Nat) : OnlyPort s (trainFails s p cause) p (failedPort (portOf s p) cause) := onlyPort_setPort rfl rfl

theorem portDown_ql (s : State) (p cause : Nat) :
    (portDown s p cause).ql = (setPort (loseFlits s (portOf s p)) p (downPort (portOf s p) cause)).ql := eventMsg_ql _ _

theorem onlyPort_portDown (s : State) (p cause : Nat) : OnlyPort s (portDown s p cause) p (downPort (portOf s p) cause) :=
  onlyPort_setPort (loseFlits_ql _ _) (portDown_ql s p cause)

theorem onlyPort_restartPort (s : State) (p st : Nat) :
    OnlyPort s (restartPort s p st) p { dropLink (portOf s p) st 0 with fails := 0 } ∧ (restartPort s p st).out = s.out :=
  ⟨onlyPort_setPort (loseFlits_ql s (portOf s p)) rfl, loseFlits_out ..⟩

/-! ## Coming up -/

/-- A port that starts a subkey exchange keeps the rest of its record. -/
theorem onlyPort_startKex (s : State) (slot p : Nat) :
    OnlyPort s (startKex s slot p) p { portOf s p with kex := tput (portOf s p).kex slot (now s) } := onlyPort_setPort rfl rfl

/-- Subkey exchanges leave every port as it is but for its exchanges. -/
theorem startKexs_port (p : Nat) : ∀ (l : List Nat) (s : State), ∃ k, OnlyPort s (l.foldl (fun y t => startKex y t p) s) p { portOf s p with kex := k }
  | [], s => ⟨(portOf s p).kex, rfl, fun _ _ => rfl⟩
  | t :: l, s => by
    obtain ⟨k, hk⟩ := startKexs_port p l (startKex s t p)
    have hone := onlyPort_startKex s t p
    refine ⟨k, hone.trans ?_⟩
    rw [hone.1] at hk
    exact hk

/-- A port that comes up, before its subkey exchanges. -/
def upPort (x : Port) (t : Nat) : Port :=
  { flushPort x with state := 2, cause := x.cause, fails := 0, expect := 0, nextSeq := 0, ctr := 0, keyed := true, lastRx := t, lastTx := t,
                     subkeys := [], kex := [] }

theorem comeUp_port (s : State) (p : Nat) : ∃ k, OnlyPort s (comeUp s p) p { upPort (portOf s p) (now s) with kex := k } := by
  obtain ⟨k, hk⟩ := startKexs_port p ((s.tenants.filter (fun e => tenantSlot s e.1 == 1)).map (fun (e : Nat × Tenant) => e.1))
    (setPort s p (upPort (portOf s p) (now s)))
  have hone : OnlyPort s (setPort s p (upPort (portOf s p) (now s))) p _ := onlyPort_setPort rfl rfl
  refine ⟨k, hone.trans ?_⟩
  rw [hone.1] at hk
  exact hk

/-! ## Training -/

theorem lanesOk_iff (l : Nat) : lanesOk l = true ↔ l = 15 ∨ l = 3 ∨ l = 12 := by
  unfold lanesOk
  simp [or_assoc]

theorem portTrainOp_stays {s : State} {p lanes : Nat} {ok : Bool} (h : mayTrain s p = false ∨ (portOf s p).state = 2 ∨ (portOf s p).state = 3) :
    portTrainOp s p lanes ok = s := by
  refine if_pos ?_
  rcases h with h | h | h <;> simp [h]

theorem portTrainOp_trains {s : State} {p : Nat} (lanes : Nat) (ok : Bool) (hm : mayTrain s p = true) (h2 : (portOf s p).state ≠ 2)
    (h3 : (portOf s p).state ≠ 3) :
    portTrainOp s p lanes ok = if (portOf s p).use = 0 then
        if (ok && lanesOk lanes) = true then
          drawn (emit (setPort s p { portOf s p with state := 1, lanes := lanes }) (.control p 1
            (numberFor (setPort s p { portOf s p with state := 1, lanes := lanes }) p) (identWords (setPort s p { portOf s p with state := 1, lanes := lanes }) p)))
        else trainFails s p 2
      else if ok = true then comeUp s p else trainFails s p 7 := by
  refine (if_neg ?_).trans rfl
  simp [hm, h2, h3]

/-! ## Identification -/

/-- The modules that are present once a module has its number and a peer. -/
def presentWith (s : State) (own peer : Nat) : List Nat := addOnce (addOnce (s.ql.present.filter (fun n => n != s.ql.module || n == own)) own) peer

/-- A module whose port has been paired. -/
def paired (s : State) (p : Nat) (m : Ident) (k : Nat) : State :=
  let peer := if k = 2 then numberFor s p else m.module
  let s1 := setPort s p { portOf s p with use := k, peer := peer, peerSerial := m.serial }
  let own := if k = 1 then m.assigned else s1.ql.module
  { s1 with ql := { s1.ql with module := own, present := presentWith s own peer } }

theorem mem_presentWith (s : State) (own peer : Nat) : own ∈ presentWith s own peer ∧ peer ∈ presentWith s own peer :=
  ⟨mem_addOnce.mpr (.inr (mem_addOnce.mpr (.inl rfl))), mem_addOnce.mpr (.inl rfl)⟩

theorem identOp_paired {s : State} {p : Nat} {m : Ident} {k : Nat} (h1 : (portOf s p).state = 1) (h0 : (portOf s p).use = 0)
    (hk : m.bindKey = peerKeyOf s p) (hp : pairing s p m = some k) : identOp s p m = paired s p m k := by
  unfold identOp
  dsimp only
  rw [if_neg (by simp [h1, h0]), if_neg (not_not_intro hk), hp]
  rfl

theorem identOp_mismatch {s : State} {p : Nat} {m : Ident} (h1 : (portOf s p).state = 1) (h0 : (portOf s p).use = 0)
    (hk : m.bindKey = peerKeyOf s p) (hp : pairing s p m = none) : identOp s p m = trainFails s p 5 := by
  unfold identOp
  dsimp only
  rw [if_neg (by simp [h1, h0]), if_neg (not_not_intro hk), hp]

/-! ## Absent modules -/

theorem broadcast_ql (s : State) (k : Nat) (l : List Nat) : (broadcast s k l).ql = s.ql := by
  refine foldl_unchanged State.ql (fun u m => ?_) _ s
  unfold sendControl
  repeat' split
  all_goals rfl

theorem cutHere_ql (s : State) : (cutHere s).ql = s.ql := by
  unfold cutHere
  split
  · rfl
  · split <;> rfl

/-- What marking a module absent writes of the links' state. -/
theorem markAbsent_marks {s : State} {m : Nat} (h : m ≠ s.ql.module) (hn : m ∉ s.ql.absent) :
    (markAbsent s m).ql = { s.ql with absent := s.ql.absent ++ [m], ready := s.ql.ready.filter (· != m) } := by
  unfold markAbsent
  rw [if_neg (by simp [h, hn])]
  dsimp only
  split
  · split
    · exact (cutHere_ql _).trans (broadcast_ql _ _ _)
    · rfl
  · rfl

theorem markAbsent_already {s : State} {m : Nat} (h : m = s.ql.module ∨ m ∈ s.ql.absent) : markAbsent s m = s := if_pos h

/-- A module that is not this one is absent once it is marked so. -/
theorem mem_markAbsent {s : State} {m : Nat} (h : m ≠ s.ql.module) : m ∈ (markAbsent s m).ql.absent := by
  by_cases hn : m ∈ s.ql.absent
  · rw [markAbsent_already (.inr hn)]
    exact hn
  · rw [markAbsent_marks h hn]
    exact List.mem_append_right _ (List.mem_singleton_self m)

/-- Marking a module absent leaves the ports and the module's number, and no module comes back. -/
theorem markAbsent_keeps (s : State) (m : Nat) : (markAbsent s m).ql.ports = s.ql.ports ∧ (markAbsent s m).ql.module = s.ql.module
    ∧ ∀ q ∈ s.ql.absent, q ∈ (markAbsent s m).ql.absent := by
  by_cases h : m = s.ql.module ∨ m ∈ s.ql.absent
  · rw [markAbsent_already h]
    exact ⟨rfl, rfl, fun _ hq => hq⟩
  · rw [markAbsent_marks (fun e => h (.inl e)) (fun e => h (.inr e))]
    exact ⟨rfl, rfl, fun _ hq => List.mem_append_left _ hq⟩

theorem sendControl_ql (s : State) (k m : Nat) (l : List Nat) : (sendControl s k m l).ql = s.ql := by
  unfold sendControl
  repeat' split
  all_goals rfl

theorem onlyPort_of_ports {s v u : State} {p : Nat} {x : Port} (h : OnlyPort s v p x) (hu : u.ql.ports = v.ql.ports) : OnlyPort s u p x := by
  have hport : ∀ q, portOf u q = portOf v q := fun q => by
    unfold portOf
    rw [hu]
  exact ⟨(hport p).trans h.1, fun q hq => (hport q).trans (h.2 q hq)⟩

/-- A fault of an up port takes it down, and the manager marks the module below it absent. -/
theorem qlFaultOp_up {s : State} {p : Nat} (h2 : (portOf s p).state = 2) :
    OnlyPort s (qlFaultOp s p) p (downPort (portOf s p) 6)
      ∧ ((portOf s p).use = 2 → isManager s = true → (portOf s p).peer ≠ s.ql.module → (portOf s p).peer ∈ (qlFaultOp s p).ql.absent) := by
  have hdown := onlyPort_portDown s p 6
  have hmodule : (portDown s p 6).ql.module = s.ql.module := (congrArg QlBlk.module (portDown_ql s p 6)).trans (congrArg QlBlk.module (loseFlits_ql s (portOf s p)) : _)
  have hop : qlFaultOp s p = if (portOf s p).use = 2 then
      if isManager s = true then markAbsent (portDown s p 6) (portOf s p).peer else sendControl (portDown s p 6) 11 0 [(portOf s p).peer, 6]
      else portDown s p 6 := by
    unfold qlFaultOp
    dsimp only
    rw [if_pos h2]
  rw [hop]
  refine ⟨?_, fun hu hm hp => ?_⟩
  · split
    · split
      · exact onlyPort_of_ports hdown (markAbsent_keeps ..).1
      · exact onlyPort_of_ports hdown (congrArg QlBlk.ports (sendControl_ql ..))
    · exact hdown
  · rw [if_pos hu, if_pos hm]
    exact mem_markAbsent (fun e => hp (e.trans hmodule))

/-- Settles O52: training, identification, faults and retraining of a port. -/
theorem portsTrain : Obligations.PortsTrain := by
  intro p t s hp s1 x failed down
  have htrain : ∀ lanes ok, exec (.portTrain p lanes ok t) s = .next (portTrainOp s1 p lanes ok) := fun _ _ => if_pos hp
  have hident : ∀ m, exec (.ident p m t) s = .next (identOp s1 p m) := fun _ => if_pos hp
  have hretrain : ∀ v : W32, exec (.retrain p v t) s = .next (retrainOp s1 p v.toNat) := fun _ => if_pos hp
  have hsilence : exec (.portSilence p t) s = .next (silenceOp s1 p) := if_pos hp
  have hlane : ∀ lane, exec (.laneLockLoss p lane t) s = .next (lanesLostOp s1 p lane) := fun _ => if_pos hp
  have hfault : exec (.qlFault p t) s = .next (qlFaultOp s1 p) := if_pos hp
  refine ⟨fun lanes ok h => (htrain lanes ok).trans (next_congr (portTrainOp_stays (s := s1) h)), fun lanes hm h2 h3 h0 hl => ?_,
    fun lanes ok hm h2 h3 h0 hbad => ?_, fun lanes hm h2 h3 h0 => ⟨?_, ?_⟩, fun m h => (hident m).trans (next_congr (if_pos h)),
    fun m h1 h0 hk => ?_, fun m h1 h0 hk hpair => ?_, fun m k h1 h0 hk hpair => ?_, fun v h => (hretrain v).trans (next_congr (if_neg ?_)),
    fun v hs hv => ?_, fun h => hsilence.trans (next_congr (if_neg ?_)), fun h2 hle => ?_, fun lane h => (hlane lane).trans (next_congr (if_pos ?_)),
    fun lane h => ⟨fun h2 => ?_, fun h1 => ?_⟩, fun h2 => ?_⟩
  · have hop := (portTrainOp_trains (s := s1) lanes true hm h2 h3).trans ((if_pos h0).trans (if_pos (by simpa using (lanesOk_iff lanes).mpr hl)))
    obtain ⟨g1, g2⟩ := onlyPort_setPort (s := s) (v := s1) (u := setPort s1 p { x with state := 1, lanes := lanes }) rfl rfl
    exact ⟨_, _, (htrain lanes true).trans (next_congr hop), g1, g2, rfl⟩
  · have hno : ¬(ok && lanesOk lanes) = true := by
      rw [Bool.and_eq_true, lanesOk_iff]
      rintro ⟨ho, hl⟩
      rcases hbad with hb | ⟨b1, b2, b3⟩
      · exact absurd (ho.symm.trans hb) (by decide)
      · omega
    have hop := (portTrainOp_trains (s := s1) lanes ok hm h2 h3).trans ((if_pos h0).trans (if_neg hno))
    exact ⟨_, (htrain lanes ok).trans (next_congr hop), onlyPort_trainFails s1 p 2⟩
  · have hop := (portTrainOp_trains (s := s1) lanes false hm h2 h3).trans ((if_neg h0).trans (if_neg (by decide)))
    exact ⟨_, (htrain lanes false).trans (next_congr hop), onlyPort_trainFails s1 p 7⟩
  · have hop := (portTrainOp_trains (s := s1) lanes true hm h2 h3).trans ((if_neg h0).trans (if_pos rfl))
    obtain ⟨k, g1, g2⟩ := comeUp_port s1 p
    refine ⟨_, (htrain lanes true).trans (next_congr hop), ?_⟩
    rw [g1]
    exact ⟨rfl, rfl, rfl, rfl, rfl, rfl, rfl, rfl, rfl, g2⟩
  · have hop : identOp s1 p m = trainFails s1 p 4 :=
      (if_neg (by simp [show (portOf s1 p).state = 1 from h1, show (portOf s1 p).use = 0 from h0])).trans (if_pos hk)
    exact ⟨_, (hident m).trans (next_congr hop), onlyPort_trainFails s1 p 4⟩
  · exact ⟨_, (hident m).trans (next_congr (identOp_mismatch (s := s1) h1 h0 hk hpair)), onlyPort_trainFails s1 p 5⟩
  · obtain ⟨g1, g2⟩ := onlyPort_of_ports (s := s) (v := setPort s1 p { x with use := k, peer := if k = 2 then numberFor s p else m.module, peerSerial := m.serial })
      (u := paired s1 p m k) (onlyPort_setPort rfl rfl) rfl
    refine ⟨_, (hident m).trans (next_congr (identOp_paired (s := s1) h1 h0 hk hpair)), g1, rfl, (mem_presentWith ..).1, ?_, g2⟩
    rw [g1]
    exact (mem_presentWith ..).2
  · rcases h with h | h
    · simp [show inService s1 = false from h]
    · simp [h]
  · obtain ⟨⟨g1, g2⟩, g3⟩ := onlyPort_restartPort s1 p 0
    exact ⟨_, (hretrain v).trans (next_congr (if_pos (Bool.and_eq_true_iff.mpr ⟨hs, hv⟩))), g1, g2, g3⟩
  · rintro ⟨h2, hle⟩
    rcases h with h | h
    · exact h h2
    · exact absurd hle (Nat.not_le.mpr h)
  · exact ⟨_, hsilence.trans (next_congr (if_pos ⟨h2, hle⟩)), onlyPort_portDown s1 p 3⟩
  · simp [show bitAt (portOf s1 p).lanes lane = false from h]
  · have hop : lanesLostOp s1 p lane = portDown s1 p 2 := (if_neg (by simp [show bitAt (portOf s1 p).lanes lane = true from h])).trans (if_pos h2)
    exact ⟨_, (hlane lane).trans (next_congr hop), onlyPort_portDown s1 p 2⟩
  · have hop : lanesLostOp s1 p lane = trainFails s1 p 2 := (if_neg (by simp [show bitAt (portOf s1 p).lanes lane = true from h])).trans
      ((if_neg (by simp [show (portOf s1 p).state = 1 from h1])).trans (if_pos h1))
    exact ⟨_, (hlane lane).trans (next_congr hop), onlyPort_trainFails s1 p 2⟩
  · obtain ⟨g1, g2⟩ := qlFaultOp_up (s := s1) h2
    exact ⟨_, hfault.trans (next_congr rfl), g1, g2⟩

end Sys2Proof.Proofs
/-! # Time across modules -/
namespace Sys2Proof.Proofs

open Sys2Proof.Machine Sys2Proof.Safety Sys2Proof.Laws

/-! ## A reply that carries the times -/

/-- The time block after a reply, from the block that stands. -/
def repliedTime (b : TimeBlk) (own offset : Int) (slew : Int) : TimeBlk :=
  { b with offset := own + offset, locked := decide (own.natAbs ≤ 64), slew := slew, lastReply := max 1 b.base }

/-- Whether a reply steps the time base. -/
def stepsBase (s : State) (th : Int) : Bool := s.time.lastReply == 0 && th != 0 && (s.rst.cold || decide (16000 < th.natAbs))

theorem timeReplyOp_time {s : State} {p : Nat} {t1 t2 t3 t4 w : Int} (h1 : (portOf s p).state = 2) (h2 : (portOf s p).use = 1) :
    (timeReplyOp s p t1 t2 t3 t4 w).time
      = repliedTime (if stepsBase s (thetaOf t1 t2 t3 t4) = true then stepBase s (-(rneDiv (thetaOf t1 t2 t3 t4) 16)) else s).time
          (if stepsBase s (thetaOf t1 t2 t3 t4) = true then 0 else thetaOf t1 t2 t3 t4) (if sysRole s = 3 then w else 0)
          (slewFor (if stepsBase s (thetaOf t1 t2 t3 t4) = true then 0 else thetaOf t1 t2 t3 t4) (drawNat s)) := by
  have hgo : ¬((portOf s p).state ≠ 2 ∨ (portOf s p).use ≠ 1) := by
    rintro (h | h)
    · exact h h1
    · exact h h2
  have hre : ∀ (b : Bool) (y : State), (if b = true then rejoin y else y).time = y.time := fun b y => by
    split
    · exact rejoin_offset y
    · rfl
  exact (congrArg State.time (if_neg hgo)).trans ((hre _ _).trans rfl)

theorem timeReplyOp_steers {s : State} {p : Nat} {t1 t2 t3 t4 w : Int} (h1 : (portOf s p).state = 2) (h2 : (portOf s p).use = 1)
    (h0 : s.time.lastReply ≠ 0) : (timeReplyOp s p t1 t2 t3 t4 w).time
      = repliedTime s.time (thetaOf t1 t2 t3 t4) (if sysRole s = 3 then w else 0) (slewFor (thetaOf t1 t2 t3 t4) (drawNat s)) := by
  have hno : ¬stepsBase s (thetaOf t1 t2 t3 t4) = true := by
    unfold stepsBase
    simp [h0]
  rw [timeReplyOp_time h1 h2, if_neg hno, if_neg hno]

theorem timeReplyOp_steps {s : State} {p : Nat} {t1 t2 t3 t4 w : Int} (h1 : (portOf s p).state = 2) (h2 : (portOf s p).use = 1)
    (h0 : s.time.lastReply = 0) (hc : s.rst.cold = true) (hth : thetaOf t1 t2 t3 t4 ≠ 0) : (timeReplyOp s p t1 t2 t3 t4 w).time
      = repliedTime (stepBase s (-(rneDiv (thetaOf t1 t2 t3 t4) 16))).time 0 (if sysRole s = 3 then w else 0) 0 := by
  have hyes : stepsBase s (thetaOf t1 t2 t3 t4) = true := by
    unfold stepsBase
    simp [h0, hc, hth]
  rw [timeReplyOp_time h1 h2, if_pos hyes, if_pos hyes]
  rfl

/-- The slew goes against the offset, by at most 100 ppm. -/
theorem slewFor_spec (th : Int) (n : Nat) :
    (slewFor th n).natAbs ≤ 25600 ∧ (0 < th → slewFor th n ≤ 0) ∧ (th < 0 → 0 ≤ slewFor th n) ∧ (th = 0 → slewFor th n = 0) := by
  have hmod : n % 25601 < 25601 := Nat.mod_lt _ (by decide)
  unfold slewFor
  split
  · refine ⟨?_, ?_, ?_, ?_⟩ <;> omega
  · split <;> refine ⟨?_, ?_, ?_, ?_⟩ <;> omega

/-! ## Crossings -/

theorem crossingResetOp_answered (s : State) (p : Nat) :
    OnlyPort s (crossingResetOp s (.link p) true) p (flushPort (portOf s p))
      ∧ (crossingResetOp s (.link p) true).time.resetting = s.time.resetting.filter (· ≠ .link p)
      ∧ (crossingResetOp s (.link p) true).time.stuck = (s.time.resetting.filter (· ≠ .link p) != []) :=
  ⟨onlyPort_setPort rfl rfl, rfl, rfl⟩

/-- Settles O54: the time messages, their reply, the pulse and the crossings. -/
theorem timeBases : Obligations.TimeBases := by
  intro p t s hp s1 x n
  have hout : s.out ++ [.pin .extSync true] ++ [.pin .extSync false] = s.out ++ [.pin .extSync true, .pin .extSync false] := List.append_assoc _ _ _
  have hreply : ∀ t1 t2 t3 t4 w, exec (.timeReply p t1 t2 t3 t4 w t) s = .next (timeReplyOp s1 p t1 t2 t3 t4 w) := fun _ _ _ _ _ => if_pos hp
  refine ⟨fun h1 h2 h3 => (if_pos hp).trans (next_congr (if_pos ⟨h1, h2, h3⟩)), fun h => (if_pos hp).trans (next_congr (if_neg ?_)),
    fun t1 h1 h2 => (if_pos hp).trans (next_congr (if_pos ⟨h1, h2⟩)), fun t1 h => (if_pos hp).trans (next_congr (if_neg ?_)),
    fun t1 t2 t3 t4 w h => (hreply ..).trans (next_congr (if_pos h)), ?_, ?_, fun h => next_congr (if_neg ?_),
    fun h1 h2 => next_congr (if_pos ⟨h1, h2⟩), fun h => next_congr (if_neg ?_), fun h1 h2 => next_congr ((if_pos ?_).trans ?_),
    fun c hc => (if_pos hc).trans (next_congr ?_), ?_⟩
  · rintro ⟨g1, g2, g3⟩
    rcases h with h | h | h
    · exact h g1
    · exact h g2
    · exact absurd g3 (Nat.not_le.mpr h)
  · rintro ⟨g1, g2⟩
    rcases h with h | h
    · exact h g1
    · exact h g2
  · intro t1 t2 t3 t4 w h1 h2 h0 th
    have htime := timeReplyOp_steers (s := s1) (t1 := t1) (t2 := t2) (t3 := t3) (t4 := t4) (w := w) h1 h2 h0
    obtain ⟨g1, g2, g3, g4⟩ := slewFor_spec th (drawNat s1)
    refine ⟨_, hreply .., ?_⟩
    rw [htime]
    exact ⟨rfl, rfl, rfl, g1, g2, g3, g4, rfl, rfl⟩
  · intro t1 t2 t3 t4 w h1 h2 h0 hc th hth
    have htime := timeReplyOp_steps (s := s1) (t1 := t1) (t2 := t2) (t3 := t3) (t4 := t4) (w := w) h1 h2 h0 hc hth
    refine ⟨_, hreply .., ?_⟩
    rw [htime]
    exact ⟨rfl, rfl, rfl, rfl, Int.zero_add _⟩
  · rintro ⟨g1, g2⟩
    rcases h with h | h
    · exact absurd g1 (Nat.not_le.mpr h)
    · exact absurd g2 (Nat.not_le.mpr h)
  · rw [Bool.and_eq_true, decide_eq_true_eq]
    rintro ⟨g1, g2⟩
    rcases h with h | h
    · exact absurd (g1.symm.trans h) (by decide)
    · exact absurd g2 (Nat.not_lt.mpr h)
  · exact Bool.and_eq_true_iff.mpr ⟨h1, decide_eq_true h2⟩
  · exact congrArg (fun l => { s1 with out := l, rst := { s.rst with lastSync := n } }) hout
  · have hstuck : (addOnce s.time.resetting c != []) = true := by
      have hmem : c ∈ addOnce s.time.resetting c := mem_addOnce.mpr (.inl rfl)
      simpa using List.ne_nil_of_mem hmem
    exact congrArg (fun b => { s1 with time := { s.time with base := n, resetting := addOnce s.time.resetting c, stuck := b } }) hstuck
  · obtain ⟨⟨g1, g2⟩, g3, g4⟩ := crossingResetOp_answered s1 p
    refine ⟨_, if_pos (decide_eq_true hp), g1, g2, fun c => ?_, ?_⟩
    · rw [g3, List.mem_filter, decide_eq_true_eq]
      rfl
    · rw [g4, g3]
      exact bne_iff_ne

end Sys2Proof.Proofs
/-! # Control messages of a system of modules -/
namespace Sys2Proof.Proofs

open Sys2Proof.Machine Sys2Proof.Safety Sys2Proof.Laws

/-! ## Roles -/

theorem isBelow_iff (s : State) : isBelow s = true ↔ 2 ≤ sysRole s := by
  unfold isBelow
  exact decide_eq_true_iff

theorem isManager_iff (s : State) : isManager s = true ↔ sysRole s = 1 := by
  unfold isManager
  exact beq_iff_eq

/-- A guard of service and role does not hold. -/
theorem guard_fails {a b : Bool} (h : a = false ∨ b = false) : (!a || !b) = true := by
  rcases h with h | h <;> simp [h]

theorem guard_holds {a b : Bool} (ha : a = true) (hb : b = true) : ¬(!a || !b) = true := by simp [ha, hb]

theorem guard_role {a : Bool} {n : Nat} (h : a = false ∨ n = 0) : (!a || n == 0) = true := by
  rcases h with h | h <;> simp [h]

theorem isBelow_false {s : State} (h : sysRole s < 2) : isBelow s = false := by
  unfold isBelow
  exact decide_eq_false (Nat.not_le.mpr h)

theorem isManager_false {s : State} (h : sysRole s ≠ 1) : isManager s = false := beq_eq_false_iff_ne.mpr h

/-! ## Named boundaries -/

/-- What a boundary's name writes, before a flip takes it over. -/
def boundaryNamed (s : State) (step tB owner : Nat) (bad : List Nat) (rows : List SysRow) : State :=
  let s1 := withholdIds bad s
  { s1 with ql := { s1.ql with named := some (step, tB), late := s1.ql.late || decide (tB < now s), nextOwner := some owner, nextRows := if rows = [] then s1.ql.nextRows else rows, nextNumber := if rows = [] then s1.ql.nextNumber else step + 1 } }

theorem boundaryNamed_rows {s : State} {k : Step} (step tB owner : Nat) (bad : List Nat) (rows : List SysRow) (hk : s.sched.step = some k) :
    (boundaryNamed s step tB owner bad rows).sched.step
      = some { k with rows := k.rows.map (fun w => if rowId s w ∈ bad then { w with withheld := true } else w) } := by
  have h : ∀ g : Step → Step, (modStep s g).sched.step = s.sched.step.map g := fun _ => rfl
  exact (h _).trans (by rw [hk]; rfl)

/-- What a named boundary leaves: a flip that was ordered has its boundary, and the rest is as named. -/
theorem boundaryNameOp_names {s : State} {step tB owner : Nat} {bad : List Nat} {rows : List SysRow} (hs : inService s = true) (hb : isBelow s = true) :
    (boundaryNameOp s step tB owner bad rows).ql = (boundaryNamed s step tB owner bad rows).ql
      ∧ (boundaryNameOp s step tB owner bad rows).sched.wantBoundary = true
      ∧ (boundaryNameOp s step tB owner bad rows).sched.step = (boundaryNamed s step tB owner bad rows).sched.step
      ∧ (∀ id, s.plates.systemPrep = some (id, true) → (boundaryNameOp s step tB owner bad rows).plates.flipAt = some tB
          ∧ (boundaryNameOp s step tB owner bad rows).plates.systemPrep = none) := by
  have hop : boundaryNameOp s step tB owner bad rows = (match s.plates.systemPrep with
      | some (_, true) => wantBoundary (setPlates (boundaryNamed s step tB owner bad rows) (fun b => { b with systemPrep := none, flipAt := some tB }))
      | _ => wantBoundary (boundaryNamed s step tB owner bad rows)) := (if_neg (guard_holds hs hb)).trans rfl
  rw [hop]
  split
  next h => exact ⟨rfl, rfl, rfl, fun _ _ => ⟨rfl, rfl⟩⟩
  next hn => exact ⟨rfl, rfl, rfl, fun id h => absurd h (hn id)⟩

/-! ## Seal reports -/

/-- The state with a report kept. -/
def reportKept (s : State) (r : SealReport) : State :=
  setKv { s with ql := { s.ql with reports := s.ql.reports.filter (fun x => !(x.module == r.module && x.step == r.step)) ++ [r] } }
    (fun k => { k with others := tput k.others r.module r.freeSheets })

/-- Whether every module of a step has reported. -/
def allReported (s : State) (k : Step) : Bool := (stepModules s k).all (fun m => (stepReports s k).any (fun r => r.module == m))

theorem mem_reportKept (s : State) (r y : SealReport) :
    y ∈ (reportKept s r).ql.reports ↔ y = r ∨ (y ∈ s.ql.reports ∧ ¬(y.module = r.module ∧ y.step = r.step)) := by
  unfold reportKept setKv
  rw [List.mem_append, List.mem_filter, List.mem_singleton, or_comm]
  simp [imp_iff_not_or]

theorem allReported_iff (s : State) (k : Step) :
    allReported s k = true ↔ ∀ q ∈ stepModules s k, ∃ y ∈ s.ql.reports, y.module = q ∧ y.step = k.number := by
  unfold allReported stepReports
  simp only [List.all_eq_true, List.any_eq_true, List.mem_filter, beq_iff_eq]
  exact forall₂_congr fun q _ => ⟨fun ⟨y, ⟨h1, h2⟩, h3⟩ => ⟨y, h1, h3, h2⟩, fun ⟨y, h1, h3, h2⟩ => ⟨y, ⟨h1, h2⟩, h3⟩⟩

/-- Naming a boundary writes the name, and leaves reports and the pages of others. -/
theorem tryName_keeps (s : State) :
    (tryName s).ql.reports = s.ql.reports ∧ (tryName s).kv = s.kv := by
  have hcast : ∀ (x : State) (k : Nat) (l : List Nat), (broadcast x k l).kv = x.kv := fun x k l => by
    refine foldl_unchanged State.kv (fun u m => ?_) _ x
    unfold sendControl
    repeat' split
    all_goals rfl
  unfold tryName
  split
  · exact ⟨rfl, rfl⟩
  · split
    · exact ⟨(congrArg QlBlk.reports (broadcast_ql _ _ _) : _), hcast _ _ _⟩
    · exact ⟨rfl, rfl⟩

theorem tryName_named {s : State} {k : Step} (hk : s.sched.step = some k) (hsys : k.system = true) (hset : k.settled = true)
    (hn : s.ql.named = none) (hm : sysRole s = 1) :
    (tryName s).ql.named = if allReported s k = true then some (k.number, now s + boundaryLead s) else none := by
  unfold tryName
  rw [hk]
  dsimp only
  split
  next h =>
    obtain ⟨_, h2⟩ := Bool.and_eq_true_iff.mp h
    exact (congrArg QlBlk.named (broadcast_ql ..)).trans (if_pos h2).symm
  next h =>
    have hno : ¬allReported s k = true := fun h2 => h (Bool.and_eq_true_iff.mpr ⟨by simp [hsys, hset, hn, hm], h2⟩)
    exact hn.trans (if_neg hno).symm

/-! ## Absent modules -/

theorem markAbsents_keep : ∀ (l : List Nat) (s : State), (l.foldl markAbsent s).ql.module = s.ql.module
    ∧ (∀ q ∈ s.ql.absent, q ∈ (l.foldl markAbsent s).ql.absent) ∧ ∀ q ∈ l, q ≠ s.ql.module → q ∈ (l.foldl markAbsent s).ql.absent
  | [], _ => ⟨rfl, fun _ hq => hq, fun _ hq => absurd hq (by simp)⟩
  | m :: l, s => by
    obtain ⟨h1, h2, h3⟩ := markAbsents_keep l (markAbsent s m)
    obtain ⟨_, k2, k3⟩ := markAbsent_keeps s m
    rw [List.foldl_cons]
    refine ⟨h1.trans k2, fun q hq => h2 q (k3 q hq), fun q hq hne => ?_⟩
    rcases List.mem_cons.mp hq with rfl | hq
    · exact h2 _ (mem_markAbsent hne)
    · exact h3 q hq (fun e => hne (e.trans k2))

theorem stepModules_ne {s : State} {k : Step} {q : Nat} (h : q ∈ stepModules s k) : q ≠ s.ql.module := by
  have hf := (List.mem_filter.mp h).2
  simp only [Bool.and_eq_true, bne_iff_ne] at hf
  exact hf.1.1

theorem sealTimeoutOp_marks {s : State} {k : Step} {t0 : Nat} (hk : s.sched.step = some k) (ht : s.ql.sealAt = some t0) (hm : isManager s = true)
    (hsys : k.system = true) (hset : k.settled = true) (hn : s.ql.named = none) (hle : t0 + sealTimeoutNs s ≤ now s) :
    sealTimeoutOp s = ((stepModules s k).filter (fun m => !(stepReports s k).any (fun r => r.module == m))).foldl markAbsent s := by
  unfold sealTimeoutOp
  rw [hk, ht]
  exact if_pos (by simp [hm, hsys, hset, hn, hle])

theorem sealTimeoutOp_stays {s : State} (h : s.sched.step = none ∨ s.ql.sealAt = none) : sealTimeoutOp s = s := by
  unfold sealTimeoutOp
  rcases h with h | h
  · rw [h]
  · rw [h]
    split <;> simp_all

theorem cutHere_cuts {s : State} {k : Step} (hk : s.sched.step = some k) (hc : k.cut = false) :
    cutHere s = wantBoundary { setSched s (fun c => { c with step := some { k with cut := true, waiting := [], sealing := true } }) with
      sec := { s.sec with cuts := satAdd 32 s.sec.cuts 1 } } := by
  unfold cutHere
  rw [hk]
  exact (if_neg (by simp [hc])).trans rfl

/-! ## Plate changes across modules -/

/-- The state in which a change is locked up. -/
def lockedUp (s : State) (txn : Nat) (x : Txn) : State :=
  setPlates (putTxn s 1 (some { x with committing := true, acceptedAt := now s, reply := none })) (fun b => { b with systemPrep := some (txn, false), flipAt := none })

theorem commitPrepOp_locks {s : State} {txn : Nat} {x : Txn} (hs : inService s = true) (hb : isBelow s = true) (hp : s.plates.systemPrep = none)
    (hx : s.txns.plate = some x) (hc : x.committing = false) (hst : commitStatus s 1 x = none) :
    commitPrepOp s txn = wantBoundary (startDrain (lockedUp s txn x)) := by
  unfold commitPrepOp
  rw [if_neg (guard_holds hs hb), hp]
  dsimp only
  rw [show txnOf s.txns 1 = some x from hx]
  exact (if_neg (by simp [hc, hst])).trans rfl

theorem startDrain_keeps (s : State) : (startDrain s).txns = s.txns ∧ (startDrain s).plates.systemPrep = s.plates.systemPrep
    ∧ (startDrain s).plates.table = s.plates.table := by
  unfold startDrain
  split <;> exact ⟨rfl, rfl, rfl⟩

theorem commitPrepOp_orders {s : State} {txn : Nat} {b : Bool} (hs : inService s = true) (hb : isBelow s = true)
    (hp : s.plates.systemPrep = some (txn, b)) : commitPrepOp s txn = setPlates s (fun b => { b with systemPrep := some (txn, true) }) := by
  unfold commitPrepOp
  rw [if_neg (guard_holds hs hb), hp]
  exact if_pos rfl

theorem orderFlip_ql (s : State) : (orderFlip s).ql = s.ql := by
  have hsends : ∀ (l : List Nat) (ws : List Nat) (u : State), (l.foldl (fun y m => sendControl y 8 m ws) u).ql = u.ql := fun l ws u =>
    foldl_unchanged State.ql (fun y m => sendControl_ql y 8 m ws) l u
  have hset : ∀ (u : State) (f : PlateBlk → PlateBlk), (wantBoundary (setPlates u f)).ql = u.ql := fun _ _ => rfl
  unfold orderFlip
  split
  · split
    · dsimp only
      refine (hset _ _).trans ?_
      split
      · exact hsends _ _ s
      · exact (broadcast_ql _ _ _).trans (hsends _ _ s)
    · rfl
  · rfl

/-! ## LINK resets -/

theorem requestReset_link {s : State} (hr : firmwareRuns s = true) (hst : s.therm.stopping = none) :
    (requestReset s .link).rst.phase = .inReset ∧ (requestReset s .link).rst.sources = [.link]
      ∧ (requestReset s .link).time.base = s.time.base ∧ (requestReset s .link).reqs = [] := by
  have hphase : s.rst.phase ≠ .inReset ∧ s.rst.phase ≠ .latched := by
    constructor <;> intro h <;> rw [firmwareRuns, h] at hr <;> exact absurd hr (by decide)
  have hop : requestReset s .link = setPins (startedReset s .link) (resetPinList (startedReset s .link) (!isWarm .link) (uplinkOf s)) := by
    unfold requestReset
    rw [hst]
    exact (if_neg (by simp)).trans (beginReset_starts hphase.1 hphase.2 hst)
  have htime : (countedReset s .link).time = s.time := by
    unfold countedReset
    split <;> rfl
  have hbase := reach_base (!isWarm .link) (countedReset s .link)
  rw [hop]
  exact ⟨rfl, rfl, hbase.trans (congrArg TimeBlk.base htime), rfl⟩

/-! ## Routes -/

theorem mem_insertAsc {x y : Nat} : ∀ {l : List Nat}, y ∈ insertAsc x l ↔ y = x ∨ y ∈ l
  | [] => by simp [insertAsc]
  | z :: l => by
    unfold insertAsc
    split
    · exact List.mem_cons
    · rw [List.mem_cons, mem_insertAsc, List.mem_cons]
      exact or_left_comm

theorem mem_sortAsc {y : Nat} : ∀ {l : List Nat}, y ∈ sortAsc l ↔ y ∈ l
  | [] => Iff.rfl
  | _ :: _ => mem_insertAsc.trans ((or_congr Iff.rfl mem_sortAsc).trans List.mem_cons.symm)

/-- The state with a route table installed. -/
def routesInstalled (s : State) (table : List (Nat × Nat)) : State :=
  { s with ql := { s.ql with routeTable := table, present := sortAsc ((s.ql.module :: table.map (fun e => e.1)).eraseDups) } }

theorem mem_routesInstalled (s : State) (table : List (Nat × Nat)) (q : Nat) :
    q ∈ (routesInstalled s table).ql.present ↔ q = s.ql.module ∨ ∃ e ∈ table, e.1 = q := by
  unfold routesInstalled
  rw [mem_sortAsc, List.mem_eraseDups, List.mem_cons, List.mem_map]

theorem routesOp_routes {s : State} {table : List (Nat × Nat)} (hs : inService s = true) (hr : sysRole s ≠ 0) :
    routesOp s table = if isManager s = true then broadcast (routesInstalled s table) 12 (table.flatMap (fun e => [e.1, e.2])) else routesInstalled s table :=
  (if_neg (by simp [hs, hr])).trans rfl

/-- Settles O55: each control message in turn. -/
theorem systemMessages : Obligations.SystemMessages := by
  intro p m t s hp s1 n
  have hreset : ∀ d, exec (.resetReq p d t) s = .next (resetReqOp s1 p d) := fun _ => if_pos hp
  have hpin : ∀ low, exec (.qlRstreq p low t) s = .next (rstreqOp s1 p low) := fun _ => if_pos hp
  refine ⟨fun step tB o bad rows h => next_congr (if_pos (guard_fails (h.imp id isBelow_false))), fun step tB o bad rows hs hr => ?_,
    fun r h => next_congr (if_pos ?_), fun r hs hr ha => ?_, fun h => next_congr (sealTimeoutOp_stays (s := s1) h),
    fun k t0 hk ht hr hsys hset hn hle => ?_, fun step h => next_congr (if_neg ?_), fun k hr hk hsys hc => ?_,
    fun txn x hs hr hp0 hx hc hst => ?_, fun txn b hs hr hp0 => next_congr (commitPrepOp_orders (s := s1) hs ((isBelow_iff s1).mpr hr) hp0),
    fun e hs hr => ⟨fun ha he => ?_, fun ha he => ?_, fun ha => ?_⟩, fun h => ⟨(hreset m).trans (next_congr (if_pos ?_)), fun low =>
      (hpin low).trans (next_congr (if_neg ?_))⟩, fun i hr hup hf hst hi => ?_, fun low hlow => (hpin low).trans (next_congr (if_neg ?_)),
    fun c h => next_congr (if_neg ?_), fun c hs hr hne hn => ?_, fun table h => next_congr (if_pos ?_), fun table hs hr => ?_⟩
  · obtain ⟨h1, h2, h3, h4⟩ := boundaryNameOp_names (s := s1) (step := step) (tB := tB) (owner := o) (bad := bad) (rows := rows) hs ((isBelow_iff s1).mpr hr)
    refine ⟨_, rfl, ?_⟩
    rw [h1, h3]
    refine ⟨rfl, rfl, rfl, h2, fun hrows => ⟨if_neg hrows, if_neg hrows⟩, fun k hk => ?_, h4⟩
    exact ⟨_, boundaryNamed_rows (s := s1) step tB o bad rows hk, rfl⟩
  · rw [Bool.or_eq_true]
    rcases h with h | h | h
    · exact .inl (guard_fails (.inl h))
    · exact .inl (guard_fails (.inr (isManager_false h)))
    · exact .inr (decide_eq_true h)
  · have hop : sealReportOp s1 r = tryName (reportKept s1 r) :=
      (if_neg (by simp [show inService s1 = true from hs, (isManager_iff s1).mpr hr, show r.module ∉ s1.ql.absent from ha])).trans rfl
    obtain ⟨h1, h2⟩ := tryName_keeps (reportKept s1 r)
    refine ⟨_, next_congr hop, ?_, ?_, fun k hk hsys hset hn => ?_⟩
    · rw [h1]
      exact (mem_reportKept s1 r r).mpr (.inl rfl)
    · rw [h2]
      exact tfind_tput_same _ _ _
    · have hname := tryName_named (s := reportKept s1 r) hk hsys hset hn hr
      have hall := allReported_iff (reportKept s1 r) k
      have hmods : stepModules (reportKept s1 r) k = stepModules s1 k := rfl
      rw [hmods] at hall
      refine ⟨fun h => hname.trans (if_pos (hall.mpr fun q hq => ?_)), fun ⟨q, hq, hne, hnone⟩ => hname.trans (if_neg fun hyes => ?_)⟩
      · rcases h q hq with ⟨h1, h2⟩ | ⟨y, hy, h1, h2⟩
        · exact ⟨r, (mem_reportKept s1 r r).mpr (.inl rfl), h1.symm, h2⟩
        · by_cases hsame : y.module = r.module ∧ y.step = r.step
          · exact ⟨r, (mem_reportKept s1 r r).mpr (.inl rfl), hsame.1.symm.trans h1, hsame.2.symm.trans h2⟩
          · exact ⟨y, (mem_reportKept s1 r y).mpr (.inr ⟨hy, hsame⟩), h1, h2⟩
      · obtain ⟨y, hy, h1, h2⟩ := hall.mp hyes q hq
        rcases (mem_reportKept s1 r y).mp hy with heq | ⟨hold, _⟩
        · exact hne (h1.symm.trans (congrArg SealReport.module heq))
        · exact hnone y hold h1 h2
  · have hop := sealTimeoutOp_marks (s := s1) hk ht ((isManager_iff s1).mpr hr) hsys hset hn hle
    obtain ⟨_, h2, h3⟩ := markAbsents_keep ((stepModules s1 k).filter (fun m => !(stepReports s1 k).any (fun r => r.module == m))) s1
    refine ⟨_, next_congr hop, h2, fun q hq hnone => h3 q (List.mem_filter.mpr ⟨hq, ?_⟩) (stepModules_ne hq)⟩
    have hany : (stepReports s1 k).any (fun r => r.module == q) = false := by
      unfold stepReports
      rw [List.any_eq_false]
      intro y hy hyq
      obtain ⟨hy1, hy2⟩ := List.mem_filter.mp hy
      exact hnone y hy1 (beq_iff_eq.mp hyq) (beq_iff_eq.mp hy2)
    rw [hany]
    rfl
  · rw [Bool.and_eq_true]
    rintro ⟨hb, hk⟩
    rcases h with h | h
    · exact absurd (hb.symm.trans (isBelow_false h)) (by decide)
    · obtain ⟨k, hk, hno⟩ := (Option.any_eq_true _ _).mp hk
      obtain ⟨h1, h2⟩ := Bool.and_eq_true_iff.mp hno
      rcases h k hk with g | g
      · exact g (beq_iff_eq.mp h1)
      · exact absurd (h2.symm.trans g) (by decide)
  · have hop : cutOp s1 k.number = cutHere s1 := by
      refine if_pos ?_
      rw [show s1.sched.step = some k from hk]
      simp [(isBelow_iff s1).mpr hr, hsys]
    exact ⟨_, next_congr (hop.trans (cutHere_cuts (s := s1) hk hc)), rfl, rfl, rfl, rfl⟩
  · have hop := commitPrepOp_locks (s := s1) (txn := txn) hs ((isBelow_iff s1).mpr hr) hp0 hx hc hst
    obtain ⟨h1, h2, h3⟩ := startDrain_keeps (lockedUp s1 txn x)
    exact ⟨_, next_congr hop, congrArg TxnBlk.plate h1, h2, rfl, h3⟩
  · exact next_congr ((if_neg (guard_holds hs ((isManager_iff s1).mpr hr))).trans ((if_pos ha).trans (if_pos he)))
  · exact next_congr ((if_neg (guard_holds hs ((isManager_iff s1).mpr hr))).trans ((if_pos ha).trans (if_neg he)))
  · have hop : commitReadyOp s1 m e = orderFlip { s1 with ql := { s1.ql with ready := addOnce s1.ql.ready m } } :=
      (if_neg (guard_holds hs ((isManager_iff s1).mpr hr))).trans (if_neg ha)
    refine ⟨_, next_congr hop, ?_⟩
    rw [orderFlip_ql]
    exact ⟨mem_addOnce.mpr (.inl rfl), rfl⟩
  · rcases h with h | h | h
    · simp [isBelow_false (s := s1) h]
    · simp [show p ≠ uplink s1 from h]
    · simp [show firmwareRuns s1 = false from h]
  · rcases h with h | h | h
    · simp [isBelow_false (s := s1) h]
    · simp [show p ≠ uplink s1 from h]
    · simp [show firmwareRuns s1 = false from h]
  · obtain ⟨g1, g2, g3, g4⟩ := requestReset_link (s := s1) hf hst
    have hbelow := (isBelow_iff s1).mpr hr
    rcases hi with rfl | ⟨low, hlow, rfl⟩
    · have hop : resetReqOp s1 p s.ql.module = requestReset s1 .link :=
        (if_neg (by simp [hbelow, show p = uplink s1 from hup, show firmwareRuns s1 = true from hf])).trans (if_pos rfl)
      exact ⟨_, (hreset _).trans (next_congr hop), g1, g2, g3, g4⟩
    · have hop : rstreqOp s1 p low = requestReset s1 .link :=
        if_pos (by simp [hbelow, show p = uplink s1 from hup, hlow, show firmwareRuns s1 = true from hf])
      exact ⟨_, (hpin low).trans (next_congr hop), g1, g2, g3, g4⟩
  · simp [Nat.not_le.mpr hlow]
  · rw [Bool.and_eq_true]
    rintro ⟨h1, h2⟩
    rcases h with h | h
    · exact absurd (h1.symm.trans h) (by decide)
    · exact absurd (h2.symm.trans (isManager_false h)) (by decide)
  · have hop : fenceMsgOp s1 m = markAbsent s1 m := if_pos (by simp [show inService s1 = true from hs, (isManager_iff s1).mpr hr])
    refine ⟨_, next_congr hop, ?_⟩
    rw [markAbsent_marks (s := s1) hne hn]
    exact ⟨List.mem_append_right _ (List.mem_singleton_self m), fun h => by simpa using (List.mem_filter.mp h).2⟩
  · exact guard_role h
  · have hop := routesOp_routes (s := s1) (table := table) hs hr
    have hql : (if isManager s1 = true then broadcast (routesInstalled s1 table) 12 (table.flatMap (fun e => [e.1, e.2])) else routesInstalled s1 table).ql
        = (routesInstalled s1 table).ql := by
      split
      · exact broadcast_ql ..
      · rfl
    refine ⟨_, next_congr hop, ?_, fun q => ?_, fun hr1 => ?_⟩
    · rw [hql]
      rfl
    · rw [hql]
      exact mem_routesInstalled s1 table q
    · rw [if_neg (by rw [isManager_false (s := s1) hr1]; decide)]
      rfl

end Sys2Proof.Proofs
/-! # The DOE mailbox and the sideband -/
namespace Sys2Proof.Proofs

open Sys2Proof.Machine Sys2Proof.Safety Sys2Proof.Laws

/-! ## SPDM messages -/

theorem setStream_session {s : State} {fn : Nat} (hs : s.pci.spdm = true) (hfn : fn < 256) (on : Bool) :
    setStream s fn on = emit (setFn s fn { fnOf s fn with ide := on }) (.sideband [b2n on]) :=
  if_pos (Bool.and_eq_true_iff.mpr ⟨hs, decide_eq_true hfn⟩)

theorem setStream_none {s : State} (hs : s.pci.spdm = false) (fn : Nat) (on : Bool) : setStream s fn on = s := if_neg (by simp [hs])

theorem tdiMove_moves {s : State} {fn old new : Nat} (hs : s.pci.spdm = true) (h1 : 1 ≤ fn) (hfn : fn < 256) (ht : (fnOf s fn).tdi = old) :
    tdiMove s fn old new = emit (setFn s fn { fnOf s fn with tdi := new }) (.sideband [new]) :=
  if_pos (by simp [hs, h1, hfn, ht])

theorem tdiMove_stays {s : State} {fn old : Nat} (new : Nat) (h : s.pci.spdm = false ∨ (fnOf s fn).tdi ≠ old) : tdiMove s fn old new = s := by
  refine if_neg ?_
  rcases h with h | h <;> simp [h]

theorem spdmOp_down {s : State} (h : hostUp s = false) (m : SpdmMsg) : spdmOp s m = s := if_pos (by rw [h]; rfl)

/-- Without a session nothing but its opening has an effect. -/
theorem spdmOp_noSession {s : State} (hs : s.pci.spdm = false) {m : SpdmMsg} (hm : m ≠ .session) : spdmOp s m = s := by
  unfold spdmOp
  split
  · rfl
  · cases m with
    | session => exact absurd rfl hm
    | ideKeys fn => exact setStream_none hs ..
    | ideRefresh fn =>
      dsimp only
      split
      · exact setStream_none hs ..
      · rfl
    | ideStop fn => exact setStream_none hs ..
    | tdiLock fn => exact tdiMove_stays _ (.inl hs)
    | tdiRun fn => exact tdiMove_stays _ (.inl hs)

/-! ## PLDM -/

theorem aget_adel_same {α β : Type} [DecidableEq α] (l : List (α × β)) (k : α) : aget (adel l k) k = none := (aget_adel l k k).trans (if_pos rfl)

/-- A request is answered, and the event that waited is cleared. -/
theorem pldmOp_answers {s : State} (r : PldmReq) (h : firmwareRuns s = true) :
    (pldmOp s r).out = s.out ++ [.sideband (pldmAnswer s r)] ∧ (pldmOp s r).side = { s.side with event := false }
      ∧ (s.side.event = true → pinLevel (pldmOp s r) .smbAlert = none)
      ∧ pldmOp s r = { s with out := (pldmOp s r).out, side := (pldmOp s r).side, pins := (pldmOp s r).pins } := by
  have hop : pldmOp s r = if s.side.event = true then
      release { emit s (.sideband (pldmAnswer s r)) with side := { s.side with event := false } } .smbAlert
      else emit s (.sideband (pldmAnswer s r)) := if_pos h
  rw [hop]
  by_cases he : s.side.event = true
  · rw [if_pos he]
    exact ⟨rfl, rfl, fun _ => aget_adel_same _ _, rfl⟩
  · rw [if_neg he]
    have hside : s.side = { s.side with event := false } := by
      rw [← Bool.eq_false_iff.mpr he]
    exact ⟨rfl, hside, fun h => absurd h he, rfl⟩

theorem pldmBudgetOp_refused {s : State} {b : Nat} (h : firmwareRuns s = false ∨ (b ≠ 0 ∧ (b < 500 ∨ 3300 < b))) : pldmBudgetOp s b = s := by
  refine if_neg ?_
  rw [Bool.and_eq_true, Bool.or_eq_true, Bool.and_eq_true, beq_iff_eq, decide_eq_true_eq, decide_eq_true_eq]
  rintro ⟨h1, h2⟩
  rcases h with h | h
  · exact absurd (h1.symm.trans h) (by decide)
  · omega

theorem pldmBudgetOp_taken {s : State} {b : Nat} (h1 : firmwareRuns s = true) (h2 : b = 0 ∨ (500 ≤ b ∧ b ≤ 3300)) :
    pldmBudgetOp s b = wantBoundary { s with power := { s.power with staged := some b } } := by
  refine if_pos ?_
  rw [Bool.and_eq_true, Bool.or_eq_true, Bool.and_eq_true, beq_iff_eq, decide_eq_true_eq, decide_eq_true_eq]
  exact ⟨h1, h2⟩

/-- Settles O57: the messages of the DOE mailbox and of the sideband. -/
theorem sideband : Obligations.Sideband := by
  intro fn t s s1
  have hspdm : ∀ m, exec (.spdmMessage m t) s = .next (spdmOp s1 m) := fun _ => rfl
  have hup : hostUp s = true → ¬(!hostUp s1) = true := fun h => by rw [show hostUp s1 = true from h]; decide
  have hside : sidebandUp s = true → ¬(!sidebandUp s1) = true := fun h => by rw [show sidebandUp s1 = true from h]; decide
  have hdata : s.side.fwState ≠ 1 → sidebandUp s = true → ∀ n v svn ok, fwUpdateOp s1 (.data n) = s1 ∧ fwUpdateOp s1 (.finish v svn ok) = s1 :=
    fun h hs n v svn ok => ⟨(if_neg (hside hs)).trans (if_neg h), (if_neg (hside hs)).trans (if_neg h)⟩
  refine ⟨fun h m => (hspdm m).trans (next_congr (spdmOp_down (s := s1) h m)), fun h => (hspdm _).trans (next_congr ((if_neg (hup h)).trans rfl)),
    fun h hs hfn => ⟨?_, ?_, fun hi => ?_, fun hi => ?_⟩, fun h hs h1 hfn => ⟨fun ht => ?_, fun ht => ?_, fun ht => ?_, fun ht => ?_⟩,
    fun hs m hm => (hspdm m).trans (next_congr (spdmOp_noSession (s := s1) hs hm)), fun eid h => next_congr (if_neg ?_),
    fun eid h he => next_congr (if_pos (Bool.and_eq_true_iff.mpr ⟨h, decide_eq_true he⟩)),
    fun r h => next_congr (if_neg (by rw [show firmwareRuns s1 = false from h]; decide)), fun r h => ⟨_, rfl, pldmOp_answers (s := s1) r h⟩,
    fun b h => next_congr (pldmBudgetOp_refused (s := s1) h), fun b h1 h2 => next_congr (pldmBudgetOp_taken (s := s1) h1 h2),
    fun x h => next_congr (if_pos (by rw [show sidebandUp s1 = false from h]; rfl)), fun h => ⟨next_congr ((if_neg (hside h)).trans rfl),
      next_congr ((if_neg (hside h)).trans rfl), fun n hf => next_congr ((if_neg (hside h)).trans (if_pos hf)),
      fun v svn ok hf => next_congr ((if_neg (hside h)).trans (if_pos hf)), fun n v svn ok hf =>
        ⟨next_congr (hdata hf h n v svn ok).1, next_congr (hdata hf h n v svn ok).2⟩⟩⟩
  · exact (hspdm _).trans (next_congr ((if_neg (hup h)).trans (setStream_session (s := s1) hs hfn true)))
  · exact (hspdm _).trans (next_congr ((if_neg (hup h)).trans (setStream_session (s := s1) hs hfn false)))
  · exact (hspdm _).trans (next_congr ((if_neg (hup h)).trans (if_neg (by rw [show (fnOf s1 fn).ide = false from hi]; decide))))
  · have hsame : ({ fnOf s fn with ide := true } : FnBlk) = fnOf s fn := by rw [← hi]
    refine (hspdm _).trans (next_congr ((if_neg (hup h)).trans ((if_pos hi).trans ((setStream_session (s := s1) hs hfn true).trans ?_))))
    exact congrArg (fun b => emit (setFn s1 fn b) (.sideband [1])) hsame
  · exact (hspdm _).trans (next_congr ((if_neg (hup h)).trans (tdiMove_moves (s := s1) hs h1 hfn ht)))
  · exact (hspdm _).trans (next_congr ((if_neg (hup h)).trans (tdiMove_stays (s := s1) _ (.inr ht))))
  · exact (hspdm _).trans (next_congr ((if_neg (hup h)).trans (tdiMove_moves (s := s1) hs h1 hfn ht)))
  · exact (hspdm _).trans (next_congr ((if_neg (hup h)).trans (tdiMove_stays (s := s1) _ (.inr ht))))
  · rw [Bool.and_eq_true, decide_eq_true_eq]
    rintro ⟨g1, g2⟩
    rcases h with h | h
    · exact absurd (g1.symm.trans h) (by decide)
    · omega

end Sys2Proof.Proofs
/-! # A function-level reset and a table that lists an index twice -/
namespace Sys2Proof.Proofs

open Sys2Proof.Machine Sys2Proof.Safety Sys2Proof.Laws

/-- A module in service whose request table lists index 0 twice: the entry that stands is tenant 0's, and one that it hides is tenant 1's. -/
def hiddenRequestState : State :=
  { State.reset with rst := { State.reset.rst with phase := .service }, reqs := [(0, { (default : Req) with tenant := 0 }), (0, { (default : Req) with tenant := 1 })] }

theorem hiddenRequestState_up : hostUp hiddenRequestState = true := rfl

theorem hiddenRequestState_stands : reqOf hiddenRequestState 0 = some { (default : Req) with tenant := 0 } := rfl

/-- The reset of function 1 finds the entry that is hidden, and silences the one that stands. -/
theorem flrVfOp_hiddenRequest : (reqOf (flrVfOp (advance 0 hiddenRequestState) 1) 0).map (·.silent) = some true := by decide

/-- Refutes O56: the reset of a virtual function silences a request of another tenant, when the request table lists its index a second time
for the function's tenant. The state is one that no run of the model reaches; the statement speaks of every state. -/
theorem not_functionResets : ¬ Obligations.FunctionResets := by
  unfold Obligations.FunctionResets
  intro h
  obtain ⟨_, _, hvf, _⟩ := h 1 0 hiddenRequestState (by decide)
  obtain ⟨u, hu, _, _, hother, _⟩ := hvf hiddenRequestState_up (by decide)
  have hop : exec (.flrVf 1 0) hiddenRequestState = .next (flrVfOp (advance 0 hiddenRequestState) 1) := rfl
  have heq : u = flrVfOp (advance 0 hiddenRequestState) 1 := Host.Outcome.next.inj (hu.symm.trans hop)
  have hkept := hother 0 _ hiddenRequestState_stands (by decide)
  have hsilent := flrVfOp_hiddenRequest
  rw [← heq, hkept] at hsilent
  exact absurd (Option.some.inj hsilent) (by decide)

end Sys2Proof.Proofs
/-! # Flits, replay and tenant subkeys -/
namespace Sys2Proof.Proofs

open Sys2Proof.Machine Sys2Proof.Safety Sys2Proof.Laws

/-! ## What sending changes -/

/-- The state without its ports and what it has sent. -/
def besidesPorts (s : State) : State := { s with out := [], ql := { s.ql with ports := [] } }

/-- What sending keeps of a port: the flit it expects, its subkeys and exchanges, and its state. -/
def steady (x : Port) : Nat × List Nat × Tbl Nat × Nat := (x.expect, x.subkeys, x.kex, x.state)

/-- Only the ports and what is sent differ, and every port keeps its steady part. -/
def Sends (s u : State) : Prop := besidesPorts u = besidesPorts s ∧ ∀ q, steady (portOf u q) = steady (portOf s q)

theorem Sends.refl (s : State) : Sends s s := ⟨rfl, fun _ => rfl⟩

theorem Sends.trans {s v u : State} (h : Sends s v) (g : Sends v u) : Sends s u := ⟨g.1.trans h.1, fun q => (g.2 q).trans (h.2 q)⟩

theorem portOf_emit_setPort (s : State) (p q : Nat) (x : Port) (o : Out) :
    portOf (emit (setPort s p x) o) q = if q = p then x else portOf s q := by
  have h : portOf (emit (setPort s p x) o) q = portOf (setPort s p x) q := rfl
  rw [h]
  by_cases hq : q = p
  · rw [if_pos hq, hq, portOf_setPort]
  · rw [if_neg hq, portOf_setPort_ne _ _ hq]

theorem portOf_modPort (s : State) (p q : Nat) (g : Port → Port) : portOf (modPort s p g) q = if q = p then g (portOf s p) else portOf s q := by
  unfold modPort
  by_cases hq : q = p
  · rw [if_pos hq, hq, portOf_setPort]
  · rw [if_neg hq, portOf_setPort_ne _ _ hq]

theorem sends_setPort {s : State} {p : Nat} {x : Port} (h : steady x = steady (portOf s p)) : Sends s (setPort s p x) := by
  refine ⟨rfl, fun q => ?_⟩
  by_cases hq : q = p
  · rw [hq, portOf_setPort, h]
  · rw [portOf_setPort_ne _ _ hq]

theorem sends_emit (s : State) (o : Out) : Sends s (emit s o) := ⟨rfl, fun _ => rfl⟩

theorem sends_returnCredit (s : State) (port : Option Nat) (c : Nat) : Sends s (returnCredit s port c) := by
  unfold returnCredit
  split
  · exact sends_setPort rfl
  · exact Sends.refl s

/-- The port after a flit has left it. -/
def sentPort (x : Port) (t : Nat) (f g : Flit) : Port :=
  let y := { x with nakDue := false, owed := x.owed.map (fun n => n - min 255 n), ctr := x.ctr + 1, lastTx := t }
  if f.isNull then y
  else { y with nextSeq := (x.nextSeq + 1) % 65536, replay := y.replay ++ [g], credits := setAt y.credits f.cls (creditOf y f.cls - 1) }

theorem steady_sentPort (x : Port) (t : Nat) (f g : Flit) : steady (sentPort x t f g) = steady x := by
  unfold sentPort
  dsimp only
  split <;> rfl

/-- A flit that leaves carries what its port has to ask for. -/
theorem transmit_sends (s : State) (p : Nat) (f : Flit) :
    ∃ g, transmit s p f = emit (setPort s p (sentPort (portOf s p) (now s) f g)) (.flit p g) ∧ g.nak = (portOf s p).nakDue := ⟨_, rfl, rfl⟩

theorem sends_transmit (s : State) (p : Nat) (f : Flit) : Sends s (transmit s p f) := by
  obtain ⟨g, hg, _⟩ := transmit_sends s p f
  rw [hg]
  exact (sends_setPort (steady_sentPort ..)).trans (sends_emit _ _)

theorem steady_notePick (x : Port) (c : Nat) (l : List (Flit × Option Nat)) : steady { notePick x c with waiting := l } = steady x := rfl

theorem sends_drainPort (p : Nat) : ∀ (n : Nat) (s : State), Sends s (drainPort p n s)
  | 0, s => Sends.refl s
  | n + 1, s => by
    unfold drainPort
    dsimp only
    split
    · exact Sends.refl s
    · exact (((sends_setPort (steady_notePick ..)).trans (sends_transmit _ _ _)).trans (sends_returnCredit _ _ _)).trans (sends_drainPort p n _)

theorem sends_pumpPort (s : State) (p : Nat) : Sends s (pumpPort s p) := sends_drainPort p _ s

theorem sends_answer (s : State) (p : Nat) : Sends s (answer s p) := by
  unfold answer
  dsimp only
  split
  · exact sends_transmit _ _ _
  · exact Sends.refl s

theorem Sends.expect {s u : State} (h : Sends s u) (q : Nat) : (portOf u q).expect = (portOf s q).expect := congrArg Prod.fst (h.2 q)

theorem Sends.subkeys {s u : State} (h : Sends s u) (q : Nat) : (portOf u q).subkeys = (portOf s q).subkeys := congrArg (fun x => x.2.1) (h.2 q)

theorem Sends.kex {s u : State} (h : Sends s u) (q : Nat) : (portOf u q).kex = (portOf s q).kex := congrArg (fun x => x.2.2.1) (h.2 q)

/-! ## A flit that is not taken -/

/-- A port that has something to ask for answers at once. -/
theorem answer_asks {s : State} {p : Nat} (h2 : (portOf s p).state = 2) (hn : (portOf s p).nakDue = true) :
    ∃ g, (answer s p).out = s.out ++ [.flit p g] ∧ g.nak = true ∧ (portOf (answer s p) p).crc = (portOf s p).crc
      ∧ (portOf (answer s p) p).expect = (portOf s p).expect ∧ (answer s p).ql.received = s.ql.received := by
  have hop : answer s p = transmit s p (nullFlit s (portOf s p).peer) := if_pos ⟨h2, .inl hn⟩
  obtain ⟨g, hg, hnak⟩ := transmit_sends s p (nullFlit s (portOf s p).peer)
  rw [hop, hg]
  refine ⟨g, rfl, hnak.trans hn, ?_, ?_, rfl⟩
  · rw [portOf_emit_setPort, if_pos rfl]
    rfl
  · rw [portOf_emit_setPort, if_pos rfl]
    rfl

theorem flitReceiveOp_badCrc {s : State} {p : Nat} {f : Flit} (h2 : (portOf s p).state = 2) (hc : f.crcOk = false) :
    flitReceiveOp s p f = answer (setPort s p { portOf s p with crc := satAdd 32 (portOf s p).crc 1, nakDue := true, lastRx := now s }) p :=
  (if_neg (not_not_intro h2)).trans (if_pos (by rw [hc]; rfl))

/-- A port after an acknowledgement that asks for nothing. -/
def ackedPort (x : Port) (f : Flit) : Port :=
  let left := x.replay.filter (fun g => !seqBefore g.seq f.ack)
  { x with replay := left, replays := if left.length < x.replay.length then 0 else x.replays, credits := (List.range 4).map (fun c => creditOf x c + f.credits.getD c 0) }

theorem takeAck_acks {f : Flit} (hn : f.nak = false) (s : State) (p : Nat) : takeAck s p f = setPort s p (ackedPort (portOf s p) f) := by
  unfold takeAck
  dsimp only
  rw [hn]
  rfl

theorem setPort_setPort_port (s : State) (p : Nat) (x y : Port) : OnlyPort s (setPort (setPort s p x) p y) p y :=
  OnlyPort.trans (onlyPort_setPort rfl rfl : OnlyPort s (setPort s p x) p x) (onlyPort_setPort rfl rfl)

theorem takeAck_setPort {f : Flit} (hn : f.nak = false) (s : State) (p : Nat) (x : Port) :
    OnlyPort s (takeAck (setPort s p x) p f) p (ackedPort x f) ∧ besidesPorts (takeAck (setPort s p x) p f) = besidesPorts s
      ∧ (takeAck (setPort s p x) p f).out = s.out := by
  rw [takeAck_acks hn (setPort s p x) p, portOf_setPort]
  exact ⟨setPort_setPort_port s p x (ackedPort x f), rfl, rfl⟩

theorem takeAck_noted {f : Flit} (hn : f.nak = false) (s : State) (p : Nat) : ∃ v, takeAck (setPort s p { portOf s p with lastRx := now s }) p f = v
    ∧ OnlyPort s v p (ackedPort { portOf s p with lastRx := now s } f) ∧ besidesPorts v = besidesPorts s ∧ v.out = s.out :=
  ⟨takeAck (setPort s p { portOf s p with lastRx := now s }) p f, rfl, takeAck_setPort hn s p { portOf s p with lastRx := now s }⟩

/-- A good flit that asks for nothing: what it acknowledges is noted, then it is taken or asked for again. -/
theorem flitReceiveOp_good {s v : State} {p : Nat} {f : Flit} (h2 : (portOf s p).state = 2) (hc : f.crcOk = true) (h0 : f.isNull = false)
    (hv : takeAck (setPort s p { portOf s p with lastRx := now s }) p f = v) (hv2 : (portOf v p).state = 2) :
    flitReceiveOp s p f = if f.seq ≠ (portOf s p).expect then answer (modPort v p (fun y => { y with nakDue := true })) p
      else answer (pumpPort (acceptFlit (modPort v p (fun y => { y with expect := ((portOf s p).expect + 1) % 65536 })) p f) p) p := by
  refine (if_neg (not_not_intro h2)).trans ((if_neg (by rw [hc]; decide)).trans ?_)
  dsimp only
  rw [hv]
  exact (if_neg (not_not_intro hv2)).trans (if_neg (by rw [h0]; decide))

/-! ## A flit that is taken -/

/-- Losing one flit withholds rows, and nothing else. -/
theorem loseFlit_sched (s : State) (f : Flit) : loseFlit s f = { s with sched := (loseFlit s f).sched } := by
  unfold loseFlit
  split <;> rfl

theorem acceptFlit_drops {s : State} {p : Nat} {f : Flit} (h : tenantDrop s f = true) :
    acceptFlit s p f = returnCredit (loseFlit { s with sec := { s.sec with epochDrops := satAdd 32 s.sec.epochDrops 1 } } f) (some p) f.cls := if_pos h

theorem acceptFlit_delivers {s : State} {p : Nat} {f : Flit} (h : tenantDrop s f = false) (ht : f.tagOk = true) (hd : f.dest = s.ql.module) :
    acceptFlit s p f = returnCredit (deliver s f) (some p) f.cls :=
  (if_neg (by rw [h]; decide)).trans ((if_neg (by rw [ht]; decide)).trans (if_pos hd))

/-- The parts of a message of a flit, and the other flits that have come. -/
def messageBefore (s : State) (f : Flit) : List Flit := if f.typ = 1 then [] else s.ql.received.filter (sameMessage f)
def messageOthers (s : State) (f : Flit) : List Flit := s.ql.received.filter (fun g => !sameMessage f g)

theorem deliver_other {s : State} {f : Flit} (h : f.cls ≠ 1) : deliver s f = s := if_pos h

theorem deliver_part {s : State} {f : Flit} (h : f.cls = 1) (hl : f.last = false) :
    deliver s f = { s with ql := { s.ql with received := messageOthers s f ++ messageBefore s f ++ [f] } } :=
  (if_neg (not_not_intro h)).trans (if_neg (by rw [hl]; decide))

theorem deliver_last {s : State} {f : Flit} (h : f.cls = 1) (hl : f.last = true) :
    deliver s f = takeSheet { s with ql := { s.ql with received := messageOthers s f } } f.src ((messageBefore s f ++ [f]).flatMap (·.payload)) :=
  (if_neg (not_not_intro h)).trans (if_pos hl)

/-- A sheet noted as arrived. -/
def sheetNoted (s : State) (m : Nat) : State := { s with ql := { s.ql with arrived := tput s.ql.arrived m (tget 0 s.ql.arrived m + 1) } }

theorem takeSheet_placed {s : State} {m slot ck off : Nat} {bytes : List Byte}
    (h : (routeSlots s m)[tget 0 s.ql.arrived m % (routeSlots s m).length]? = some (slot, ck, off)) :
    takeSheet s m bytes = if leNat ((bytes.drop 4096).take 4) = crc32c (bytes.take 4096)
      then modCore (sheetNoted s m) ck (fun c => { c with scratch := mwrite c.scratch off (bytes.take 4096) }) else withholdSlot (sheetNoted s m) slot := by
  unfold takeSheet
  dsimp only
  rw [h]
  rfl

theorem takeSheet_received (s : State) (m : Nat) (bytes : List Byte) :
    (takeSheet s m bytes).ql.received = s.ql.received ∧ (takeSheet s m bytes).ql.ports = s.ql.ports ∧ (takeSheet s m bytes).sec = s.sec := by
  unfold takeSheet
  dsimp only
  split
  · exact ⟨rfl, rfl, rfl⟩
  · split <;> exact ⟨rfl, rfl, rfl⟩

/-- Delivering a flit leaves the ports and the counts of security. -/
theorem deliver_keeps (s : State) (f : Flit) : (deliver s f).ql.ports = s.ql.ports ∧ (deliver s f).sec = s.sec := by
  by_cases h : f.cls = 1
  · cases hl : f.last with
    | false =>
      rw [deliver_part h hl]
      exact ⟨rfl, rfl⟩
    | true =>
      rw [deliver_last h hl]
      exact (takeSheet_received ..).2
  · rw [deliver_other h]
    exact ⟨rfl, rfl⟩

theorem portOf_of_ports {s u : State} (h : u.ql.ports = s.ql.ports) (q : Nat) : portOf u q = portOf s q := by
  unfold portOf
  rw [h]

/-! ## Replay -/

theorem emits_spec {α : Type} (f : α → Out) : ∀ (l : List α) (s : State), l.foldl (fun y a => emit y (f a)) s = { s with out := s.out ++ l.map f }
  | [], s => by
    rw [List.map_nil, List.append_nil]
    rfl
  | a :: l, s => by
    rw [List.foldl_cons, emits_spec f l (emit s (f a)), List.map_cons]
    exact congrArg (fun o => ({ s with out := o } : State)) (List.append_assoc s.out [f a] (l.map f))

theorem replayAll_again {s : State} {p : Nat} (hr : (portOf s p).replay ≠ []) (h7 : (portOf s p).replays < 7) :
    replayAll s p = (portOf s p).replay.foldl (fun y f => emit y (.flit p f))
      (setPort s p { portOf s p with retry := satAdd 32 (portOf s p).retry 1, replays := (portOf s p).replays + 1, lastTx := now s }) :=
  (if_neg hr).trans ((if_neg (by omega)).trans rfl)

theorem replayAll_down {s : State} {p : Nat} (hr : (portOf s p).replay ≠ []) (h7 : 7 ≤ (portOf s p).replays) :
    replayAll s p = portDown (setPort s p { portOf s p with retry := satAdd 32 (portOf s p).retry 1 }) p 1 :=
  (if_neg hr).trans (if_pos (by omega))

theorem onlyPort_portDown_setPort (s : State) (p cause : Nat) (x : Port) : OnlyPort s (portDown (setPort s p x) p cause) p (downPort x cause) := by
  have h := onlyPort_portDown (setPort s p x) p cause
  rw [portOf_setPort] at h
  exact OnlyPort.trans (onlyPort_setPort rfl rfl : OnlyPort s (setPort s p x) p x) h

/-! ## Subkeys -/

theorem keyxOp_taken {s : State} {p slot v : Nat} (h2 : (portOf s p).state = 2) (ht : tenantSlot s slot = 1) :
    keyxOp s p slot (some v) = pumpPort (modPort (if (tfind (portOf s p).kex slot).isSome = true then s else startKex s slot p) p
      (fun y => { y with kex := tdel y.kex slot, subkeys := addOnce y.subkeys slot })) p :=
  (if_neg (not_not_intro h2)).trans (if_neg (not_not_intro ht))

theorem keyxOp_inactive {s : State} {p slot v : Nat} (h2 : (portOf s p).state = 2) (ht : tenantSlot s slot ≠ 1) :
    keyxOp s p slot (some v) = emit s (.control p 2 (portOf s p).peer [slot]) := (if_neg (not_not_intro h2)).trans (if_pos ht)

/-- Flits that a timeout discards leave the waiting ones, the exchanges and what is sent. -/
theorem discards_keep (p : Nat) : ∀ (l : List (Flit × Option Nat)) (s : State),
    let u := l.foldl (fun y e => returnCredit (loseFlit y e.1) e.2 e.1.cls) s
    (portOf u p).waiting = (portOf s p).waiting ∧ (portOf u p).kex = (portOf s p).kex ∧ u.out = s.out
  | [], _ => ⟨rfl, rfl, rfl⟩
  | e :: l, s => by
    intro u
    obtain ⟨h1, h2, h3⟩ := discards_keep p l (returnCredit (loseFlit s e.1) e.2 e.1.cls)
    have hlose : portOf (loseFlit s e.1) p = portOf s p ∧ (loseFlit s e.1).out = s.out := by
      rw [loseFlit_sched]
      exact ⟨rfl, rfl⟩
    have hone : (portOf (returnCredit (loseFlit s e.1) e.2 e.1.cls) p).waiting = (portOf s p).waiting
        ∧ (portOf (returnCredit (loseFlit s e.1) e.2 e.1.cls) p).kex = (portOf s p).kex ∧ (returnCredit (loseFlit s e.1) e.2 e.1.cls).out = s.out := by
      rw [← hlose.1, ← hlose.2]
      generalize loseFlit s e.1 = w
      unfold returnCredit
      split
      · refine ⟨?_, ?_, rfl⟩ <;> rw [portOf_modPort] <;> split
        · next h => rw [h]
        · rfl
        · next h => rw [h]
        · rfl
      · exact ⟨rfl, rfl, rfl⟩
    exact ⟨h1.trans hone.1, h2.trans hone.2.1, h3.trans hone.2.2⟩

theorem keyxTimeoutOp_stays {s : State} {p slot : Nat} (h : ∀ t0, tfind (portOf s p).kex slot = some t0 → now s < t0 + 100000) :
    keyxTimeoutOp s p slot = s := by
  unfold keyxTimeoutOp
  dsimp only
  split
  · rfl
  next t0 h0 => exact if_neg (Nat.not_le.mpr (h t0 h0))

theorem keyxTimeoutOp_discards {s : State} {p slot t0 : Nat} (h : tfind (portOf s p).kex slot = some t0) (hle : t0 + 100000 ≤ now s) :
    keyxTimeoutOp s p slot = modPort (((portOf s p).waiting.filter (fun e => e.1.tkey && e.1.tenant == slot)).foldl
      (fun y e => returnCredit (loseFlit y e.1) e.2 e.1.cls) s) p
      (fun y => { y with kex := tdel y.kex slot, waiting := y.waiting.filter (fun e => !(e.1.tkey && e.1.tenant == slot)) }) := by
  unfold keyxTimeoutOp
  dsimp only
  rw [h]
  exact if_pos hle

/-! ## The obligation -/

theorem besidesPorts_modPort (s : State) (p : Nat) (g : Port → Port) : besidesPorts (modPort s p g) = besidesPorts s := rfl

/-- A good flit out of order is asked for again. -/
theorem flitReceiveOp_outOfOrder {s : State} {p : Nat} {f : Flit} (h2 : (portOf s p).state = 2) (hc : f.crcOk = true) (h0 : f.isNull = false)
    (hn : f.nak = false) (hs : f.seq ≠ (portOf s p).expect) : ∃ g, (flitReceiveOp s p f).out = s.out ++ [.flit p g] ∧ g.nak = true
      ∧ (portOf (flitReceiveOp s p f) p).expect = (portOf s p).expect ∧ (flitReceiveOp s p f).ql.received = s.ql.received := by
  obtain ⟨v, hv, hport, hb, hout⟩ := takeAck_noted hn s p
  have hv2 : (portOf v p).state = 2 := by
    rw [hport.1]
    exact h2
  have hown : portOf (modPort v p (fun y => { y with nakDue := true })) p = { portOf v p with nakDue := true } := (portOf_modPort ..).trans (if_pos rfl)
  obtain ⟨g, g1, g2, _, g4, g5⟩ := answer_asks (s := modPort v p (fun y => { y with nakDue := true })) (p := p) (by rw [hown]; exact hv2) (by rw [hown])
  rw [flitReceiveOp_good h2 hc h0 hv hv2, if_pos hs]
  refine ⟨g, g1.trans (congrArg (fun o : List Out => o ++ [Out.flit p g]) hout : v.out ++ [Out.flit p g] = _), g2, g4.trans ?_, g5.trans (congrArg (·.ql.received) hb : _)⟩
  rw [hown, hport.1]
  rfl

/-- A good flit in order is accepted, and the next one expected. -/
theorem flitReceiveOp_takes {s : State} {p : Nat} {f : Flit} (h2 : (portOf s p).state = 2) (hc : f.crcOk = true) (h0 : f.isNull = false)
    (hn : f.nak = false) (hs : f.seq = (portOf s p).expect) : ∃ y, flitReceiveOp s p f = answer (pumpPort (acceptFlit y p f) p) p
      ∧ besidesPorts y = besidesPorts s ∧ (portOf y p).expect = ((portOf s p).expect + 1) % 65536 := by
  obtain ⟨v, hv, hport, hb, _⟩ := takeAck_noted hn s p
  have hv2 : (portOf v p).state = 2 := by
    rw [hport.1]
    exact h2
  have hown : portOf (modPort v p (fun y => { y with expect := ((portOf s p).expect + 1) % 65536 })) p
      = { portOf v p with expect := ((portOf s p).expect + 1) % 65536 } := (portOf_modPort ..).trans (if_pos rfl)
  refine ⟨_, (flitReceiveOp_good h2 hc h0 hv hv2).trans (if_neg (not_not_intro hs)), (besidesPorts_modPort ..).trans hb, ?_⟩
  rw [hown]

theorem sends_pumped (s : State) (p : Nat) (c : Nat) : Sends s (answer (pumpPort (returnCredit s (some p) c) p) p) :=
  ((sends_returnCredit _ _ _).trans (sends_pumpPort _ _)).trans (sends_answer _ _)

theorem tenantDrop_congr {s y : State} (h : besidesPorts y = besidesPorts s) (f : Flit) : tenantDrop y f = tenantDrop s f :=
  (congrArg (fun x => tenantDrop x f) h : tenantDrop (besidesPorts y) f = tenantDrop (besidesPorts s) f)

/-- A tenant's flit that is dropped is counted. -/
theorem taken_dropped {s y : State} (hy : besidesPorts y = besidesPorts s) {f : Flit} (hd : tenantDrop s f = true) (p : Nat) :
    let u := answer (pumpPort (acceptFlit y p f) p) p
    (portOf u p).expect = (portOf y p).expect ∧ u.sec.epochDrops = min (s.sec.epochDrops + 1) (2 ^ 32 - 1) ∧ u.ql.received = s.ql.received := by
  intro u
  generalize hw : ({ y with sec := { y.sec with epochDrops := satAdd 32 y.sec.epochDrops 1 } } : State) = w
  have hsend : Sends (loseFlit w f) u := by
    unfold u
    rw [acceptFlit_drops ((tenantDrop_congr hy f).trans hd), hw]
    exact sends_pumped ..
  have hlose : portOf (loseFlit w f) p = portOf y p ∧ (loseFlit w f).sec = w.sec ∧ (loseFlit w f).ql = y.ql := by
    rw [loseFlit_sched, ← hw]
    exact ⟨rfl, rfl, rfl⟩
  obtain ⟨l1, l2, l3⟩ := hlose
  have hdrops : w.sec.epochDrops = min (s.sec.epochDrops + 1) (2 ^ 32 - 1) := by
    rw [← hw]
    exact (congrArg (fun x : State => min (x.sec.epochDrops + 1) (2 ^ 32 - 1)) hy : _)
  refine ⟨(hsend.expect p).trans (congrArg Port.expect l1), ?_, ?_⟩
  · rw [← hdrops, ← l2]
    exact (congrArg (fun x : State => x.sec.epochDrops) hsend.1 : _)
  · exact (congrArg (·.ql.received) hsend.1 : u.ql.received = (loseFlit w f).ql.received).trans
      ((congrArg QlBlk.received l3).trans (congrArg (·.ql.received) hy : _))

theorem taken_delivered {s y : State} (hy : besidesPorts y = besidesPorts s) {f : Flit} (hd : tenantDrop s f = false) (ht : f.tagOk = true)
    (hm : f.dest = s.ql.module) (p : Nat) : Sends (deliver y f) (answer (pumpPort (acceptFlit y p f) p) p) := by
  rw [acceptFlit_delivers ((tenantDrop_congr hy f).trans hd) ht (hm.trans (congrArg (·.ql.module) hy.symm : _))]
  exact sends_pumped ..

theorem messageBefore_congr {s y : State} (hy : besidesPorts y = besidesPorts s) (f : Flit) :
    messageBefore y f = messageBefore s f ∧ messageOthers y f = messageOthers s f :=
  ⟨(congrArg (fun x => messageBefore x f) hy : messageBefore (besidesPorts y) f = messageBefore (besidesPorts s) f),
    (congrArg (fun x => messageOthers x f) hy : messageOthers (besidesPorts y) f = messageOthers (besidesPorts s) f)⟩

/-- The last flit of a sheet brings it to its place, or withholds the rows of the forme. -/
theorem delivered_sheet {s y : State} (hy : besidesPorts y = besidesPorts s) {f : Flit} (h : f.cls = 1) (hl : f.last = true) {slot ck off : Nat}
    (hplace : (routeSlots s f.src)[tget 0 s.ql.arrived f.src % (routeSlots s f.src).length]? = some (slot, ck, off)) :
    let bytes := (messageBefore s f ++ [f]).flatMap (·.payload)
    (leNat ((bytes.drop 4096).take 4) = crc32c (bytes.take 4096) →
        coreOf (deliver y f) ck = { coreOf s ck with scratch := mwrite (coreOf s ck).scratch off (bytes.take 4096) }
          ∧ (∀ j, j ≠ ck → coreOf (deliver y f) j = coreOf s j) ∧ (deliver y f).sched = s.sched)
      ∧ (leNat ((bytes.drop 4096).take 4) ≠ crc32c (bytes.take 4096) → (deliver y f).cores = s.cores
        ∧ ∀ k, s.sched.step = some k → ∃ v, (deliver y f).sched.step = some v ∧ ∀ w ∈ k.rows, runsForme s w slot = true →
            { w with withheld := true, cond := { w.cond with failed := true } } ∈ v.rows) := by
  intro bytes
  have hslots : ∀ l, routeSlots { y with ql := { y.ql with received := l } } f.src = routeSlots s f.src := fun _ =>
    (congrArg (fun x => routeSlots x f.src) hy : routeSlots (besidesPorts y) f.src = routeSlots (besidesPorts s) f.src)
  have harrived : y.ql.arrived = s.ql.arrived := (congrArg (·.ql.arrived) hy : _)
  have hcores : y.cores = s.cores := (congrArg State.cores hy : _)
  have hsched : y.sched = s.sched := (congrArg State.sched hy : _)
  have hruns : ∀ w, runsForme y w slot = runsForme s w slot := fun w =>
    (congrArg (fun x => runsForme x w slot) hy : runsForme (besidesPorts y) w slot = runsForme (besidesPorts s) w slot)
  have hop := deliver_last (s := y) h hl
  rw [(messageBefore_congr hy f).1, (messageBefore_congr hy f).2] at hop
  generalize hz : ({ y with ql := { y.ql with received := messageOthers s f } } : State) = z at hop
  have hzparts : z.cores = s.cores ∧ z.sched = s.sched ∧ z.ql.arrived = s.ql.arrived ∧ routeSlots z f.src = routeSlots s f.src
      ∧ ∀ w, runsForme z w slot = runsForme s w slot := by
    rw [← hz]
    exact ⟨hcores, hsched, harrived, hslots _, hruns⟩
  obtain ⟨z1, z2, z3, z4, z5⟩ := hzparts
  rw [takeSheet_placed (s := z) (slot := slot) (ck := ck) (off := off) (by rw [z4, z3]; exact hplace)] at hop
  rw [hop]
  refine ⟨fun hcrc => ?_, fun hcrc => ?_⟩
  · rw [if_pos hcrc]
    have hcore : ∀ j, coreOf (sheetNoted z f.src) j = coreOf s j := coreOf_of_cores z1
    refine ⟨?_, fun j hj => ?_, z2⟩
    · rw [coreOf_modCore, if_pos rfl, hcore]
    · rw [coreOf_modCore, if_neg hj, hcore]
  · rw [if_neg hcrc]
    refine ⟨z1, fun k hk => ?_⟩
    have hstep : ∀ x : State, (withholdSlot x slot).sched.step = x.sched.step.map (fun k => { k with
      rows := k.rows.map (fun w => if runsForme x w slot then { w with withheld := true, cond := { w.cond with failed := true } } else w) }) :=
      fun _ => rfl
    have hk' : (sheetNoted z f.src).sched.step = some k := (congrArg SchedBlk.step z2).trans hk
    refine ⟨_, (hstep _).trans (by rw [hk']; rfl), fun w hw hr => List.mem_map.mpr ⟨w, hw, ?_⟩⟩
    exact if_pos ((z5 w).trans hr)

/-- Settles O53: flits that come, replay, and the exchange of subkeys. -/
theorem flitsAndKeys : Obligations.FlitsAndKeys := by
  intro p t f s hp s1 x
  have hflit : exec (.flitReceive p f t) s = .next (flitReceiveOp s1 p f) := if_pos hp
  have hack : exec (.flitAckTimeout p t) s = .next (ackTimeoutOp s1 p) := if_pos hp
  have hkey : ∀ slot v, slot < 256 → exec (.keyx p slot v t) s = .next (keyxOp s1 p slot v) := fun _ _ h => (if_pos h).trans (if_pos hp)
  have htimeout : ∀ slot, slot < 256 → exec (.keyxTimeout p slot t) s = .next (keyxTimeoutOp s1 p slot) := fun _ h => (if_pos h).trans (if_pos hp)
  refine ⟨fun h => hflit.trans (next_congr (if_pos h)), fun h2 hc => ?_, fun h2 hc h0 hn hs => ?_, fun h2 hc h0 hn hs => ⟨fun hd => ?_, ?_⟩,
    fun h => hack.trans (next_congr (if_neg ?_)), fun h2 hr hle h7 => ?_, fun h2 hr hle h7 => ?_,
    fun slot v hs h2 => (hkey slot v hs).trans (next_congr (if_pos h2)), fun slot hs h2 => (hkey slot none hs).trans (next_congr ?_),
    fun slot v hs h2 ht => (hkey slot _ hs).trans (next_congr (keyxOp_inactive (s := s1) h2 ht)), fun slot v hs h2 ht => ?_,
    fun slot hs h => (htimeout slot hs).trans (next_congr (keyxTimeoutOp_stays (s := s1) h)), fun slot t0 hs h hle => ?_⟩
  · have hown : portOf (setPort s1 p { x with crc := satAdd 32 x.crc 1, nakDue := true, lastRx := now s1 }) p = _ := portOf_setPort _ _ _
    obtain ⟨g, g1, g2, g3, g4, g5⟩ := answer_asks (s := setPort s1 p { x with crc := satAdd 32 x.crc 1, nakDue := true, lastRx := now s1 }) (p := p)
      (by rw [hown]; exact h2) (by rw [hown])
    rw [hown] at g3 g4
    exact ⟨_, g, hflit.trans (next_congr (flitReceiveOp_badCrc (s := s1) h2 hc)), g1, g2, g3, g4, g5⟩
  · obtain ⟨g, g1, g2, g3, g4⟩ := flitReceiveOp_outOfOrder (s := s1) h2 hc h0 hn hs
    exact ⟨_, g, hflit, g1, g2, g3, g4⟩
  · obtain ⟨y, hop, hy, he⟩ := flitReceiveOp_takes (s := s1) h2 hc h0 hn hs
    obtain ⟨g1, g2, g3⟩ := taken_dropped hy (f := f) hd p
    exact ⟨_, hflit.trans (next_congr hop), g1.trans he, g2, g3⟩
  · intro hd ht hm before others bytes l
    obtain ⟨y, hop, hy, he⟩ := flitReceiveOp_takes (s := s1) h2 hc h0 hn hs
    have hsend := taken_delivered hy (f := f) hd ht hm p
    generalize answer (pumpPort (acceptFlit y p f) p) p = u at hop hsend
    obtain ⟨k1, k2⟩ := deliver_keeps y f
    have hrec : u.ql.received = (deliver y f).ql.received := (congrArg (·.ql.received) hsend.1 : _)
    have hcores : u.cores = (deliver y f).cores := (congrArg State.cores hsend.1 : _)
    have hsched : u.sched = (deliver y f).sched := (congrArg State.sched hsend.1 : _)
    have hsec : u.sec = (deliver y f).sec := (congrArg State.sec hsend.1 : _)
    refine ⟨u, hflit.trans (next_congr hop), ?_, hsec.trans (k2.trans (congrArg State.sec hy : _)), fun hcls => ?_, fun hcls hl => ?_,
      fun hcls hl => ⟨?_, fun slot ck off hplace => ?_⟩⟩
    · exact (hsend.expect p).trans ((congrArg Port.expect (portOf_of_ports k1 p)).trans he)
    · rw [hrec, hcores, deliver_other hcls]
      exact ⟨(congrArg (·.ql.received) hy : _), (congrArg State.cores hy : _)⟩
    · rw [hrec, hcores, deliver_part hcls hl, (messageBefore_congr hy f).1, (messageBefore_congr hy f).2]
      exact ⟨rfl, (congrArg State.cores hy : _)⟩
    · rw [hrec, deliver_last hcls hl, (takeSheet_received ..).1, (messageBefore_congr hy f).2]
      rfl
    · have hsheet := delivered_sheet hy (s := s1) hcls hl hplace
      have hcore : ∀ j, coreOf u j = coreOf (deliver y f) j := coreOf_of_cores hcores
      simp only [hcore, hcores, hsched]
      exact hsheet
  · rintro ⟨g1, g2, g3⟩
    rcases h with h | h | h
    · exact h g1
    · exact g2 h
    · exact absurd g3 (Nat.not_le.mpr h)
  · have hop : ackTimeoutOp s1 p = replayAll s1 p := if_pos ⟨h2, hr, hle⟩
    obtain ⟨g1, g2⟩ := onlyPort_setPort (s := s) (v := s1)
      (u := setPort s1 p { x with retry := satAdd 32 x.retry 1, replays := x.replays + 1, lastTx := now s1 }) rfl rfl
    refine ⟨_, hack.trans (next_congr (hop.trans ((replayAll_again (s := s1) hr h7).trans (emits_spec _ _ _)))), rfl, g1, g2⟩
  · have hop : ackTimeoutOp s1 p = replayAll s1 p := if_pos ⟨h2, hr, hle⟩
    have hdown := onlyPort_portDown_setPort s1 p 1 { x with retry := satAdd 32 x.retry 1 }
    obtain ⟨g1, g2⟩ := hdown
    exact ⟨_, hack.trans (next_congr (hop.trans (replayAll_down (s := s1) hr h7))), (congrArg Port.state g1 : _), (congrArg Port.downs g1 : _),
      (congrArg Port.replay g1 : _), g2⟩
  · exact if_neg (not_not_intro h2)
  · have hop := keyxOp_taken (s := s1) (v := v) h2 ht
    have hsub : (portOf (if (tfind (portOf s1 p).kex slot).isSome = true then s1 else startKex s1 slot p) p).subkeys = x.subkeys := by
      split
      · rfl
      · exact (congrArg Port.subkeys (onlyPort_startKex s1 slot p).1 : _)
    generalize (if (tfind (portOf s1 p).kex slot).isSome = true then s1 else startKex s1 slot p) = y at hop hsub
    have hown : portOf (modPort y p (fun y => { y with kex := tdel y.kex slot, subkeys := addOnce y.subkeys slot })) p
        = { portOf y p with kex := tdel (portOf y p).kex slot, subkeys := addOnce (portOf y p).subkeys slot } := (portOf_modPort ..).trans (if_pos rfl)
    have hsend := sends_pumpPort (modPort y p (fun y => { y with kex := tdel y.kex slot, subkeys := addOnce y.subkeys slot })) p
    refine ⟨_, (hkey slot _ hs).trans (next_congr hop), ?_, ?_, fun q hq => ?_⟩
    · rw [hsend.subkeys, hown]
      exact mem_addOnce.mpr (.inl rfl)
    · rw [hsend.kex, hown]
      exact tfind_tdel_same _ _
    · rw [hsend.subkeys, hown]
      refine mem_addOnce.mpr (.inr ?_)
      rw [hsub]
      exact hq
  · have hop := keyxTimeoutOp_discards (s := s1) h hle
    obtain ⟨k1, k2, k3⟩ := discards_keep p (x.waiting.filter (fun e => e.1.tkey && e.1.tenant == slot)) s1
    generalize hy : (x.waiting.filter (fun e => e.1.tkey && e.1.tenant == slot)).foldl (fun y e => returnCredit (loseFlit y e.1) e.2 e.1.cls) s1 = y at k1 k2 k3
    have hown : portOf (modPort y p (fun y => { y with
        kex := tdel y.kex slot, waiting := y.waiting.filter (fun e => !(e.1.tkey && e.1.tenant == slot)) })) p = { portOf y p with
        kex := tdel (portOf y p).kex slot, waiting := (portOf y p).waiting.filter (fun e => !(e.1.tkey && e.1.tenant == slot)) } :=
      (portOf_modPort ..).trans (if_pos rfl)
    refine ⟨_, (htimeout slot hs).trans (next_congr (hop.trans (congrArg (fun w => modPort w p _) hy))), ?_, ?_, k3⟩
    · rw [hown]
      exact tfind_tdel_same _ _
    · rw [hown, k1]
      rfl

end Sys2Proof.Proofs
/-! # The end of a step: the check summaries and the seal -/
namespace Sys2Proof.Proofs

open Sys2Proof.Machine Sys2Proof.Safety Sys2Proof.Laws

/-! ## What a summary leaves as it was -/

/-- What a check summary does not touch of the running step. -/
def stepSeen (k : Step) : Nat × List Row × List Nat × Bool := (k.number, k.rows, k.waiting, k.sealing)

/-- The state without what a check summary touches: cores, regions, faults and the running step. -/
def besidesSummary (s : State) : State := { s with cores := [], regions := [], faults := {}, sched := { s.sched with step := none } }

theorem eq_of_besidesSummary {s u : State} (h : besidesSummary u = besidesSummary s) :
    u = { s with cores := u.cores, regions := u.regions, faults := u.faults, sched := { s.sched with step := u.sched.step } } := by
  have hs : { u.sched with step := none } = { s.sched with step := none } := (congrArg State.sched h : _)
  have hu : u.sched = { s.sched with step := u.sched.step } := by
    have := congrArg (fun c : SchedBlk => { c with step := u.sched.step }) hs
    exact this
  have := congrArg (fun x : State => { x with cores := u.cores, regions := u.regions, faults := u.faults, sched := u.sched }) h
  rw [← hu]
  exact this

/-- What a check summary of region `rk` keeps. -/
structure SummaryKept (rk : Nat) (s u : State) : Prop where
  rest : besidesSummary u = besidesSummary s
  step : u.sched.step.map stepSeen = s.sched.step.map stepSeen
  cores : ∀ ck, coreRegion ck ≠ rk → coreOf u ck = { coreOf s ck with parked := (coreOf u ck).parked }
  regions : ∀ j, j ≠ rk → regionOf u j = regionOf s j

theorem SummaryKept.refl (rk : Nat) (s : State) : SummaryKept rk s s := ⟨rfl, rfl, fun _ _ => rfl, fun _ _ => rfl⟩

theorem SummaryKept.trans {rk : Nat} {s x u : State} (h : SummaryKept rk s x) (g : SummaryKept rk x u) : SummaryKept rk s u where
  rest := g.rest.trans h.rest
  step := g.step.trans h.step
  cores ck hck := (g.cores ck hck).trans (congrArg (fun c : Core => { c with parked := (coreOf u ck).parked }) (h.cores ck hck))
  regions j hj := (g.regions j hj).trans (h.regions j hj)

theorem SummaryKept.foldl {α : Type} {rk : Nat} {f : State → α → State} (l : List α) (hf : ∀ a ∈ l, ∀ s, SummaryKept rk s (f s a)) (s : State) :
    SummaryKept rk s (l.foldl f s) := by
  induction l generalizing s with
  | nil => exact .refl rk s
  | cons a r ih => exact (hf a (by simp) s).trans (ih (fun b hb => hf b (by simp [hb])) _)

theorem SummaryKept.modStep (rk : Nat) (s : State) {f : Step → Step} (hf : ∀ k, stepSeen (f k) = stepSeen k) :
    SummaryKept rk s (modStep s f) where
  rest := rfl
  step := by
    simp only [Machine.modStep, setSched, Option.map_map]
    exact congrArg (fun g => s.sched.step.map g) (funext hf)
  cores _ _ := rfl
  regions _ _ := rfl

theorem SummaryKept.modCore {rk : Nat} (s : State) (ck : Nat) {f : Core → Core}
    (hf : coreRegion ck ≠ rk → ∀ c, f c = { c with parked := (f c).parked }) : SummaryKept rk s (modCore s ck f) where
  rest := rfl
  step := rfl
  cores j hj := by
    rw [coreOf_modCore]
    split
    · next h => exact (h ▸ hf (h ▸ hj) (coreOf s ck))
    · rfl
  regions _ _ := rfl

theorem SummaryKept.alarm (rk : Nat) (s : State) (v : UnitId) : SummaryKept rk s (alarm s v) := by
  unfold Machine.alarm failOutstanding
  split
  · exact .refl rk s
  · next k hk => exact ⟨rfl, by simp [hk, stepSeen], fun _ _ => rfl, fun _ _ => rfl⟩

theorem SummaryKept.setFaults (rk : Nat) (s : State) (f : FaultBlk → FaultBlk) : SummaryKept rk s (setFaults s f) :=
  ⟨rfl, rfl, fun _ _ => rfl, fun _ _ => rfl⟩

theorem SummaryKept.setRegion (rk : Nat) (s : State) (g : Region) : SummaryKept rk s (setRegion s rk g) :=
  ⟨rfl, rfl, fun _ _ => rfl, fun _ hj => regionOf_setRegion_ne _ _ hj⟩

theorem SummaryKept.cutWindow {rk ck : Nat} (hck : coreRegion ck = rk) (t : Nat) (s : State) : SummaryKept rk s (cutWindow ck t s) := by
  have hcore : ∀ f, SummaryKept rk s (Machine.modCore s ck f) := fun f => .modCore s ck (fun h => absurd hck h)
  unfold Machine.cutWindow
  dsimp only
  split
  · exact .refl rk s
  · split
    · exact hcore _
    · exact (hcore _).trans (.setFaults rk _ _)

theorem SummaryKept.takeSummary {rk ck : Nat} (hck : coreRegion ck = rk) (s : State) : SummaryKept rk s (takeSummary s ck) := by
  unfold Machine.takeSummary
  extract_lets c own s1 s2 s3
  have h1 : SummaryKept rk s s1 := by
    simp only [s1]
    split
    · exact .alarm rk s _
    · exact .refl rk s
  have h2 : SummaryKept rk s1 s2 := .foldl _ (fun p _ x => .alarm rk x _) s1
  have h3 : SummaryKept rk s2 s3 := .foldl _ (fun t _ x => .cutWindow hck t x) s2
  exact (((h1.trans h2).trans h3).trans (.modCore s3 ck (fun h => absurd hck h))).trans (.modStep rk _ (fun _ => rfl))

theorem SummaryKept.unpark (rk : Nat) (s : State) (g : Region) (slot : Nat) : SummaryKept rk s (unpark s g slot) := by
  unfold Machine.unpark
  split
  · exact .modCore s _ (fun _ _ => rfl)
  · exact .refl rk s

theorem SummaryKept.takeOrphans (rk : Nat) (s : State) : SummaryKept rk s (takeOrphans s rk) := by
  unfold Machine.takeOrphans
  dsimp only
  split
  · exact .refl rk s
  · exact ((SummaryKept.foldl _ (fun e _ x => .unpark rk x _ e.1) s).trans (.setRegion rk _ _)).trans (.modStep rk _ (fun _ => rfl))

theorem SummaryKept.messageGap (rk : Nat) (s : State) : SummaryKept rk s (messageGap s rk) := by
  refine (SummaryKept.alarm rk s _).trans (.foldl _ (fun ck hck x => .modCore x ck (fun h => absurd ?_ h)) _)
  obtain ⟨i, hi, rfl⟩ := List.mem_map.mp hck
  have := List.mem_range.mp hi
  unfold coreRegion
  omega

/-! ## The events of the cores are taken -/

theorem alarm_cores (s : State) (v : UnitId) : (alarm s v).cores = s.cores := by
  unfold alarm failOutstanding
  split <;> rfl

theorem coreOf_setFaults (s : State) (f : FaultBlk → FaultBlk) (j : Nat) : coreOf (setFaults s f) j = coreOf s j := rfl

theorem coreOf_cutWindow_ne {ck j : Nat} (hj : j ≠ ck) (t : Nat) (s : State) : coreOf (cutWindow ck t s) j = coreOf s j := by
  unfold cutWindow
  dsimp only
  split
  · rfl
  · have hcore : ∀ f, coreOf (modCore s ck f) j = coreOf s j := fun f => (coreOf_modCore ..).trans (if_neg hj)
    split
    · exact hcore _
    · exact (coreOf_setFaults ..).trans (hcore _)

theorem coreOf_takeSummary_ne (s : State) {ck j : Nat} (hj : j ≠ ck) : coreOf (takeSummary s ck) j = coreOf s j := by
  unfold takeSummary
  extract_lets c own s1 s2 s3
  have h1 : coreOf s1 j = coreOf s j := by
    simp only [s1]
    split
    · exact coreOf_of_cores (alarm_cores ..) j
    · rfl
  have h2 : coreOf s2 j = coreOf s1 j := foldl_unchanged (fun x => coreOf x j) (fun x _ => coreOf_of_cores (alarm_cores x _) j) _ _
  have h3 : coreOf s3 j = coreOf s2 j := foldl_unchanged (fun x => coreOf x j) (fun x t => coreOf_cutWindow_ne hj t x) _ _
  have h4 : coreOf (modCore s3 ck (fun d => { d with summary := {} })) j = coreOf s3 j := (coreOf_modCore ..).trans (if_neg hj)
  exact (coreOf_of_cores rfl j).trans (h4.trans (h3.trans (h2.trans h1)))

theorem summary_takeSummary (s : State) (ck : Nat) : (coreOf (takeSummary s ck) ck).summary = {} := by
  unfold takeSummary
  extract_lets c own s1 s2 s3
  refine (congrArg Core.summary (coreOf_of_cores (u := modStep _ _) (s := modCore s3 ck (fun d => { d with summary := {} })) rfl ck)).trans ?_
  rw [coreOf_modCore, if_pos rfl]

theorem summary_takeSummaries (l : List Nat) (s : State) (j : Nat) (h : j ∈ l ∨ (coreOf s j).summary = {}) :
    (coreOf (l.foldl takeSummary s) j).summary = {} := by
  induction l generalizing s with
  | nil => exact h.resolve_left (by simp)
  | cons a r ih =>
    refine ih _ ?_
    by_cases ha : j = a
    · exact Or.inr (ha ▸ summary_takeSummary s j)
    · rw [coreOf_takeSummary_ne s ha]
      exact h.imp_left (fun hm => (List.mem_cons.mp hm).resolve_left ha)

theorem coreOf_of_not_listed {s : State} {j : Nat} (h : j ∉ s.cores.map (fun (e : Nat × Core) => e.1)) : coreOf s j = {} := by
  have hfind : tfind s.cores j = none := by
    generalize s.cores = m at h
    induction m with
    | nil => rfl
    | cons e r ih =>
      obtain ⟨i, c⟩ := e
      simp only [List.map_cons, List.mem_cons, not_or] at h
      exact (if_neg h.1).trans (ih h.2)
  simp [coreOf, tget, hfind]

theorem summary_unpark (s : State) (g : Region) (slot j : Nat) : (coreOf (unpark s g slot) j).summary = (coreOf s j).summary := by
  unfold unpark
  split
  · rw [coreOf_modCore]
    split
    · next h => rw [h]
    · rfl
  · rfl

theorem summary_takeOrphans (s : State) (rk j : Nat) : (coreOf (takeOrphans s rk) j).summary = (coreOf s j).summary := by
  unfold takeOrphans
  dsimp only
  split
  · rfl
  · refine (congrArg Core.summary (coreOf_of_cores (s := (regionOf s rk).parks.foldl (fun x (e : Nat × Park) => unpark x (regionOf s rk) e.1) s)
      rfl j)).trans ?_
    exact foldl_unchanged (fun x => (coreOf x j).summary) (fun x (e : Nat × Park) => summary_unpark x _ e.1 j) _ _

theorem coreOf_testOverdueNow (s : State) (ck j : Nat) :
    coreOf (testOverdueNow s ck) j = if j = ck then { coreOf s ck with testDue := true, testOverdue := true } else coreOf s j := coreOf_modCore ..

theorem summary_messageGap (s : State) (rk j : Nat) : (coreOf (messageGap s rk) j).summary = (coreOf s j).summary := by
  refine (foldl_unchanged (fun x => (coreOf x j).summary) (fun x ck => ?_) _ _).trans (congrArg Core.summary (coreOf_of_cores (alarm_cores ..) j))
  rw [coreOf_testOverdueNow]
  split
  · next h => rw [h]
  · rfl

/-! ## No reduction stays parked -/

theorem mem_parks_spillClears (l : List (Nat × Park)) (g : Region) {e : Nat × Park}
    (h : e ∈ (l.foldl (fun x (d : Nat × Park) => spillClear x d.1) g).parks) : e ∈ g.parks ∧ ∀ d ∈ l, d.1 ≠ e.1 := by
  induction l generalizing g with
  | nil => exact ⟨h, by simp⟩
  | cons d r ih =>
    obtain ⟨hg, hr⟩ := ih _ h
    obtain ⟨hm, hne⟩ := List.mem_filter.mp (hg : e ∈ tdel g.parks d.1)
    refine ⟨hm, fun x hx => ?_⟩
    rcases List.mem_cons.mp hx with rfl | hx
    · exact fun h => by simp [h] at hne
    · exact hr x hx

theorem dropOrphans_parks (g : Region) : (dropOrphans g).parks = [] :=
  List.eq_nil_iff_forall_not_mem.mpr (fun e he =>
    have h := mem_parks_spillClears g.parks g he
    h.2 e h.1 rfl)

theorem takeOrphans_parks (s : State) (rk : Nat) : (regionOf (takeOrphans s rk) rk).parks = [] := by
  unfold takeOrphans
  dsimp only
  split
  · assumption
  · exact (congrArg Region.parks ((regionOf_of_regions rfl rk).trans (regionOf_setRegion ..))).trans (dropOrphans_parks _)

theorem alarm_regions (s : State) (v : UnitId) : (alarm s v).regions = s.regions := by
  unfold alarm failOutstanding
  split <;> rfl

theorem testOverdueNow_regions (s : State) (ck : Nat) : (testOverdueNow s ck).regions = s.regions := rfl

theorem testOverdueNow_sched (s : State) (ck : Nat) : (testOverdueNow s ck).sched = s.sched := rfl

theorem messageGap_regions (s : State) (rk : Nat) : (messageGap s rk).regions = s.regions :=
  (foldl_unchanged State.regions testOverdueNow_regions _ _).trans (alarm_regions ..)

/-! ## A gap in the step messages -/

theorem testOverdue_foldl (l : List Nat) (s : State) (j : Nat) (h : j ∈ l ∨ (coreOf s j).testOverdue = true) :
    (coreOf (l.foldl testOverdueNow s) j).testOverdue = true := by
  induction l generalizing s with
  | nil => exact h.resolve_left (by simp)
  | cons a r ih =>
    refine ih _ ?_
    rw [coreOf_testOverdueNow]
    split
    · exact Or.inr rfl
    · next ha => exact h.imp_left (fun hm => (List.mem_cons.mp hm).resolve_left ha)

theorem testOverdue_messageGap (s : State) {rk j : Nat} (hj : coreRegion j = rk) : (coreOf (messageGap s rk) j).testOverdue = true :=
  testOverdue_foldl _ _ _ (Or.inl (List.mem_map.mpr ⟨j % 160, List.mem_range.mpr (Nat.mod_lt _ (by decide)), by
    unfold coreRegion at hj
    omega⟩))

theorem messageGap_step {s : State} {k : Step} (hk : s.sched.step = some k) (rk : Nat) :
    (messageGap s rk).sched.step = some { k with alarmed := addOnce k.alarmed (unitOfRegion rk) } := by
  refine (congrArg SchedBlk.step (foldl_unchanged State.sched testOverdueNow_sched _ _)).trans ?_
  unfold alarm failOutstanding
  rw [hk]

/-! ## The check summary of a region -/

/-- The state with the events of region `rk`'s cores and its parked reductions taken. -/
def orphansTaken (rk : Nat) (s : State) : State :=
  takeOrphans (((s.cores.map (fun (e : Nat × Core) => e.1)).filter (fun c => coreRegion c == rk)).foldl takeSummary s) rk

/-- The state with the events of region `rk` taken, before the step notes that the region has answered. -/
def summariesTaken (rk : Nat) (gap : Bool) (s : State) : State := if gap then messageGap (orphansTaken rk s) rk else orphansTaken rk s

theorem summaryKept_summariesTaken (rk : Nat) (gap : Bool) (s : State) : SummaryKept rk s (summariesTaken rk gap s) := by
  unfold summariesTaken
  have h0 : SummaryKept rk s (orphansTaken rk s) :=
    (SummaryKept.foldl _ (fun ck hck x => .takeSummary (by simpa using (List.mem_filter.mp hck).2) x) s).trans (.takeOrphans rk _)
  split
  · exact h0.trans (.messageGap rk _)
  · exact h0

theorem summary_summariesTaken {rk j : Nat} (hj : coreRegion j = rk) (gap : Bool) (s : State) :
    (coreOf (summariesTaken rk gap s) j).summary = {} := by
  have hfold := summary_takeSummaries ((s.cores.map (fun (e : Nat × Core) => e.1)).filter (fun c => coreRegion c == rk)) s j (by
    by_cases hl : j ∈ s.cores.map (fun (e : Nat × Core) => e.1)
    · exact Or.inl (List.mem_filter.mpr ⟨hl, by simpa using hj⟩)
    · exact Or.inr (by rw [coreOf_of_not_listed hl]))
  unfold summariesTaken orphansTaken
  split
  · rw [summary_messageGap, summary_takeOrphans, hfold]
  · rw [summary_takeOrphans, hfold]

theorem parks_summariesTaken (rk : Nat) (gap : Bool) (s : State) : (regionOf (summariesTaken rk gap s) rk).parks = [] := by
  unfold summariesTaken orphansTaken
  split
  · rw [regionOf_of_regions (messageGap_regions ..), takeOrphans_parks]
  · exact takeOrphans_parks ..

theorem summariesTaken_gap (rk : Nat) (s : State) : summariesTaken rk true s = messageGap (orphansTaken rk s) rk := if_pos rfl

theorem gap_summariesTaken {s : State} {k : Step} (rk : Nat) (hk : (summariesTaken rk true s).sched.step = some k) :
    unitOfRegion rk ∈ k.alarmed ∧ ∀ j, coreRegion j = rk → (coreOf (summariesTaken rk true s) j).testOverdue = true := by
  rw [summariesTaken_gap] at hk ⊢
  refine ⟨?_, fun j hj => testOverdue_messageGap _ hj⟩
  generalize orphansTaken rk s = x at hk
  cases hx : x.sched.step with
  | none =>
    have hkept := (SummaryKept.messageGap rk x).step
    rw [hk, hx] at hkept
    simp at hkept
  | some m =>
    rw [messageGap_step hx] at hk
    rw [← Option.some.inj hk]
    exact mem_addOnce.mpr (Or.inl rfl)

/-- What the step notes of a region that has answered, at `t`. -/
def regionAnswered (rk t : Nat) (last : Bool) (k : Step) : Step :=
  { k with waiting := k.waiting.filter (· != rk), sealing := k.sealing || last,
           sealBegan := if k.sealing then k.sealBegan else if last then t else k.sealBegan }

theorem checkSummaryOp_taken {s : State} {rk : Nat} {k : Step} (gap : Bool) (hk : s.sched.step = some k) (hw : rk ∈ k.waiting) (hc : k.cut = false) :
    checkSummaryOp s rk gap = modStep (summariesTaken rk gap s) (regionAnswered rk (now s) (k.waiting.all (· == rk))) := by
  unfold checkSummaryOp
  rw [hk]
  exact if_neg (by simp [hw, hc])

theorem checkSummaryOp_notWaited {s : State} {rk : Nat} {k : Step} (gap : Bool) (hk : s.sched.step = some k) (h : rk ∉ k.waiting ∨ k.cut = true) :
    checkSummaryOp s rk gap = s := by
  unfold checkSummaryOp
  rw [hk]
  exact if_pos h

/-! ## The seal -/

theorem fillRow_spec (s : State) (w : Row) : (fillRow s w).1 = { s with free := (fillRow s w).1.free }
    ∧ (fillRow s w).2 = { w with tokens := (fillRow s w).2.tokens } := by
  unfold fillRow
  dsimp only
  repeat' split
  all_goals exact ⟨rfl, rfl⟩

/-- The rows that the seal keeps, each with its condition settled. -/
theorem sealRows_spec (k : Step) (l : List Row) (s : State) : (sealRows k s l).1 = { s with free := (sealRows k s l).1.free }
    ∧ (sealRows k s l).2.map (fun w => (w.rid, w.slot, w.n, w.final)) = l.map (fun w => (w.rid, w.slot, w.n, w.final))
    ∧ ∀ w ∈ (sealRows k s l).2, w.withheld = false → w.nan = false ∧ ∀ c ∈ k.summaries, ∀ x ∈ c.failed, x.2 ≠ some w.rid := by
  induction l generalizing s with
  | nil => exact ⟨rfl, rfl, by simp [sealRows]⟩
  | cons a r ih =>
    obtain ⟨h1, h2⟩ := fillRow_spec s a
    obtain ⟨i1, i2, i3⟩ := ih (fillRow s a).1
    simp only [sealRows]
    refine ⟨?_, ?_, fun w hw hh => ?_⟩
    · exact i1.trans (congrArg (fun x : State => { x with free := (sealRows k (fillRow s a).1 r).1.free }) h1)
    · rw [List.map_cons, List.map_cons, i2, h2]
      rfl
    · rcases List.mem_cons.mp hw with rfl | hw
      · simp only [sealRow, Bool.or_eq_false_iff, List.any_eq_false] at hh ⊢
        obtain ⟨⟨⟨⟨_, hfailed⟩, _⟩, hnan⟩, _⟩ := hh
        exact ⟨hnan, fun c hc x hx hx2 => hfailed c hc (List.any_eq_true.mpr ⟨x, hx, by simp [hx2]⟩)⟩
      · exact i3 w hw hh

theorem stepSealOp_waits {s : State} {k : Step} (hk : s.sched.step = some k)
    (h : k.sealing = false ∨ k.settled = true ∨ (k.cut = false ∧ s.faults.dual ≠ [])) : stepSealOp s = s := by
  unfold stepSealOp
  rw [hk]
  refine if_pos ?_
  rcases h with h | h | ⟨h, g⟩
  · simp [h]
  · simp [h]
  · simp [h, g]

theorem sendReport_alone {k : Step} (h : k.system = false) (s : State) : sendReport s k = s := by
  simp [sendReport, h]

theorem tryName_alone {s : State} {k : Step} (hk : s.sched.step = some k) (h : k.system = false) : tryName s = s := by
  simp [tryName, hk, h]

/-- The rows of a step that seals, with the state that the drawing of their tokens leaves. -/
def sealedRows (s : State) (k : Step) : State × List Row := if k.cut then (s, k.rows) else sealRows k s k.rows

theorem stepSealOp_seals {s : State} {k : Step} (hk : s.sched.step = some k) (hs : k.sealing = true) (hn : k.settled = false)
    (hd : k.cut = true ∨ s.faults.dual = []) (hy : k.system = false) :
    stepSealOp s = modStep (sealedRows s k).1 (fun _ => { k with rows := (sealedRows s k).2, settled := true }) := by
  have hx : (sealedRows s k).1.sched.step = some k := by
    unfold sealedRows
    split
    · exact hk
    · rw [(sealRows_spec k k.rows s).1]
      exact hk
  unfold stepSealOp
  rw [hk]
  refine (if_neg ?_).trans ?_
  · rcases hd with hd | hd <;> simp [hs, hn, hd]
  · extract_lets x k1 s1 ql s2
    have hstep : s1.sched.step = some k1 := congrArg (Option.map _) hx
    have hs2 : s2 = s1 := by
      simp only [s2, hy, Bool.false_eq_true, if_false]
      rfl
    rw [hs2, sendReport_alone (k := k1) hy, tryName_alone hstep hy]
    rfl

theorem sealedRows_frame (s : State) (k : Step) : (sealedRows s k).1 = { s with free := (sealedRows s k).1.free } := by
  unfold sealedRows
  split
  · rfl
  · exact (sealRows_spec k k.rows s).1

end Sys2Proof.Proofs

/-! What the invariants of O58 and O59 speak of, and how the accessors of the state read and change it. -/
namespace Sys2Proof.Proofs

open Sys2Proof.Machine

/-- What the invariants speak of: the counters of the always-on domain, the attestation leaves and the bytes of every memory. -/
structure Kept where
  counts : Tri (List Nat)
  totalAborts : Nat
  consec : Nat
  leafBlocks : Nat
  nextLeaf : Nat
  scratch : Nat → List Host.Cell
  wideBuf : Nat → List Host.Cell
  hbm : List Host.Cell

def scratches (cs : Tbl Core) (k : Nat) : List Host.Cell := (tget {} cs k).scratch
def wideBufs (rs : Tbl Region) (k : Nat) : List Host.Cell := (tget {} rs k).wideBuf

def keptOf (s : State) : Kept :=
  { counts := s.aon.counts, totalAborts := s.aon.totalAborts, consec := s.aon.consec, leafBlocks := s.nv.leafBlocks,
    nextLeaf := s.nv.nextLeaf, scratch := scratches s.cores, wideBuf := wideBufs s.regions, hbm := s.kv.hbm }

@[simp] theorem kept_counts (s : State) : s.aon.counts = (keptOf s).counts := rfl
@[simp] theorem kept_totalAborts (s : State) : s.aon.totalAborts = (keptOf s).totalAborts := rfl
@[simp] theorem kept_consec (s : State) : s.aon.consec = (keptOf s).consec := rfl
@[simp] theorem kept_leafBlocks (s : State) : s.nv.leafBlocks = (keptOf s).leafBlocks := rfl
@[simp] theorem kept_nextLeaf (s : State) : s.nv.nextLeaf = (keptOf s).nextLeaf := rfl
@[simp] theorem kept_scratches (s : State) : scratches s.cores = (keptOf s).scratch := rfl
@[simp] theorem kept_wideBufs (s : State) : wideBufs s.regions = (keptOf s).wideBuf := rfl
@[simp] theorem kept_hbm (s : State) : s.kv.hbm = (keptOf s).hbm := rfl

@[simp] theorem keptOf_mk (pending free out time rst aon nv opts fns cmdq turn txns map cores regions hubSense bandgap formes plates arr sched reqs
    gens tenants overlays kv web share faults sec therm ql pci side pins power seen) : keptOf ⟨pending, free, out, time, rst, aon, nv, opts, fns,
    cmdq, turn, txns, map, cores, regions, hubSense, bandgap, formes, plates, arr, sched, reqs, gens, tenants, overlays, kv, web, share, faults, sec,
    therm, ql, pci, side, pins, power, seen⟩ = ⟨aon.counts, aon.totalAborts, aon.consec, nv.leafBlocks, nv.nextLeaf, scratches cores, wideBufs
    regions, kv.hbm⟩ := rfl

@[simp] theorem kept_update_scratch (s : State) (k : Nat) : { keptOf s with scratch := Function.update (keptOf s).scratch k ((keptOf s).scratch k) }
    = keptOf s := by
  rw [Function.update_eq_self]
@[simp] theorem kept_update_wideBuf (s : State) (k : Nat) : { keptOf s with wideBuf := Function.update (keptOf s).wideBuf k ((keptOf s).wideBuf k) }
    = keptOf s := by
  rw [Function.update_eq_self]

@[simp] theorem scratch_coreOf (s : State) (k : Nat) : (coreOf s k).scratch = (keptOf s).scratch k := rfl
@[simp] theorem wideBuf_regionOf (s : State) (k : Nat) : (regionOf s k).wideBuf = (keptOf s).wideBuf k := rfl

theorem scratches_tset (cs : Tbl Core) (k : Nat) (c : Core) : scratches (tset {} cs k c) = Function.update (scratches cs) k c.scratch := by
  funext j
  by_cases h : j = k <;> simp [scratches, Function.update, h]
theorem wideBufs_tset (cs : Tbl Region) (k : Nat) (c : Region) : wideBufs (tset {} cs k c) = Function.update (wideBufs cs) k c.wideBuf := by
  funext j
  by_cases h : j = k <;> simp [wideBufs, Function.update, h]

@[simp] theorem keptOf_setCore (s : State) (k : Nat) (c : Core) :
    keptOf (setCore s k c) = { keptOf s with scratch := Function.update (keptOf s).scratch k c.scratch } := by
  simp only [keptOf, setCore, scratches_tset]
@[simp] theorem keptOf_setRegion (s : State) (k : Nat) (c : Region) :
    keptOf (setRegion s k c) = { keptOf s with wideBuf := Function.update (keptOf s).wideBuf k c.wideBuf } := by
  simp only [keptOf, setRegion, wideBufs_tset]
theorem keptOf_modCore (s : State) (k : Nat) (g : Core → Core) :
    keptOf (modCore s k g) = { keptOf s with scratch := Function.update (keptOf s).scratch k (g (coreOf s k)).scratch } := keptOf_setCore s k _
theorem keptOf_modRegion (s : State) (k : Nat) (g : Region → Region) :
    keptOf (modRegion s k g) = { keptOf s with wideBuf := Function.update (keptOf s).wideBuf k (g (regionOf s k)).wideBuf } := keptOf_setRegion s k _
@[simp] theorem keptOf_modCore' (s : State) (k : Nat) (g : Core → Core) (h : ∀ c, (g c).scratch = c.scratch) : keptOf (modCore s k g) = keptOf s := by
  simp [keptOf_modCore, h]
@[simp] theorem keptOf_modRegion' (s : State) (k : Nat) (g : Region → Region) (h : ∀ c, (g c).wideBuf = c.wideBuf) :
    keptOf (modRegion s k g) = keptOf s := by
  simp [keptOf_modRegion, h]

@[simp] theorem keptOf_foldl {α : Type} (f : State → α → State) (h : ∀ s a, keptOf (f s a) = keptOf s) (l : List α) (s : State) :
    keptOf (l.foldl f s) = keptOf s := by
  induction l generalizing s with
  | nil => rfl
  | cons a r ih => rw [List.foldl_cons, ih, h]

@[simp] theorem keptOf_ite (c : Prop) [Decidable c] (a b : State) : keptOf (if c then a else b) = if c then keptOf a else keptOf b := apply_ite ..

/-! ### Core -/
@[simp] theorem setTile_scratch (c : Core) (t : Nat) (x : Tile) : (setTile c t x).scratch = c.scratch := (rfl)
@[simp] theorem modTile_scratch (c : Core) (t : Nat) (g : Tile → Tile) : (modTile c t g).scratch = c.scratch := (rfl)
@[simp] theorem setBank_scratch (c : Core) (b : Nat) (x : Bank) : (setBank c b x).scratch = c.scratch := (rfl)
@[simp] theorem addSeqs_scratch (t : Nat) (c : Core) (hs : List Nat) (tc : Nat) : (addSeqs t c hs tc).scratch = c.scratch := (rfl)
@[simp] theorem showLayer_scratch (c : Core) (layer restrike : Nat) (l : LayerRec) : (showLayer c layer restrike l).scratch = c.scratch := (rfl)
@[simp] theorem capture_scratch (s : State) (c : Core) (tile plane hold : Nat) (v : Conv) : (capture s c tile plane hold v).scratch = c.scratch := by
  unfold capture; dsimp only; split
  · rfl
  · split <;> rfl
@[simp] theorem captureAll_scratch (s : State) (tile plane : Nat) (c : Core) (l : List (Nat × Conv)) : (captureAll s tile plane c l).scratch =
    c.scratch := by
  induction l generalizing c with
  | nil => rfl
  | cons e r ih => rw [captureAll, ih, capture_scratch]
@[simp] theorem monitorTrack_scratch (c : Core) (dT : Int) (t pk lp : Nat) (d : PlaneDesc) (driven : List Nat) (vs : List Conv) : (monitorTrack c dT
    t pk lp d driven vs).scratch = c.scratch := by
  unfold monitorTrack; split <;> rfl
@[simp] theorem auditSample_scratch (n draw : Nat) (x : AuditSlot) (c : Core) : (auditSample n draw x c).scratch = c.scratch := by
  unfold auditSample; dsimp only; repeat' split
  all_goals rfl
@[simp] theorem raisePrecision_scratch (c : Core) (slot layer : Nat) : (raisePrecision c slot layer).scratch = c.scratch := (rfl)
@[simp] theorem precisionEvents_scratch (c : Core) (slot layer : Nat) (l : Option LayerRec) : (precisionEvents c slot layer l).scratch = c.scratch :=
    by
  unfold precisionEvents; dsimp only; split <;> rfl
@[simp] theorem notedProduct_scratch (s : State) (ck : Nat) (h : Held) (rest : List Held) (pk : Nat) (d : PlaneDesc) (near : Nat) (sat : Bool) :
    (notedProduct s ck h rest pk d near sat).scratch = (coreOf s ck).scratch := by
  unfold notedProduct; dsimp only; rw [monitorTrack_scratch, precisionEvents_scratch]
@[simp] theorem abandonAudits_scratch (p : AuditSlot → Bool) (c : Core) : (abandonAudits p c).scratch = c.scratch := (rfl)
@[simp] theorem clearProof_scratch (c : Core) : (clearProof c).scratch = c.scratch := (rfl)
@[simp] theorem takeDnl_scratch (c : Core) : (takeDnl c).scratch = c.scratch := by
  unfold takeDnl; split <;> rfl
@[simp] theorem endCore_scratch (cut : Bool) (c : Core) : (endCore cut c).scratch = c.scratch := (rfl)
@[simp] theorem settleCredits_wideBuf (w : List DmaUser) (g : Region) : (settleCredits w g).wideBuf = g.wideBuf := (rfl)
@[simp] theorem passingTransfers_wideBuf (step : Bool) (n : Nat) (g : Region) : (passingTransfers step n g).wideBuf = g.wideBuf := (rfl)
@[simp] theorem ageRegion_wideBuf (dt : Nat) (g : Region) : (ageRegion dt g).wideBuf = g.wideBuf := (rfl)
@[simp] theorem freeRun_hbm (k : KvBlk) (n : Nat) : (freeRun k n).hbm = k.hbm := (rfl)
@[simp] theorem freePage_hbm (k : KvBlk) (q : Nat × Nat × Nat) : (freePage k q).hbm = k.hbm := by
  unfold freePage; repeat' split
  all_goals rfl
@[simp] theorem foldl_hbm {α : Type} (f : KvBlk → α → KvBlk) (h : ∀ k a, (f k a).hbm = k.hbm) (l : List α) (k : KvBlk) : (l.foldl f k).hbm = k.hbm :=
    by
  induction l generalizing k with
  | nil => rfl
  | cons a r ih => rw [List.foldl_cons, ih, h]
@[simp] theorem freeSet_hbm (k : KvBlk) (p : PageSet) : (freeSet k p).hbm = k.hbm := by simp [freeSet]
@[simp] theorem freePages_hbm (k : KvBlk) (r : Req) : (freePages k r).hbm = k.hbm := by
  simp only [freePages]
  exact (foldl_hbm (fun k (e : Nat × Nat) => freeRun k e.2) (fun k e => freeRun_hbm k e.2) _ _).trans (foldl_hbm _ freeSet_hbm _ _)
@[simp] theorem loseSets_hbm (s : State) (r : Req) (n : Nat) : (loseSets s r n).1.hbm = s.kv.hbm := by simp [loseSets]
@[simp] theorem dropClaim_hbm (k : KvBlk) (i : Nat) : (dropClaim k i).hbm = k.hbm := by
  unfold dropClaim; rfl
@[simp] theorem freeTables_hbm (halves : List Nat) (k : KvBlk) (q : Req) : (freeTables halves k q).1.hbm = k.hbm :=
  foldl_hbm (fun y (e : Nat × Nat) => freeRun y e.2) (fun k e => freeRun_hbm k e.2) _ _

theorem scratches_map (f : Core → Core) (h : ∀ c, (f c).scratch = c.scratch) (cs : Tbl Core) :
    scratches (cs.map fun e => (e.1, f e.2)) = scratches cs := by
  funext k
  induction cs with
  | nil => rfl
  | cons e r ih =>
    simp only [scratches, tget, List.map_cons, tfind] at ih ⊢
    split
    · simpa using h e.2
    · exact ih
theorem scratches_tmap (f : Nat → Core → Core) (h : ∀ k c, (f k c).scratch = c.scratch) (cs : Tbl Core) :
    scratches (tmap {} f cs) = scratches cs := by
  funext k
  simp only [scratches, tget, tfind_tmap]
  cases tfind cs k with
  | none => rfl
  | some c =>
    by_cases hd : f k c = {}
    · simp [hd, ← h k c]
    · rw [Option.bind_some, if_neg hd]
      exact h k c
theorem wideBufs_tmap (f : Nat → Region → Region) (h : ∀ k g, (f k g).wideBuf = g.wideBuf) (rs : Tbl Region) :
    wideBufs (tmap {} f rs) = wideBufs rs := by
  funext k
  simp only [wideBufs, tget, tfind_tmap]
  cases tfind rs k with
  | none => rfl
  | some c =>
    by_cases hd : f k c = {}
    · simp [hd, ← h k c]
    · simp [hd, h]
@[simp] theorem keptOf_mapCores (s : State) (f : Nat → Core → Core) (h : ∀ k c, (f k c).scratch = c.scratch) : keptOf (mapCores s f) = keptOf s := by
  simp only [keptOf, mapCores, scratches_tmap f h]
@[simp] theorem keptOf_mapRegions (s : State) (f : Region → Region) (h : ∀ c, (f c).wideBuf = c.wideBuf) : keptOf (mapRegions s f) = keptOf s := by
  simp only [keptOf, mapRegions, wideBufs_tmap _ (fun _ => h)]
@[simp] theorem keptOf_setKv (s : State) (f : KvBlk → KvBlk) (h : ∀ k, (f k).hbm = k.hbm) : keptOf (setKv s f) = keptOf s := by
  simp only [keptOf, setKv, h]
@[simp] theorem keptOf_option_map {α : Type} (f : α → State) (s : State) (h : ∀ a, keptOf (f a) = keptOf s) (o : Option α) :
    keptOf ((o.map f).getD s) = keptOf s := by
  cases o <;> simp [h]
@[simp] theorem keptOf_foldl_fst {α β : Type} (f : State × β → α → State × β) (h : ∀ x a, keptOf (f x a).1 = keptOf x.1) (l : List α) (x : State × β)
    : keptOf (l.foldl f x).1 = keptOf x.1 := by
  induction l generalizing x with
  | nil => rfl
  | cons a r ih => rw [List.foldl_cons, ih, h]

end Sys2Proof.Proofs

/-! The functions of the model that leave what the invariants speak of as it is. -/
namespace Sys2Proof.Proofs

open Sys2Proof.Machine

@[simp] theorem keptOf_setFn (s : State) (f : Nat) (b : FnBlk) : keptOf (setFn s f b) = keptOf s := by
  simp [setFn]

@[simp] theorem keptOf_modFn (s : State) (f : Nat) (g : FnBlk → FnBlk) : keptOf (modFn s f g) = keptOf s := by
  simp [modFn]

@[simp] theorem keptOf_setTenant (s : State) (n : Nat) (x : Tenant) : keptOf (setTenant s n x) = keptOf s := by
  simp [setTenant]

@[simp] theorem keptOf_modTenant (s : State) (n : Nat) (g : Tenant → Tenant) : keptOf (modTenant s n g) = keptOf s := by
  simp [modTenant]

@[simp] theorem keptOf_setPort (s : State) (p : Nat) (x : Port) : keptOf (setPort s p x) = keptOf s := by
  simp [setPort]

@[simp] theorem keptOf_modPort (s : State) (p : Nat) (g : Port → Port) : keptOf (modPort s p g) = keptOf s := by
  simp [modPort]

@[simp] theorem keptOf_setTimer (s : State) (n : Nat) (x : Timer) : keptOf (setTimer s n x) = keptOf s := by
  simp [setTimer]

@[simp] theorem keptOf_setReq (s : State) (i : Nat) (r : Req) : keptOf (setReq s i r) = keptOf s := by
  simp [setReq]

@[simp] theorem keptOf_modReq (s : State) (i : Nat) (g : Req → Req) : keptOf (modReq s i g) = keptOf s := by
  unfold modReq
  split <;> simp

@[simp] theorem keptOf_delReq (s : State) (i : Nat) : keptOf (delReq s i) = keptOf s := by
  simp [delReq]

@[simp] theorem keptOf_setChan (s : State) (w : Nat) (c : Channel) : keptOf (setChan s w c) = keptOf s := by
  simp [setChan]

@[simp] theorem keptOf_modChan (s : State) (w : Nat) (g : Channel → Channel) : keptOf (modChan s w g) = keptOf s := by
  unfold modChan
  split <;> simp

@[simp] theorem keptOf_setFaults (s : State) (f : FaultBlk → FaultBlk) : keptOf (setFaults s f) = keptOf s := by
  simp [setFaults]

@[simp] theorem keptOf_setSched (s : State) (f : SchedBlk → SchedBlk) : keptOf (setSched s f) = keptOf s := by
  simp [setSched]

@[simp] theorem keptOf_setPlates (s : State) (f : PlateBlk → PlateBlk) : keptOf (setPlates s f) = keptOf s := by
  simp [setPlates]

@[simp] theorem keptOf_advance (t : Nat) (s : State) : keptOf (advance t s) = keptOf s := by
  simp [advance]

@[simp] theorem keptOf_emit (s : State) (o : Out) : keptOf (emit s o) = keptOf s := by
  simp [emit]

@[simp] theorem keptOf_drive (s : State) (p : Pin) (level : Bool) : keptOf (drive s p level) = keptOf s := by
  simp [drive]

@[simp] theorem keptOf_release (s : State) (p : Pin) : keptOf (release s p) = keptOf s := by
  simp [release]

@[simp] theorem keptOf_drawn (s : State) : keptOf (drawn s) = keptOf s := by
  simp [drawn]

@[simp] theorem keptOf_setOpt (s : State) (off : Nat) (v : Nat) : keptOf (setOpt s off v) = keptOf s := by
  simp [setOpt]

@[simp] theorem keptOf_addReport (s : State) (r : Report) : keptOf (addReport s r) = keptOf s := by
  simp [addReport]

@[simp] theorem keptOf_markFenced (s : State) (u : UnitId) : keptOf (markFenced s u) = keptOf s := by
  simp [markFenced]

@[simp] theorem keptOf_failOutstanding (s : State) (u : UnitId) : keptOf (failOutstanding s u) = keptOf s := by
  unfold failOutstanding
  split <;> simp

@[simp] theorem keptOf_assignSpares (s : State) (l : List Refill) : keptOf (assignSpares s l) = keptOf s := by
  induction l generalizing s with
  | nil => rfl
  | cons r rs ih => simp [assignSpares, ih]

@[simp] theorem keptOf_reassign (s : State) (u : UnitId) : keptOf (reassign s u) = keptOf s := by
  simp [reassign]

@[simp] theorem keptOf_leaveUnit (s : State) (u : UnitId) : keptOf (leaveUnit s u) = keptOf s := by
  simp [leaveUnit]

@[simp] theorem keptOf_fenceOne (s : State) (u : UnitId) (cause : Cause) (detail : Nat) : keptOf (fenceOne s u cause detail) = keptOf s := by
  unfold fenceOne
  dsimp only
  repeat' split
  all_goals simp

@[simp] theorem keptOf_withdrawHalf (s : State) (ps : Nat) : keptOf (withdrawHalf s ps) = keptOf s := by
  simp [withdrawHalf]

@[simp] theorem keptOf_fenceStack (s : State) (ps : Nat) (cause : Cause) (detail : Nat) : keptOf (fenceStack s ps cause detail) = keptOf s := by
  simp [fenceStack]

@[simp] theorem keptOf_fenceRegion (s : State) (rk : Nat) (cause : Cause) (detail : Nat) : keptOf (fenceRegion s rk cause detail) = keptOf s := by
  simp [fenceRegion]

@[simp] theorem keptOf_fenceCore (s : State) (ck : Nat) (cause : Cause) (detail : Nat) : keptOf (fenceCore s ck cause detail) = keptOf s := by
  simp [fenceCore]

@[simp] theorem keptOf_setDesc (s : State) (pk : Nat) (d : PlaneDesc) : keptOf (setDesc s pk d) = keptOf s := by
  simp [setDesc]

@[simp] theorem keptOf_setDescState (s : State) (pk : Nat) (st : Nat) : keptOf (setDescState s pk st) = keptOf s := by
  simp [setDescState]

@[simp] theorem keptOf_retirePlane (s : State) (pk : Nat) (cause : Cause) : keptOf (retirePlane s pk cause) = keptOf s := by
  unfold retirePlane
  dsimp only
  repeat' split
  all_goals simp

@[simp] theorem keptOf_fenceUnitOp (s : State) (u : UnitId) (cause : Cause) (detail : Nat) : keptOf (fenceUnitOp s u cause detail) = keptOf s := by
  unfold fenceUnitOp
  split <;> simp

@[simp] theorem keptOf_mapChange (s : State) (r : Refill) : keptOf (mapChange s r) = keptOf s := by
  unfold mapChange
  split <;> simp

@[simp] theorem keptOf_snapMaps (s : State) : keptOf (snapMaps s) = keptOf s := by
  simp [snapMaps]

@[simp] theorem keptOf_dropCovered (s : State) : keptOf (dropCovered s) = keptOf s := by
  simp [dropCovered]

@[simp] theorem keptOf_settleRefills (s : State) : keptOf (settleRefills s) = keptOf s := by
  simp [settleRefills]

@[simp] theorem keptOf_applyMapChanges (s : State) : keptOf (applyMapChanges s) = keptOf s := by
  simp [applyMapChanges]

@[simp] theorem keptOf_endTransfer (s : State) (u : DmaUser) : keptOf (endTransfer s u) = keptOf s := by
  simp only [keptOf, endTransfer]
  rw [wideBufs_tmap]
  intro _ _
  rfl

@[simp] theorem keptOf_alarm (s : State) (u : UnitId) : keptOf (alarm s u) = keptOf s := by
  simp [alarm]

@[simp] theorem keptOf_lateFault (s : State) (u : UnitId) (cause : Cause) (delta : Nat) : keptOf (lateFault s u cause delta) = keptOf s := by
  simp [lateFault]

@[simp] theorem keptOf_closeLate (s : State) (u : UnitId) : keptOf (closeLate s u) = keptOf s := by
  simp [closeLate]

@[simp] theorem keptOf_fenceFor (s : State) (u : UnitId) (cause : Cause) (detail : Nat) : keptOf (fenceFor s u cause detail) = keptOf s := by
  simp [fenceFor]

@[simp] theorem keptOf_testDueNow (s : State) (ck : Nat) : keptOf (testDueNow s ck) = keptOf s := by
  simp [testDueNow]

@[simp] theorem keptOf_testOverdueNow (s : State) (ck : Nat) : keptOf (testOverdueNow s ck) = keptOf s := by
  simp [testOverdueNow]

@[simp] theorem keptOf_noteEvent (s : State) (cause : Cause) (key : Nat) : keptOf (noteEvent s cause key) = keptOf s := by
  simp [noteEvent]

@[simp] theorem keptOf_productFailed (s : State) (ck : Nat) (cause : Cause) : keptOf (productFailed s ck cause) = keptOf s := by
  unfold productFailed
  split <;> simp

@[simp] theorem keptOf_fillSlots (s : State) : keptOf (fillSlots s) = keptOf s := by
  simp [fillSlots]

@[simp] theorem keptOf_queueWrite (s : State) (pk : Nat) (r : Option PlaneRecord) : keptOf (queueWrite s pk r) = keptOf s := by
  simp [queueWrite]

@[simp] theorem keptOf_queueReadback (s : State) (pk : Nat) : keptOf (queueReadback s pk) = keptOf s := by
  simp [queueReadback]

@[simp] theorem keptOf_monitorAlarmed (s : State) (ck : Nat) : keptOf (monitorAlarmed s ck) = keptOf s := by
  simp [monitorAlarmed]

@[simp] theorem keptOf_auditMismatched (s : State) (pk : Nat) (delta : Nat) : keptOf (auditMismatched s pk delta) = keptOf s := by
  simp [auditMismatched]

@[simp] theorem keptOf_sheetFailed (s : State) (ck : Nat) : keptOf (sheetFailed s ck) = keptOf s := by
  simp [sheetFailed]

@[simp] theorem keptOf_modRow (s : State) (rid : Nat) (f : Row → Row) : keptOf (modRow s rid f) = keptOf s := by
  unfold modRow
  split <;> simp

@[simp] theorem keptOf_withholdRow (s : State) (rid : Option Nat) : keptOf (withholdRow s rid) = keptOf s := by
  unfold withholdRow
  split <;> simp

@[simp] theorem keptOf_calReject (s : State) (ck : Nat) (unit : Nat) : keptOf (calReject s ck unit) = keptOf s := by
  simp [calReject]

@[simp] theorem keptOf_calPass (s : State) (ck : Nat) (unit : Nat) : keptOf (calPass s ck unit) = keptOf s := by
  simp [calPass]

@[simp] theorem keptOf_regionReject (s : State) (rk : Nat) : keptOf (regionReject s rk) = keptOf s := by
  simp [regionReject]

@[simp] theorem keptOf_converterFailed (s : State) (ck : Nat) (conv : Nat) : keptOf (converterFailed s ck conv) = keptOf s := by
  simp [converterFailed]

@[simp] theorem keptOf_attributeGroups (s : State) (ck : Nat) (t : Nat) (groups : List Nat) : keptOf (attributeGroups s ck t groups) = keptOf s := by
  unfold attributeGroups
  dsimp only
  repeat' split
  all_goals simp

@[simp] theorem keptOf_attributeReferences (s : State) (ck : Nat) : keptOf (attributeReferences s ck) = keptOf s := by
  simp [attributeReferences]

@[simp] theorem keptOf_memReport (s : State) (e : MemError) (detail : Nat) : keptOf (memReport s e detail) = keptOf s := by
  simp [memReport]

@[simp] theorem keptOf_retireCell (s : State) (e : MemError) (detail : Nat) : keptOf (retireCell s e detail) = keptOf s := by
  unfold retireCell
  dsimp only
  repeat' split
  all_goals simp

@[simp] theorem keptOf_exhaustBank (s : State) (e : MemError) : keptOf (exhaustBank s e) = keptOf s := by
  unfold exhaustBank
  repeat' split
  all_goals simp

@[simp] theorem keptOf_retireLocation (s : State) (e : MemError) (detail : Nat) : keptOf (retireLocation s e detail) = keptOf s := by
  simp [retireLocation]

@[simp] theorem keptOf_countCe (s : State) (e : MemError) : keptOf (countCe s e) = keptOf s := by
  simp [countCe]

@[simp] theorem keptOf_engage (s : State) (ck : Nat) (t : Nat) (p : Nat) (proof : Bool) : keptOf (engage s ck t p proof) = keptOf s := by
  simp [engage]

@[simp] theorem keptOf_rejectDescriptor (s : State) (pk : Nat) : keptOf (rejectDescriptor s pk) = keptOf s := by
  simp [rejectDescriptor]

@[simp] theorem keptOf_engageChecked (s : State) (ck : Nat) (t : Nat) (p : Nat) : keptOf (engageChecked s ck t p) = keptOf s := by
  simp [engageChecked]

@[simp] theorem keptOf_engageLogical (s : State) (ck : Nat) (t : Nat) (lp : Nat) : keptOf (engageLogical s ck t lp) = keptOf s := by
  simp [engageLogical]

@[simp] theorem keptOf_reengage (s : State) (ck : Nat) (t : Nat) : keptOf (reengage s ck t) = keptOf s := by
  unfold reengage
  split <;> simp

@[simp] theorem keptOf_endBurst (s : State) (ck : Nat) (t : Nat) (due : Nat) : keptOf (endBurst s ck t due) = keptOf s := by
  unfold endBurst
  split <;> simp

@[simp] theorem keptOf_strobeProduct (s : State) (r : StrobeReq) (p : Nat) (other : Option Nat) : keptOf (strobeProduct s r p other) = keptOf s := by
  unfold strobeProduct
  dsimp only
  repeat' split
  all_goals simp

@[simp] theorem keptOf_takeBadSheet (s : State) (r : StrobeReq) : keptOf (takeBadSheet s r) = keptOf s := by
  unfold takeBadSheet
  split <;> simp

@[simp] theorem keptOf_unpark (s : State) (g : Region) (slot : Nat) : keptOf (unpark s g slot) = keptOf s := by
  unfold unpark
  split <;> simp

@[simp] theorem keptOf_hostWrite (s : State) (fn : Nat) (addr : Nat) (bytes : List Byte) : keptOf (hostWrite s fn addr bytes) = keptOf s := by
  simp [hostWrite]

@[simp] theorem keptOf_sendMsix (s : State) (fn : Nat) (v : Nat) : keptOf (sendMsix s fn v) = keptOf s := by
  simp [sendMsix]

@[simp] theorem keptOf_putTxn (s : State) (d : Nat) (v : Option Txn) : keptOf (putTxn s d v) = keptOf s := by
  simp [putTxn]

@[simp] theorem keptOf_touchTxn (s : State) (id : Nat) : keptOf (touchTxn s id) = keptOf s := by
  unfold touchTxn
  split <;> simp

@[simp] theorem keptOf_stage (s : State) (d : Nat) (c : Staged) : keptOf (stage s d c) = keptOf s := by
  simp [stage]

@[simp] theorem keptOf_writeReply (s0 : State) (r : Reply) : keptOf (writeReply s0 r) = keptOf s0 := by
  simp [writeReply]

@[simp] theorem keptOf_drainReplies (s : State) (fn : Nat) (l : List Reply) : keptOf (drainReplies s fn l) = keptOf s := by
  induction l generalizing s with
  | nil => simp [drainReplies]
  | cons r rs ih => simp [drainReplies, ih]

@[simp] theorem keptOf_pushReply (s : State) (r : Reply) : keptOf (pushReply s r) = keptOf s := by
  simp [pushReply]

@[simp] theorem keptOf_pumpWaiting (s : State) (fn : Nat) (l : List CmdEntry) : keptOf (pumpWaiting s fn l) = keptOf s := by
  induction l generalizing s with
  | nil => rfl
  | cons e es ih =>
    unfold pumpWaiting
    split
    · split <;> simp [ih]
    · exact ih s

@[simp] theorem keptOf_pumpReplies (s : State) (fn : Nat) : keptOf (pumpReplies s fn) = keptOf s := by
  simp [pumpReplies]

@[simp] theorem keptOf_unsolicited (s : State) (opcode : Nat) (st : Status) (txn : Nat) (seq : Nat) (r0 : Nat) (r1 : Nat) :
    keptOf (unsolicited s opcode st txn seq r0 r1) = keptOf s := by
  simp [unsolicited]

@[simp] theorem keptOf_setWait (s : State) (fn : Nat) (seq : Nat) (w : Wait) : keptOf (setWait s fn seq w) = keptOf s := by
  simp [setWait]

@[simp] theorem keptOf_finish (s : State) (fn : Nat) (seq : Nat) (st : Status) (cond : Cond) (r0 : Nat) (r1 : Nat) :
    keptOf (finish s fn seq st cond r0 r1) = keptOf s := by
  unfold finish
  split <;> simp

@[simp] theorem keptOf_reply (s : State) (h : Hdr) (st : Status) : keptOf (reply s h st) = keptOf s := by
  simp [reply]

@[simp] theorem keptOf_replyOk (s : State) (h : Hdr) (r0 : Nat) (r1 : Nat) : keptOf (replyOk s h r0 r1) = keptOf s := by
  simp [replyOk]

@[simp] theorem keptOf_enqueue (s : State) (h : Hdr) (p : CmdParams) : keptOf (enqueue s h p) = keptOf s := by
  unfold enqueue
  split <;> simp

@[simp] theorem keptOf_countAlone (s : State) (lpk : Nat) (ck : Nat) (n : Nat) : keptOf (countAlone s lpk ck n) = keptOf s := by
  simp [countAlone]

@[simp] theorem keptOf_noteDual (s : State) (ck : Nat) (h : Held) (d : PlaneDesc) (ys : List ℤ) : keptOf (noteDual s ck h d ys) = keptOf s := by
  unfold noteDual
  split <;> simp

@[simp] theorem keptOf_planeSwitchOp (s : State) (ck : Nat) (tile : Nat) (plane : Nat) : keptOf (planeSwitchOp s ck tile plane) = keptOf s := by
  simp [planeSwitchOp]

@[simp] theorem keptOf_noteIssued (s : State) (x : StrobeCmd) : keptOf (noteIssued s x) = keptOf s := by
  unfold noteIssued
  split <;> simp

@[simp] theorem keptOf_dualMismatch (s : State) (a : Nat) (b : Nat) : keptOf (dualMismatch s a b) = keptOf s := by
  simp [dualMismatch]

@[simp] theorem keptOf_dropDual (s : State) (w : DualWait) : keptOf (dropDual s w) = keptOf s := by
  simp [dropDual]

@[simp] theorem keptOf_dualCompareOp (s : State) (a : Nat) (b : Nat) (tile : Nat) (words : DualWords) :
    keptOf (dualCompareOp s a b tile words) = keptOf s := by
  unfold dualCompareOp
  split <;> simp

@[simp] theorem keptOf_dualTimeoutOp (s : State) (a : Nat) (b : Nat) : keptOf (dualTimeoutOp s a b) = keptOf s := by
  unfold dualTimeoutOp
  split <;> simp

theorem foldl_scratch {α : Type} (f : Core → α → Core) (h : ∀ c a, (f c a).scratch = c.scratch) (l : List α) (c : Core) :
    (l.foldl f c).scratch = c.scratch := by
  induction l generalizing c with
  | nil => rfl
  | cons a r ih => rw [List.foldl_cons, ih, h]

@[simp] theorem keptOf_precisionOn (s : State) (ck lpk : Nat) : keptOf (precisionOn s ck lpk) = keptOf s := by
  refine keptOf_modCore' _ _ _ fun c => ?_
  rw [foldl_scratch]
  intro _ _
  rfl

@[simp] theorem keptOf_auditCompareOp (s : State) (ck : Nat) (i : Nat) : keptOf (auditCompareOp s ck i) = keptOf s := by
  unfold auditCompareOp
  split <;> simp

@[simp] theorem keptOf_auditTimeoutOp (s : State) (ck : Nat) (i : Nat) : keptOf (auditTimeoutOp s ck i) = keptOf s := by
  unfold auditTimeoutOp
  split <;> simp

@[simp] theorem keptOf_keepAudits (s : State) (kept : List Nat) : keptOf (keepAudits s kept) = keptOf s := by
  refine keptOf_mapCores _ _ fun _ c => ?_
  split <;> rfl

@[simp] theorem keptOf_setRes (s : State) (kind : Nat) (i : Nat) (h : Option (Nat ⊕ Nat)) : keptOf (setRes s kind i h) = keptOf s := by
  simp [setRes]

@[simp] theorem keptOf_allocOp (h : Hdr) (kind : Nat) (index : Nat) (holder : Nat) (s : State) :
    keptOf (allocOp h kind index holder s) = keptOf s := by
  unfold allocOp
  dsimp only
  repeat' split
  all_goals simp

@[simp] theorem keptOf_freeOp (h : Hdr) (kind : Nat) (index : Nat) (s : State) : keptOf (freeOp h kind index s) = keptOf s := by
  simp [freeOp]

@[simp] theorem keptOf_takeSafety (s : State) (kind : Nat) (user : Nat) : keptOf (takeSafety s kind user).1 = keptOf s := by
  unfold takeSafety
  repeat' split
  all_goals simp

@[simp] theorem keptOf_dropSafety (s : State) (kind : Nat) (user : Nat) : keptOf (dropSafety s kind user) = keptOf s := by
  simp [dropSafety]

@[simp] theorem keptOf_freeAllocations (s : State) : keptOf (freeAllocations s) = keptOf s := by
  simp [freeAllocations]

@[simp] theorem keptOf_identifyOp (h : Hdr) (addr : Nat) (s : State) : keptOf (identifyOp h addr s) = keptOf s := by
  simp [identifyOp]

@[simp] theorem keptOf_negotiateOp (h : Hdr) (level : Nat) (s : State) : keptOf (negotiateOp h level s) = keptOf s := by
  simp [negotiateOp]

@[simp] theorem keptOf_reportGetOp (h : Hdr) (addr : Nat) (maxBytes : Nat) (s : State) : keptOf (reportGetOp h addr maxBytes s) = keptOf s := by
  simp [reportGetOp]

@[simp] theorem keptOf_optionSetOp (h : Hdr) (es : List OptEntry) (s : State) : keptOf (optionSetOp h es s) = keptOf s := by
  simp [optionSetOp]

@[simp] theorem keptOf_wantBoundary (s : State) : keptOf (wantBoundary s) = keptOf s := by
  simp [wantBoundary]

@[simp] theorem keptOf_powerSetOp (h : Hdr) (budget : Nat) (s : State) : keptOf (powerSetOp h budget s) = keptOf s := by
  simp [powerSetOp]

@[simp] theorem keptOf_resetWarmOp (h : Hdr) (s : State) : keptOf (resetWarmOp h s) = keptOf s := by
  simp [resetWarmOp]

@[simp] theorem keptOf_leaveProof (s : State) : keptOf (leaveProof s) = keptOf s := by
  simp [leaveProof]

@[simp] theorem keptOf_proofEnterOp (h : Hdr) (s : State) : keptOf (proofEnterOp h s) = keptOf s := by
  simp [proofEnterOp]

@[simp] theorem keptOf_proofLeaveOp (h : Hdr) (s : State) : keptOf (proofLeaveOp h s) = keptOf s := by
  simp [proofLeaveOp]

@[simp] theorem keptOf_tileEngageOp (s : State) (ck : Nat) (tile : Nat) (w : Nat) : keptOf (tileEngageOp s ck tile w) = keptOf s := by
  simp [tileEngageOp]

@[simp] theorem keptOf_fenceUnitCmd (h : Hdr) (w : Nat) (s : State) : keptOf (fenceUnitCmd h w s) = keptOf s := by
  unfold fenceUnitCmd
  split <;> simp

@[simp] theorem keptOf_testRunOp (h : Hdr) (w : Nat) (s : State) : keptOf (testRunOp h w s) = keptOf s := by
  unfold testRunOp
  split <;> simp

@[simp] theorem keptOf_dropFrom (s : State) (v : Nat) (n : Nat) : keptOf (dropFrom s v n) = keptOf s := by
  unfold dropFrom
  split <;> simp

@[simp] theorem keptOf_dropLast (s : State) (v : Nat) : keptOf (dropLast s v) = keptOf s := by
  unfold dropLast
  split <;> simp

@[simp] theorem keptOf_dropRemoteFrom (s : State) (rid : Nat) (n : Nat) : keptOf (dropRemoteFrom s rid n) = keptOf s := by
  unfold dropRemoteFrom
  split <;> simp

@[simp] theorem keptOf_markEndAt (s : State) (rid : Nat) (st : Status) (n : Nat) : keptOf (markEndAt s rid st n) = keptOf s := by
  simp [markEndAt]

@[simp] theorem keptOf_markEnd (s : State) (rid : Nat) (st : Status) : keptOf (markEnd s rid st) = keptOf s := by
  simp [markEnd]

@[simp] theorem keptOf_writeFrame (s : State) (w : Nat) (c : Channel) (kind : Nat) (flags : Nat) (tokens : List Nat) :
    keptOf (writeFrame s w c kind flags tokens) = keptOf s := by
  simp [writeFrame]

@[simp] theorem keptOf_writeData (s : State) (w : Nat) (c : Channel) : keptOf (writeData s w c) = keptOf s := by
  unfold writeData
  split <;> simp

@[simp] theorem keptOf_closeChan (s : State) (w : Nat) : keptOf (closeChan s w) = keptOf s := by
  simp [closeChan]

@[simp] theorem keptOf_endFrame (s : State) (w : Nat) (c : Channel) (st : Status) (asFill : Bool) : keptOf (endFrame s w c st asFill) = keptOf s := by
  unfold endFrame
  split <;> simp

@[simp] theorem keptOf_fillFrame (s : State) (w : Nat) (c : Channel) (forced : Bool) : keptOf (fillFrame s w c forced) = keptOf s := by
  unfold fillFrame
  repeat' split
  all_goals simp

@[simp] theorem keptOf_closeNow (s : State) (w : Nat) (c : Channel) : keptOf (closeNow s w c) = keptOf s := by
  simp [closeNow]

@[simp] theorem keptOf_slotAlone (s : State) (w : Nat) (c : Channel) : keptOf (slotAlone s w c) = keptOf s := by
  simp [slotAlone]

@[simp] theorem keptOf_slotMember (ready : Bool) (s : State) (e : Nat × Channel) : keptOf (slotMember ready s e) = keptOf s := by
  unfold slotMember
  split <;> simp

@[simp] theorem keptOf_webSlotOp (s : State) (w : Nat) : keptOf (webSlotOp s w) = keptOf s := by
  unfold webSlotOp
  split
  · rfl
  · simp only [keptOf_ite, keptOf_slotAlone, keptOf_foldl _ (keptOf_slotMember _)]
    rw [keptOf_foldl]
    · simp
    · intro x e
      split
      · simp
      · rfl

@[simp] theorem keptOf_queueFrames (s : State) (w g : Nat) (l : List (List Nat)) : keptOf (queueFrames s w g l) = keptOf s := by
  induction l generalizing s with
  | nil => rfl
  | cons x xs ih => simp [queueFrames, ih]

@[simp] theorem keptOf_openChannel (s : State) (fn : Nat) (tenant : Nat) (p : WebParams) (silence : Option (List Nat)) :
    keptOf (openChannel s fn tenant p silence).1 = keptOf s := by
  simp [openChannel]

@[simp] theorem keptOf_webOpenOp (h : Hdr) (p : WebParams) (s : State) : keptOf (webOpenOp h p s) = keptOf s := by
  unfold webOpenOp
  repeat' split
  all_goals simp

@[simp] theorem keptOf_webOpenRead (h : Hdr) (p : WebParams) (words : List Nat) (s : State) : keptOf (webOpenRead h p words s) = keptOf s := by
  unfold webOpenRead
  repeat' split
  all_goals simp

@[simp] theorem keptOf_cancelBound (s : State) (c : Channel) : keptOf (cancelBound s c) = keptOf s := by
  unfold cancelBound
  split <;> simp

@[simp] theorem keptOf_webCloseOp (h : Hdr) (w : Nat) (mode : Nat) (s : State) : keptOf (webCloseOp h w mode s) = keptOf s := by
  unfold webCloseOp
  split <;> simp

@[simp] theorem keptOf_closeChannels (s : State) (p : Channel → Bool) : keptOf (closeChannels s p) = keptOf s := by
  refine keptOf_foldl _ (fun x e => ?_) _ _
  split
  · simp
  · rfl

@[simp] theorem keptOf_webGroupOp (h : Hdr) (g : Nat) (ms : List Nat) (s : State) : keptOf (webGroupOp h g ms s) = keptOf s := by
  simp [webGroupOp]

@[simp] theorem keptOf_applyGroup (s : State) (g : Nat) (ms : List Nat) : keptOf (applyGroup s g ms) = keptOf s := by
  simp [applyGroup]

@[simp] theorem keptOf_submitOp (h : Hdr) (p : ReqParams) (s : State) : keptOf (submitOp h p s) = keptOf s := by
  unfold submitOp
  split <;> simp

@[simp] theorem keptOf_releaseHeld (s : State) : keptOf (releaseHeld s) = keptOf s := by
  simp [releaseHeld]

@[simp] theorem keptOf_submitRead (h : Hdr) (p : ReqParams) (words : List Nat) (s : State) : keptOf (submitRead h p words s) = keptOf s := by
  unfold submitRead
  repeat' split
  all_goals simp

@[simp] theorem keptOf_putRec (s : State) (q : Req) (r : Rec) : keptOf (putRec s q r).1 = keptOf s := by
  simp [putRec]

@[simp] theorem keptOf_drainRing (head : Option Nat) (l : List Rec) (x : State × Req) : keptOf (drainRing head l x).1 = keptOf x.1 := by
  induction l generalizing x with
  | nil => rfl
  | cons r rs ih =>
    obtain ⟨s, q⟩ := x
    simp [drainRing, ih, apply_ite Prod.fst]

@[simp] theorem keptOf_writeRec (heads : List (Nat × Nat)) (s : State) (q : Req) (r : Rec) : keptOf (writeRec heads s q r).1 = keptOf s := by
  unfold writeRec
  split
  · rfl
  · exact keptOf_drainRing _ _ _

@[simp] theorem keptOf_rereadReq (heads : List (Nat × Nat)) (s : State) (i : Nat) : keptOf (rereadReq heads s i) = keptOf s := by
  unfold rereadReq
  dsimp only
  repeat' split
  all_goals simp

@[simp] theorem keptOf_rereadEnded (heads : List (Nat × Nat)) (s : State) (e : Nat × Req) : keptOf (rereadEnded heads s e) = keptOf s := by
  unfold rereadEnded
  dsimp only
  repeat' split
  all_goals simp

@[simp] theorem keptOf_rereadRings (heads : List (Nat × Nat)) (s : State) : keptOf (rereadRings heads s) = keptOf s := by
  simp [rereadRings]

@[simp] theorem keptOf_flushRec (heads : List (Nat × Nat)) (s : State) (e : Nat × Req) : keptOf (flushRec heads s e) = keptOf s := by
  unfold flushRec
  split <;> simp

@[simp] theorem keptOf_flushRecs (heads : List (Nat × Nat)) (s : State) : keptOf (flushRecs heads s) = keptOf s := by
  simp [flushRecs]

@[simp] theorem keptOf_noteOverwrite (s : State) (q : Req) : keptOf (noteOverwrite s q) = keptOf s := by
  simp [noteOverwrite]

@[simp] theorem keptOf_replyCancels (s : State) (i : Nat) (emitted : Nat) : keptOf (replyCancels s i emitted) = keptOf s := by
  simp [replyCancels]

@[simp] theorem keptOf_endReq (heads : List (Nat × Nat)) (s : State) (i : Nat) (r : Rec) : keptOf (endReq heads s i r) = keptOf s := by
  unfold endReq
  split <;> simp

@[simp] theorem keptOf_endNow (heads : List (Nat × Nat)) (k : Nat) (s : State) (i : Nat) (st : Status) :
    keptOf (endNow heads k s i st) = keptOf s := by
  unfold endNow
  split <;> simp

@[simp] theorem keptOf_cancelOp (h : Hdr) (rid : Nat) (s : State) : keptOf (cancelOp h rid s) = keptOf s := by
  unfold cancelOp
  dsimp only
  repeat' split
  all_goals simp

@[simp] theorem keptOf_restartReq (heads : List (Nat × Nat)) (k : Nat) (s : State) (i : Nat) (horizon : Nat) (w : Option Row) (cond : Cond) :
    keptOf (restartReq heads k s i horizon w cond) = keptOf s := by
  unfold restartReq
  split <;> simp

@[simp] theorem keptOf_reloadOverlays (s : State) (owner : Nat) : keptOf (reloadOverlays s owner) = keptOf s := by
  simp [reloadOverlays]

@[simp] theorem keptOf_settlePresence (s : State) : keptOf (settlePresence s) = keptOf s := by
  simp [settlePresence]

@[simp] theorem keptOf_spend (n : Nat) (s : State) : keptOf (spend n s) = keptOf s := by
  simp [spend]

@[simp] theorem keptOf_flagRow (s : State) (rid : Option Nat) (c : Cond) : keptOf (flagRow s rid c) = keptOf s := by
  unfold flagRow
  split <;> simp

@[simp] theorem keptOf_chooseExperts (s : State) (rid : Option Nat) (router : Option (Nat × Nat)) (r : List (W32 × Nat)) :
    keptOf (chooseExperts s rid router r) = keptOf s := by
  unfold chooseExperts
  split <;> simp

@[simp] theorem keptOf_topKOp (s : State) (rk : Nat) (rid : Option Nat) (router : Option (Nat × Nat)) (k : Nat) (offset : Nat) (xs : List W32) :
    keptOf (topKOp s rk rid router k offset xs) = keptOf s := by
  simp [topKOp]

@[simp] theorem keptOf_topMergeOp (s : State) (rk : Nat) (rid : Option Nat) (router : Option (Nat × Nat)) (k : Nat) (parts : List (List (W32 × Nat)))
    : keptOf (topMergeOp s rk rid router k parts) = keptOf s := by
  simp [topMergeOp]

@[simp] theorem keptOf_sampleOp (s : State) (rid : Nat) (xs : List W32) : keptOf (sampleOp s rid xs) = keptOf s := by
  unfold sampleOp
  split <;> simp

@[simp] theorem keptOf_verifyOp (s : State) (rid : Nat) (main : List (List W32)) (draft : List (List W32)) :
    keptOf (verifyOp s rid main draft) = keptOf s := by
  unfold verifyOp
  split <;> simp

@[simp] theorem keptOf_attendOp (s : State) (rk : Nat) (rid : Nat) (slot : Nat) (layer : Nat) (pos : Nat) (head : Nat) (query : List W32) (bad : List
    (Nat × Nat)) : keptOf (attendOp s rk rid slot layer pos head query bad) = keptOf s := by
  unfold attendOp
  split <;> simp

@[simp] theorem keptOf_scoresOp (s : State) (rid : Nat) (xs : List W32) : keptOf (scoresOp s rid xs) = keptOf s := by
  unfold scoresOp
  split <;> simp

@[simp] theorem keptOf_startTemp (s : State) (rk : Nat) : keptOf (startTemp s rk) = keptOf s := by
  unfold startTemp
  split
  · rfl
  · refine keptOf_modRegion' _ _ _ fun g => ?_
    split
    · rfl
    · split <;> rfl

@[simp] theorem keptOf_startDrift (s : State) (rk : Nat) : keptOf (startDrift s rk) = keptOf s := by
  unfold startDrift
  split
  · rfl
  · refine keptOf_modRegion' _ _ _ fun g => ?_
    split
    · rfl
    · split <;> rfl

@[simp] theorem keptOf_notePassTemp (s : State) (rk : Nat) (v : ℤ) : keptOf (notePassTemp s rk v) = keptOf s := by
  simp [notePassTemp]

@[simp] theorem keptOf_driftPrecision (s : State) (tk cls : Nat) : keptOf (driftPrecision s tk cls) = keptOf s := by
  refine keptOf_foldl _ (fun x p => ?_) _ _
  split
  · simp
  · rfl

@[simp] theorem keptOf_reportDrift (s : State) (p : Pass) (tk : Nat) (m : Tbl (ℤ × ℤ × ℤ)) : keptOf (reportDrift s p tk m) = keptOf s := by
  simp [reportDrift]

@[simp] theorem keptOf_saveField (s : State) : keptOf (saveField s) = keptOf s := by
  simp [saveField]

@[simp] theorem keptOf_saveDrift (s : State) (ms : List (Nat × Tbl (ℤ × ℤ × ℤ))) : keptOf (saveDrift s ms) = keptOf s := by
  simp [saveDrift]

@[simp] theorem keptOf_takeTile (s : State) (T : ℤ) (tk : Nat) (m : Option (Tbl (ℤ × ℤ × ℤ))) : keptOf (takeTile s T tk m) = keptOf s := by
  unfold takeTile
  split <;> simp

@[simp] theorem keptOf_passReply (rk : Nat) (kind : Nat) (s : State) (e : CmdEntry) : keptOf (passReply rk kind s e) = keptOf s := by
  unfold passReply
  repeat' split
  all_goals simp

@[simp] theorem keptOf_applyTemp (s : State) (rk : Nat) (p : Pass) : keptOf (applyTemp s rk p) = keptOf s := by
  simp [applyTemp]

@[simp] theorem keptOf_applyDrift (s : State) (rk : Nat) (p : Pass) : keptOf (applyDrift s rk p) = keptOf s := by
  simp [applyDrift]

@[simp] theorem keptOf_applyPass (s : State) (rk : Nat) : keptOf (applyPass s rk) = keptOf s := by
  unfold applyPass
  split <;> simp

@[simp] theorem keptOf_latchRegion (s : State) (rk : Nat) : keptOf (latchRegion s rk) = keptOf s := by
  simp [latchRegion]

@[simp] theorem keptOf_latchRegions (s : State) : keptOf (latchRegions s) = keptOf s := by
  have h : keptOf ((s.regions.map (fun r => r.1)).foldl latchRegion s) = keptOf s := keptOf_foldl _ keptOf_latchRegion _ _
  rw [← h]
  simp only [keptOf, latchRegions, scratches_map takeDnl takeDnl_scratch]

@[simp] theorem keptOf_holdTile (s : State) (ck : Nat) (t : Nat) : keptOf (holdTile s ck t) = keptOf s := by
  simp [holdTile]

@[simp] theorem keptOf_freeTile (s : State) (ck : Nat) (t : Nat) (b : Nat) (former : Option Nat) : keptOf (freeTile s ck t b former) = keptOf s := by
  simp [freeTile]

@[simp] theorem keptOf_sliceStrobes (s : State) (ck : Nat) (t : Nat) (pk : Nat) (us : List (Nat × Nat)) (dues : List Nat) :
    keptOf (sliceStrobes s ck t pk us dues) = keptOf s := by
  simp [sliceStrobes]

@[simp] theorem keptOf_recalSliceOp (s : State) (ck : Nat) (t : Nat) (refs : Nat) : keptOf (recalSliceOp s ck t refs) = keptOf s := by
  unfold recalSliceOp
  dsimp only
  repeat' split
  all_goals simp

@[simp] theorem keptOf_driftPlane (rk ck t : Nat) (x : State × Tbl PlaneFit) (q : Nat) : keptOf (driftPlane rk ck t x q).1 = keptOf x.1 := by
  unfold driftPlane
  dsimp only
  split <;> simp

@[simp] theorem keptOf_driftSliceOp (s : State) (ck t : Nat) (planes : List Nat) : keptOf (driftSliceOp s ck t planes) = keptOf s := by
  unfold driftSliceOp
  dsimp only
  split
  · rfl
  · split
    · rfl
    · simp

@[simp] theorem keptOf_driftStartOp (s : State) (rk : Nat) : keptOf (driftStartOp s rk) = keptOf s := by
  simp [driftStartOp]

@[simp] theorem keptOf_bandStack (tick : Bool) (s : State) (x : Nat × ℤ) : keptOf (bandStack tick s x) = keptOf s := by
  simp [bandStack]

@[simp] theorem keptOf_bandGapOp (s0 : State) (tick : Bool) (readings : List (Nat × ℤ)) : keptOf (bandGapOp s0 tick readings) = keptOf s0 := by
  simp [bandGapOp]

@[simp] theorem keptOf_calSelfOp (h : Hdr) (s : State) : keptOf (calSelfOp h s) = keptOf s := by
  simp [calSelfOp]

@[simp] theorem keptOf_trimOne (ck : Nat) (s : State) (r : TrimResult) : keptOf (trimOne ck s r) = keptOf s := by
  simp [trimOne]

@[simp] theorem keptOf_trimCore (s : State) (e : Nat × List TrimResult) : keptOf (trimCore s e) = keptOf s := by
  simp [trimCore]

@[simp] theorem keptOf_modSense (s : State) (conv : Nat) (f : Sense → Sense) : keptOf (modSense s conv f) = keptOf s := by
  simp [modSense]

@[simp] theorem keptOf_trimUnit (s : State) (r : UnitTrim) : keptOf (trimUnit s r) = keptOf s := by
  simp [trimUnit]

@[simp] theorem keptOf_calSelfCompleteOp (s : State) (results : TrimSearch) (bandgap : List (Nat × ℤ)) :
    keptOf (calSelfCompleteOp s results bandgap) = keptOf s := by
  unfold calSelfCompleteOp
  split <;> simp

theorem keptOf_calPassOp (h : Hdr) (w : Nat) (start : State → Nat → State) (hs : ∀ s r, keptOf (start s r) = keptOf s) (s : State) :
    keptOf (calPassOp h w start s) = keptOf s := by
  unfold calPassOp
  simp [hs]

@[simp] theorem keptOf_senseResult (s : State) (r : SenseResult) : keptOf (senseResult s r) = keptOf s := by
  simp [senseResult]

@[simp] theorem keptOf_passDoneSense (s : State) (conv : Nat) (host : Bool) : keptOf (passDoneSense s conv host) = keptOf s := by
  simp [passDoneSense]

@[simp] theorem keptOf_fwPassBusy (s : State) (conv : Nat) : keptOf (fwPassBusy s conv) = keptOf s := by
  simp [fwPassBusy]

@[simp] theorem keptOf_hostPassOp (s : State) (conv : Nat) (edge : Nat) (rs : List SenseResult) : keptOf (hostPassOp s conv edge rs) = keptOf s := by
  simp [hostPassOp]

@[simp] theorem keptOf_ageCommitOp (s : State) : keptOf (ageCommitOp s) = keptOf s := by
  simp [ageCommitOp]

@[simp] theorem keptOf_galleyWriteOp (s : State) (fn : Nat) (off : Nat) (b : List Byte) : keptOf (galleyWriteOp s fn off b) = keptOf s := by
  simp [galleyWriteOp]

@[simp] theorem keptOf_writeMirror (s : State) (fn : Nat) : keptOf (writeMirror s fn) = keptOf s := by
  simp [writeMirror]

@[simp] theorem keptOf_writeMirrors (s : State) : keptOf (writeMirrors s) = keptOf s := by
  simp [writeMirrors]

@[simp] theorem keptOf_packetTakeOp (s : State) : keptOf (packetTakeOp s) = keptOf s := by
  unfold packetTakeOp
  dsimp only
  repeat' split
  all_goals simp

@[simp] theorem keptOf_dropGalley (s : State) (fn : Nat) : keptOf (dropGalley s fn) = keptOf s := by
  simp [dropGalley]

@[simp] theorem keptOf_moveLadders (s : State) (k : Step) : keptOf (moveLadders s k) = keptOf s := by
  simp [moveLadders]

@[simp] theorem keptOf_eventMsg (s : State) (bit : Nat) : keptOf (eventMsg s bit) = keptOf s := by
  simp [eventMsg]

@[simp] theorem keptOf_pldmEvent (s : State) : keptOf (pldmEvent s) = keptOf s := by
  simp [pldmEvent]

@[simp] theorem keptOf_sendControl (s : State) (typ : Nat) (dest : Nat) (words : List Nat) : keptOf (sendControl s typ dest words) = keptOf s := by
  unfold sendControl
  split <;> simp

@[simp] theorem keptOf_broadcast (s : State) (typ : Nat) (words : List Nat) : keptOf (broadcast s typ words) = keptOf s := by
  simp [broadcast]

@[simp] theorem keptOf_loseFlit (s : State) (f : Flit) : keptOf (loseFlit s f) = keptOf s := by
  simp [loseFlit]

@[simp] theorem keptOf_loseFlits (s : State) (x : Port) : keptOf (loseFlits s x) = keptOf s := by
  simp [loseFlits]

@[simp] theorem keptOf_portDown (s : State) (p : Nat) (cause : Nat) : keptOf (portDown s p cause) = keptOf s := by
  simp [portDown]

@[simp] theorem keptOf_trainFails (s : State) (p : Nat) (cause : Nat) : keptOf (trainFails s p cause) = keptOf s := by
  simp [trainFails]

@[simp] theorem keptOf_restartPort (s : State) (p : Nat) (st : Nat) : keptOf (restartPort s p st) = keptOf s := by
  simp [restartPort]

@[simp] theorem keptOf_startKex (s : State) (slot : Nat) (p : Nat) : keptOf (startKex s slot p) = keptOf s := by
  simp [startKex]

@[simp] theorem keptOf_kexAll (s : State) (slot : Nat) : keptOf (kexAll s slot) = keptOf s := by
  simp [kexAll]

@[simp] theorem keptOf_dropSubkeys (s : State) (slot : Nat) : keptOf (dropSubkeys s slot) = keptOf s := by
  simp [dropSubkeys]

@[simp] theorem keptOf_freeTarget (s : State) (pk : Nat) : keptOf (freeTarget s pk) = keptOf s := by
  simp [freeTarget]

@[simp] theorem keptOf_dropClaims (s : State) (ls : List Nat) : keptOf (dropClaims s ls) = keptOf s := by
  simp [dropClaims]

@[simp] theorem keptOf_dropStaged (s : State) (imageId : Nat) : keptOf (dropStaged s imageId) = keptOf s := by
  simp [dropStaged]

@[simp] theorem keptOf_noteFailed (s : State) (imageId : Nat) (st : Option Status) : keptOf (noteFailed s imageId st) = keptOf s := by
  simp [noteFailed]

@[simp] theorem keptOf_settleArea (s : State) (want : List DmaUser) : keptOf (settleArea s want) = keptOf s := by
  simp [settleArea]

@[simp] theorem keptOf_sendRecordRead (s : State) (ld : Load) (n : Nat) : keptOf (sendRecordRead s ld n) = keptOf s := by
  simp [sendRecordRead]

@[simp] theorem keptOf_settleDma (s0 : State) : keptOf (settleDma s0) = keptOf s0 := by
  unfold settleDma
  dsimp only
  repeat' split
  all_goals simp

@[simp] theorem keptOf_readPart (s : State) (ld : Load) : keptOf (readPart s ld) = keptOf s := by
  simp [readPart]

@[simp] theorem keptOf_plateLoadOp (h : Hdr) (p : LoadParams) (s : State) : keptOf (plateLoadOp h p s) = keptOf s := by
  simp [plateLoadOp]

@[simp] theorem keptOf_failLoad (s : State) (st : Status) : keptOf (failLoad s st) = keptOf s := by
  unfold failLoad
  split <;> simp

@[simp] theorem keptOf_startPayload (s : State) (ld : Load) : keptOf (startPayload s ld) = keptOf s := by
  unfold startPayload
  repeat' split
  all_goals simp

@[simp] theorem keptOf_imagePartOp (s : State) (ld : Load) (d : ReadData) : keptOf (imagePartOp s ld d) = keptOf s := by
  unfold imagePartOp
  repeat' split
  all_goals simp

@[simp] theorem keptOf_loadMaybeDone (s : State) : keptOf (loadMaybeDone s) = keptOf s := by
  unfold loadMaybeDone
  split <;> simp

@[simp] theorem keptOf_beginWrite (s : State) (pk : Nat) (r : Option PlaneRecord) : keptOf (beginWrite s pk r) = keptOf s := by
  simp [beginWrite]

@[simp] theorem keptOf_writeRecordPlane (r : PlaneRecord) (s : State) (l : Nat) : keptOf (writeRecordPlane r s l) = keptOf s := by
  unfold writeRecordPlane
  split <;> simp

@[simp] theorem keptOf_settleClaim (s : State) (c : Nat × Nat) : keptOf (settleClaim s c) = keptOf s := by
  unfold settleClaim
  repeat' split
  all_goals simp

@[simp] theorem keptOf_settleClaims (s : State) : keptOf (settleClaims s) = keptOf s := by
  simp [settleClaims]

@[simp] theorem keptOf_endPayload (s : State) (ok : Bool) : keptOf (endPayload s ok) = keptOf s := by
  simp [endPayload]

@[simp] theorem keptOf_loadRecord (s : State) (ld : Load) (bytes : List Byte) (tagOk : Bool) : keptOf (loadRecord s ld bytes tagOk) = keptOf s := by
  simp [loadRecord]

@[simp] theorem keptOf_blockRefill (s : State) (r : Refill) : keptOf (blockRefill s r) = keptOf s := by
  simp [blockRefill]

@[simp] theorem keptOf_refillRecord (s : State) (bytes : List Byte) (ok : Bool) : keptOf (refillRecord s bytes ok) = keptOf s := by
  refine keptOf_foldl _ (fun x l => ?_) _ _
  split
  · rfl
  · simp

@[simp] theorem keptOf_plateRecordOp (s0 : State) (bytes : List Byte) (tagOk : Bool) (digestOk : Bool) (keyOk : Bool) :
    keptOf (plateRecordOp s0 bytes tagOk digestOk keyOk) = keptOf s0 := by
  unfold plateRecordOp
  dsimp only
  repeat' split
  all_goals simp

@[simp] theorem keptOf_endChange (s : State) (st : Status) : keptOf (endChange s st) = keptOf s := by
  unfold endChange
  repeat' split
  all_goals simp

@[simp] theorem keptOf_readRun (s : State) : keptOf (readRun s) = keptOf s := by
  unfold readRun
  split <;> simp

@[simp] theorem keptOf_modRun (s : State) (f : Load → Load) : keptOf (modRun s f) = keptOf s := by
  simp [modRun]

@[simp] theorem keptOf_imageTimeoutOp (s : State) : keptOf (imageTimeoutOp s) = keptOf s := by
  unfold imageTimeoutOp
  dsimp only
  repeat' split
  all_goals simp

@[simp] theorem keptOf_addContinuations (head : Report) (s : State) (l : List (List Defect)) : keptOf (addContinuations head s l) = keptOf s := by
  induction l generalizing s with
  | nil => rfl
  | cons es r ih => simp [addContinuations, ih]

@[simp] theorem keptOf_defectReport (s : State) (pk : Nat) (ds : List Defect) : keptOf (defectReport s pk ds) = keptOf s := by
  simp [defectReport]

@[simp] theorem keptOf_defectNotice (s : State) (pk : Nat) : keptOf (defectNotice s pk) = keptOf s := by
  unfold defectNotice
  split <;> simp

@[simp] theorem keptOf_moveDefectWait (s : State) (pk : Nat) (sp : Option Nat) : keptOf (moveDefectWait s pk sp) = keptOf s := by
  unfold moveDefectWait
  split <;> simp

@[simp] theorem keptOf_spareAway (s : State) (pk : Nat) (r : PlaneRecord) : keptOf (spareAway s pk r).1 = keptOf s := by
  unfold spareAway
  dsimp only
  repeat' split
  all_goals simp

@[simp] theorem keptOf_storePlane (s : State) (pk : Nat) (r : PlaneRecord) (m0 : Tbl Nat) (m : Tbl Nat) (xmap : Tbl Nat) (moves : List (Nat × Nat ×
    Nat)) (st : Nat) : keptOf (storePlane s pk r m0 m xmap moves st) = keptOf s := by
  simp [storePlane]

@[simp] theorem keptOf_refillWritten (s : State) (pk : Nat) : keptOf (refillWritten s pk) = keptOf s := by
  simp [refillWritten]

@[simp] theorem keptOf_programRecord (s : State) (pk : Nat) (r : PlaneRecord) (ds : List Defect) : keptOf (programRecord s pk r ds) = keptOf s := by
  unfold programRecord
  split <;> simp

@[simp] theorem keptOf_programPlain (s : State) (pk : Nat) (ds : List Defect) : keptOf (programPlain s pk ds) = keptOf s := by
  simp [programPlain]

@[simp] theorem keptOf_replyDefects (s : State) (pk : Nat) : keptOf (replyDefects s pk) = keptOf s := by
  unfold replyDefects
  split <;> simp

@[simp] theorem keptOf_checkReferences (s : State) (pk : Nat) (ds : List Defect) : keptOf (checkReferences s pk ds) = keptOf s := by
  simp [checkReferences]

@[simp] theorem keptOf_planeProgramOp (s0 : State) (pk : Nat) (ds : List Defect) : keptOf (planeProgramOp s0 pk ds) = keptOf s0 := by
  unfold planeProgramOp
  dsimp only
  repeat' split
  all_goals simp

@[simp] theorem keptOf_writeBurstOp (s : State) (pk : Nat) (row : Nat) (rows : Nat) : keptOf (writeBurstOp s pk row rows) = keptOf s := by
  simp [writeBurstOp]

@[simp] theorem keptOf_plateReleaseOp (h : Hdr) (id : Nat) (s : State) : keptOf (plateReleaseOp h id s) = keptOf s := by
  unfold plateReleaseOp
  split <;> simp

@[simp] theorem keptOf_sourceSetOp (h : Hdr) (id : Nat) (source : Nat) (peer : Nat) (addr : Nat) (s : State) :
    keptOf (sourceSetOp h id source peer addr s) = keptOf s := by
  simp [sourceSetOp]

@[simp] theorem keptOf_defectAcceptOp (h : Hdr) (w : Nat) (s : State) : keptOf (defectAcceptOp h w s) = keptOf s := by
  unfold defectAcceptOp
  split
  · simp
  · rename_i pk _
    split
    · rename_i r _ _
      have hs := keptOf_spareAway s pk r
      split <;> simp_all
    · simp

@[simp] theorem keptOf_formeLoadOp (h : Hdr) (slot : Nat) (addr : Nat) (length : Nat) (s : State) :
    keptOf (formeLoadOp h slot addr length s) = keptOf s := by
  simp [formeLoadOp]

@[simp] theorem keptOf_formeRead (h : Hdr) (slot : Nat) (length : Nat) (bytes : List Byte) (s : State) :
    keptOf (formeRead h slot length bytes s) = keptOf s := by
  unfold formeRead
  split <;> simp

@[simp] theorem keptOf_inplaceRunOp (s0 : State) (bytes : List Byte) : keptOf (inplaceRunOp s0 bytes) = keptOf s0 := by
  unfold inplaceRunOp
  dsimp only
  repeat' split
  all_goals simp

@[simp] theorem keptOf_startAudit (s : State) : keptOf (startAudit s) = keptOf s := by
  simp [startAudit]

@[simp] theorem keptOf_leaveAudit (s : State) : keptOf (leaveAudit s) = keptOf s := by
  simp [leaveAudit]

@[simp] theorem keptOf_leaveAll (n : Nat) (s : State) : keptOf (leaveAll n s) = keptOf s := by
  induction n generalizing s with
  | zero => rfl
  | succ n ih => simp [leaveAll, ih]

@[simp] theorem keptOf_auditFetchOne (s : State) (f : Option AuditFetch) : keptOf (auditFetchOne s f) = keptOf s := by
  unfold auditFetchOne
  repeat' split
  all_goals simp

@[simp] theorem keptOf_auditRotationOp (s : State) (fetches : List (Option AuditFetch)) : keptOf (auditRotationOp s fetches) = keptOf s := by
  simp [auditRotationOp]

@[simp] theorem keptOf_txnBeginOp (h : Hdr) (d : Nat) (s : State) : keptOf (txnBeginOp h d s) = keptOf s := by
  simp [txnBeginOp]

@[simp] theorem keptOf_startDrain (s : State) : keptOf (startDrain s) = keptOf s := by
  simp [startDrain]

@[simp] theorem keptOf_saveGen (s : State) : keptOf (saveGen s) = keptOf s := by
  simp [saveGen]

@[simp] theorem keptOf_startRewrite (s : State) : keptOf (startRewrite s) = keptOf s := by
  simp [startRewrite]

@[simp] theorem keptOf_sendPrep (s : State) (x : Txn) : keptOf (sendPrep s x) = keptOf s := by
  simp [sendPrep]

@[simp] theorem keptOf_selfFence (s : State) : keptOf (selfFence s) = keptOf s := by
  simp [selfFence]

@[simp] theorem keptOf_txnCommitOp (h : Hdr) (s : State) : keptOf (txnCommitOp h s) = keptOf s := by
  unfold txnCommitOp
  repeat' split
  all_goals simp

@[simp] theorem keptOf_stopCommands (s : State) (id : Nat) : keptOf (stopCommands s id) = keptOf s := by
  simp [stopCommands]

@[simp] theorem keptOf_distribute (s : State) (d : Nat) : keptOf (distribute s d) = keptOf s := by
  unfold distribute
  split <;> simp

@[simp] theorem keptOf_txnRollbackOp (h : Hdr) (s : State) : keptOf (txnRollbackOp h s) = keptOf s := by
  unfold txnRollbackOp
  split <;> simp

@[simp] theorem keptOf_txnExpiredOp (s : State) (d : Nat) : keptOf (txnExpiredOp s d) = keptOf s := by
  simp [txnExpiredOp]

@[simp] theorem keptOf_endTenant (heads : List (Nat × Nat)) (k : Nat) (s : State) (t : Nat) : keptOf (endTenant heads k s t) = keptOf s := by
  simp [endTenant]

@[simp] theorem keptOf_enterConfidential (s : State) : keptOf (enterConfidential s) = keptOf s := by
  simp [enterConfidential]

@[simp] theorem keptOf_applyTenant (heads : List (Nat × Nat)) (k : Nat) (s : State) (t : Nat) (cfg : TenantCfg) :
    keptOf (applyTenant heads k s t cfg) = keptOf s := by
  simp [applyTenant]

@[simp] theorem keptOf_applyOverlay (s : State) (t : Nat) (slot : Nat) (layer : Nat) (r : Option Overlay) (bytes : Nat) :
    keptOf (applyOverlay s t slot layer r bytes) = keptOf s := by
  simp [applyOverlay]

@[simp] theorem keptOf_applyTenants (heads : List (Nat × Nat)) (k : Nat) (s : State) (l : List Staged) :
    keptOf (applyTenants heads k s l) = keptOf s := by
  unfold applyTenants
  simp only [keptOf_ite, keptOf_setKv _ (fun b => { b with reserveShort := false }) (fun _ => rfl), ite_self]
  refine keptOf_foldl _ (fun x c => ?_) _ _
  split <;> simp

@[simp] theorem keptOf_applyOption (s : State) (off : Nat) (m : W32) (v : W32) : keptOf (applyOption s off m v) = keptOf s := by
  simp [applyOption]

@[simp] theorem keptOf_rungsToZero (s : State) : keptOf (rungsToZero s) = keptOf s := by
  simp [rungsToZero]

@[simp] theorem keptOf_followPorts (s0 : State) (s : State) : keptOf (followPorts s0 s) = keptOf s := by
  simp [followPorts]

@[simp] theorem keptOf_applyOptions (s : State) (l : List Staged) : keptOf (applyOptions s l) = keptOf s := by
  have h : keptOf (l.foldl (fun x c => match c with
      | .option off m v => applyOption x off m v
      | _ => x) s) = keptOf s := by
    refine keptOf_foldl _ (fun x c => ?_) _ _
    split <;> simp
  unfold applyOptions
  generalize l.foldl (fun x c => match c with
      | .option off m v => applyOption x off m v
      | _ => x) s = s1 at h ⊢
  simp [h]

@[simp] theorem keptOf_applyGroups (s : State) (l : List Staged) : keptOf (applyGroups s l) = keptOf s := by
  refine keptOf_foldl _ (fun x c => ?_) _ _
  split <;> simp

@[simp] theorem keptOf_swapClaim (s : State) (l : Nat) (new : Nat) : keptOf (swapClaim s l new) = keptOf s := by
  unfold swapClaim
  split <;> simp

@[simp] theorem keptOf_freePlane (s : State) (l : Nat) : keptOf (freePlane s l) = keptOf s := by
  unfold freePlane
  split <;> simp

@[simp] theorem keptOf_flipPlates (s : State) (l : List Staged) : keptOf (flipPlates s l) = keptOf s := by
  simp [flipPlates]

@[simp] theorem keptOf_dropDraft (s : State) (i : Nat) : keptOf (dropDraft s i) = keptOf s := by
  unfold dropDraft
  repeat' split
  all_goals simp

@[simp] theorem keptOf_loseDraft (s : State) (i : Nat) : keptOf (loseDraft s i) = keptOf s := by
  unfold loseDraft
  split <;> simp

@[simp] theorem keptOf_startAgain (s : State) (i : Nat) : keptOf (startAgain s i) = keptOf s := by
  simp [startAgain]

@[simp] theorem keptOf_flipRequest (heads : List (Nat × Nat)) (k : Nat) (epoch : Nat) (old : Tbl Forme) (s : State) (i : Nat) :
    keptOf (flipRequest heads k epoch old s i) = keptOf s := by
  unfold flipRequest
  dsimp only
  repeat' split
  all_goals simp

@[simp] theorem keptOf_flipRemote (old : Tbl Forme) (s : State) (rid : Nat) : keptOf (flipRemote old s rid) = keptOf s := by
  unfold flipRemote
  repeat' split
  all_goals simp

@[simp] theorem keptOf_flipRemotes (old : Tbl Forme) (s : State) : keptOf (flipRemotes old s) = keptOf s := by
  simp [flipRemotes]

theorem wideBufs_map (f : Nat × Region → Region) (h : ∀ e, (f e).wideBuf = e.2.wideBuf) (rs : Tbl Region) :
    wideBufs (rs.map fun e => (e.1, f e)) = wideBufs rs := by
  funext k
  induction rs with
  | nil => rfl
  | cons e r ih =>
    simp only [wideBufs, tget, List.map_cons, tfind] at ih ⊢
    split
    · simpa using h e
    · exact ih

@[simp] theorem keptOf_leaveFits (s : State) (ps : List Nat) : keptOf (leaveFits s ps) = keptOf s := by
  simp only [keptOf, leaveFits]
  rw [wideBufs_map fun e => { e.2 with pass := _ }]
  intro _
  rfl

@[simp] theorem keptOf_forgetReset (changed : Nat → Nat → Bool) (s : State) : keptOf (forgetReset changed s) = keptOf s := by
  simp [forgetReset]

@[simp] theorem keptOf_orderFlip (s : State) : keptOf (orderFlip s) = keptOf s := by
  unfold orderFlip
  split <;> simp

@[simp] theorem keptOf_answerCommit (B : Nat) (s : State) (x : Txn) : keptOf (answerCommit B s x) = keptOf s := by
  unfold answerCommit
  split <;> simp

@[simp] theorem keptOf_saveMaps (s : State) : keptOf (saveMaps s) = keptOf s := by
  unfold saveMaps
  split <;> simp

@[simp] theorem keptOf_genWrittenOp (s : State) : keptOf (genWrittenOp s) = keptOf s := by
  unfold genWrittenOp
  split <;> simp

@[simp] theorem keptOf_pinLimitOp (s : State) : keptOf (pinLimitOp s) = keptOf s := by
  unfold pinLimitOp
  split <;> simp

@[simp] theorem keptOf_drainTimeoutOp (s : State) : keptOf (drainTimeoutOp s) = keptOf s := by
  unfold drainTimeoutOp
  split <;> simp

@[simp] theorem keptOf_tenantSetOp (h : Hdr) (t : Nat) (cfg : TenantCfg) (s : State) : keptOf (tenantSetOp h t cfg s) = keptOf s := by
  unfold tenantSetOp
  split <;> simp

@[simp] theorem keptOf_keyLoadOp (h : Hdr) (t : Nat) (unwrapped : Option Nat) (s : State) : keptOf (keyLoadOp h t unwrapped s) = keptOf s := by
  unfold keyLoadOp
  repeat' split
  all_goals simp

@[simp] theorem keptOf_cutStep (s : State) : keptOf (cutStep s) = keptOf s := by
  unfold cutStep
  split <;> simp

@[simp] theorem keptOf_strikeTenant (s : State) (t : Nat) : keptOf (strikeTenant s t) = keptOf s := by
  simp [strikeTenant]

@[simp] theorem keptOf_beginRemove (s : State) (t : Nat) : keptOf (beginRemove s t) = keptOf s := by
  simp [beginRemove]

@[simp] theorem keptOf_tenantRemoveOp (h : Hdr) (t : Nat) (s : State) : keptOf (tenantRemoveOp h t s) = keptOf s := by
  simp [tenantRemoveOp]

@[simp] theorem keptOf_removeAtBoundary (heads : List (Nat × Nat)) (k : Nat) (s : State) (t : Nat) :
    keptOf (removeAtBoundary heads k s t) = keptOf s := by
  simp [removeAtBoundary]

@[simp] theorem keptOf_zeroise (s : State) (t : Nat) : keptOf (zeroise s t) = keptOf s := by
  simp [zeroise]

@[simp] theorem keptOf_keyZeroiseOp (s : State) (t : Nat) : keptOf (keyZeroiseOp s t) = keptOf s := by
  unfold keyZeroiseOp
  dsimp only
  repeat' split
  all_goals simp

@[simp] theorem keptOf_tdiLeave (s : State) (fn : Nat) : keptOf (tdiLeave s fn) = keptOf s := by
  simp [tdiLeave]

@[simp] theorem keptOf_keyRegisterOp (h : Hdr) (key : Nat) (s : State) : keptOf (keyRegisterOp h key s) = keptOf s := by
  simp [keyRegisterOp]

@[simp] theorem keptOf_newChallenge (s : State) : keptOf (newChallenge s) = keptOf s := by
  simp [newChallenge]

@[simp] theorem keptOf_debugUnlockOp (h : Hdr) (k : DebugToken) (s : State) : keptOf (debugUnlockOp h k s) = keptOf s := by
  simp [debugUnlockOp]

@[simp] theorem keptOf_stageOverlay (h : Hdr) (t : Nat) (slot : Nat) (layer : Nat) (o : Option Overlay) (s : State) :
    keptOf (stageOverlay h t slot layer o s) = keptOf s := by
  simp [stageOverlay]

@[simp] theorem keptOf_overlaySetOp (h : Hdr) (t : Nat) (slot : Nat) (layer : Nat) (addr : Nat) (length : Nat) (s : State) :
    keptOf (overlaySetOp h t slot layer addr length s) = keptOf s := by
  simp [overlaySetOp]

@[simp] theorem keptOf_overlayRead (h : Hdr) (t : Nat) (slot : Nat) (layer : Nat) (length : Nat) (o : Overlay) (s : State) :
    keptOf (overlayRead h t slot layer length o s) = keptOf s := by
  unfold overlayRead
  repeat' split
  all_goals simp

@[simp] theorem keptOf_modStep (s : State) (f : Step → Step) : keptOf (modStep s f) = keptOf s := by
  simp [modStep]

@[simp] theorem keptOf_cutWindow (ck : Nat) (t : Nat) (s : State) : keptOf (cutWindow ck t s) = keptOf s := by
  unfold cutWindow
  dsimp only
  repeat' split
  all_goals simp

@[simp] theorem keptOf_takeSummary (s : State) (ck : Nat) : keptOf (takeSummary s ck) = keptOf s := by
  simp [takeSummary]

@[simp] theorem keptOf_messageGap (s : State) (rk : Nat) : keptOf (messageGap s rk) = keptOf s := by
  simp [messageGap]

@[simp] theorem keptOf_fillRow (s : State) (w : Row) : keptOf (fillRow s w).1 = keptOf s := by
  unfold fillRow
  dsimp only
  repeat' split
  all_goals simp

@[simp] theorem keptOf_sealRows (k : Step) (s : State) (l : List Row) : keptOf (sealRows k s l).1 = keptOf s := by
  induction l generalizing s with
  | nil => rfl
  | cons w r ih => simp [sealRows, ih]

@[simp] theorem keptOf_withholdIds (bad : List Nat) (s : State) : keptOf (withholdIds bad s) = keptOf s := by
  simp [withholdIds]

@[simp] theorem keptOf_tryName (s : State) : keptOf (tryName s) = keptOf s := by
  unfold tryName
  split <;> simp

@[simp] theorem keptOf_sendReport (s : State) (k : Step) : keptOf (sendReport s k) = keptOf s := by
  simp [sendReport]

@[simp] theorem keptOf_stepSealOp (s : State) : keptOf (stepSealOp s) = keptOf s := by
  unfold stepSealOp
  repeat' split
  all_goals simp

@[simp] theorem keptOf_reportLate (old : State) (l : List (Report × List (Nat × Nat))) (s : State) : keptOf (reportLate old l s) = keptOf s := by
  simp [reportLate]

@[simp] theorem keptOf_chargeTenant (s : State) (t : Nat) (c : Nat) : keptOf (chargeTenant s t c) = keptOf s := by
  simp [chargeTenant]

@[simp] theorem keptOf_releaseRow (heads : List (Nat × Nat)) (k : Nat) (s : State) (q : Req) (f : Forme) (w : Row) (pinned : Bool) :
    keptOf (releaseRow heads k s q f w pinned) = keptOf s := by
  simp [releaseRow]

@[simp] theorem keptOf_countDeadline (s : State) : keptOf (countDeadline s) = keptOf s := by
  simp [countDeadline]

@[simp] theorem keptOf_settleRemote (s : State) (cut : Bool) (w : Row) : keptOf (settleRemote s cut w) = keptOf s := by
  unfold settleRemote
  split <;> simp

@[simp] theorem keptOf_settleRow (heads : List (Nat × Nat)) (k : Nat) (B : Nat) (cut : Bool) (late : List (Nat × Nat)) (s : State) (w : Row) :
    keptOf (settleRow heads k B cut late s w) = keptOf s := by
  unfold settleRow
  repeat' split
  all_goals simp

@[simp] theorem keptOf_setOwner (s : State) (o : Nat) : keptOf (setOwner s o) = keptOf s := by
  simp [setOwner]

@[simp] theorem keptOf_creditTenant (owner : Nat) (delta : Nat) (num : Nat) (den : Nat) (s : State) (t : Nat) :
    keptOf (creditTenant owner delta num den s t) = keptOf s := by
  simp [creditTenant]

@[simp] theorem keptOf_creditAll (s : State) (owner : Nat) : keptOf (creditAll s owner) = keptOf s := by
  simp [creditAll]

@[simp] theorem keptOf_addStage (s : State) (x : Nat × Nat) : keptOf (addStage s x) = keptOf s := by
  simp [addStage]

@[simp] theorem keptOf_addAdapt (s : State) (x : Nat × Nat) : keptOf (addAdapt s x) = keptOf s := by
  simp [addAdapt]

@[simp] theorem keptOf_lodgeClaim (s : State) (i : Nat) (q : Req) (n : Nat) : keptOf (lodgeClaim s i q n) = keptOf s := by
  simp [lodgeClaim]

@[simp] theorem keptOf_keepMarks (s t : State) : keptOf (keepMarks s t) = keptOf s := by
  unfold keepMarks
  rw [keptOf_foldl]
  · exact keptOf_setKv _ _ fun _ => rfl
  · intro x e
    exact keptOf_modRegion' _ _ _ fun _ => rfl

@[simp] theorem keptOf_ageTenant (work : List (Nat × Req)) (x : Form) (s : State) (t : Nat) : keptOf (ageTenant work x s t) = keptOf s := by
  unfold ageTenant
  rw [keptOf_foldl_fst]
  intro acc e
  simp

@[simp] theorem keptOf_resetAges (s : State) (owner : Nat) (work : List (Nat × Req)) : keptOf (resetAges s owner work) = keptOf s := by
  simp [resetAges]

@[simp] theorem keptOf_countAged (s : State) (rows : List Row) : keptOf (countAged s rows) = keptOf s := by
  simp [countAged]

@[simp] theorem keptOf_countGrants (s : State) (rows : List Row) : keptOf (countGrants s rows) = keptOf s := by
  simp [countGrants]

@[simp] theorem keptOf_dropBadOf (s : State) (i : Nat) : keptOf (dropBadOf s i) = keptOf s := by
  unfold dropBadOf
  split <;> simp

@[simp] theorem keptOf_dropBadRemote (s : State) (rid : Nat) : keptOf (dropBadRemote s rid) = keptOf s := by
  unfold dropBadRemote
  split <;> simp

@[simp] theorem keptOf_dropBad (s : State) : keptOf (dropBad s) = keptOf s := by
  simp [dropBad]

@[simp] theorem keptOf_restartLate (heads : List (Nat × Nat)) (k : Nat) (B : Nat) (rows : List Row) (s : State) (x : Nat × Nat) :
    keptOf (restartLate heads k B rows s x) = keptOf s := by
  unfold restartLate
  split <;> simp

@[simp] theorem keptOf_noteSealed (s : State) (k : Step) (ids : List (Nat × Nat)) (B : Nat) (limited : Nat) :
    keptOf (noteSealed s k ids B limited) = keptOf s := by
  simp [noteSealed]

@[simp] theorem keptOf_sealDeficits (s : State) : keptOf (sealDeficits s) = keptOf s := by
  simp [sealDeficits]

@[simp] theorem keptOf_endIssue (s : State) : keptOf (endIssue s) = keptOf s := by
  simp [endIssue]

@[simp] theorem keptOf_markLeaving (k : Nat) (s : State) : keptOf (markLeaving k s) = keptOf s := by
  simp [markLeaving]

@[simp] theorem keptOf_endAtBoundary (heads : List (Nat × Nat)) (k : Nat) (B : Nat) (restarted : List Nat) (s : State) (i : Nat) :
    keptOf (endAtBoundary heads k B restarted s i) = keptOf s := by
  unfold endAtBoundary
  repeat' split
  all_goals simp

@[simp] theorem keptOf_endRequests (heads : List (Nat × Nat)) (k : Nat) (B : Nat) (restarted : List Nat) (s : State) :
    keptOf (endRequests heads k B restarted s) = keptOf s := by
  simp [endRequests]

@[simp] theorem keptOf_applyPower (s : State) : keptOf (applyPower s) = keptOf s := by
  unfold applyPower
  split <;> simp

@[simp] theorem keptOf_mergeStuck (s : State) : keptOf (mergeStuck s) = keptOf s := by
  simp [mergeStuck]

@[simp] theorem keptOf_settleStuck (s : State) : keptOf (settleStuck s) = keptOf s := by
  simp [settleStuck]

@[simp] theorem keptOf_dropHalf (halves : List Nat) (s : State) (i : Nat) : keptOf (dropHalf halves s i) = keptOf s := by
  unfold dropHalf
  dsimp only
  repeat' split
  all_goals simp

@[simp] theorem keptOf_dropHalfRemote (halves : List Nat) (s : State) (rid : Nat) : keptOf (dropHalfRemote halves s rid) = keptOf s := by
  unfold dropHalfRemote
  dsimp only
  repeat' split
  all_goals simp

@[simp] theorem keptOf_dropHalves (halves : List Nat) (s : State) : keptOf (dropHalves halves s) = keptOf s := by
  simp [dropHalves]

@[simp] theorem keptOf_fenceBroken (s : State) : keptOf (fenceBroken s) = keptOf s := by
  simp [fenceBroken]

@[simp] theorem keptOf_prepareTile (ck : Nat) (s : State) (t : Nat) : keptOf (prepareTile ck s t) = keptOf s := by
  unfold prepareTile
  dsimp only
  repeat' split
  all_goals simp

@[simp] theorem keptOf_prepareTest (s : State) (ck : Nat) : keptOf (prepareTest s ck) = keptOf s := by
  simp [prepareTest]

@[simp] theorem keptOf_startTest (s0 : State) (ck : Nat) : keptOf (startTest s0 ck) = keptOf s0 := by
  simp [startTest]

@[simp] theorem keptOf_freeTestPlanes (s : State) (ck : Nat) : keptOf (freeTestPlanes s ck) = keptOf s := by
  simp [freeTestPlanes]

@[simp] theorem keptOf_testSlot (s : State) : keptOf (testSlot s) = keptOf s := by
  simp [testSlot]

@[simp] theorem keptOf_announceRings (s : State) : keptOf (announceRings s) = keptOf s := by
  simp [announceRings]

@[simp] theorem keptOf_alignRemote (s : State) (r : Req) (done : Nat) : keptOf (alignRemote s r done).1 = keptOf s := by
  simp [alignRemote]

@[simp] theorem keptOf_pruneRemote (s : State) (rows : List SysRow) : keptOf (pruneRemote s rows) = keptOf s := by
  simp [pruneRemote]

@[simp] theorem keptOf_sendRows (s : State) : keptOf (sendRows s) = keptOf s := by
  unfold sendRows
  split <;> simp

@[simp] theorem keptOf_answerTests (s : State) (ck : Nat) (r : Nat) : keptOf (answerTests s ck r) = keptOf s := by
  simp [answerTests]

@[simp] theorem keptOf_answerUntested (s : State) : keptOf (answerUntested s) = keptOf s := by
  simp [answerUntested]

@[simp] theorem keptOf_endBoundary (s : State) : keptOf (endBoundary s) = keptOf s := by
  simp [endBoundary]

@[simp] theorem keptOf_dropNamed (s : State) (k : Step) : keptOf (dropNamed s k) = keptOf s := by
  simp [dropNamed]

@[simp] theorem keptOf_testDueOp (s : State) (ck : Nat) : keptOf (testDueOp s ck) = keptOf s := by
  simp [testDueOp]

@[simp] theorem keptOf_testOverdueOp (s : State) (ck : Nat) : keptOf (testOverdueOp s ck) = keptOf s := by
  simp [testOverdueOp]

@[simp] theorem keptOf_coreTestOp (s : State) (ck : Nat) : keptOf (coreTestOp s ck) = keptOf s := by
  simp [coreTestOp]

@[simp] theorem keptOf_coreTestDoneOp (s : State) (ck : Nat) (pass : Bool) (conv : Option Nat) :
    keptOf (coreTestDoneOp s ck pass conv) = keptOf s := by
  simp [coreTestDoneOp]

@[simp] theorem keptOf_timeLoReadOp (s : State) (fn : Nat) : keptOf (timeLoReadOp s fn) = keptOf s := by
  simp [timeLoReadOp]

@[simp] theorem keptOf_etArmOp (s : State) (n : Nat) (hi : W32) : keptOf (etArmOp s n hi) = keptOf s := by
  simp [etArmOp]

@[simp] theorem keptOf_etEdgeOp (s : State) (n : Nat) : keptOf (etEdgeOp s n) = keptOf s := by
  unfold etEdgeOp
  dsimp only
  repeat' split
  all_goals simp

@[simp] theorem keptOf_flushCrossing (s : State) (x1 : Crossing) : keptOf (flushCrossing s x1) = keptOf s := by
  unfold flushCrossing
  split <;> simp

@[simp] theorem keptOf_crossingResetOp (s : State) (c : Crossing) (answered : Bool) : keptOf (crossingResetOp s c answered) = keptOf s := by
  simp [crossingResetOp]

@[simp] theorem keptOf_extSyncOp (s : State) : keptOf (extSyncOp s) = keptOf s := by
  simp [extSyncOp]

@[simp] theorem keptOf_coldOptions (s : State) : keptOf (coldOptions s) = keptOf s := by
  unfold coldOptions
  split <;> simp

@[simp] theorem keptOf_resetPlates (cold : Bool) (s : State) : keptOf (resetPlates cold s) = keptOf s := by
  unfold resetPlates
  dsimp only
  repeat' split
  all_goals simp

@[simp] theorem keptOf_setPins (s : State) (l : List (Pin × Bool)) : keptOf (setPins s l) = keptOf s := by
  simp [setPins]

@[simp] theorem keptOf_limpStart (s : State) : keptOf (limpStart s) = keptOf s := by
  simp [limpStart]

@[simp] theorem keptOf_keepMoves (now_ : Tbl Nat) (s : State) : keptOf (keepMoves now_ s) = keptOf s := by
  simp [keepMoves]

@[simp] theorem keptOf_restartRefills (s : State) : keptOf (restartRefills s) = keptOf s := by
  have h : keptOf (s.map.refills.foldl (fun x r => match r.unit, r.spare with
      | .plane _ _ _ _ _, some (.plane st g c t p) => setDescState x (planeKey (tileKey (coreKey st g c) t) p) 5
      | _, _ => x) s) = keptOf s := by
    refine keptOf_foldl _ (fun x r => ?_) _ _
    split <;> simp
  exact h

@[simp] theorem keptOf_loadGen (s : State) (g : GenRecord) : keptOf (loadGen s g) = keptOf s := by
  simp [loadGen]

@[simp] theorem keptOf_ageAll (s : State) (dt : Nat) : keptOf (ageAll s dt) = keptOf s := by
  simp [ageAll]

@[simp] theorem keptOf_gapAll (s : State) : keptOf (gapAll s) = keptOf s := by
  simp [gapAll]

@[simp] theorem keptOf_loadFactory (s : State) : keptOf (loadFactory s) = keptOf s := by
  simp [loadFactory]

@[simp] theorem keptOf_loadField (s : State) : keptOf (loadField s) = keptOf s := by
  unfold loadField
  split <;> simp

@[simp] theorem keptOf_creditUnpowered (s : State) : keptOf (creditUnpowered s) = keptOf s := by
  unfold creditUnpowered
  extract_lets s1 aon
  have h : keptOf s1 = keptOf s := by
    simp only [s1]
    split <;> simp
  clear_value s1
  exact h

@[simp] theorem keptOf_checkTrims (s : State) : keptOf (checkTrims s) = keptOf s := by
  simp [checkTrims]

@[simp] theorem keptOf_retireLogged (s : State) : keptOf (retireLogged s) = keptOf s := by
  simp [retireLogged]

@[simp] theorem keptOf_releaseSafety (s : State) (user : Nat) : keptOf (releaseSafety s user) = keptOf s := by
  simp [releaseSafety]

@[simp] theorem keptOf_dropLatch (s : State) : keptOf (dropLatch s) = keptOf s := by
  simp [dropLatch]

@[simp] theorem keptOf_setTherm (s : State) (f : ThermBlk → ThermBlk) : keptOf (setTherm s f) = keptOf s := by
  simp [setTherm]

@[simp] theorem keptOf_followBroken (s : State) (x : Sensor) : keptOf (followBroken s x) = keptOf s := by
  simp [followBroken]

@[simp] theorem keptOf_takeReading (s : State) (r : TempReading) : keptOf (takeReading s r) = keptOf s := by
  unfold takeReading
  repeat' split
  all_goals simp

@[simp] theorem keptOf_showTemps (s : State) : keptOf (showTemps s) = keptOf s := by
  unfold showTemps
  split
  · rfl
  · simp only [keptOf, setTherm]
    rw [wideBufs_tmap]
    intro _ _
    rfl

@[simp] theorem keptOf_driveSafety (x : State × Option Nat) (level : Bool) : keptOf (driveSafety x level) = keptOf x.1 := by
  unfold driveSafety
  split <;> simp

@[simp] theorem keptOf_followAlert (s : State) : keptOf (followAlert s) = keptOf s := by
  unfold followAlert
  dsimp only
  split
  · rfl
  · simp

@[simp] theorem keptOf_startStop (s : State) (cause : Nat) (v : ℤ) (addr : Nat) : keptOf (startStop s cause v addr) = keptOf s := by
  unfold startStop
  dsimp only
  repeat' split
  all_goals simp

@[simp] theorem keptOf_takeSense (s : State) (rs : List SenseResult) : keptOf (takeSense s rs) = keptOf s := by
  simp [takeSense]

@[simp] theorem keptOf_tickTemps (s : State) : keptOf (tickTemps s) = keptOf s := by
  unfold tickTemps
  dsimp only
  repeat' split
  all_goals simp

@[simp] theorem keptOf_latchClearOp (s : State) (byPin : Bool) (low : Nat) : keptOf (latchClearOp s byPin low) = keptOf s := by
  simp [latchClearOp]

@[simp] theorem keptOf_poisonRow (s : State) (i : Nat) : keptOf (poisonRow s i) = keptOf s := by
  simp [poisonRow]

@[simp] theorem keptOf_poison (s : State) (e : MemError) : keptOf (poison s e) = keptOf s := by
  simp [poison]

@[simp] theorem keptOf_patrolReadOp (s : State) (ce : List MemError) (ue : List MemError) : keptOf (patrolReadOp s ce ue) = keptOf s := by
  simp [patrolReadOp]

@[simp] theorem keptOf_eccWord (s : State) (k : Nat × Nat × Nat) : keptOf (eccWord s k).2 = keptOf s := by
  unfold eccWord
  split <;> simp

@[simp] theorem keptOf_eccRawWriteOp (s : State) (w : Nat) : keptOf (eccRawWriteOp s w) = keptOf s := by
  simp [eccRawWriteOp]

@[simp] theorem keptOf_eccRawReadOp (s : State) (w : Nat) : keptOf (eccRawReadOp s w) = keptOf s := by
  simp [eccRawReadOp]

@[simp] theorem keptOf_eccDecodedReadOp (s : State) (w : Nat) : keptOf (eccDecodedReadOp s w) = keptOf s := by
  simp [eccDecodedReadOp]

theorem keptOf_eccGo (s : State) (w : Nat) (run : State → Nat → State) (h : ∀ s w, keptOf (run s w) = keptOf s) :
    keptOf (eccGo s w run) = keptOf s := by
  simp [eccGo, h]

theorem keptOf_eccRow (s : State) (w op : Nat) (run : State → Nat → State) (h : ∀ s w, keptOf (run s w) = keptOf s) :
    keptOf (eccRow s w op run) = keptOf s := by
  unfold eccRow
  split <;> simp [h, keptOf_eccGo]

@[simp] theorem keptOf_eccCtrlWrite (s : State) (w : Nat) : keptOf (eccCtrlWrite s w) = keptOf s := by
  unfold eccCtrlWrite
  split
  · simp
  · refine keptOf_eccGo _ _ _ fun x v => ?_
    split <;> simp

@[simp] theorem keptOf_heartbeats (s : State) (alive : List Nat) : keptOf (heartbeats s alive) = keptOf s := by
  simp [heartbeats]

@[simp] theorem keptOf_serviceWatchdog (s : State) (done : Bool) : keptOf (serviceWatchdog s done) = keptOf s := by
  simp [serviceWatchdog]

@[simp] theorem keptOf_countRepairs (s : State) (n : Nat) : keptOf (countRepairs s n) = keptOf s := by
  simp [countRepairs]

@[simp] theorem keptOf_repairFences (s : State) : keptOf (repairFences s) = keptOf s := by
  simp [repairFences]

@[simp] theorem keptOf_repairSlot (s : State) (e : Nat × Tenant) : keptOf (repairSlot s e) = keptOf s := by
  simp [repairSlot]

@[simp] theorem keptOf_repairOption (s : State) (off : Nat) : keptOf (repairOption s off) = keptOf s := by
  simp [repairOption]

@[simp] theorem keptOf_tickLatency (s : State) : keptOf (tickLatency s) = keptOf s := by
  simp [tickLatency]

@[simp] theorem keptOf_noticeReports (s : State) : keptOf (noticeReports s) = keptOf s := by
  simp [noticeReports]

@[simp] theorem keptOf_tickAges (s : State) (dt : Nat) : keptOf (tickAges s dt) = keptOf s := by
  simp [tickAges]

@[simp] theorem keptOf_reportLayers (s : State) : keptOf (reportLayers s) = keptOf s := by
  simp [reportLayers]

@[simp] theorem keptOf_rewriteFactory (s : State) : keptOf (rewriteFactory s) = keptOf s := by
  simp [rewriteFactory]

@[simp] theorem keptOf_tickRate (s : State) (dt : Nat) : keptOf (tickRate s dt) = keptOf s := by
  simp [tickRate]

@[simp] theorem keptOf_serviceTick (s : State) (inp : TickInput) (dt : Nat) : keptOf (serviceTick s inp dt) = keptOf s := by
  simp [serviceTick]

@[simp] theorem keptOf_setTime (s : State) (f : TimeBlk → TimeBlk) : keptOf (setTime s f) = keptOf s := by
  simp [setTime]

@[simp] theorem keptOf_noteOverrun (s : State) (e : CdcQueue × Nat) : keptOf (noteOverrun s e) = keptOf s := by
  unfold noteOverrun
  split <;> simp

@[simp] theorem keptOf_identOp (s : State) (p : Nat) (m : Ident) : keptOf (identOp s p m) = keptOf s := by
  unfold identOp
  repeat' split
  all_goals simp

@[simp] theorem keptOf_comeUp (s : State) (p : Nat) : keptOf (comeUp s p) = keptOf s := by
  simp [comeUp]

@[simp] theorem keptOf_portTrainOp (s : State) (p : Nat) (lanes : Nat) (ok : Bool) : keptOf (portTrainOp s p lanes ok) = keptOf s := by
  simp [portTrainOp]

@[simp] theorem keptOf_retrainOp (s : State) (p : Nat) (w : Nat) : keptOf (retrainOp s p w) = keptOf s := by
  simp [retrainOp]

@[simp] theorem keptOf_transmit (s : State) (p : Nat) (f : Flit) : keptOf (transmit s p f) = keptOf s := by
  simp [transmit]

@[simp] theorem keptOf_returnCredit (s : State) (port : Option Nat) (c : Nat) : keptOf (returnCredit s port c) = keptOf s := by
  unfold returnCredit
  split <;> simp

@[simp] theorem keptOf_drainPort (p n : Nat) (s : State) : keptOf (drainPort p n s) = keptOf s := by
  induction n generalizing s with
  | zero => rfl
  | succ n ih =>
    unfold drainPort
    dsimp only
    split
    · rfl
    · simp [ih]

@[simp] theorem keptOf_pumpPort (s : State) (p : Nat) : keptOf (pumpPort s p) = keptOf s := by
  simp [pumpPort]

@[simp] theorem keptOf_sendFlit (s : State) (p : Nat) (f : Flit) (arrived : Option Nat) : keptOf (sendFlit s p f arrived) = keptOf s := by
  simp [sendFlit]

@[simp] theorem keptOf_replayAll (s : State) (p : Nat) : keptOf (replayAll s p) = keptOf s := by
  simp [replayAll]

@[simp] theorem keptOf_takeAck (s : State) (p : Nat) (f : Flit) : keptOf (takeAck s p f) = keptOf s := by
  simp [takeAck]

@[simp] theorem keptOf_withholdSlot (s : State) (slot : Nat) : keptOf (withholdSlot s slot) = keptOf s := by
  simp [withholdSlot]

@[simp] theorem keptOf_answer (s : State) (p : Nat) : keptOf (answer s p) = keptOf s := by
  simp [answer]

@[simp] theorem keptOf_ackTimeoutOp (s : State) (p : Nat) : keptOf (ackTimeoutOp s p) = keptOf s := by
  simp [ackTimeoutOp]

@[simp] theorem keptOf_silenceOp (s : State) (p : Nat) : keptOf (silenceOp s p) = keptOf s := by
  simp [silenceOp]

@[simp] theorem keptOf_lanesLostOp (s : State) (p : Nat) (lane : Nat) : keptOf (lanesLostOp s p lane) = keptOf s := by
  simp [lanesLostOp]

@[simp] theorem keptOf_keyxOp (s : State) (p : Nat) (slot : Nat) (v : Option Nat) : keptOf (keyxOp s p slot v) = keptOf s := by
  unfold keyxOp
  split <;> simp

@[simp] theorem keptOf_keyxTimeoutOp (s : State) (p : Nat) (slot : Nat) : keptOf (keyxTimeoutOp s p slot) = keptOf s := by
  unfold keyxTimeoutOp
  dsimp only
  repeat' split
  all_goals simp

@[simp] theorem keptOf_syncSendOp (s : State) (p : Nat) : keptOf (syncSendOp s p) = keptOf s := by
  simp [syncSendOp]

@[simp] theorem keptOf_syncOp (s : State) (p : Nat) (t1 : Nat) : keptOf (syncOp s p t1) = keptOf s := by
  simp [syncOp]

@[simp] theorem keptOf_rejoin (s : State) : keptOf (rejoin s) = keptOf s := by
  simp [rejoin]

@[simp] theorem keptOf_stepBase (s : State) (d : ℤ) : keptOf (stepBase s d) = keptOf s := by
  simp [stepBase]

@[simp] theorem keptOf_timeReplyOp (s : State) (p : Nat) (t1 : ℤ) (t2 : ℤ) (t3 : ℤ) (t4 : ℤ) (workerOffset : ℤ) :
    keptOf (timeReplyOp s p t1 t2 t3 t4 workerOffset) = keptOf s := by
  simp [timeReplyOp]

@[simp] theorem keptOf_lockLossOp (s : State) : keptOf (lockLossOp s) = keptOf s := by
  simp [lockLossOp]

@[simp] theorem keptOf_sheetTransfers (s : State) (a : Nat) (b : Nat) (n : Nat) : keptOf (sheetTransfers s a b n) = keptOf s := by
  simp [sheetTransfers]

@[simp] theorem keptOf_boundaryNameOp (s : State) (step : Nat) (tB : Nat) (owner : Nat) (bad : List Nat) (rows : List SysRow) :
    keptOf (boundaryNameOp s step tB owner bad rows) = keptOf s := by
  unfold boundaryNameOp
  dsimp only
  repeat' split
  all_goals simp

@[simp] theorem keptOf_sealReportOp (s : State) (r : SealReport) : keptOf (sealReportOp s r) = keptOf s := by
  simp [sealReportOp]

@[simp] theorem keptOf_cutHere (s : State) : keptOf (cutHere s) = keptOf s := by
  unfold cutHere
  split <;> simp

@[simp] theorem keptOf_markAbsent (s : State) (m : Nat) : keptOf (markAbsent s m) = keptOf s := by
  unfold markAbsent
  repeat' split
  all_goals simp

@[simp] theorem keptOf_sealTimeoutOp (s : State) : keptOf (sealTimeoutOp s) = keptOf s := by
  unfold sealTimeoutOp
  split <;> simp

@[simp] theorem keptOf_cutOp (s : State) (step : Nat) : keptOf (cutOp s step) = keptOf s := by
  simp [cutOp]

@[simp] theorem keptOf_fenceMsgOp (s : State) (m : Nat) : keptOf (fenceMsgOp s m) = keptOf s := by
  simp [fenceMsgOp]

@[simp] theorem keptOf_commitPrepOp (s : State) (txn : Nat) : keptOf (commitPrepOp s txn) = keptOf s := by
  unfold commitPrepOp
  repeat' split
  all_goals simp

@[simp] theorem keptOf_commitReadyOp (s : State) (m : Nat) (epoch : Nat) : keptOf (commitReadyOp s m epoch) = keptOf s := by
  simp [commitReadyOp]

@[simp] theorem keptOf_qlFaultOp (s : State) (p : Nat) : keptOf (qlFaultOp s p) = keptOf s := by
  simp [qlFaultOp]

@[simp] theorem keptOf_routesOp (s : State) (table : List (Nat × Nat)) : keptOf (routesOp s table) = keptOf s := by
  simp [routesOp]

@[simp] theorem keptOf_endSilently (s : State) (i : Nat) : keptOf (endSilently s i) = keptOf s := by
  simp [endSilently]

@[simp] theorem keptOf_silenceRequests (s : State) (p : Req → Bool) : keptOf (silenceRequests s p) = keptOf s := by
  simp [silenceRequests]

@[simp] theorem keptOf_closeSilently (s : State) (e : Nat × Channel) : keptOf (closeSilently s e) = keptOf s := by
  simp [closeSilently]

@[simp] theorem keptOf_dropCommitReply (s : State) (d : Nat) : keptOf (dropCommitReply s d) = keptOf s := by
  unfold dropCommitReply
  split <;> simp

@[simp] theorem keptOf_flrPfOp (s : State) : keptOf (flrPfOp s) = keptOf s := by
  simp [flrPfOp]

@[simp] theorem keptOf_flrVfOp (s : State) (n : Nat) : keptOf (flrVfOp s n) = keptOf s := by
  simp [flrVfOp]

@[simp] theorem keptOf_hotResetOp (s : State) (width : Nat) (rate : Nat) : keptOf (hotResetOp s width rate) = keptOf s := by
  simp [hotResetOp]

@[simp] theorem keptOf_sendPending (s : State) (fn : Nat) : keptOf (sendPending s fn) = keptOf s := by
  simp [sendPending]

@[simp] theorem keptOf_msixUnmaskOp (s : State) (fn : Nat) (entry : Option Nat) : keptOf (msixUnmaskOp s fn entry) = keptOf s := by
  simp [msixUnmaskOp]

@[simp] theorem keptOf_d3hotOp (s : State) (fn : Nat) : keptOf (d3hotOp s fn) = keptOf s := by
  simp [d3hotOp]

@[simp] theorem keptOf_d0Op (s : State) (fn : Nat) : keptOf (d0Op s fn) = keptOf s := by
  simp [d0Op]

@[simp] theorem keptOf_continueRead (s : State) (e : CmdEntry) (d : ReadData) : keptOf (continueRead s e d) = keptOf s := by
  unfold continueRead
  split <;> simp

@[simp] theorem keptOf_readCompleteOp (s : State) (fn : Nat) (seq : Nat) (d : ReadData) : keptOf (readCompleteOp s fn seq d) = keptOf s := by
  unfold readCompleteOp
  repeat' split
  all_goals simp

@[simp] theorem keptOf_accessTimeoutOp (s : State) (fn : Nat) (seq : Nat) : keptOf (accessTimeoutOp s fn seq) = keptOf s := by
  unfold accessTimeoutOp
  repeat' split
  all_goals simp

@[simp] theorem keptOf_tdiMove (s : State) (fn : Nat) (old : Nat) (new : Nat) : keptOf (tdiMove s fn old new) = keptOf s := by
  simp [tdiMove]

@[simp] theorem keptOf_setStream (s : State) (fn : Nat) (on : Bool) : keptOf (setStream s fn on) = keptOf s := by
  simp [setStream]

@[simp] theorem keptOf_spdmOp (s : State) (m : SpdmMsg) : keptOf (spdmOp s m) = keptOf s := by
  unfold spdmOp
  repeat' split
  all_goals simp

@[simp] theorem keptOf_setEidOp (s : State) (eid : Nat) : keptOf (setEidOp s eid) = keptOf s := by
  simp [setEidOp]

@[simp] theorem keptOf_pldmOp (s : State) (r : PldmReq) : keptOf (pldmOp s r) = keptOf s := by
  unfold pldmOp
  dsimp only
  repeat' split
  all_goals simp

@[simp] theorem keptOf_pldmBudgetOp (s : State) (b : Nat) : keptOf (pldmBudgetOp s b) = keptOf s := by
  simp [pldmBudgetOp]

@[simp] theorem keptOf_fwUpdateOp (s : State) (u : FwUpdate) : keptOf (fwUpdateOp s u) = keptOf s := by
  unfold fwUpdateOp
  repeat' split
  all_goals simp

@[simp] theorem keptOf_writePci (s : State) (o : Nat) (v : Nat) : keptOf (writePci s o v) = keptOf s := by
  simp [writePci]

@[simp] theorem keptOf_writeCmd (s : State) (fn : Nat) (o : Nat) (v : Nat) : keptOf (writeCmd s fn o v) = keptOf s := by
  unfold writeCmd
  split <;> simp

@[simp] theorem keptOf_writeMsix (s : State) (fn : Nat) (o : Nat) (v : Nat) : keptOf (writeMsix s fn o v) = keptOf s := by
  simp [writeMsix]

@[simp] theorem keptOf_writeTimer (s : State) (n : Nat) (o : Nat) (v : Nat) : keptOf (writeTimer s n o v) = keptOf s := by
  unfold writeTimer
  repeat' split
  all_goals simp

@[simp] theorem keptOf_writeTime (s : State) (o : Nat) (v : Nat) : keptOf (writeTime s o v) = keptOf s := by
  simp [writeTime]

@[simp] theorem keptOf_writeFault (s : State) (o : Nat) (v : Nat) : keptOf (writeFault s o v) = keptOf s := by
  unfold writeFault
  split <;> simp

@[simp] theorem keptOf_writeQl (s : State) (o : Nat) (v : Nat) : keptOf (writeQl s o v) = keptOf s := by
  simp [writeQl]

@[simp] theorem keptOf_writeSense (s : State) (conv : Nat) (o : Nat) (v : Nat) : keptOf (writeSense s conv o v) = keptOf s := by
  simp [writeSense]

@[simp] theorem keptOf_writeRegion (s : State) (rk : Nat) (o : Nat) (v : Nat) : keptOf (writeRegion s rk o v) = keptOf s := by
  simp [writeRegion]

@[simp] theorem keptOf_writeCore (s : State) (ck : Nat) (o : Nat) (v : Nat) : keptOf (writeCore s ck o v) = keptOf s := by
  simp [writeCore]

@[simp] theorem keptOf_writeHub (s : State) (off : Nat) (v : Nat) : keptOf (writeHub s off v) = keptOf s := by
  unfold writeHub
  repeat' split
  all_goals simp

end Sys2Proof.Proofs

/-! The functions that change a memory, a counter or a leaf keep the invariants: banks, results, strobes. -/
namespace Sys2Proof.Proofs

open Sys2Proof.Machine

/-! ### Relation -/

/-- The counters of the always-on domain are in their ranges. -/
def Kept.CountersOk (k : Kept) : Prop :=
  (k.counts.a.length = 7 ∧ k.counts.b.length = 7 ∧ k.counts.c.length = 7)
    ∧ ((∀ n ∈ k.counts.a, n ≤ 65535) ∧ (∀ n ∈ k.counts.b, n ≤ 65535) ∧ (∀ n ∈ k.counts.c, n ≤ 65535))
    ∧ k.totalAborts ≤ 65535 ∧ k.consec ≤ 4

/-- The next attestation leaf lies behind those of the used blocks. -/
def Kept.LeavesOk (k : Kept) : Prop := k.leafBlocks ≤ 4096 ∧ k.nextLeaf ≤ 1024 * (4096 - k.leafBlocks)

/-- Every memory is in canonical form. -/
def Kept.MemoriesOk (k : Kept) : Prop :=
  (∀ ck, Memory.wf (k.scratch ck) = true) ∧ (∀ rk, Memory.wf (k.wideBuf rk) = true) ∧ Memory.wf k.hbm = true

/-- Each of the three invariants is kept on the way from `k` to `l`. -/
structure Keeps (k l : Kept) : Prop where
  counters : k.CountersOk → l.CountersOk
  leaves : k.LeavesOk → l.LeavesOk
  memories : k.MemoriesOk → l.MemoriesOk

@[simp] theorem kept_eta (k : Kept) :
    (⟨k.counts, k.totalAborts, k.consec, k.leafBlocks, k.nextLeaf, k.scratch, k.wideBuf, k.hbm⟩ : Kept) = k := (rfl)

@[simp] theorem Keeps.refl (k : Kept) : Keeps k k := ⟨id, id, id⟩

theorem Keeps.trans {k l m : Kept} (h : Keeps k l) (g : Keeps l m) : Keeps k m :=
  ⟨fun x => g.counters (h.counters x), fun x => g.leaves (h.leaves x), fun x => g.memories (h.memories x)⟩

@[simp] theorem keeps_ite (k : Kept) (c : Prop) [Decidable c] (a b : Kept) :
    Keeps k (if c then a else b) ↔ (c → Keeps k a) ∧ (¬c → Keeps k b) := by
  split <;> simp_all

variable {k : Kept}

theorem keeps_foldl {α : Type} {f : State → α → State} (hf : ∀ x a, Keeps (keptOf x) (keptOf (f x a))) (l : List α) {s : State}
    (h : Keeps k (keptOf s)) : Keeps k (keptOf (l.foldl f s)) := by
  induction l generalizing s with
  | nil => exact h
  | cons a r ih => exact ih (h.trans (hf s a))

/-! ### Writes of a memory -/

theorem keeps_writeScratch {l : Kept} {ck : Nat} {m : List Host.Cell} (h : Keeps k l) (hm : k.MemoriesOk → Memory.wf m = true) :
    Keeps k { l with scratch := Function.update l.scratch ck m } := by
  refine ⟨fun x => h.counters x, fun x => h.leaves x, fun x => ?_⟩
  obtain ⟨scratch, wide, hbm⟩ := h.memories x
  refine ⟨fun j => ?_, wide, hbm⟩
  by_cases e : j = ck
  · subst e
    simpa using hm x
  · simpa [Function.update_of_ne e] using scratch j

theorem keeps_writeWideBuf {l : Kept} {rk : Nat} {m : List Host.Cell} (h : Keeps k l) (hm : k.MemoriesOk → Memory.wf m = true) :
    Keeps k { l with wideBuf := Function.update l.wideBuf rk m } := by
  refine ⟨fun x => h.counters x, fun x => h.leaves x, fun x => ?_⟩
  obtain ⟨scratch, wide, hbm⟩ := h.memories x
  refine ⟨scratch, fun j => ?_, hbm⟩
  by_cases e : j = rk
  · subst e
    simpa using hm x
  · simpa [Function.update_of_ne e] using wide j

theorem keeps_writeHbm {l : Kept} {m : List Host.Cell} (h : Keeps k l) (hm : k.MemoriesOk → Memory.wf m = true) :
    Keeps k { l with hbm := m } := by
  refine ⟨fun x => h.counters x, fun x => h.leaves x, fun x => ?_⟩
  obtain ⟨scratch, wide, _⟩ := h.memories x
  exact ⟨scratch, wide, hm x⟩

theorem Keeps.scratch {s : State} (h : Keeps k (keptOf s)) (hk : k.MemoriesOk) (ck : Nat) : Memory.wf ((keptOf s).scratch ck) = true :=
  (h.memories hk).1 ck
theorem Keeps.wideBuf {s : State} (h : Keeps k (keptOf s)) (hk : k.MemoriesOk) (rk : Nat) : Memory.wf ((keptOf s).wideBuf rk) = true :=
  (h.memories hk).2.1 rk
theorem Keeps.hbm {s : State} (h : Keeps k (keptOf s)) (hk : k.MemoriesOk) : Memory.wf (keptOf s).hbm = true :=
  (h.memories hk).2.2

theorem keeps_setCore {s : State} {ck : Nat} {c : Core} (h : Keeps k (keptOf s)) (hc : k.MemoriesOk → Memory.wf c.scratch = true) :
    Keeps k (keptOf (setCore s ck c)) := by
  rw [keptOf_setCore]
  exact keeps_writeScratch h hc

theorem keeps_modCore {s : State} {ck : Nat} {g : Core → Core} (h : Keeps k (keptOf s))
    (hg : ∀ c : Core, Memory.wf c.scratch = true → Memory.wf (g c).scratch = true) : Keeps k (keptOf (modCore s ck g)) :=
  keeps_setCore h fun hk => hg _ (h.scratch hk ck)

theorem keeps_setRegion {s : State} {rk : Nat} {g : Region} (h : Keeps k (keptOf s)) (hg : k.MemoriesOk → Memory.wf g.wideBuf = true) :
    Keeps k (keptOf (setRegion s rk g)) := by
  rw [keptOf_setRegion]
  exact keeps_writeWideBuf h hg

theorem keeps_modRegion {s : State} {rk : Nat} {g : Region → Region} (h : Keeps k (keptOf s))
    (hg : ∀ x : Region, Memory.wf x.wideBuf = true → Memory.wf (g x).wideBuf = true) : Keeps k (keptOf (modRegion s rk g)) :=
  keeps_setRegion h fun hk => hg _ (h.wideBuf hk rk)

theorem keeps_setKv {s : State} {g : KvBlk → KvBlk} (h : Keeps k (keptOf s))
    (hg : ∀ x : KvBlk, Memory.wf x.hbm = true → Memory.wf (g x).hbm = true) : Keeps k (keptOf (setKv s g)) :=
  keeps_writeHbm h fun hk => hg _ (h.hbm hk)

theorem keeps_mapCores {s : State} {f : Nat → Core → Core} (h : Keeps k (keptOf s))
    (hf : ∀ i (c : Core), Memory.wf c.scratch = true → Memory.wf (f i c).scratch = true) : Keeps k (keptOf (mapCores s f)) := by
  refine ⟨fun x => h.counters x, fun x => h.leaves x, fun x => ?_⟩
  obtain ⟨scratch, wide, hbm⟩ := h.memories x
  refine ⟨fun j => ?_, wide, hbm⟩
  have hj := scratch j
  simp only [keptOf, mapCores, scratches, tget, tfind_tmap] at hj ⊢
  cases hc : tfind s.cores j with
  | none => rfl
  | some c =>
    rw [hc] at hj
    by_cases hd : f j c = {}
    · simp only [Option.bind_some, if_pos hd]
      rfl
    · simp only [Option.bind_some, if_neg hd]
      exact hf j c hj

theorem keeps_mapRegions {s : State} {f : Region → Region} (h : Keeps k (keptOf s))
    (hf : ∀ c : Region, Memory.wf c.wideBuf = true → Memory.wf (f c).wideBuf = true) : Keeps k (keptOf (mapRegions s f)) := by
  refine ⟨fun x => h.counters x, fun x => h.leaves x, fun x => ?_⟩
  obtain ⟨scratch, wide, hbm⟩ := h.memories x
  refine ⟨scratch, fun j => ?_, hbm⟩
  have hj := wide j
  simp only [keptOf, mapRegions, wideBufs, tget, tfind_tmap] at hj ⊢
  cases hc : tfind s.regions j with
  | none => rfl
  | some c =>
    rw [hc] at hj
    by_cases hd : f c = {}
    · simp only [Option.bind_some, if_pos hd]
      rfl
    · simp only [Option.bind_some, if_neg hd]
      exact hf c hj

/-! ### Banks, spill slots and results -/

@[simp] theorem keeps_fillSkimSlot {s : State} (ck pk slot : Nat) (h : Keeps k (keptOf s)) : Keeps k (keptOf (fillSkimSlot s ck pk slot)) := by
  unfold fillSkimSlot
  split
  · split
    · exact h
    · refine keeps_modCore ?_ fun c hc => ?_
      · rwa [keptOf_modRegion' _ _ _ fun _ => passingTransfers_wideBuf _ _ _]
      · dsimp only
        exact memory_wf_mwrite _ _ _ hc
  · exact h

theorem spillClear_wf {g : Region} (slot : Nat) (h : Memory.wf g.wideBuf = true) : Memory.wf (spillClear g slot).wideBuf = true :=
  Laws.memory_wf_filter _ _ h

theorem spillLanes_wf (slot : Nat) (b : Bank) (l : List Nat) {g : Region} (h : Memory.wf g.wideBuf = true) :
    Memory.wf (spillLanes slot b g l).wideBuf = true := by
  induction l generalizing g with
  | nil => exact h
  | cons i r ih => exact ih (memory_wf_mwrite _ _ _ h)

@[simp] theorem keeps_openBank {s : State} (r : StrobeReq) (width : Nat) (h : Keeps k (keptOf s)) : Keeps k (keptOf (openBank s r width)) := by
  unfold openBank
  dsimp only
  split
  · refine keeps_setRegion (keeps_setCore (by simpa using h) fun hk => ?_) fun hk => spillClear_wf _ (h.wideBuf hk _)
    simpa using h.scratch hk r.core
  · simpa using h

@[simp] theorem keeps_acceptProduct {s : State} (r : StrobeReq) (ys : List Int) (e : Int) (sat : Bool) (h : Keeps k (keptOf s)) :
    Keeps k (keptOf (acceptProduct s r ys e sat)) := by
  have h1 := keeps_openBank r ys.length h
  unfold acceptProduct
  dsimp only
  refine keeps_setRegion (keeps_setCore h1 fun hk => h1.scratch hk r.core) fun hk => ?_
  split
  · exact h1.wideBuf hk _
  · exact spillLanes_wf _ _ _ (h1.wideBuf hk _)

theorem writeOutputs_wf (s : State) (ck slot : Nat) (rid : Option Nat) (l : LayerRec) (dest : Nat) (modes : List (Option Nat)) (satLanes : List Nat)
    (vals : List W32) {m : List Host.Cell} (h : Memory.wf m = true) :
    Memory.wf (writeOutputs s ck slot rid l dest modes satLanes vals m).1 = true := by
  unfold writeOutputs
  dsimp only
  generalize ((if 8 ≤ l.outFmt then _ else none) : Option (Nat × StrobeEntry × Nat)) = consumer
  split
  · exact Laws.memory_wf_putSegment _ _ _ _ _ _ h
  · exact memory_wf_mwrite _ _ _ h

@[simp] theorem keeps_finaliseOp {s : State} (ck bn : Nat) (h : Keeps k (keptOf s)) : Keeps k (keptOf (finaliseOp s ck bn)) := by
  unfold finaliseOp
  dsimp only
  have hs : k.MemoriesOk → Memory.wf (coreOf s ck).scratch = true := fun hk => h.scratch hk ck
  have hw : ∀ sp, k.MemoriesOk → Memory.wf (spillClear (regionOf s (coreRegion ck)) sp).wideBuf = true :=
    fun sp hk => spillClear_wf sp (h.wideBuf hk _)
  split
  · exact h
  · split
    · split
      · split
        · exact h
        · exact keeps_setRegion (keeps_setCore h fun hk => writeOutputs_wf _ _ _ _ _ _ _ _ _ (hs hk)) (hw _)
      · exact keeps_setRegion (keeps_setCore h fun hk => Laws.memory_wf_writeEntries _ _ _ _ _ (hs hk)) (hw _)
      · exact keeps_setRegion (keeps_setCore h hs) fun hk => Laws.memory_wf_writeEntries _ _ _ _ _ (hw _ hk)
    · split
      · exact keeps_setRegion (keeps_setCore h hs) fun hk => spillLanes_wf _ _ _ (hw _ hk)
      · exact h

@[simp] theorem keeps_failProduct {s : State} (ck : Nat) (hd : Held) (rest : List Held) (pk : Nat) (d : PlaneDesc) (near : Nat) (cause : Cause)
    (h : Keeps k (keptOf s)) : Keeps k (keptOf (failProduct s ck hd rest pk d near cause)) := by
  unfold failProduct
  dsimp only
  split <;> simp [h]

@[simp] theorem keeps_passProduct {s : State} (ck : Nat) (hd : Held) (rest : List Held) (pk : Nat) (d : PlaneDesc) (near : Nat)
    (h : Keeps k (keptOf s)) : Keeps k (keptOf (passProduct s ck hd rest pk d near)) := by
  unfold passProduct
  dsimp only
  repeat' split
  all_goals simp [h]

@[simp] theorem keeps_skimOp {s : State} (ck : Nat) (filling : Bool) (h : Keeps k (keptOf s)) : Keeps k (keptOf (skimOp s ck filling)) := by
  unfold skimOp
  dsimp only
  repeat' split
  all_goals simp [h]

@[simp] theorem keeps_strobeReady {s : State} (r : StrobeReq) (other : Option Nat) (h : Keeps k (keptOf s)) :
    Keeps k (keptOf (strobeReady s r other)) := by
  unfold strobeReady
  dsimp only
  repeat' split
  all_goals simp [h]

@[simp] theorem keeps_strobeOp {s : State} (x : StrobeCmd) (h : Keeps k (keptOf s)) : Keeps k (keptOf (strobeOp s x)) := by
  unfold strobeOp
  dsimp only
  repeat' split
  all_goals simp [h]

end Sys2Proof.Proofs

/-! The functions that keep the invariants: monitors, pages, washdown, vector operations. -/
namespace Sys2Proof.Proofs

open Sys2Proof.Machine

/-! ### Monitors -/

variable {k : Kept}

@[simp] theorem keeps_nameNext {s : State} (ck : Nat) (h : Keeps k (keptOf s)) : Keeps k (keptOf (nameNext s ck)) := by
  unfold nameNext
  dsimp only
  exact keeps_modCore h fun c hc => memory_wf_mwrite _ _ _ hc

@[simp] theorem keeps_monitorCompareOp {s : State} (ck : Nat) (h : Keeps k (keptOf s)) : Keeps k (keptOf (monitorCompareOp s ck)) := by
  unfold monitorCompareOp
  dsimp only
  split
  · exact h
  · split
    · exact h
    · refine keeps_nameNext _ ?_
      repeat' split
      all_goals simp [h]

@[simp] theorem keeps_abandonWindow {s : State} (ck : Nat) (h : Keeps k (keptOf s)) : Keeps k (keptOf (abandonWindow s ck)) :=
  keeps_nameNext _ (by simp [h])

@[simp] theorem keeps_refreshMonitors {s : State} (h : Keeps k (keptOf s)) : Keeps k (keptOf (refreshMonitors s)) :=
  keeps_foldl (fun _ a => keeps_abandonWindow a (Keeps.refl _)) _ h

@[simp] theorem keeps_monitorAbandonOp {s : State} (ck : Nat) (h : Keeps k (keptOf s)) : Keeps k (keptOf (monitorAbandonOp s ck)) := by
  unfold monitorAbandonOp
  dsimp only
  split <;> simp [h]

/-! ### Pages of HBM -/

theorem placeIn_hbm {s : State} {kv : KvBlk} {i n t : Nat} {x : KvBlk × Nat} (h : placeIn s kv i n t = some x) : x.1.hbm = kv.hbm := by
  unfold placeIn at h
  split at h
  · simp at h
  · exact Option.some.inj h ▸ rfl

theorem placeAny_hbm {s : State} {kv : KvBlk} {n t : Nat} {x : KvBlk × Nat} (h : placeAny s kv n t = some x) : x.1.hbm = kv.hbm := by
  obtain ⟨i, _, hi⟩ := List.exists_of_findSome?_eq_some h
  exact placeIn_hbm hi

theorem placePage_hbm {s : State} {kv : KvBlk} {home : Option Nat} {n t : Nat} {x : KvBlk × Nat} (h : placePage s kv home n t = some x) :
    x.1.hbm = kv.hbm := by
  unfold placePage at h
  split at h
  next y hy =>
    obtain ⟨i, _, hi⟩ := Option.bind_eq_some_iff.mp hy
    exact Option.some.inj h ▸ placeIn_hbm hi
  next =>
    split at h
    next y hy =>
      have hp := placeAny_hbm hy
      cases h
      exact hp
    next => simp at h

theorem placeOther_hbm {kv x : KvBlk} {m n : Nat} (h : placeOther kv m n = some x) : x.hbm = kv.hbm := by
  unfold placeOther at h
  split at h
  · exact Option.some.inj h ▸ rfl
  · split at h
    · exact Option.some.inj h ▸ rfl
    · simp at h

theorem placeHome_wf {s : State} {kv : KvBlk} {a : AttnRec} {b t : Nat} {x : KvBlk × (Nat × Nat × Nat)} (h : placeHome s kv a b t = some x)
    (hw : Memory.wf kv.hbm = true) : Memory.wf x.1.hbm = true := by
  unfold placeHome at h
  dsimp only at h
  split at h
  · obtain ⟨y, hy, rfl⟩ := Option.map_eq_some_iff.mp h
    exact Laws.memory_wf_filter _ _ (by rwa [placePage_hbm hy])
  · obtain ⟨y, hy, rfl⟩ := Option.map_eq_some_iff.mp h
    rwa [placeOther_hbm hy]

theorem placePages_wf {s : State} {i t : Nat} {l : List AttnRec} {kv : KvBlk} {x : KvBlk × List (Nat × Nat × Nat)}
    (h : placePages s i t kv l = some x) (hw : Memory.wf kv.hbm = true) : Memory.wf x.1.hbm = true := by
  induction l generalizing kv x with
  | nil => exact Option.some.inj h ▸ hw
  | cons a r ih =>
    rw [placePages] at h
    split at h
    next => simp at h
    next y hy =>
      split at h
      next => simp at h
      next z hz =>
        have hp := ih hz (placeHome_wf hy hw)
        cases h
        exact hp

theorem placeSet_wf {s : State} {kv : KvBlk} {r : Req} {img : FormeImage} {draft : Bool} {i : Nat} {x : KvBlk × Req}
    (h : placeSet s kv r img draft i = some x) (hw : Memory.wf kv.hbm = true) : Memory.wf x.1.hbm = true := by
  unfold placeSet at h
  dsimp only at h
  split at h
  next => simp at h
  next kv1 tables htbl =>
    have h1 : kv1.hbm = kv.hbm := by
      split at htbl
      · cases htbl
        rfl
      · obtain ⟨y, hy, he⟩ := Option.map_eq_some_iff.mp htbl
        cases he
        exact placeAny_hbm hy
    split at h
    next => simp at h
    next kv2 rec hrec =>
      split at h
      next => simp at h
      next kv3 pages hp =>
        exact Option.some.inj h ▸ placePages_wf hp (by rwa [placeAny_hbm hrec, h1])

theorem placeLargest_wf {s : State} {kv : KvBlk} {r : Req} {img : FormeImage} {draft : Bool} {l : List Nat} {x : KvBlk × Req}
    (h : placeLargest s kv r img draft l = some x) (hw : Memory.wf kv.hbm = true) : Memory.wf x.1.hbm = true := by
  obtain ⟨i, _, hi⟩ := List.exists_of_findSome?_eq_some h
  exact placeSet_wf hi hw

/-- A placement that succeeds, taken into the state. -/
theorem keeps_placed {s : State} {rid : Nat} {r : Req} {img : FormeImage} {draft : Bool} {l : List Nat} {x : KvBlk × Req}
    (hx : placeLargest s s.kv r img draft l = some x) (h : Keeps k (keptOf s)) : Keeps k (keptOf (setReq { s with kv := x.1 } rid x.2)) := by
  rw [keptOf_setReq]
  exact keeps_writeHbm h fun hk => placeLargest_wf hx (h.hbm hk)

theorem keeps_takeVictims {rid : Nat} {img : FormeImage} {draft below : Bool} {ks : List Nat} {fuel : Nat} {vs : List Nat} {s u : State}
    (hu : takeVictims rid img draft below ks fuel vs s = some u) (h : Keeps k (keptOf s)) : Keeps k (keptOf u) := by
  induction fuel generalizing vs s with
  | zero => simp [takeVictims] at hu
  | succ n ih =>
    cases vs with
    | nil => simp [takeVictims] at hu
    | cons v vs =>
      rw [takeVictims] at hu
      split at hu
      · exact ih hu h
      · have h1 : Keeps k (keptOf (dropLast s v)) := by rwa [keptOf_dropLast]
        dsimp only at hu
        split at hu
        next => simp at hu
        next r hr =>
          split at hu
          next x hx => exact Option.some.inj hu ▸ keeps_placed hx h1
          next => exact ih hu h1

theorem keeps_takeSets {rid : Nat} {img : FormeImage} {draft : Bool} {need : Nat} {placed : List Nat} {fuel : Nat} {s u : State}
    (hu : takeSets rid img draft need placed fuel s = some u) (h : Keeps k (keptOf s)) : Keeps k (keptOf u) := by
  induction fuel generalizing s with
  | zero => simp [takeSets] at hu
  | succ n ih =>
    rw [takeSets] at hu
    split at hu
    next => simp at hu
    next r hr =>
      dsimp only at hu
      split at hu
      · exact Option.some.inj hu ▸ h
      · split at hu
        · simp at hu
        · split at hu
          next x hx => exact ih hu (keeps_placed hx h)
          next =>
            split at hu
            · split at hu
              next y hy => exact ih hu (keeps_takeVictims hy h)
              next => simp at hu
            · simp at hu

theorem withinCap_eq_some {s u v : State} {t : Nat} (h : withinCap s t u = some v) : v = u := by
  unfold withinCap at h
  dsimp only at h
  split at h
  · simp at h
  · exact (Option.some.inj h).symm

theorem keeps_takePages {s u : State} {rid n : Nat} {drafting : Bool} {placed : List Nat}
    (hu : takePages s rid n drafting placed = some u) (h : Keeps k (keptOf s)) : Keeps k (keptOf u) := by
  unfold takePages at hu
  split at hu
  next => simp at hu
  next r hr =>
    split at hu
    next => simp at hu
    next f hf =>
      split at hu
      next => simp at hu
      next v hv =>
        have hk := keeps_takeSets hv h
        split at hu
        · split at hu
          next d hd =>
            obtain ⟨w, hw, hc⟩ := Option.bind_eq_some_iff.mp hu
            exact withinCap_eq_some hc ▸ keeps_takeSets hw hk
          next => exact withinCap_eq_some hu ▸ hk
        · exact withinCap_eq_some hu ▸ hk

/-! ### Washdown -/

theorem washCore_wf {c : Core} (h : Memory.wf c.scratch = true) : Memory.wf (washCore c).scratch = true :=
  Laws.memory_wf_filter _ _ h

@[simp] theorem keeps_washRegion {s : State} (owner rk : Nat) (h : Keeps k (keptOf s)) : Keeps k (keptOf (washRegion s owner rk)) :=
  keeps_modRegion h fun _ _ => rfl

@[simp] theorem keeps_washdown {s : State} (regions : List Nat) (owner : Nat) (h : Keeps k (keptOf s)) :
    Keeps k (keptOf (washdown s regions owner)) := by
  have h1 := keeps_mapCores (f := fun j c => if coreRegion j ∈ regions then washCore c else c) h fun j c hc => by
    split
    · exact washCore_wf hc
    · exact hc
  exact keeps_foldl (fun _ a => keeps_washRegion owner a (Keeps.refl _)) regions h1

/-! ### Vector operations -/

@[simp] theorem keeps_writeRow {s : State} (a : AttnRec) (layer : Nat) (p : PageSet) (i : Nat) (b : List Byte) (h : Keeps k (keptOf s)) :
    Keeps k (keptOf (writeRow s a layer p i b)) := by
  unfold writeRow
  split
  · exact keeps_setKv h fun x hx => memory_wf_mwrite _ _ _ hx
  · exact h

@[simp] theorem keeps_stageRow {s : State} (rk rid slot layer pos : Nat) (a : AttnRec) (p : PageSet) (i : Nat) (modes : List (Option Nat))
    (keys vals : List W32) (h : Keeps k (keptOf s)) : Keeps k (keptOf (stageRow s rk rid slot layer pos a p i modes keys vals)) := by
  unfold stageRow
  dsimp only
  exact keeps_writeRow _ _ _ _ _ (by simp [h])

@[simp] theorem keeps_reduceOp {s : State} (rk : Nat) (rid : Option Nat) (slot layer : Nat) (cols : List (List EntrySrc)) (input : List W32)
    (ck dest first : Nat) (h : Keeps k (keptOf s)) : Keeps k (keptOf (reduceOp s rk rid slot layer cols input ck dest first)) := by
  unfold reduceOp
  split
  · exact h
  · dsimp only
    rw [keptOf_spend, keptOf_flagRow]
    exact keeps_modRegion (keeps_setCore h fun hk => writeOutputs_wf _ _ _ _ _ _ _ _ _ (h.scratch hk ck)) fun _ hx => hx

theorem formSegments_wf (w base layer : Nat) (clamp : Fp) (rows : List (Nat × Nat)) (i : Nat) (l : List (List W32)) {m : List Host.Cell}
    (h : Memory.wf m = true) : Memory.wf (formSegments w base layer clamp rows i l m) = true := by
  induction l generalizing i m with
  | nil => exact h
  | cons x r ih =>
    rw [formSegments]
    exact ih _ (Laws.memory_wf_putSegment _ _ _ _ _ _ h)

@[simp] theorem keeps_formOp {s : State} (rid : Option Nat) (slot group entry ck : Nat) (vals : List W32) (h : Keeps k (keptOf s)) :
    Keeps k (keptOf (formOp s rid slot group entry ck vals)) := by
  unfold formOp
  split
  · exact h
  · split
    · dsimp only
      rw [keptOf_flagRow]
      exact keeps_modCore h fun _ hc => formSegments_wf _ _ _ _ _ _ _ hc
    · exact h

@[simp] theorem keeps_stageOp {s : State} (rk rid slot layer pos : Nat) (keys vals : List W32) (h : Keeps k (keptOf s)) :
    Keeps k (keptOf (stageOp s rk rid slot layer pos keys vals)) := by
  unfold stageOp
  split
  · split
    · exact h
    · dsimp only
      simp [h]
  · exact h

@[simp] theorem keeps_vectorOp {s : State} (rk : Nat) (v : VecOp) (h : Keeps k (keptOf s)) : Keeps k (keptOf (vectorOp s rk v)) := by
  cases v <;> simp [vectorOp, h]

end Sys2Proof.Proofs

/-! The functions that keep the invariants: changes at a boundary, the forming and the end of a step. -/
namespace Sys2Proof.Proofs

open Sys2Proof.Machine

variable {k : Kept}

/-! ### Changes at a boundary -/

@[simp] theorem keeps_planesChanged {s : State} (ps : List Nat) (h : Keeps k (keptOf s)) : Keeps k (keptOf (planesChanged s ps)) := by
  unfold planesChanged
  refine keeps_foldl (fun x ck => ?_) _ ?_
  · dsimp only
    split
    · split <;> simp
    · simp
  · rw [keptOf_mapCores]
    · simpa using h
    · intro j c
      split <;> simp

@[simp] theorem keeps_applyFlip (heads : List (Nat × Nat)) (n : Nat) (fresh : List Nat) {s : State} (x : Txn) (h : Keeps k (keptOf s)) :
    Keeps k (keptOf (applyFlip heads n fresh s x)) := by
  unfold applyFlip
  dsimp only
  rw [keptOf_saveGen, keptOf_forgetReset]
  exact keeps_planesChanged _ (by simp [h])

@[simp] theorem keeps_applyTransactions (heads : List (Nat × Nat)) (n B : Nat) {s : State} (h : Keeps k (keptOf s)) :
    Keeps k (keptOf (applyTransactions heads n B s).1) := by
  unfold applyTransactions
  dsimp only
  refine keeps_foldl (fun y o => ?_) _ ?_
  · split <;> simp
  · split
    · rw [keptOf_releaseHeld, keptOf_putTxn, keptOf_setPlates]
      refine keeps_applyFlip _ _ _ _ ?_
      repeat' split
      all_goals simp [h]
    · repeat' split
      all_goals simp [h]

@[simp] theorem keeps_sheetOverwriteOp {s : State} (x : Nat) (h : Keeps k (keptOf s)) : Keeps k (keptOf (sheetOverwriteOp s x)) := by
  unfold sheetOverwriteOp
  refine keeps_setKv h fun v hv => ?_
  dsimp only
  split
  · exact Laws.memory_wf_zeroSheet _ _ hv
  · exact hv

/-! ### Attestation leaves -/

/-- A change of the attestation leaves alone, which leaves them behind the next one. -/
theorem keeps_leaves {l : Kept} {b n : Nat} (h : Keeps k l) (hl : l.LeavesOk → b ≤ 4096 ∧ n ≤ 1024 * (4096 - b)) :
    Keeps k { l with leafBlocks := b, nextLeaf := n } :=
  ⟨fun x => h.counters x, fun x => hl (h.leaves x), fun x => h.memories x⟩

@[simp] theorem keeps_nextBlock {s : State} (h : Keeps k (keptOf s)) : Keeps k (keptOf (nextBlock s)) := by
  unfold nextBlock
  split
  · exact h
  · refine keeps_leaves h fun ⟨hb, _⟩ => ?_
    simp only [leafCounter, kept_leafBlocks] at *
    omega

@[simp] theorem keeps_takeLeaf {s : State} (h : Keeps k (keptOf s)) : Keeps k (keptOf (takeLeaf s).1) := by
  have h1 : Keeps k (keptOf (if s.nv.nextLeaf < 1024 * leafCounter s then s else nextBlock s)) := by
    split
    · exact h
    · exact keeps_nextBlock h
  unfold takeLeaf
  revert h1
  generalize (if s.nv.nextLeaf < 1024 * leafCounter s then s else nextBlock s) = u
  intro h1
  dsimp only
  split
  next hlt =>
    simp only [leafCounter, kept_leafBlocks, kept_nextLeaf] at hlt
    exact keeps_leaves (l := keptOf u) (b := (keptOf u).leafBlocks) (n := (keptOf u).nextLeaf + 1) h1 fun ⟨hb, _⟩ => ⟨hb, by omega⟩
  next => exact h1

@[simp] theorem keeps_attestOp {s : State} (x : Hdr) (nonce addr : Nat) (h : Keeps k (keptOf s)) : Keeps k (keptOf (attestOp x nonce addr s)) := by
  simp [attestOp, h]

/-! ### Check summaries -/

theorem dropOrphans_wf {g : Region} (h : Memory.wf g.wideBuf = true) : Memory.wf (dropOrphans g).wideBuf = true := by
  unfold dropOrphans
  generalize g.parks = l
  induction l generalizing g with
  | nil => exact h
  | cons e r ih => exact ih (spillClear_wf _ h)

@[simp] theorem keeps_takeOrphans {s : State} (rk : Nat) (h : Keeps k (keptOf s)) : Keeps k (keptOf (takeOrphans s rk)) := by
  unfold takeOrphans
  dsimp only
  split
  · exact h
  · rw [keptOf_modStep]
    refine keeps_setRegion ?_ fun hk => dropOrphans_wf (h.wideBuf hk rk)
    exact keeps_foldl (fun x a => by simp) _ h

@[simp] theorem keeps_checkSummaryOp {s : State} (rk : Nat) (gap : Bool) (h : Keeps k (keptOf s)) : Keeps k (keptOf (checkSummaryOp s rk gap)) := by
  have hs : ∀ l : List Nat, Keeps k (keptOf (takeOrphans (l.foldl takeSummary s) rk)) := fun l => by simp [h]
  unfold checkSummaryOp
  dsimp only
  repeat' split
  · exact h
  · exact h
  all_goals simp [hs]

/-! ### Forming a step -/

theorem keeps_tryRow {x : Form} (i : Nat) (charged web : Bool) (h : Keeps k (keptOf x.s)) : Keeps k (keptOf (tryRow x i charged web).1.s) := by
  unfold tryRow
  split
  · dsimp only
    split
    · exact h
    · split
      next => simpa using h
      next u hu =>
        have h1 := keeps_takePages hu h
        repeat' split
        all_goals simp [h, h1]
  · exact h

theorem keeps_tryAll (charged web : Bool) {x : Form} (l : List (Nat × Req)) (h : Keeps k (keptOf x.s)) :
    Keeps k (keptOf (tryAll charged web x l).1.s) := by
  induction l generalizing x with
  | nil => exact h
  | cons e r ih =>
    have h1 := keeps_tryRow e.1 charged web h
    rw [tryAll]
    split
    next y hy =>
      rw [hy] at h1
      exact ih h1
    next y hy => rwa [hy] at h1

@[simp] theorem keeps_tryUnit {x : Form} (l : List (Nat × Req)) (charged web : Bool) (h : Keeps k (keptOf x.s)) :
    Keeps k (keptOf (tryUnit x l charged web).1.s) := by
  have h1 := keeps_tryAll charged web l h
  unfold tryUnit
  split
  next y hy => rwa [hy] at h1
  next y hy => simpa using h

theorem keeps_foldl_form {α : Type} {f : Form → α → Form} (hf : ∀ x a, Keeps (keptOf x.s) (keptOf (f x a).s)) (l : List α) {x : Form}
    (h : Keeps k (keptOf x.s)) : Keeps k (keptOf (l.foldl f x).s) := by
  induction l generalizing x with
  | nil => exact h
  | cons a r ih => exact ih (h.trans (hf x a))

@[simp] theorem keeps_webPhase (work : List (Nat × Req)) {x : Form} (h : Keeps k (keptOf x.s)) : Keeps k (keptOf (webPhase work x).s) :=
  keeps_foldl_form (fun _ _ => keeps_tryUnit _ _ _ (Keeps.refl _)) _ h

@[simp] theorem keeps_agedOne (work : List (Nat × Req)) {x : Form} (e : Nat × Req) (h : Keeps k (keptOf x.s)) :
    Keeps k (keptOf (agedOne work x e).s) := by
  unfold agedOne
  dsimp only
  repeat' split
  all_goals simp [h]

@[simp] theorem keeps_agedPhase (work : List (Nat × Req)) {x : Form} (h : Keeps k (keptOf x.s)) : Keeps k (keptOf (agedPhase work x).s) :=
  keeps_foldl_form (fun _ e => keeps_agedOne work e (Keeps.refl _)) _ h

@[simp] theorem keeps_creditedVisit (work : List (Nat × Req)) {x : Form × Bool} (t : Nat) (h : Keeps k (keptOf x.1.s)) :
    Keeps k (keptOf (creditedVisit work x t).1.s) := by
  unfold creditedVisit
  dsimp only
  repeat' split
  all_goals simp [h]

@[simp] theorem keeps_excessVisit (work : List (Nat × Req)) {x : Form × Bool} (t : Nat) (h : Keeps k (keptOf x.1.s)) :
    Keeps k (keptOf (excessVisit work x t).1.s) := by
  unfold excessVisit
  dsimp only
  repeat' split
  all_goals simp [h]

theorem keeps_visits {visit : Form × Bool → Nat → Form × Bool} (hv : ∀ x t, Keeps (keptOf x.1.s) (keptOf (visit x t).1.s)) (l : List Nat)
    {x : Form × Bool} (h : Keeps k (keptOf x.1.s)) : Keeps k (keptOf (l.foldl visit x).1.s) := by
  induction l generalizing x with
  | nil => exact h
  | cons a r ih => exact ih (h.trans (hv x a))

theorem keeps_rounds {visit : Form × Bool → Nat → Form × Bool} (hv : ∀ x t, Keeps (keptOf x.1.s) (keptOf (visit x t).1.s))
    (order : State → List Nat) (fuel : Nat) {x : Form} (h : Keeps k (keptOf x.s)) : Keeps k (keptOf (rounds visit order fuel x).s) := by
  induction fuel generalizing x with
  | zero => exact h
  | succ n ih =>
    have h1 := keeps_visits hv (order x.s) (x := (x, false)) h
    rw [rounds]
    split
    · exact ih h1
    · exact h1

@[simp] theorem keeps_meetClaims {s : State} (l : List (Nat × Nat)) (h : Keeps k (keptOf s)) : Keeps k (keptOf (meetClaims s l)) := by
  induction l generalizing s with
  | nil => exact h
  | cons c r ih =>
    rw [meetClaims]
    split
    next => exact ih h
    next q hq =>
      split
      · exact ih h
      · split
        next u hu =>
          have h1 := keeps_takePages hu h
          exact ih (by simpa using h1)
        next => exact ih (by simpa using h)

@[simp] theorem keeps_formStep {s : State} (owner : Nat) (h : Keeps k (keptOf s)) : Keeps k (keptOf (formStep s owner)) := by
  unfold formStep
  extract_lets s0 s1 work x0 x2 x3 x4 s4 g s5 sys rs step s6
  have h1 : Keeps k (keptOf s1) := by simp [s1, s0, h]
  have h2 : Keeps k (keptOf x2.s) := keeps_agedPhase _ (keeps_webPhase _ h1)
  have h3 : Keeps k (keptOf x3.s) := keeps_rounds (fun _ t => keeps_creditedVisit work t (Keeps.refl _)) _ _ h2
  have h4 : Keeps k (keptOf x4.s) := keeps_rounds (fun _ t => keeps_excessVisit work t (Keeps.refl _)) _ _ h3
  have h5 : Keeps k (keptOf s4) := by simp [s4, h4]
  split
  · simpa using h4
  · simp [s6, s5, h5]

/-! ### The end of a step and the boundary -/

theorem endRegion_wf (cut : Bool) {g : Region} (h : Memory.wf g.wideBuf = true) : Memory.wf (endRegion cut g).wideBuf = true := by
  unfold endRegion
  dsimp only
  split
  · exact dropOrphans_wf h
  · exact h

@[simp] theorem keeps_settleStep (inp : TickInput) (x : Step) (B : Nat) {s : State} (h : Keeps k (keptOf s)) :
    Keeps k (keptOf (settleStep inp x B s)) := by
  unfold settleStep
  extract_lets heads ids faults late s1 s2 s3 s3' s4 s5
  have h4 : keptOf s4 = keptOf s := by simp [s4, s3', s3, s2, s1]
  have h5 : Keeps k (keptOf s5) := by
    simp only [s5, keptOf_endIssue, keptOf_sealDeficits]
    refine keeps_mapRegions ?_ fun _ hw => endRegion_wf _ hw
    rw [keptOf_mapCores _ _ fun _ _ => endCore_scratch _ _, h4]
    exact h
  simp [h5]

@[simp] theorem keeps_monitorAll {s : State} (h : Keeps k (keptOf s)) : Keeps k (keptOf (monitorAll s)) :=
  keeps_foldl (fun _ ck => keeps_nameNext ck (Keeps.refl _)) _ h

@[simp] theorem keeps_startMonitors {s : State} (r : Refill) (h : Keeps k (keptOf s)) : Keeps k (keptOf (startMonitors s r)) := by
  unfold startMonitors
  split
  · exact h
  · refine keeps_foldl (fun x ck => ?_) _ h
    split <;> simp

@[simp] theorem keeps_mapBoundary {s : State} (h : Keeps k (keptOf s)) : Keeps k (keptOf (mapBoundary s)) := by
  unfold mapBoundary
  extract_lets s1 done s2 s3 gone s4 s5
  have h3 : Keeps k (keptOf s3) :=
    keeps_foldl (fun x r => keeps_startMonitors r (by simp)) _ (by simp [s2, s1, h])
  have h4 : Keeps k (keptOf s4) := by
    simp only [s4]
    split <;> simp [h3]
  have h5 : Keeps k (keptOf s5) := by
    simp only [s5]
    split <;> simp [h4]
  split
  · simp [s2, s1, h]
  · simp [h5]

@[simp] theorem keeps_washBoundary {s : State} (ran : Option (List Nat)) (forced : Bool) (next : Option Nat) (h : Keeps k (keptOf s)) :
    Keeps k (keptOf (washBoundary s ran forced next)) := by
  unfold washBoundary
  dsimp only
  split <;> simp [h]

theorem keeps_remoteSets (img : FormeImage) (draft : Bool) (need fuel : Nat) {s : State} (r : Req) (h : Keeps k (keptOf s)) :
    Keeps k (keptOf (remoteSets img draft need fuel s r).1) := by
  induction fuel generalizing s r with
  | zero => exact h
  | succ n ih =>
    rw [remoteSets]
    split
    · exact h
    · split
      next => exact h
      next x hx => exact ih _ (keeps_writeHbm h fun hk => placeLargest_wf hx (h.hbm hk))

@[simp] theorem keeps_holdRemote {s : State} (x : SysRow) (h : Keeps k (keptOf s)) : Keeps k (keptOf (holdRemote s x)) := by
  unfold holdRemote
  split
  · exact h
  next f hf =>
    extract_lets al s1 r0 a b
    have ha : Keeps k (keptOf a.1) := keeps_remoteSets _ _ _ _ _ (by simp [s1, al, h])
    have hb : Keeps k (keptOf b.1) := by
      simp only [b]
      repeat' split
      · exact ha
      · exact keeps_remoteSets _ _ _ _ _ ha
      · exact ha
    exact hb

@[simp] theorem keeps_formSystem {s : State} (h : Keeps k (keptOf s)) : Keeps k (keptOf (formSystem s)) := by
  unfold formSystem
  split
  · exact h
  · extract_lets xs ql s0 s1 g rows rs n step s2
    have h0 : Keeps k (keptOf s0) := by simp [s0, h]
    split
    · exact h0
    · have h1 : Keeps k (keptOf s1) := keeps_foldl (fun _ x => keeps_holdRemote x (Keeps.refl _)) _ (by split <;> simp [h0])
      simp [s2, h1]

@[simp] theorem keeps_goOn {s : State} (ran : Option (List Nat)) (forced : Bool) (h : Keeps k (keptOf s)) : Keeps k (keptOf (goOn s ran forced)) := by
  unfold goOn
  extract_lets next s1 s2 ql
  clear_value next
  have h1 : Keeps k (keptOf s1) := by simp [s1, h]
  have h2 : Keeps k (keptOf s2) := by
    clear_value s1
    simp only [s2]
    cases next with
    | none => exact h1
    | some o =>
      dsimp only
      split <;> simp [h1]
  exact keeps_formSystem (by simpa using h2)

@[simp] theorem keeps_takeUp {s : State} (h : Keeps k (keptOf s)) : Keeps k (keptOf (takeUp s)) := by
  simp [takeUp, h]

@[simp] theorem keeps_takeBoundary (inp : TickInput) (x : Step) {s : State} (h : Keeps k (keptOf s)) :
    Keeps k (keptOf (takeBoundary inp x s)) := by
  have h1 : Keeps k (keptOf (settleStep inp x (now s) (markLeaving x.number s))) := by simp [h]
  have h2 := keeps_applyTransactions (k := k) inp.ringHeads x.number (now s)
    (s := applyPower (setSched (endRequests inp.ringHeads x.number (now s) (withheldRows x) (settleStep inp x (now s) (markLeaving x.number s)))
      (fun c => { c with wantBoundary := false }))) (by simp [h1])
  unfold takeBoundary
  dsimp only
  rw [keptOf_endBoundary]
  exact keeps_goOn _ _ (keeps_takeUp (by simp [h2]))

@[simp] theorem keeps_stepBoundaryOp (inp : TickInput) {s : State} (h : Keeps k (keptOf s)) : Keeps k (keptOf (stepBoundaryOp inp s)) := by
  unfold stepBoundaryOp
  split
  · exact h
  · split
    · split <;> simp [h]
    · split
      · exact h
      · extract_lets tries u
        have hu : Keeps k (keptOf u) := by
          simp only [u]
          split <;> simp [h]
        split <;> simp [hu]

end Sys2Proof.Proofs

/-! The functions that keep the invariants: counters, resets, temperatures, flits, register writes. -/
namespace Sys2Proof.Proofs

open Sys2Proof.Machine

variable {k : Kept}

/-! ### The counters of the always-on domain -/

/-- A change of one copy of the reset counters that keeps its length and lets no counter leave its range. -/
def KeepsCount (f : List Nat → List Nat) : Prop :=
  ∀ l, l.length = 7 → (∀ n ∈ l, n ≤ 65535) → (f l).length = 7 ∧ ∀ n ∈ f l, n ≤ 65535

theorem keeps_mapCounts {l : Kept} {f : List Nat → List Nat} (h : Keeps k l) (hf : KeepsCount f) :
    Keeps k { l with counts := ⟨f l.counts.a, f l.counts.b, f l.counts.c⟩ } := by
  refine ⟨fun x => ?_, fun x => h.leaves x, fun x => h.memories x⟩
  obtain ⟨⟨la, lb, lc⟩, ⟨ra, rb, rc⟩, rest⟩ := h.counters x
  obtain ⟨la', ra'⟩ := hf _ la ra
  obtain ⟨lb', rb'⟩ := hf _ lb rb
  obtain ⟨lc', rc'⟩ := hf _ lc rc
  exact ⟨⟨la', lb', lc'⟩, ⟨ra', rb', rc'⟩, rest⟩

theorem satAdd_16_le (a b : Nat) : satAdd 16 a b ≤ 65535 := by
  unfold satAdd
  omega

theorem keepsCount_bumpAt (i : Nat) : KeepsCount (bumpAt · i) := by
  refine fun l hl hr => ⟨by simp [bumpAt, hl], fun n hn => ?_⟩
  obtain ⟨j, hj, rfl⟩ := List.mem_map.mp hn
  have hj' : j < l.length := List.mem_range.mp hj
  split
  · exact satAdd_16_le _ _
  · rw [List.getD_eq_getElem _ _ hj']
    exact hr _ (List.getElem_mem hj')

@[simp] theorem keeps_countReset {s : State} (x : Src) (h : Keeps k (keptOf s)) : Keeps k (keptOf (countReset s x)) :=
  keeps_mapCounts h (keepsCount_bumpAt (srcCode x))

@[simp] theorem keeps_clearCounts {s : State} (v : Nat) (h : Keeps k (keptOf s)) : Keeps k (keptOf (clearCounts s v)) := by
  refine keeps_mapCounts h (f := fun l => (List.range l.length).map fun i => if bitAt v i then 0 else l.getD i 0) fun l hl hr =>
    ⟨by simp [hl], fun n hn => ?_⟩
  obtain ⟨j, hj, rfl⟩ := List.mem_map.mp hn
  have hj' : j < l.length := List.mem_range.mp hj
  split
  · exact Nat.zero_le _
  · rw [List.getD_eq_getElem _ _ hj']
    exact hr _ (List.getElem_mem hj')

@[simp] theorem keeps_countAbort {s : State} (h : Keeps k (keptOf s)) : Keeps k (keptOf (countAbort s)) := by
  refine ⟨fun x => ?_, fun x => h.leaves x, fun x => h.memories x⟩
  obtain ⟨len, rng, _, _⟩ := h.counters x
  exact ⟨len, rng, satAdd_16_le _ _, Nat.min_le_left _ _⟩

theorem rstCount_le {s : State} (h : (keptOf s).CountersOk) (i : Nat) : rstCount s i ≤ 65535 := by
  obtain ⟨_, ⟨ra, rb, _⟩, _⟩ := h
  have hget : ∀ l : List Nat, (∀ n ∈ l, n ≤ 65535) → l.getD i 0 ≤ 65535 := fun l hl => by
    rcases Nat.lt_or_ge i l.length with hi | hi
    · rw [List.getD_eq_getElem _ _ hi]
      exact hl _ (List.getElem_mem hi)
    · rw [List.getD_eq_default _ _ hi]
      exact Nat.zero_le _
  unfold rstCount vote3
  dsimp only
  split
  · exact hget _ ra
  · split
    · exact hget _ rb
    · exact Nat.le_refl _

@[simp] theorem keeps_repairCounts {s : State} (h : Keeps k (keptOf s)) : Keeps k (keptOf (repairCounts s)) := by
  unfold repairCounts
  dsimp only
  split
  · exact h
  · rw [keptOf_countRepairs]
    refine ⟨fun x => ?_, fun x => h.leaves x, fun x => h.memories x⟩
    have hs := h.counters x
    have hv : ∀ n ∈ (List.range 7).map (rstCount s), n ≤ 65535 := fun n hn => by
      obtain ⟨i, _, rfl⟩ := List.mem_map.mp hn
      exact rstCount_le hs i
    obtain ⟨_, _, rest⟩ := hs
    exact ⟨⟨by simp [triOf], by simp [triOf], by simp [triOf]⟩, ⟨hv, hv, hv⟩, rest⟩

@[simp] theorem keeps_repairVotes {s : State} (h : Keeps k (keptOf s)) : Keeps k (keptOf (repairVotes s)) := by
  simp [repairVotes, h]

@[simp] theorem keeps_housekeepingOp {s : State} (inp : TickInput) (h : Keeps k (keptOf s)) : Keeps k (keptOf (housekeepingOp s inp)) := by
  unfold housekeepingOp
  split
  · exact h
  · extract_lets dt rst sec s1 s2 s3 s4
    have h3 : keptOf s3 = keptOf s := by
      simp only [s3]
      split <;> simp [s2, s1]
    have h4 : Keeps k (keptOf s4) := by simp [s4, h3, h]
    simp [h4]

/-! ### Resets -/

theorem scratches_eq_nil {cs : Tbl Core} (h : ∀ e ∈ cs, e.2.scratch = []) : scratches cs = fun _ => [] := by
  funext j
  induction cs with
  | nil => rfl
  | cons e r ih =>
    obtain ⟨he, hr⟩ := List.forall_mem_cons.mp h
    have hj := ih hr
    simp only [scratches, tget, tfind] at hj ⊢
    split
    · exact he
    · exact hj

theorem wideBufs_eq_nil {rs : Tbl Region} (h : ∀ e ∈ rs, e.2.wideBuf = []) : wideBufs rs = fun _ => [] := by
  funext j
  induction rs with
  | nil => rfl
  | cons e r ih =>
    obtain ⟨he, hr⟩ := List.forall_mem_cons.mp h
    have hj := ih hr
    simp only [wideBufs, tget, tfind] at hj ⊢
    split
    · exact he
    · exact hj

theorem resetCore_scratch (cold : Bool) (c : Core) : (resetCore cold c).scratch = [] := by
  unfold resetCore
  split <;> rfl

theorem resetRegion_wideBuf (cold : Bool) (g : Region) : (resetRegion cold g).wideBuf = [] := by
  unfold resetRegion
  split <;> rfl

/-- A reset empties the scratch memories and the wide buffers, and a cold one HBM too. -/
theorem keptOf_reach (cold : Bool) (s : State) :
    keptOf (reach cold s) =
      { keptOf s with scratch := fun _ => [], wideBuf := fun _ => [], hbm := if cold then [] else (keptOf s).hbm } := by
  have h2 : keptOf (if cold then coldOptions (resetPlates cold s) else resetPlates cold s) = keptOf s := by
    split <;> simp
  unfold reach
  extract_lets s1 s2
  have h2 : keptOf s2 = keptOf s := h2
  clear_value s2
  rw [keptOf_mk, scratches_eq_nil, wideBufs_eq_nil]
  · have h := congrArg (fun x : Kept => { x with scratch := fun _ => [], wideBuf := fun _ => [], hbm := if cold then [] else x.hbm }) h2
    cases cold <;> exact h
  · intro e he
    obtain ⟨x, _, rfl⟩ := List.mem_map.mp (List.mem_of_mem_filter he)
    exact resetRegion_wideBuf _ _
  · intro e he
    obtain ⟨x, _, rfl⟩ := List.mem_map.mp (List.mem_of_mem_filter he)
    exact resetCore_scratch _ _

@[simp] theorem keeps_reach {s : State} (cold : Bool) (h : Keeps k (keptOf s)) : Keeps k (keptOf (reach cold s)) := by
  rw [keptOf_reach]
  refine ⟨fun x => h.counters x, fun x => h.leaves x, fun x => ⟨fun _ => rfl, fun _ => rfl, ?_⟩⟩
  cases cold
  · exact h.hbm x
  · rfl

@[simp] theorem keeps_beginReset {s : State} (x : Src) (h : Keeps k (keptOf s)) : Keeps k (keptOf (beginReset s x)) := by
  unfold beginReset
  extract_lets running srcs cold up s1 s2 s3 rst aon s4
  split
  · exact h
  · have h1 : Keeps k (keptOf s1) := by
      simp only [s1]
      split <;> simp [h]
    have h2 : Keeps k (keptOf s2) := by
      simp only [s2]
      split <;> simp [h1]
    have h3 : Keeps k (keptOf s3) := keeps_reach cold h2
    simp [s4, aon, h3]

@[simp] theorem keeps_requestReset {s : State} (x : Src) (h : Keeps k (keptOf s)) : Keeps k (keptOf (requestReset s x)) := by
  have h1 := keeps_countReset x h
  unfold requestReset
  dsimp only
  repeat' split
  · exact h
  · simpa using h1
  · exact keeps_beginReset x h

@[simp] theorem keeps_warmDelayOp {s : State} (h : Keeps k (keptOf s)) : Keeps k (keptOf (warmDelayOp s)) := by
  unfold warmDelayOp
  repeat' split
  all_goals simp [h]

@[simp] theorem keeps_releaseOp {s : State} (width rate : Nat) (h : Keeps k (keptOf s)) : Keeps k (keptOf (releaseOp s width rate)) := by
  unfold releaseOp
  split
  · exact h
  · extract_lets cold off s1 driven pci s2 time aon s3 s4 rst s5 rst' nv
    have h2 : keptOf s2 = keptOf s := by
      simp only [s2]
      split <;> simp [driven, s1]
    have h4 : Keeps k (keptOf s4) := by
      simp only [s4, keptOf_newChallenge]
      exact keeps_nextBlock (by simpa [s3, aon, h2] using h)
    have h5 : Keeps k (keptOf s5) := by simp [s5, h4]
    repeat' split
    all_goals simp [nv, h5]

@[simp] theorem keeps_enterService {s : State} (h : Keeps k (keptOf s)) : Keeps k (keptOf (enterService s)) := by
  unfold enterService
  extract_lets s1 s2 s3 time rst aon nv s4 s5
  have h2 : keptOf s2 = keptOf s := by simp [s2, s1]
  have h3 : Keeps k (keptOf s3) := by
    simp only [s3]
    split <;> simp [h2, h]
  have h4 : Keeps k (keptOf s4) := by
    simp only [s4, keptOf_settlePresence]
    refine ⟨fun x => ?_, fun x => ?_, fun x => h3.memories x⟩
    · obtain ⟨len, rng, tot, _⟩ := h3.counters x
      exact ⟨len, rng, tot, Nat.zero_le _⟩
    · have h := h3.leaves x
      simp only [keptOf]
      split <;> exact h
  have h5 : Keeps k (keptOf s5) := by simp [s5, h4]
  split <;> simp [h5]

@[simp] theorem keeps_loadFails {s : State} (h : Keeps k (keptOf s)) : Keeps k (keptOf (loadFails s)) := by
  unfold loadFails
  dsimp only
  split <;> simp [h]

@[simp] theorem keeps_loadCompleteOp {s : State} (fuseOk : Bool) (h : Keeps k (keptOf s)) : Keeps k (keptOf (loadCompleteOp s fuseOk)) := by
  unfold loadCompleteOp
  repeat' split
  all_goals simp [h]

@[simp] theorem keeps_vbkLossOp {s : State} (h : Keeps k (keptOf s)) : Keeps k (keptOf (vbkLossOp s)) := by
  unfold vbkLossOp
  split
  · extract_lets s1
    have h1 : keptOf s1 = keptOf s := by
      simp only [s1, keptOf_setOpt]
      split <;> simp
    rw [← h1] at h
    refine ⟨fun _ => ?_, fun x => h.leaves x, fun x => h.memories x⟩
    have h0 : ∀ n ∈ [0, 0, 0, 0, 0, 0, 0], n ≤ 65535 := by decide
    exact ⟨⟨rfl, rfl, rfl⟩, ⟨h0, h0, h0⟩, Nat.zero_le _, Nat.zero_le _⟩
  · exact h

@[simp] theorem keeps_watchdogOp {s : State} (h : Keeps k (keptOf s)) : Keeps k (keptOf (watchdogOp s)) := by
  have h1 := keeps_requestReset .wdt h
  unfold watchdogOp
  split
  · simpa using h1
  · exact h

@[simp] theorem keeps_warmPinOp {s : State} (low : Nat) (h : Keeps k (keptOf s)) : Keeps k (keptOf (warmPinOp s low)) := by
  unfold warmPinOp
  split <;> simp [h]

/-! ### Temperatures and fatal errors -/

@[simp] theorem keeps_thermReset {s : State} (hard : Bool) (h : Keeps k (keptOf s)) : Keeps k (keptOf (thermReset s hard)) := by
  unfold thermReset
  extract_lets s1 x freed aon s2 s3 rst
  have h2 : keptOf s2 = keptOf s := by simp [s2, freed, aon, x, s1]
  have h3 : Keeps k (keptOf s3) := keeps_beginReset _ (by rwa [h2])
  simpa using h3

@[simp] theorem keeps_hardCutNow {s : State} (h : Keeps k (keptOf s)) : Keeps k (keptOf (hardCutNow s)) := keeps_thermReset _ h

@[simp] theorem keeps_tripOn {s : State} (r : TempReading) (h : Keeps k (keptOf s)) : Keeps k (keptOf (tripOn s r)) := by
  unfold tripOn
  extract_lets hubBroken cause s1
  have h1 : Keeps k (keptOf s1) := by simp [s1, h]
  clear_value s1 hubBroken
  repeat' split
  all_goals simp [h, h1]

@[simp] theorem keeps_stopProgress {s : State} (t0 : Nat) (h : Keeps k (keptOf s)) : Keeps k (keptOf (stopProgress s t0)) := by
  unfold stopProgress
  split
  · exact h
  · refine keeps_thermReset _ ?_
    split <;> simp [h]

@[simp] theorem keeps_thermalStopOp {s : State} (r : TempReading) (h : Keeps k (keptOf s)) : Keeps k (keptOf (thermalStopOp s r)) := by
  unfold thermalStopOp
  split <;> simp [h]

@[simp] theorem keeps_hardCutOp {s : State} (h : Keeps k (keptOf s)) : Keeps k (keptOf (hardCutOp s)) := by
  unfold hardCutOp
  split <;> simp [h]

@[simp] theorem keeps_monitorTemps {s : State} (temps : List TempReading) (h : Keeps k (keptOf s)) : Keeps k (keptOf (monitorTemps s temps)) := by
  unfold monitorTemps
  extract_lets s1 s2
  have h2 : Keeps k (keptOf s2) := keeps_foldl (fun _ r => keeps_tripOn r (Keeps.refl _)) _ (by simp [s1, h])
  split <;> simp [h2]

@[simp] theorem keeps_fwPassOp {s : State} (temps : List TempReading) (rs : List SenseResult) (h : Keeps k (keptOf s)) :
    Keeps k (keptOf (fwPassOp s temps rs)) := by
  unfold fwPassOp
  split <;> simp [h]

@[simp] theorem keeps_monitorPassOp {s : State} (temps : List TempReading) (rs : List SenseResult) (h : Keeps k (keptOf s)) :
    Keeps k (keptOf (monitorPassOp s temps rs)) := by
  unfold monitorPassOp
  split <;> simp [h]

@[simp] theorem keeps_fatalError {s : State} (e : MemError) (h : Keeps k (keptOf s)) : Keeps k (keptOf (fatalError s e)) :=
  keeps_requestReset _ (by simpa using h)

@[simp] theorem keeps_ueConsumedOp {s : State} (e : MemError) (h : Keeps k (keptOf s)) : Keeps k (keptOf (ueConsumedOp s e)) := by
  unfold ueConsumedOp
  dsimp only
  repeat' split
  all_goals simp [h]

/-! ### Flits and transfers -/

@[simp] theorem keeps_takeSheet {s : State} (m : Nat) (b : List Byte) (h : Keeps k (keptOf s)) : Keeps k (keptOf (takeSheet s m b)) := by
  unfold takeSheet
  extract_lets l n ql s1 sheet
  have h1 : Keeps k (keptOf s1) := by simp [s1, h]
  split
  · exact h1
  · split
    · exact keeps_modCore h1 fun _ hc => memory_wf_mwrite _ _ _ hc
    · simpa using h1

@[simp] theorem keeps_deliver {s : State} (f : Flit) (h : Keeps k (keptOf s)) : Keeps k (keptOf (deliver s f)) := by
  unfold deliver
  split
  · exact h
  · dsimp only
    split <;> simp [h]

@[simp] theorem keeps_acceptFlit {s : State} (p : Nat) (f : Flit) (h : Keeps k (keptOf s)) : Keeps k (keptOf (acceptFlit s p f)) := by
  unfold acceptFlit
  repeat' split
  all_goals simp [h]

@[simp] theorem keeps_flitReceiveOp {s : State} (p : Nat) (f : Flit) (h : Keeps k (keptOf s)) : Keeps k (keptOf (flitReceiveOp s p f)) := by
  unfold flitReceiveOp
  extract_lets x s1
  have h1 : Keeps k (keptOf s1) := by simp [s1, h]
  repeat' split
  all_goals simp [h, h1]

@[simp] theorem keeps_routeTransferOp {s : State} (slot index : Nat) (h : Keeps k (keptOf s)) :
    Keeps k (keptOf (routeTransferOp s slot index)) := by
  unfold routeTransferOp
  repeat' split
  all_goals try exact h
  · exact keeps_modCore (by simpa using h) fun _ hc => Laws.memory_wf_copyRange _ _ _ _ _ hc
  · dsimp only
    repeat' split
    all_goals simp [h]

/-! ### Resets over the link, and register writes -/

@[simp] theorem keeps_resetReqOp {s : State} (p dest : Nat) (h : Keeps k (keptOf s)) : Keeps k (keptOf (resetReqOp s p dest)) := by
  unfold resetReqOp
  repeat' split
  all_goals simp [h]

@[simp] theorem keeps_rstreqOp {s : State} (p low : Nat) (h : Keeps k (keptOf s)) : Keeps k (keptOf (rstreqOp s p low)) := by
  unfold rstreqOp
  split <;> simp [h]

@[simp] theorem keeps_writePf {s : State} (off v : Nat) (h : Keeps k (keptOf s)) : Keeps k (keptOf (writePf s off v)) := by
  unfold writePf
  dsimp only
  repeat' split
  all_goals simp [h]

@[simp] theorem keeps_bar0Write4 {s : State} (fn off v : Nat) (h : Keeps k (keptOf s)) : Keeps k (keptOf (bar0Write4 s fn off v)) := by
  unfold bar0Write4
  repeat' split
  all_goals simp [h]

@[simp] theorem keeps_registerWriteOp {s : State} (fn off size v : Nat) (h : Keeps k (keptOf s)) :
    Keeps k (keptOf (registerWriteOp s fn off size v)) := by
  unfold registerWriteOp
  repeat' split
  all_goals simp [h]

end Sys2Proof.Proofs

/-! Every command keeps the invariants, so every step does. -/
namespace Sys2Proof.Proofs

open Sys2Proof.Machine Sys2Proof.Safety

variable {k : Kept}

/-! ### Outcomes of a command -/

/-- Where a command goes on, the invariants are kept. -/
def NextKeeps (s : State) (o : Host.Outcome State Fault Refusal) : Prop := ∀ u, o = .next u → Keeps (keptOf s) (keptOf u)

@[simp] theorem nextKeeps_next (s u : State) : NextKeeps s (.next u) ↔ Keeps (keptOf s) (keptOf u) :=
  ⟨fun h => h u rfl, fun h _ e => Host.Outcome.next.inj e ▸ h⟩

@[simp] theorem nextKeeps_fault (s : State) (f : Fault) : NextKeeps s (.fault f) := fun _ e => nomatch e

@[simp] theorem nextKeeps_ite (s : State) (c : Prop) [Decidable c] (a b : Host.Outcome State Fault Refusal) :
    NextKeeps s (if c then a else b) ↔ (c → NextKeeps s a) ∧ (¬c → NextKeeps s b) := by
  split <;> simp_all

/-- A host command keeps the invariants when its body does from the state in which it starts. -/
theorem nextKeeps_runCmd (h : Hdr) (p : CmdParams) (t : Nat) (s : State) {body : State → State}
    (hb : ∀ w, Keeps (keptOf w) (keptOf (body w))) : NextKeeps s (runCmd h p t s body) := by
  have hb' := hb (enqueue (advance t s) h p)
  rw [keptOf_enqueue, keptOf_advance] at hb'
  simp only [runCmd, onFn, nextKeeps_ite, nextKeeps_next, nextKeeps_fault, implies_true, and_true, startCmd]
  intro _
  split
  · split
    · simp
    · exact hb'
  · simp

theorem exec_keeps (i : Instr) (s : State) : NextKeeps s (exec i s) := by
  cases i
  all_goals simp only [exec, execIdentify, execNegotiate, execFenceReportGet, execOptionSet, execPowerSet, execResourceAlloc, execResourceFree, execResetWarm,
    execTxnBegin, execTxnCommit, execTxnRollback, execCalSelf, execCalRecal, execCalDrift, execTestRun, execFenceUnit, execProofEnter,
    execProofLeave, execPlateLoad, execPlateRelease, execFormeLoad, execPlateSourceSet, execPlateDefectAccept, execOverlaySet, execTenantSet,
    execKeyLoad, execTenantRemove, execKeyRegister, execAttest, execDebugUnlock, execReqSubmit, execReqCancel, execWebOpen, execWebClose,
    execWebGroup, execGalleyWrite, execPacketTake, execGalleyReset, execReplyHeadWrite, execRegisterWrite, execTimeLoRead, execEtArm,
    execTileEngage, execEccRawWrite, execEccRawRead, execEccDecodedRead, execRetrain, execRstCountClear, execHousekeepingTick,
    execWatchdogExpiry, execAgeCommit, execTxnExpired, execFwSensePass, execThermMonitorPass, execHostSensePass, execEtEdge, execStrobe,
    execPlaneSwitch, execSkimProduct, execBankFinalise, execSplitReduction, execRouteTransfer, execDualCompare, execDualWordsTimeout,
    execMonitorCompare, execMonitorAbandon, execAuditCompare, execAuditTimeout, execAuditRotation, execCheckSummary, execStepSeal,
    execStepBoundary, execPinLimit, execTestDue, execTestOverdue, execCoreTest, execRecalSlice, execDriftPassStart, execDriftSlice,
    execCalSelfComplete, execPlateRecord, execImageReadTimeout, execPlaneProgram, execWriteBurst, execGenRecordWritten, execDrainTimeout,
    execInplaceRun, execUeConsumed, execPatrolRead, execSheetOverwrite, execTenantKeyZeroise, execTdiLeaveRun, execWebSlot, execFlitReceive,
    execFlitAckTimeout, execPortSilence, execLaneLockLoss, execPortTrain, execIdent, execKeyx, execTimeSyncSend, execTimeSync, execTimeReply,
    execLockLoss, execBoundaryName, execSealReport, execSealTimeout, execCut, execCommitPrep, execCommitReady, execResetReq, execFence,
    execRoutes, execQlRstreq, execQlFault, execPor, execPerst, execModWarmN, execResetRelease, execOptionLoadComplete, execVbkLoss,
    execThermalStop, execHardCut, execThermLatchClear, execCrossingReset, execHotReset, execFlrPf, execFlrVf, execD3hotEntry, execD0Return,
    execSpdmMessage, execMctpSetEndpointId, execPldmRequest, execPldmSetPowerBudget, execPldmFirmwareUpdate, execHostReadComplete,
    execHostAccessTimeout, execCoreTestDone, execKeyxTimeout, execMsixUnmask, execWarmResetDelayEnd, execExtSyncPulse]
  all_goals simp [onFn, onCore, onPlane, onRegion, onTile, onPort, onVf, nextKeeps_runCmd, keptOf_calPassOp, keptOf_eccRow]

/-- What a step leaves of the state before it: everything that the invariants speak of. -/
theorem step_keeps {s u : State} (h : step s = .next u) : Keeps (keptOf s) (keptOf u) := by
  unfold step at h
  split at h
  · cases h
    exact Keeps.refl _
  next c rest _ => exact exec_keeps c { s with pending := rest } u h

/-- Settles O58: every operation keeps the ranges, and a step is one operation. -/
theorem stepsKeepCounters : Obligations.StepsKeepCounters := by
  intro s u ha hl h
  exact ⟨(step_keeps h).counters ha, (step_keeps h).leaves hl⟩

/-- Settles O59: every operation writes a memory through the functions that keep its canonical form, and a step is one operation. -/
theorem stepsKeepMemories : Obligations.StepsKeepMemories := by
  intro s u hm h
  exact (step_keeps h).memories hm

end Sys2Proof.Proofs
/-! # The end of a step: what a boundary writes of the past -/
namespace Sys2Proof.Proofs

open Sys2Proof.Machine

/-- What outlasts a boundary once it is written: the time base, the last sealed step, its boundary time and the history. -/
structure Past where
  base : Nat
  sealed : Nat
  lastB : Nat
  history : List (Nat × Nat × List (Nat × Nat))

def pastOf (s : State) : Past := ⟨s.time.base, s.sched.sealed, s.sched.lastB, s.sched.history⟩

@[simp] theorem past_base (s : State) : s.time.base = (pastOf s).base := rfl
@[simp] theorem past_sealed (s : State) : s.sched.sealed = (pastOf s).sealed := rfl
@[simp] theorem past_lastB (s : State) : s.sched.lastB = (pastOf s).lastB := rfl
@[simp] theorem past_history (s : State) : s.sched.history = (pastOf s).history := rfl
@[simp] theorem past_eta (p : Past) : (⟨p.base, p.sealed, p.lastB, p.history⟩ : Past) = p := rfl

@[simp] theorem pastOf_mk (pending free out time rst aon nv opts fns cmdq turn txns map cores regions hubSense bandgap formes plates arr sched reqs
    gens tenants overlays kv web share faults sec therm ql pci side pins power seen) : pastOf ⟨pending, free, out, time, rst, aon, nv, opts, fns,
    cmdq, turn, txns, map, cores, regions, hubSense, bandgap, formes, plates, arr, sched, reqs, gens, tenants, overlays, kv, web, share, faults, sec,
    therm, ql, pci, side, pins, power, seen⟩ = ⟨time.base, sched.sealed, sched.lastB, sched.history⟩ := rfl

@[simp] theorem pastOf_foldl {α : Type} (f : State → α → State) (h : ∀ s a, pastOf (f s a) = pastOf s) (l : List α) (s : State) :
    pastOf (l.foldl f s) = pastOf s := foldl_unchanged pastOf h l s

@[simp] theorem pastOf_ite (c : Prop) [Decidable c] (a b : State) : pastOf (if c then a else b) = if c then pastOf a else pastOf b := apply_ite ..

@[simp] theorem pastOf_setFn (s : State) (f : Nat) (b : FnBlk) : pastOf (setFn s f b) = pastOf s := by
  simp [setFn]

@[simp] theorem pastOf_modFn (s : State) (f : Nat) (g : FnBlk → FnBlk) : pastOf (modFn s f g) = pastOf s := by
  simp [modFn]

@[simp] theorem pastOf_setCore (s : State) (k : Nat) (c : Core) : pastOf (setCore s k c) = pastOf s := (rfl)

@[simp] theorem pastOf_modCore (s : State) (k : Nat) (g : Core → Core) : pastOf (modCore s k g) = pastOf s := (rfl)

@[simp] theorem pastOf_modRegion (s : State) (k : Nat) (g : Region → Region) : pastOf (modRegion s k g) = pastOf s := (rfl)

@[simp] theorem pastOf_setTenant (s : State) (n : Nat) (x : Tenant) : pastOf (setTenant s n x) = pastOf s := by
  simp [setTenant]

@[simp] theorem pastOf_modTenant (s : State) (n : Nat) (g : Tenant → Tenant) : pastOf (modTenant s n g) = pastOf s := by
  simp [modTenant]

@[simp] theorem pastOf_setPort (s : State) (p : Nat) (x : Port) : pastOf (setPort s p x) = pastOf s := by
  simp [setPort]

@[simp] theorem pastOf_setReq (s : State) (i : Nat) (r : Req) : pastOf (setReq s i r) = pastOf s := by
  simp [setReq]

@[simp] theorem pastOf_modReq (s : State) (i : Nat) (g : Req → Req) : pastOf (modReq s i g) = pastOf s := by
  unfold modReq
  split <;> simp

@[simp] theorem pastOf_delReq (s : State) (i : Nat) : pastOf (delReq s i) = pastOf s := by
  simp [delReq]

@[simp] theorem pastOf_setChan (s : State) (w : Nat) (c : Channel) : pastOf (setChan s w c) = pastOf s := by
  simp [setChan]

@[simp] theorem pastOf_modChan (s : State) (w : Nat) (g : Channel → Channel) : pastOf (modChan s w g) = pastOf s := by
  unfold modChan
  split <;> simp

@[simp] theorem pastOf_setFaults (s : State) (f : FaultBlk → FaultBlk) : pastOf (setFaults s f) = pastOf s := by
  simp [setFaults]

@[simp] theorem pastOf_setKv (s : State) (f : KvBlk → KvBlk) : pastOf (setKv s f) = pastOf s := (rfl)

@[simp] theorem pastOf_setSched (s : State) (f : SchedBlk → SchedBlk)
    (h : ∀ c, (f c).sealed = c.sealed ∧ (f c).lastB = c.lastB ∧ (f c).history = c.history) : pastOf (setSched s f) = pastOf s := by
  obtain ⟨h1, h2, h3⟩ := h s.sched
  simp [setSched, h1, h2, h3]

@[simp] theorem pastOf_setPlates (s : State) (f : PlateBlk → PlateBlk) : pastOf (setPlates s f) = pastOf s := by
  simp [setPlates]

@[simp] theorem pastOf_emit (s : State) (o : Out) : pastOf (emit s o) = pastOf s := by
  simp [emit]

@[simp] theorem pastOf_drive (s : State) (p : Pin) (level : Bool) : pastOf (drive s p level) = pastOf s := by
  simp [drive]

@[simp] theorem pastOf_drawn (s : State) : pastOf (drawn s) = pastOf s := by
  simp [drawn]

@[simp] theorem pastOf_setOpt (s : State) (off : Nat) (v : Nat) : pastOf (setOpt s off v) = pastOf s := by
  simp [setOpt]

@[simp] theorem pastOf_addReport (s : State) (r : Report) : pastOf (addReport s r) = pastOf s := by
  simp [addReport]

@[simp] theorem pastOf_markFenced (s : State) (u : UnitId) : pastOf (markFenced s u) = pastOf s := by
  simp [markFenced]

@[simp] theorem pastOf_failOutstanding (s : State) (u : UnitId) : pastOf (failOutstanding s u) = pastOf s := by
  unfold failOutstanding
  split <;> simp

@[simp] theorem pastOf_assignSpares (s : State) (l : List Refill) : pastOf (assignSpares s l) = pastOf s := by
  induction l generalizing s with
  | nil => rfl
  | cons r rs ih => simp [assignSpares, ih]

@[simp] theorem pastOf_reassign (s : State) (u : UnitId) : pastOf (reassign s u) = pastOf s := by
  simp [reassign]

@[simp] theorem pastOf_leaveUnit (s : State) (u : UnitId) : pastOf (leaveUnit s u) = pastOf s := by
  simp [leaveUnit]

@[simp] theorem pastOf_fenceOne (s : State) (u : UnitId) (cause : Cause) (detail : Nat) : pastOf (fenceOne s u cause detail) = pastOf s := by
  unfold fenceOne
  dsimp only
  repeat' split
  all_goals simp

@[simp] theorem pastOf_withdrawHalf (s : State) (ps : Nat) : pastOf (withdrawHalf s ps) = pastOf s := by
  simp [withdrawHalf]

@[simp] theorem pastOf_fenceStack (s : State) (ps : Nat) (cause : Cause) (detail : Nat) : pastOf (fenceStack s ps cause detail) = pastOf s := by
  simp [fenceStack]

@[simp] theorem pastOf_fenceRegion (s : State) (rk : Nat) (cause : Cause) (detail : Nat) : pastOf (fenceRegion s rk cause detail) = pastOf s := by
  simp [fenceRegion]

@[simp] theorem pastOf_fenceCore (s : State) (ck : Nat) (cause : Cause) (detail : Nat) : pastOf (fenceCore s ck cause detail) = pastOf s := by
  simp [fenceCore]

@[simp] theorem pastOf_setDesc (s : State) (pk : Nat) (d : PlaneDesc) : pastOf (setDesc s pk d) = pastOf s := by
  simp [setDesc]

@[simp] theorem pastOf_setDescState (s : State) (pk : Nat) (st : Nat) : pastOf (setDescState s pk st) = pastOf s := by
  simp [setDescState]

@[simp] theorem pastOf_retirePlane (s : State) (pk : Nat) (cause : Cause) : pastOf (retirePlane s pk cause) = pastOf s := by
  unfold retirePlane
  dsimp only
  repeat' split
  all_goals simp

@[simp] theorem pastOf_fenceUnitOp (s : State) (u : UnitId) (cause : Cause) (detail : Nat) : pastOf (fenceUnitOp s u cause detail) = pastOf s := by
  unfold fenceUnitOp
  split <;> simp

@[simp] theorem pastOf_mapChange (s : State) (r : Refill) : pastOf (mapChange s r) = pastOf s := by
  unfold mapChange
  split <;> simp

@[simp] theorem pastOf_snapMaps (s : State) : pastOf (snapMaps s) = pastOf s := by
  simp [snapMaps]

@[simp] theorem pastOf_dropCovered (s : State) : pastOf (dropCovered s) = pastOf s := by
  simp [dropCovered]

@[simp] theorem pastOf_settleRefills (s : State) : pastOf (settleRefills s) = pastOf s := by
  simp [settleRefills]

@[simp] theorem pastOf_applyMapChanges (s : State) : pastOf (applyMapChanges s) = pastOf s := by
  simp [applyMapChanges]

@[simp] theorem pastOf_endTransfer (s : State) (u : DmaUser) : pastOf (endTransfer s u) = pastOf s := by
  simp [endTransfer]

@[simp] theorem pastOf_alarm (s : State) (u : UnitId) : pastOf (alarm s u) = pastOf s := by
  simp [alarm]

@[simp] theorem pastOf_lateFault (s : State) (u : UnitId) (cause : Cause) (delta : Nat) : pastOf (lateFault s u cause delta) = pastOf s := by
  simp [lateFault]

@[simp] theorem pastOf_closeLate (s : State) (u : UnitId) : pastOf (closeLate s u) = pastOf s := by
  simp [closeLate]

@[simp] theorem pastOf_fenceFor (s : State) (u : UnitId) (cause : Cause) (detail : Nat) : pastOf (fenceFor s u cause detail) = pastOf s := by
  simp [fenceFor]

@[simp] theorem pastOf_fillSlots (s : State) : pastOf (fillSlots s) = pastOf s := by
  simp [fillSlots]

@[simp] theorem pastOf_queueWrite (s : State) (pk : Nat) (r : Option PlaneRecord) : pastOf (queueWrite s pk r) = pastOf s := by
  simp [queueWrite]

@[simp] theorem pastOf_queueReadback (s : State) (pk : Nat) : pastOf (queueReadback s pk) = pastOf s := by
  simp [queueReadback]

@[simp] theorem pastOf_calReject (s : State) (ck : Nat) (unit : Nat) : pastOf (calReject s ck unit) = pastOf s := by
  simp [calReject]

@[simp] theorem pastOf_calPass (s : State) (ck : Nat) (unit : Nat) : pastOf (calPass s ck unit) = pastOf s := by
  simp [calPass]

@[simp] theorem pastOf_hostWrite (s : State) (fn : Nat) (addr : Nat) (bytes : List Byte) : pastOf (hostWrite s fn addr bytes) = pastOf s := by
  simp [hostWrite]

@[simp] theorem pastOf_sendMsix (s : State) (fn : Nat) (v : Nat) : pastOf (sendMsix s fn v) = pastOf s := by
  simp [sendMsix]

@[simp] theorem pastOf_putTxn (s : State) (d : Nat) (v : Option Txn) : pastOf (putTxn s d v) = pastOf s := by
  simp [putTxn]

@[simp] theorem pastOf_touchTxn (s : State) (id : Nat) : pastOf (touchTxn s id) = pastOf s := by
  unfold touchTxn
  split <;> simp

@[simp] theorem pastOf_writeReply (s0 : State) (r : Reply) : pastOf (writeReply s0 r) = pastOf s0 := by
  simp [writeReply]

@[simp] theorem pastOf_pushReply (s : State) (r : Reply) : pastOf (pushReply s r) = pastOf s := by
  simp [pushReply]

@[simp] theorem pastOf_setWait (s : State) (fn : Nat) (seq : Nat) (w : Wait) : pastOf (setWait s fn seq w) = pastOf s := by
  simp [setWait]

@[simp] theorem pastOf_finish (s : State) (fn : Nat) (seq : Nat) (st : Status) (cond : Cond) (r0 : Nat) (r1 : Nat) :
    pastOf (finish s fn seq st cond r0 r1) = pastOf s := by
  unfold finish
  split <;> simp

@[simp] theorem pastOf_nameNext (s : State) (ck : Nat) : pastOf (nameNext s ck) = pastOf s := (rfl)

@[simp] theorem pastOf_precisionOn (s : State) (ck lpk : Nat) : pastOf (precisionOn s ck lpk) = pastOf s := (rfl)

@[simp] theorem pastOf_abandonWindow (s : State) (ck : Nat) : pastOf (abandonWindow s ck) = pastOf s := by
  simp [abandonWindow]

@[simp] theorem pastOf_refreshMonitors (s : State) : pastOf (refreshMonitors s) = pastOf s := by
  simp [refreshMonitors]

@[simp] theorem pastOf_mapCores (s : State) (f : Nat → Core → Core) : pastOf (mapCores s f) = pastOf s := (rfl)

@[simp] theorem pastOf_wantBoundary (s : State) : pastOf (wantBoundary s) = pastOf s := by
  simp [wantBoundary]

@[simp] theorem pastOf_leaveProof (s : State) : pastOf (leaveProof s) = pastOf s := by
  simp [leaveProof]

@[simp] theorem pastOf_dropFrom (s : State) (v : Nat) (n : Nat) : pastOf (dropFrom s v n) = pastOf s := by
  unfold dropFrom
  split <;> simp

@[simp] theorem pastOf_dropLast (s : State) (v : Nat) : pastOf (dropLast s v) = pastOf s := by
  unfold dropLast
  split <;> simp

@[simp] theorem pastOf_dropRemoteFrom (s : State) (rid : Nat) (n : Nat) : pastOf (dropRemoteFrom s rid n) = pastOf s := by
  unfold dropRemoteFrom
  split <;> simp

@[simp] theorem pastOf_markEndAt (s : State) (rid : Nat) (st : Status) (n : Nat) : pastOf (markEndAt s rid st n) = pastOf s := by
  simp [markEndAt]

@[simp] theorem pastOf_markEnd (s : State) (rid : Nat) (st : Status) : pastOf (markEnd s rid st) = pastOf s := by
  simp [markEnd]

@[simp] theorem pastOf_writeFrame (s : State) (w : Nat) (c : Channel) (kind : Nat) (flags : Nat) (tokens : List Nat) :
    pastOf (writeFrame s w c kind flags tokens) = pastOf s := by
  simp [writeFrame]

@[simp] theorem pastOf_closeChan (s : State) (w : Nat) : pastOf (closeChan s w) = pastOf s := by
  simp [closeChan]

@[simp] theorem pastOf_endFrame (s : State) (w : Nat) (c : Channel) (st : Status) (asFill : Bool) : pastOf (endFrame s w c st asFill) = pastOf s := by
  unfold endFrame
  split <;> simp

@[simp] theorem pastOf_closeNow (s : State) (w : Nat) (c : Channel) : pastOf (closeNow s w c) = pastOf s := by
  simp [closeNow]

@[simp] theorem pastOf_queueFrames (s : State) (w g : Nat) (l : List (List Nat)) : pastOf (queueFrames s w g l) = pastOf s := by
  induction l generalizing s with
  | nil => rfl
  | cons x xs ih => simp [queueFrames, ih]

@[simp] theorem pastOf_closeChannels (s : State) (p : Channel → Bool) : pastOf (closeChannels s p) = pastOf s := by
  refine pastOf_foldl _ (fun x e => ?_) _ _
  split
  · simp
  · rfl

@[simp] theorem pastOf_applyGroup (s : State) (g : Nat) (ms : List Nat) : pastOf (applyGroup s g ms) = pastOf s := by
  simp [applyGroup]

@[simp] theorem pastOf_releaseHeld (s : State) : pastOf (releaseHeld s) = pastOf s := by
  simp [releaseHeld]

@[simp] theorem pastOf_putRec (s : State) (q : Req) (r : Rec) : pastOf (putRec s q r).1 = pastOf s := by
  simp [putRec]

@[simp] theorem pastOf_drainRing (head : Option Nat) (l : List Rec) (x : State × Req) : pastOf (drainRing head l x).1 = pastOf x.1 := by
  induction l generalizing x with
  | nil => rfl
  | cons r rs ih =>
    obtain ⟨s, q⟩ := x
    simp [drainRing, ih, apply_ite Prod.fst]

@[simp] theorem pastOf_writeRec (heads : List (Nat × Nat)) (s : State) (q : Req) (r : Rec) : pastOf (writeRec heads s q r).1 = pastOf s := by
  unfold writeRec
  split
  · rfl
  · exact pastOf_drainRing _ _ _

@[simp] theorem pastOf_flushRec (heads : List (Nat × Nat)) (s : State) (e : Nat × Req) : pastOf (flushRec heads s e) = pastOf s := by
  unfold flushRec
  split <;> simp

@[simp] theorem pastOf_flushRecs (heads : List (Nat × Nat)) (s : State) : pastOf (flushRecs heads s) = pastOf s := by
  simp [flushRecs]

@[simp] theorem pastOf_noteOverwrite (s : State) (q : Req) : pastOf (noteOverwrite s q) = pastOf s := by
  simp [noteOverwrite]

@[simp] theorem pastOf_replyCancels (s : State) (i : Nat) (emitted : Nat) : pastOf (replyCancels s i emitted) = pastOf s := by
  simp [replyCancels]

@[simp] theorem pastOf_endReq (heads : List (Nat × Nat)) (s : State) (i : Nat) (r : Rec) : pastOf (endReq heads s i r) = pastOf s := by
  unfold endReq
  split <;> simp

@[simp] theorem pastOf_endNow (heads : List (Nat × Nat)) (k : Nat) (s : State) (i : Nat) (st : Status) :
    pastOf (endNow heads k s i st) = pastOf s := by
  unfold endNow
  split <;> simp

@[simp] theorem pastOf_restartReq (heads : List (Nat × Nat)) (k : Nat) (s : State) (i : Nat) (horizon : Nat) (w : Option Row) (cond : Cond) :
    pastOf (restartReq heads k s i horizon w cond) = pastOf s := by
  unfold restartReq
  split <;> simp

@[simp] theorem pastOf_reloadOverlays (s : State) (owner : Nat) : pastOf (reloadOverlays s owner) = pastOf s := by
  simp [reloadOverlays]

@[simp] theorem pastOf_washRegion (s : State) (owner rk : Nat) : pastOf (washRegion s owner rk) = pastOf s := (rfl)

@[simp] theorem pastOf_washdown (s : State) (regions : List Nat) (owner : Nat) : pastOf (washdown s regions owner) = pastOf s := by
  simp [washdown]

@[simp] theorem pastOf_settlePresence (s : State) : pastOf (settlePresence s) = pastOf s := by
  simp [settlePresence]

@[simp] theorem pastOf_startTemp (s : State) (rk : Nat) : pastOf (startTemp s rk) = pastOf s := by
  unfold startTemp
  split
  · rfl
  · exact pastOf_modRegion ..

@[simp] theorem pastOf_driftPrecision (s : State) (tk cls : Nat) : pastOf (driftPrecision s tk cls) = pastOf s := by
  refine pastOf_foldl _ (fun x p => ?_) _ _
  split
  · simp
  · rfl

@[simp] theorem pastOf_reportDrift (s : State) (p : Pass) (tk : Nat) (m : Tbl (ℤ × ℤ × ℤ)) : pastOf (reportDrift s p tk m) = pastOf s := by
  simp [reportDrift]

@[simp] theorem pastOf_saveDrift (s : State) (ms : List (Nat × Tbl (ℤ × ℤ × ℤ))) : pastOf (saveDrift s ms) = pastOf s := by
  simp [saveDrift]

@[simp] theorem pastOf_takeTile (s : State) (T : ℤ) (tk : Nat) (m : Option (Tbl (ℤ × ℤ × ℤ))) : pastOf (takeTile s T tk m) = pastOf s := by
  unfold takeTile
  split <;> simp

@[simp] theorem pastOf_passReply (rk : Nat) (kind : Nat) (s : State) (e : CmdEntry) : pastOf (passReply rk kind s e) = pastOf s := by
  unfold passReply
  repeat' split
  all_goals simp

@[simp] theorem pastOf_applyTemp (s : State) (rk : Nat) (p : Pass) : pastOf (applyTemp s rk p) = pastOf s := by
  simp [applyTemp]

@[simp] theorem pastOf_applyDrift (s : State) (rk : Nat) (p : Pass) : pastOf (applyDrift s rk p) = pastOf s := by
  simp [applyDrift]

@[simp] theorem pastOf_applyPass (s : State) (rk : Nat) : pastOf (applyPass s rk) = pastOf s := by
  unfold applyPass
  split <;> simp

@[simp] theorem pastOf_latchRegion (s : State) (rk : Nat) : pastOf (latchRegion s rk) = pastOf s := by
  simp [latchRegion]

@[simp] theorem pastOf_latchRegions (s : State) : pastOf (latchRegions s) = pastOf s := by
  have h : pastOf ((s.regions.map (fun r => r.1)).foldl latchRegion s) = pastOf s := pastOf_foldl _ pastOf_latchRegion _ _
  rw [← h]
  simp only [pastOf, latchRegions]

@[simp] theorem pastOf_moveLadders (s : State) (k : Step) : pastOf (moveLadders s k) = pastOf s := by
  simp [moveLadders]

@[simp] theorem pastOf_sendControl (s : State) (typ : Nat) (dest : Nat) (words : List Nat) : pastOf (sendControl s typ dest words) = pastOf s := by
  unfold sendControl
  split <;> simp

@[simp] theorem pastOf_broadcast (s : State) (typ : Nat) (words : List Nat) : pastOf (broadcast s typ words) = pastOf s := by
  simp [broadcast]

@[simp] theorem pastOf_loseFlit (s : State) (f : Flit) : pastOf (loseFlit s f) = pastOf s := by
  simp [loseFlit]

@[simp] theorem pastOf_loseFlits (s : State) (x : Port) : pastOf (loseFlits s x) = pastOf s := by
  simp [loseFlits]

@[simp] theorem pastOf_restartPort (s : State) (p : Nat) (st : Nat) : pastOf (restartPort s p st) = pastOf s := by
  simp [restartPort]

@[simp] theorem pastOf_freeTarget (s : State) (pk : Nat) : pastOf (freeTarget s pk) = pastOf s := by
  simp [freeTarget]

@[simp] theorem pastOf_dropClaims (s : State) (ls : List Nat) : pastOf (dropClaims s ls) = pastOf s := by
  simp [dropClaims]

@[simp] theorem pastOf_noteFailed (s : State) (imageId : Nat) (st : Option Status) : pastOf (noteFailed s imageId st) = pastOf s := by
  simp [noteFailed]

@[simp] theorem pastOf_settleArea (s : State) (want : List DmaUser) : pastOf (settleArea s want) = pastOf s := by
  simp [settleArea]

@[simp] theorem pastOf_sendRecordRead (s : State) (ld : Load) (n : Nat) : pastOf (sendRecordRead s ld n) = pastOf s := by
  simp [sendRecordRead]

@[simp] theorem pastOf_settleDma (s0 : State) : pastOf (settleDma s0) = pastOf s0 := by
  unfold settleDma
  dsimp only
  repeat' split
  all_goals simp

@[simp] theorem pastOf_failLoad (s : State) (st : Status) : pastOf (failLoad s st) = pastOf s := by
  unfold failLoad
  split <;> simp

@[simp] theorem pastOf_beginWrite (s : State) (pk : Nat) (r : Option PlaneRecord) : pastOf (beginWrite s pk r) = pastOf s := by
  simp [beginWrite]

@[simp] theorem pastOf_settleClaim (s : State) (c : Nat × Nat) : pastOf (settleClaim s c) = pastOf s := by
  unfold settleClaim
  repeat' split
  all_goals simp

@[simp] theorem pastOf_settleClaims (s : State) : pastOf (settleClaims s) = pastOf s := by
  simp [settleClaims]

@[simp] theorem pastOf_readRun (s : State) : pastOf (readRun s) = pastOf s := by
  unfold readRun
  split <;> simp

@[simp] theorem pastOf_saveGen (s : State) : pastOf (saveGen s) = pastOf s := by
  simp [saveGen]

@[simp] theorem pastOf_startRewrite (s : State) : pastOf (startRewrite s) = pastOf s := by
  simp [startRewrite]

@[simp] theorem pastOf_selfFence (s : State) : pastOf (selfFence s) = pastOf s := by
  simp [selfFence]

@[simp] theorem pastOf_endTenant (heads : List (Nat × Nat)) (k : Nat) (s : State) (t : Nat) : pastOf (endTenant heads k s t) = pastOf s := by
  simp [endTenant]

@[simp] theorem pastOf_enterConfidential (s : State) : pastOf (enterConfidential s) = pastOf s := by
  simp [enterConfidential]

@[simp] theorem pastOf_applyTenant (heads : List (Nat × Nat)) (k : Nat) (s : State) (t : Nat) (cfg : TenantCfg) :
    pastOf (applyTenant heads k s t cfg) = pastOf s := by
  simp [applyTenant]

@[simp] theorem pastOf_applyOverlay (s : State) (t : Nat) (slot : Nat) (layer : Nat) (r : Option Overlay) (bytes : Nat) :
    pastOf (applyOverlay s t slot layer r bytes) = pastOf s := by
  simp [applyOverlay]

@[simp] theorem pastOf_applyTenants (heads : List (Nat × Nat)) (k : Nat) (s : State) (l : List Staged) :
    pastOf (applyTenants heads k s l) = pastOf s := by
  unfold applyTenants
  simp only [pastOf_ite, pastOf_setKv, ite_self]
  refine pastOf_foldl _ (fun x c => ?_) _ _
  split <;> simp

@[simp] theorem pastOf_applyOption (s : State) (off : Nat) (m : W32) (v : W32) : pastOf (applyOption s off m v) = pastOf s := by
  simp [applyOption]

@[simp] theorem pastOf_rungsToZero (s : State) : pastOf (rungsToZero s) = pastOf s := by
  simp [rungsToZero]

@[simp] theorem pastOf_followPorts (s0 : State) (s : State) : pastOf (followPorts s0 s) = pastOf s := by
  simp [followPorts]

@[simp] theorem pastOf_applyOptions (s : State) (l : List Staged) : pastOf (applyOptions s l) = pastOf s := by
  have h : pastOf (l.foldl (fun x c => match c with
      | .option off m v => applyOption x off m v
      | _ => x) s) = pastOf s := by
    refine pastOf_foldl _ (fun x c => ?_) _ _
    split <;> simp
  unfold applyOptions
  generalize l.foldl (fun x c => match c with
      | .option off m v => applyOption x off m v
      | _ => x) s = s1 at h ⊢
  simp [h]

@[simp] theorem pastOf_applyGroups (s : State) (l : List Staged) : pastOf (applyGroups s l) = pastOf s := by
  refine pastOf_foldl _ (fun x c => ?_) _ _
  split <;> simp

@[simp] theorem pastOf_swapClaim (s : State) (l : Nat) (new : Nat) : pastOf (swapClaim s l new) = pastOf s := by
  unfold swapClaim
  split <;> simp

@[simp] theorem pastOf_freePlane (s : State) (l : Nat) : pastOf (freePlane s l) = pastOf s := by
  unfold freePlane
  split <;> simp

@[simp] theorem pastOf_flipPlates (s : State) (l : List Staged) : pastOf (flipPlates s l) = pastOf s := by
  simp [flipPlates]

@[simp] theorem pastOf_dropDraft (s : State) (i : Nat) : pastOf (dropDraft s i) = pastOf s := by
  unfold dropDraft
  repeat' split
  all_goals simp

@[simp] theorem pastOf_loseDraft (s : State) (i : Nat) : pastOf (loseDraft s i) = pastOf s := by
  unfold loseDraft
  split <;> simp

@[simp] theorem pastOf_startAgain (s : State) (i : Nat) : pastOf (startAgain s i) = pastOf s := by
  simp [startAgain]

@[simp] theorem pastOf_flipRequest (heads : List (Nat × Nat)) (k : Nat) (epoch : Nat) (old : Tbl Forme) (s : State) (i : Nat) :
    pastOf (flipRequest heads k epoch old s i) = pastOf s := by
  unfold flipRequest
  dsimp only
  repeat' split
  all_goals simp

@[simp] theorem pastOf_flipRemote (old : Tbl Forme) (s : State) (rid : Nat) : pastOf (flipRemote old s rid) = pastOf s := by
  unfold flipRemote
  repeat' split
  all_goals simp

@[simp] theorem pastOf_flipRemotes (old : Tbl Forme) (s : State) : pastOf (flipRemotes old s) = pastOf s := by
  simp [flipRemotes]

@[simp] theorem pastOf_leaveFits (s : State) (ps : List Nat) : pastOf (leaveFits s ps) = pastOf s := (rfl)

@[simp] theorem pastOf_forgetReset (changed : Nat → Nat → Bool) (s : State) : pastOf (forgetReset changed s) = pastOf s := by
  simp [forgetReset]

@[simp] theorem pastOf_orderFlip (s : State) : pastOf (orderFlip s) = pastOf s := by
  unfold orderFlip
  split <;> simp

@[simp] theorem pastOf_answerCommit (B : Nat) (s : State) (x : Txn) : pastOf (answerCommit B s x) = pastOf s := by
  unfold answerCommit
  split <;> simp

@[simp] theorem pastOf_saveMaps (s : State) : pastOf (saveMaps s) = pastOf s := by
  unfold saveMaps
  split <;> simp

@[simp] theorem pastOf_removeAtBoundary (heads : List (Nat × Nat)) (k : Nat) (s : State) (t : Nat) :
    pastOf (removeAtBoundary heads k s t) = pastOf s := by
  simp [removeAtBoundary]

@[simp] theorem pastOf_reportLate (old : State) (l : List (Report × List (Nat × Nat))) (s : State) : pastOf (reportLate old l s) = pastOf s := by
  simp [reportLate]

@[simp] theorem pastOf_chargeTenant (s : State) (t : Nat) (c : Nat) : pastOf (chargeTenant s t c) = pastOf s := by
  simp [chargeTenant]

@[simp] theorem pastOf_releaseRow (heads : List (Nat × Nat)) (k : Nat) (s : State) (q : Req) (f : Forme) (w : Row) (pinned : Bool) :
    pastOf (releaseRow heads k s q f w pinned) = pastOf s := by
  simp [releaseRow]

@[simp] theorem pastOf_countDeadline (s : State) : pastOf (countDeadline s) = pastOf s := by
  simp [countDeadline]

@[simp] theorem pastOf_settleRemote (s : State) (cut : Bool) (w : Row) : pastOf (settleRemote s cut w) = pastOf s := by
  unfold settleRemote
  split <;> simp

@[simp] theorem pastOf_settleRow (heads : List (Nat × Nat)) (k : Nat) (B : Nat) (cut : Bool) (late : List (Nat × Nat)) (s : State) (w : Row) :
    pastOf (settleRow heads k B cut late s w) = pastOf s := by
  unfold settleRow
  repeat' split
  all_goals simp

@[simp] theorem pastOf_setOwner (s : State) (o : Nat) : pastOf (setOwner s o) = pastOf s := by
  simp [setOwner]

@[simp] theorem pastOf_creditTenant (owner : Nat) (delta : Nat) (num : Nat) (den : Nat) (s : State) (t : Nat) :
    pastOf (creditTenant owner delta num den s t) = pastOf s := by
  simp [creditTenant]

@[simp] theorem pastOf_addStage (s : State) (x : Nat × Nat) : pastOf (addStage s x) = pastOf s := by
  simp [addStage]

@[simp] theorem pastOf_addAdapt (s : State) (x : Nat × Nat) : pastOf (addAdapt s x) = pastOf s := by
  simp [addAdapt]

@[simp] theorem pastOf_lodgeClaim (s : State) (i : Nat) (q : Req) (n : Nat) : pastOf (lodgeClaim s i q n) = pastOf s := by
  simp [lodgeClaim]

@[simp] theorem pastOf_keepMarks (s t : State) : pastOf (keepMarks s t) = pastOf s := by
  simp [keepMarks]

@[simp] theorem pastOf_ageTenant (work : List (Nat × Req)) (x : Form) (s : State) (t : Nat) : pastOf (ageTenant work x s t) = pastOf s :=
  foldl_unchanged (fun y : State × Nat => pastOf y.1) (fun _ _ => pastOf_modReq ..) _ (s, 0)

@[simp] theorem pastOf_resetAges (s : State) (owner : Nat) (work : List (Nat × Req)) : pastOf (resetAges s owner work) = pastOf s := by
  simp [resetAges]

@[simp] theorem pastOf_countAged (s : State) (rows : List Row) : pastOf (countAged s rows) = pastOf s := by
  simp [countAged]

@[simp] theorem pastOf_countGrants (s : State) (rows : List Row) : pastOf (countGrants s rows) = pastOf s := by
  simp [countGrants]

@[simp] theorem pastOf_dropBadOf (s : State) (i : Nat) : pastOf (dropBadOf s i) = pastOf s := by
  unfold dropBadOf
  split <;> simp

@[simp] theorem pastOf_dropBadRemote (s : State) (rid : Nat) : pastOf (dropBadRemote s rid) = pastOf s := by
  unfold dropBadRemote
  split <;> simp

@[simp] theorem pastOf_dropBad (s : State) : pastOf (dropBad s) = pastOf s := by
  simp [dropBad]

@[simp] theorem pastOf_restartLate (heads : List (Nat × Nat)) (k : Nat) (B : Nat) (rows : List Row) (s : State) (x : Nat × Nat) :
    pastOf (restartLate heads k B rows s x) = pastOf s := by
  unfold restartLate
  split <;> simp

@[simp] theorem pastOf_sealDeficits (s : State) : pastOf (sealDeficits s) = pastOf s := by
  simp [sealDeficits]

@[simp] theorem pastOf_endIssue (s : State) : pastOf (endIssue s) = pastOf s := by
  simp [endIssue]

@[simp] theorem pastOf_markLeaving (k : Nat) (s : State) : pastOf (markLeaving k s) = pastOf s := by
  simp [markLeaving]

@[simp] theorem pastOf_endAtBoundary (heads : List (Nat × Nat)) (k : Nat) (B : Nat) (restarted : List Nat) (s : State) (i : Nat) :
    pastOf (endAtBoundary heads k B restarted s i) = pastOf s := by
  unfold endAtBoundary
  repeat' split
  all_goals simp

@[simp] theorem pastOf_endRequests (heads : List (Nat × Nat)) (k : Nat) (B : Nat) (restarted : List Nat) (s : State) :
    pastOf (endRequests heads k B restarted s) = pastOf s := by
  simp [endRequests]

@[simp] theorem pastOf_applyPower (s : State) : pastOf (applyPower s) = pastOf s := by
  unfold applyPower
  split <;> simp

@[simp] theorem pastOf_mergeStuck (s : State) : pastOf (mergeStuck s) = pastOf s := by
  simp [mergeStuck]

@[simp] theorem pastOf_settleStuck (s : State) : pastOf (settleStuck s) = pastOf s := by
  simp [settleStuck]

@[simp] theorem pastOf_dropHalf (halves : List Nat) (s : State) (i : Nat) : pastOf (dropHalf halves s i) = pastOf s := by
  unfold dropHalf
  dsimp only
  repeat' split
  all_goals simp

@[simp] theorem pastOf_dropHalfRemote (halves : List Nat) (s : State) (rid : Nat) : pastOf (dropHalfRemote halves s rid) = pastOf s := by
  unfold dropHalfRemote
  dsimp only
  repeat' split
  all_goals simp

@[simp] theorem pastOf_dropHalves (halves : List Nat) (s : State) : pastOf (dropHalves halves s) = pastOf s := by
  simp [dropHalves]

@[simp] theorem pastOf_fenceBroken (s : State) : pastOf (fenceBroken s) = pastOf s := by
  simp [fenceBroken]

@[simp] theorem pastOf_prepareTile (ck : Nat) (s : State) (t : Nat) : pastOf (prepareTile ck s t) = pastOf s := by
  unfold prepareTile
  dsimp only
  repeat' split
  all_goals simp

@[simp] theorem pastOf_prepareTest (s : State) (ck : Nat) : pastOf (prepareTest s ck) = pastOf s := by
  simp [prepareTest]

@[simp] theorem pastOf_startTest (s0 : State) (ck : Nat) : pastOf (startTest s0 ck) = pastOf s0 := by
  simp [startTest]

@[simp] theorem pastOf_testSlot (s : State) : pastOf (testSlot s) = pastOf s := by
  simp [testSlot]

@[simp] theorem pastOf_announceRings (s : State) : pastOf (announceRings s) = pastOf s := by
  simp [announceRings]

@[simp] theorem pastOf_alignRemote (s : State) (r : Req) (done : Nat) : pastOf (alignRemote s r done).1 = pastOf s := by
  simp [alignRemote]

@[simp] theorem pastOf_pruneRemote (s : State) (rows : List SysRow) : pastOf (pruneRemote s rows) = pastOf s := by
  simp [pruneRemote]

@[simp] theorem pastOf_sendRows (s : State) : pastOf (sendRows s) = pastOf s := by
  unfold sendRows
  split <;> simp

@[simp] theorem pastOf_answerTests (s : State) (ck : Nat) (r : Nat) : pastOf (answerTests s ck r) = pastOf s := by
  simp [answerTests]

@[simp] theorem pastOf_answerUntested (s : State) : pastOf (answerUntested s) = pastOf s := by
  simp [answerUntested]

@[simp] theorem pastOf_endBoundary (s : State) : pastOf (endBoundary s) = pastOf s := by
  simp [endBoundary]

@[simp] theorem pastOf_dropNamed (s : State) (k : Step) : pastOf (dropNamed s k) = pastOf s := by
  simp [dropNamed]

/-! ### Pages -/

theorem pastOf_takeVictims {rid : Nat} {img : FormeImage} {draft below : Bool} {ks : List Nat} {fuel : Nat} {vs : List Nat} {s u : State}
    (hu : takeVictims rid img draft below ks fuel vs s = some u) : pastOf u = pastOf s := by
  induction fuel generalizing vs s with
  | zero => simp [takeVictims] at hu
  | succ n ih =>
    cases vs with
    | nil => simp [takeVictims] at hu
    | cons v vs =>
      rw [takeVictims] at hu
      split at hu
      · exact ih hu
      · dsimp only at hu
        split at hu
        next => simp at hu
        next r hr =>
          split at hu
          next x hx =>
            rw [← Option.some.inj hu]
            exact pastOf_dropLast s v
          next => exact (ih hu).trans (pastOf_dropLast s v)

theorem pastOf_takeSets {rid : Nat} {img : FormeImage} {draft : Bool} {need : Nat} {placed : List Nat} {fuel : Nat} {s u : State}
    (hu : takeSets rid img draft need placed fuel s = some u) : pastOf u = pastOf s := by
  induction fuel generalizing s with
  | zero => simp [takeSets] at hu
  | succ n ih =>
    rw [takeSets] at hu
    split at hu
    next => simp at hu
    next r hr =>
      dsimp only at hu
      split at hu
      · exact congrArg pastOf (Option.some.inj hu).symm
      · split at hu
        · simp at hu
        · split at hu
          next x hx => exact (ih hu).trans rfl
          next =>
            split at hu
            · split at hu
              next y hy => exact (ih hu).trans (pastOf_takeVictims hy)
              next => simp at hu
            · simp at hu

theorem withinCap_past {s u v : State} {t : Nat} (h : withinCap s t u = some v) : pastOf v = pastOf u := by
  unfold withinCap at h
  dsimp only at h
  split at h
  · cases h
  · exact congrArg pastOf (Option.some.inj h).symm

theorem pastOf_takePages {s u : State} {rid n : Nat} {drafting : Bool} {placed : List Nat}
    (hu : takePages s rid n drafting placed = some u) : pastOf u = pastOf s := by
  unfold takePages at hu
  split at hu
  next => simp at hu
  next r hr =>
    split at hu
    next => simp at hu
    next f hf =>
      split at hu
      next => simp at hu
      next v hv =>
        have hk := pastOf_takeSets hv
        split at hu
        · split at hu
          next d hd =>
            obtain ⟨w, hw, hc⟩ := Option.bind_eq_some_iff.mp hu
            exact (withinCap_past hc).trans ((pastOf_takeSets hw).trans hk)
          next => exact (withinCap_past hu).trans hk
        · exact (withinCap_past hu).trans hk

/-! ### Formation -/

theorem pastOf_tryRow (x : Form) (i : Nat) (charged web : Bool) : pastOf (tryRow x i charged web).1.s = pastOf x.s := by
  unfold tryRow
  split
  · dsimp only
    split
    · rfl
    · split
      next => simp
      next u hu =>
        have h1 := pastOf_takePages hu
        repeat' split
        all_goals simp [h1]
  · rfl

theorem pastOf_tryAll (charged web : Bool) (x : Form) (l : List (Nat × Req)) : pastOf (tryAll charged web x l).1.s = pastOf x.s := by
  induction l generalizing x with
  | nil => rfl
  | cons e r ih =>
    have h1 := pastOf_tryRow x e.1 charged web
    rw [tryAll]
    split
    next y hy =>
      rw [hy] at h1
      exact (ih y).trans h1
    next y hy => rwa [hy] at h1

@[simp] theorem pastOf_tryUnit (x : Form) (l : List (Nat × Req)) (charged web : Bool) : pastOf (tryUnit x l charged web).1.s = pastOf x.s := by
  have h1 := pastOf_tryAll charged web x l
  unfold tryUnit
  split
  next y hy => rwa [hy] at h1
  next y hy => simp

theorem pastOf_foldl_form {α : Type} {f : Form → α → Form} (hf : ∀ x a, pastOf (f x a).s = pastOf x.s) (l : List α) (x : Form) :
    pastOf (l.foldl f x).s = pastOf x.s := foldl_unchanged (fun y : Form => pastOf y.s) hf l x

@[simp] theorem pastOf_webPhase (work : List (Nat × Req)) (x : Form) : pastOf (webPhase work x).s = pastOf x.s :=
  pastOf_foldl_form (fun _ _ => pastOf_tryUnit ..) _ x

theorem pastOf_agedOne (work : List (Nat × Req)) (x : Form) (e : Nat × Req) : pastOf (agedOne work x e).s = pastOf x.s := by
  unfold agedOne
  dsimp only
  repeat' split
  all_goals simp

@[simp] theorem pastOf_agedPhase (work : List (Nat × Req)) (x : Form) : pastOf (agedPhase work x).s = pastOf x.s :=
  pastOf_foldl_form (fun _ e => pastOf_agedOne work _ e) _ x

theorem pastOf_creditedVisit (work : List (Nat × Req)) (x : Form × Bool) (t : Nat) : pastOf (creditedVisit work x t).1.s = pastOf x.1.s := by
  unfold creditedVisit
  dsimp only
  repeat' split
  all_goals simp

theorem pastOf_excessVisit (work : List (Nat × Req)) (x : Form × Bool) (t : Nat) : pastOf (excessVisit work x t).1.s = pastOf x.1.s := by
  unfold excessVisit
  dsimp only
  repeat' split
  all_goals simp

theorem pastOf_rounds {visit : Form × Bool → Nat → Form × Bool} (hv : ∀ x t, pastOf (visit x t).1.s = pastOf x.1.s)
    (order : State → List Nat) (fuel : Nat) (x : Form) : pastOf (rounds visit order fuel x).s = pastOf x.s := by
  induction fuel generalizing x with
  | zero => rfl
  | succ n ih =>
    have h1 : pastOf ((order x.s).foldl visit (x, false)).1.s = pastOf x.s := foldl_unchanged (fun y : Form × Bool => pastOf y.1.s) hv (order x.s) (x, false)
    rw [rounds]
    split
    · exact (ih _).trans h1
    · exact h1

@[simp] theorem pastOf_meetClaims (l : List (Nat × Nat)) (s : State) : pastOf (meetClaims s l) = pastOf s := by
  induction l generalizing s with
  | nil => rfl
  | cons c r ih =>
    rw [meetClaims]
    split
    next => exact ih s
    next q hq =>
      split
      · exact ih s
      · split
        next u hu => exact (ih _).trans ((pastOf_setKv _ _).trans (pastOf_takePages hu))
        next => exact (ih _).trans (pastOf_setKv _ _)

/-- The credit of the first formation takes the present moment as the last boundary. -/
theorem pastOf_creditAll {s : State} (owner : Nat) (h : s.sched.lastB = now s) : pastOf (creditAll s owner) = pastOf s := by
  have hcredit : ∀ (d n m : Nat) (l : List Nat), pastOf (l.foldl (creditTenant owner d n m) s) = pastOf s := fun d n m l =>
    foldl_unchanged pastOf (fun x t => pastOf_creditTenant ..) l s
  unfold creditAll
  dsimp only
  split
  · exact hcredit ..
  · generalize hx : (s.tenants.map (fun (e : Nat × Tenant) => e.1)).foldl (creditTenant owner
      (if (s.sched.formed && s.sched.credited != some s.sched.nextStep) = true then s.sched.lastB - s.sched.prevB else 0) s.sched.lambdaNum s.sched.lambdaDen) s = x
    have hp : pastOf x = pastOf s := by
      rw [← hx]
      exact hcredit ..
    have hlast : x.sched.lastB = now s := (congrArg Past.lastB hp : _).trans h
    rw [← hp]
    unfold pastOf setSched
    rw [hlast]

theorem pastOf_formStep {s : State} (owner : Nat) (h : s.sched.lastB = now s) : pastOf (formStep s owner) = pastOf s := by
  unfold formStep
  extract_lets s0 s1 work x0 x2 x3 x4 s4 g s5 sys rs step s6
  have hset : pastOf (setOwner s owner) = pastOf s := pastOf_setOwner s owner
  have h0 : pastOf s0 = pastOf s := (pastOf_creditAll (s := setOwner s owner) owner
    (((congrArg Past.lastB hset : _).trans h).trans (congrArg Past.base hset.symm : _))).trans hset
  have h1 : pastOf s1 = pastOf s := (pastOf_meetClaims ..).trans ((pastOf_setKv ..).trans h0)
  have h2 : pastOf x2.s = pastOf s := (pastOf_agedPhase ..).trans ((pastOf_webPhase ..).trans h1)
  have h3 : pastOf x3.s = pastOf s := (pastOf_rounds (pastOf_creditedVisit work) _ _ _).trans h2
  have h4 : pastOf x4.s = pastOf s := (pastOf_rounds (pastOf_excessVisit work) _ _ _).trans h3
  have h5 : pastOf s4 = pastOf s := by simp [s4, h4]
  split
  · simpa using h4
  · simp [s6, s5, h5]

/-! ### Settling the step -/

theorem noteSealed_writes (s : State) (k : Step) (ids : List (Nat × Nat)) (B limited : Nat) :
    pastOf (noteSealed s k ids B limited) = ⟨(pastOf s).base, k.number, B, ((k.number, B, ids) :: (pastOf s).history).take 64⟩ := rfl

/-- Settling a step notes it as sealed. -/
theorem pastOf_settleStep (inp : TickInput) (k : Step) (B : Nat) (s : State) :
    ∃ ids, pastOf (settleStep inp k B s) = ⟨(pastOf s).base, k.number, B, ((k.number, B, ids) :: (pastOf s).history).take 64⟩ := by
  unfold settleStep
  extract_lets heads ids faults late s1 s2 s3 s3' s4 s5
  have h4 : pastOf s4 = pastOf s := by simp [s4, s3', s3, s2, s1]
  have h5 : pastOf s5 = pastOf s := by
    simp only [s5, pastOf_endIssue, pastOf_sealDeficits]
    exact h4
  refine ⟨ids, (noteSealed_writes ..).trans ?_⟩
  rw [pastOf_setKv, pastOf_setFaults, h5]

/-! ### Monitors and maps -/

@[simp] theorem pastOf_startMonitors (s : State) (r : Refill) : pastOf (startMonitors s r) = pastOf s := by
  unfold startMonitors
  split
  · rfl
  · refine foldl_unchanged pastOf (fun x ck => ?_) _ s
    split <;> simp

@[simp] theorem pastOf_mapBoundary (s : State) : pastOf (mapBoundary s) = pastOf s := by
  unfold mapBoundary
  extract_lets s1 done s2 s3 gone s4 s5
  have h3 : pastOf s3 = pastOf s :=
    (foldl_unchanged pastOf (fun x r => (pastOf_startMonitors ..).trans (pastOf_closeLate ..)) _ _).trans (by simp [s2, s1])
  have h4 : pastOf s4 = pastOf s := by
    simp only [s4]
    split <;> simp [h3]
  have h5 : pastOf s5 = pastOf s := by
    simp only [s5]
    split <;> simp [h4]
  split
  · simp [s2, s1]
  · simp [h5]

@[simp] theorem pastOf_planesChanged (s : State) (ps : List Nat) : pastOf (planesChanged s ps) = pastOf s := by
  unfold planesChanged
  refine (foldl_unchanged pastOf (fun x ck => ?_) _ _).trans ?_
  · dsimp only
    split
    · split <;> simp
    · simp
  · rw [pastOf_mapCores]
    simp

@[simp] theorem pastOf_applyFlip (heads : List (Nat × Nat)) (n : Nat) (fresh : List Nat) (s : State) (x : Txn) :
    pastOf (applyFlip heads n fresh s x) = pastOf s := by
  unfold applyFlip
  simp

@[simp] theorem pastOf_applyTransactions (heads : List (Nat × Nat)) (n B : Nat) (s : State) :
    pastOf (applyTransactions heads n B s).1 = pastOf s := by
  unfold applyTransactions
  dsimp only
  refine (foldl_unchanged pastOf (fun y o => ?_) _ _).trans ?_
  · split <;> simp
  · split
    · rw [pastOf_releaseHeld, pastOf_putTxn, pastOf_setPlates, pastOf_applyFlip]
      repeat' split
      all_goals simp
    · repeat' split
      all_goals simp

@[simp] theorem pastOf_washBoundary (s : State) (ran : Option (List Nat)) (forced : Bool) (next : Option Nat) :
    pastOf (washBoundary s ran forced next) = pastOf s := by
  unfold washBoundary
  dsimp only
  split <;> simp

/-! ### Rows of other modules -/

theorem pastOf_remoteSets (img : FormeImage) (draft : Bool) (need fuel : Nat) (s : State) (r : Req) :
    pastOf (remoteSets img draft need fuel s r).1 = pastOf s := by
  induction fuel generalizing s r with
  | zero => rfl
  | succ n ih =>
    rw [remoteSets]
    split
    · rfl
    · split
      next => rfl
      next x hx => exact (ih _ _).trans rfl

@[simp] theorem pastOf_holdRemote (s : State) (x : SysRow) : pastOf (holdRemote s x) = pastOf s := by
  unfold holdRemote
  split
  · rfl
  next f hf =>
    extract_lets al s1 r0 a b
    have ha : pastOf a.1 = pastOf s := (pastOf_remoteSets ..).trans (by simp [s1, al])
    have hb : pastOf b.1 = pastOf s := by
      simp only [b]
      repeat' split
      · exact ha
      · exact (pastOf_remoteSets ..).trans ha
      · exact ha
    exact hb

theorem pastOf_formSystem {s : State} (h : s.sched.lastB = now s) : pastOf (formSystem s) = pastOf s := by
  unfold formSystem
  split
  · rfl
  · extract_lets xs ql s0 s1 g rows rs n step s2
    have h0 : pastOf s0 = pastOf s := by simp [s0]
    have hlast : s0.sched.lastB = now s0 := ((congrArg Past.lastB h0 : _).trans h).trans (congrArg Past.base h0.symm : _)
    split
    · exact h0
    · have h1 : pastOf s1 = pastOf s := (foldl_unchanged pastOf pastOf_holdRemote _ _).trans (by
        split
        · exact (pastOf_creditAll _ hlast).trans h0
        · exact h0)
      simp [s2, h1]

theorem pastOf_goOn {s : State} (ran : Option (List Nat)) (forced : Bool) (h : s.sched.lastB = now s) : pastOf (goOn s ran forced) = pastOf s := by
  unfold goOn
  extract_lets next s1 s2 ql
  clear_value next
  have h1 : pastOf s1 = pastOf s := by simp [s1]
  have hat : ∀ u : State, pastOf u = pastOf s → u.sched.lastB = now u := fun u hu =>
    ((congrArg Past.lastB hu : _).trans h).trans (congrArg Past.base hu.symm : _)
  have h2 : pastOf s2 = pastOf s := by
    clear_value s1
    simp only [s2]
    cases next with
    | none => exact h1
    | some o =>
      dsimp only
      split
      · have hload : pastOf (reloadOverlays s1 o) = pastOf s := (pastOf_reloadOverlays ..).trans h1
        rw [pastOf_sendRows, pastOf_formStep o (hat _ hload)]
        exact hload
      · simp [h1]
  exact (pastOf_formSystem (s := { s2 with ql := { s2.ql with nextOwner := none } }) (hat _ h2)).trans h2

@[simp] theorem pastOf_takeUp (s : State) : pastOf (takeUp s) = pastOf s := by
  simp [takeUp]

/-- What a boundary leaves of the past. -/
theorem pastOf_takeBoundary (inp : TickInput) (k : Step) (s : State) :
    ∃ ids, pastOf (takeBoundary inp k s) = ⟨now s, k.number, now s, ((k.number, now s, ids) :: (pastOf s).history).take 64⟩ := by
  obtain ⟨ids, h1⟩ := pastOf_settleStep inp k (now s) (markLeaving k.number s)
  have h0 : pastOf (markLeaving k.number s) = pastOf s := by simp
  rw [h0] at h1
  refine ⟨ids, ?_⟩
  unfold takeBoundary
  dsimp only
  rw [pastOf_endBoundary]
  have hgo : ∀ (z : State) (ran : Option (List Nat)) (forced : Bool),
      pastOf z = ⟨now s, k.number, now s, ((k.number, now s, ids) :: (pastOf s).history).take 64⟩ →
      pastOf (goOn z ran forced) = ⟨now s, k.number, now s, ((k.number, now s, ids) :: (pastOf s).history).take 64⟩ :=
    fun z ran forced hz => by
      have hlast : z.sched.lastB = now s := (congrArg Past.lastB hz : _)
      have hnow : now z = now s := (congrArg Past.base hz : _)
      exact (pastOf_goOn ran forced (hlast.trans hnow.symm)).trans hz
  refine hgo _ _ _ ((pastOf_takeUp _).trans ((pastOf_flushRecs ..).trans ((pastOf_applyTransactions ..).trans ((pastOf_applyPower _).trans ?_))))
  exact (pastOf_setSched _ _ (fun _ => ⟨rfl, rfl, rfl⟩)).trans ((pastOf_endRequests ..).trans h1)


end Sys2Proof.Proofs
/-! # The end of a step: sealing, settling and the boundary (O42) -/
namespace Sys2Proof.Proofs

open Sys2Proof.Machine Sys2Proof.Safety Sys2Proof.Laws

theorem sendMsix_sched (s : State) (fn v : Nat) : (sendMsix s fn v).sched = s.sched := by
  unfold sendMsix
  dsimp only
  repeat' split
  all_goals rfl

theorem endBoundary_ringFns (s : State) : (endBoundary s).sched.ringFns = [] :=
  congrArg SchedBlk.ringFns (foldl_unchanged State.sched (fun x f => sendMsix_sched x f _) _ _)

theorem takeBoundary_ringFns (inp : TickInput) (k : Step) (s : State) : (takeBoundary inp k s).sched.ringFns = [] := endBoundary_ringFns _

theorem stepBoundaryOp_waits {inp : TickInput} {s : State} {k : Step} (hk : s.sched.step = some k)
    (h : inService s = false ∨ boundaryReady s k = false) : stepBoundaryOp inp s = s := by
  unfold stepBoundaryOp
  rw [hk]
  rcases h with h | h <;> simp [h]

theorem stepBoundaryOp_takes {inp : TickInput} {s : State} {k : Step} (hk : s.sched.step = some k) (hi : inService s = true)
    (h : boundaryReady s k = true) : stepBoundaryOp inp s = takeBoundary inp k (dropNamed s k) := by
  unfold stepBoundaryOp
  rw [hk]
  simp [hi, h]

/-- The boundary of a step that is settled. -/
theorem stepBoundaryOp_spec {inp : TickInput} {s : State} {k : Step} (hk : s.sched.step = some k) (hi : inService s = true)
    (h : boundaryReady s k = true) :
    ∃ ids, pastOf (stepBoundaryOp inp s) = ⟨now s, k.number, now s, ((k.number, now s, ids) :: s.sched.history).take 64⟩
      ∧ (stepBoundaryOp inp s).sched.ringFns = [] := by
  obtain ⟨ids, hpast⟩ := pastOf_takeBoundary inp k (dropNamed s k)
  rw [pastOf_dropNamed] at hpast
  have hnow : now (dropNamed s k) = now s := congrArg Past.base (pastOf_dropNamed s k)
  rw [hnow] at hpast
  rw [stepBoundaryOp_takes hk hi h]
  exact ⟨ids, hpast, takeBoundary_ringFns ..⟩

/-- The seal of a step of this module alone. -/
theorem stepSealOp_spec {s : State} {k : Step} (hk : s.sched.step = some k) (hs : k.sealing = true) (hn : k.settled = false)
    (hd : k.cut = true ∨ s.faults.dual = []) (hy : k.system = false) :
    ∃ v, (stepSealOp s).sched.step = some v ∧ v = { k with rows := v.rows, settled := true }
      ∧ v.rows.map (fun w => (w.rid, w.slot, w.n, w.final)) = k.rows.map (fun w => (w.rid, w.slot, w.n, w.final))
      ∧ (k.cut = true → v.rows = k.rows)
      ∧ (k.cut = false → ∀ w ∈ v.rows, w.withheld = false →
          w.nan = false ∧ ∀ c ∈ k.summaries, ∀ x ∈ c.failed, x.2 ≠ some w.rid)
      ∧ stepSealOp s = { s with sched := { s.sched with step := (stepSealOp s).sched.step }, free := (stepSealOp s).free } := by
  have hframe := sealedRows_frame s k
  have hrows : k.cut = false → (sealedRows s k).2 = (sealRows k s k.rows).2 := fun hc => by simp [sealedRows, hc]
  have hcut : k.cut = true → (sealedRows s k).2 = k.rows := fun hc => by simp [sealedRows, hc]
  obtain ⟨_, hsame, hheld⟩ := sealRows_spec k k.rows s
  rw [stepSealOp_seals hk hs hn hd hy]
  generalize sealedRows s k = x at *
  obtain ⟨x, rows⟩ := x
  dsimp only at *
  refine ⟨{ k with rows := rows, settled := true }, ?_, rfl, ?_, hcut, fun hc => hrows hc ▸ hheld, ?_⟩
  · rw [hframe]
    exact congrArg (Option.map _) hk
  · cases hc : k.cut with
    | false => rw [hrows hc, hsame]
    | true => rw [hcut hc]
  · rw [hframe]
    rfl

theorem exec_checkSummary {rk : Nat} (hr : rk < nRegions) (gap : Bool) (t : Nat) (s : State) :
    exec (.checkSummary rk gap t) s = .next (checkSummaryOp (advance t s) rk gap) := if_pos hr

/-- The summary of a region that the step waits for. -/
theorem checkSummaryOp_spec {s : State} {rk : Nat} {k : Step} (gap : Bool) (hk : s.sched.step = some k) (hw : rk ∈ k.waiting) (hc : k.cut = false) :
    let u := checkSummaryOp s rk gap
    ∃ v, u.sched.step = some v ∧ v.number = k.number ∧ v.rows = k.rows
      ∧ v.waiting = k.waiting.filter (· != rk) ∧ v.sealing = (k.sealing || k.waiting.all (· == rk))
      ∧ (∀ ck, coreRegion ck = rk → (coreOf u ck).summary = {}) ∧ (regionOf u rk).parks = []
      ∧ (gap = true → unitOfRegion rk ∈ v.alarmed ∧ ∀ ck, coreRegion ck = rk → (coreOf u ck).testOverdue = true)
      ∧ (∀ ck, coreRegion ck ≠ rk → coreOf u ck = { coreOf s ck with parked := (coreOf u ck).parked })
      ∧ (∀ j, j ≠ rk → regionOf u j = regionOf s j)
      ∧ u = { s with cores := u.cores, regions := u.regions, faults := u.faults, sched := { s.sched with step := u.sched.step } } := by
  have hkept := summaryKept_summariesTaken rk gap s
  have hseen := hkept.step
  rw [hk] at hseen
  obtain ⟨x, hx, hxk⟩ := Option.map_eq_some_iff.mp hseen
  simp only [stepSeen, Prod.mk.injEq] at hxk
  obtain ⟨hnumber, hrows, hwaiting, hsealing⟩ := hxk
  have hsum : ∀ ck, coreRegion ck = rk → (coreOf (summariesTaken rk gap s) ck).summary = {} := fun ck h => summary_summariesTaken h gap s
  have hparks := parks_summariesTaken rk gap s
  have hgap : gap = true → unitOfRegion rk ∈ x.alarmed ∧ ∀ j, coreRegion j = rk → (coreOf (summariesTaken rk gap s) j).testOverdue = true := by
    rintro rfl
    exact gap_summariesTaken rk hx
  rw [checkSummaryOp_taken gap hk hw hc]
  generalize summariesTaken rk gap s = w at *
  refine ⟨regionAnswered rk (now s) (k.waiting.all (· == rk)) x, congrArg (Option.map _) hx, hnumber, hrows,
    congrArg (List.filter _) hwaiting, congrArg (· || _) hsealing, hsum, hparks, hgap, hkept.cores, hkept.regions, ?_⟩
  exact congrArg (fun z : State => modStep z (regionAnswered rk (now s) (k.waiting.all (· == rk)))) (eq_of_besidesSummary hkept.rest)

/-- Settles O42: a check summary takes the events of its region and nothing else; sealing settles the rows; a boundary writes the past, which the
formation of the next step and all that it starts leave as it is. -/
theorem stepsSealAndEnd : Obligations.StepsSealAndEnd := by
  unfold Obligations.StepsSealAndEnd
  intro rk t inp k s hk s1
  have hk1 : s1.sched.step = some k := hk
  refine ⟨fun gap hr hw hc => ?_, fun gap hr h => ?_, fun h => ?_, fun hs hn hd hy => ?_, fun h => ?_, fun hi hb => ?_⟩
  · obtain ⟨v, h⟩ := checkSummaryOp_spec gap hk1 hw hc
    exact ⟨_, v, exec_checkSummary hr gap t s, h⟩
  · exact (exec_checkSummary hr gap t s).trans (next_congr (checkSummaryOp_notWaited gap hk1 h))
  · exact next_congr (stepSealOp_waits hk1 h)
  · obtain ⟨v, h⟩ := stepSealOp_spec hk1 hs hn hd hy
    exact ⟨_, v, rfl, h⟩
  · exact next_congr (stepBoundaryOp_waits hk1 h)
  · obtain ⟨ids, hpast, hring⟩ := stepBoundaryOp_spec (inp := inp) hk1 hi hb
    simp only [pastOf, Past.mk.injEq] at hpast
    obtain ⟨_, hsealed, hlast, hhistory⟩ := hpast
    exact ⟨_, ids, rfl, hsealed, hlast, hhistory, hring⟩

end Sys2Proof.Proofs
